-- ==== Sys2Proof/Word.lean ====
section
/-!
DEFINITION. The word types of the block: bytes, 16-bit Kreur cells, 32-bit registers (R7, R306), byte
strings and the sparse map that holds every keyed piece of state.
-/
namespace Sys2Proof

/-- One byte. -/
abbrev Byte := BitVec 8
/-- One Kreur cell (R306). -/
abbrev Cell := BitVec 16
/-- One register (R7). -/
abbrev Word := BitVec 32
/-- A 64-bit quantity (counters, sequence numbers, prefix table nodes). -/
abbrev Quad := BitVec 64
/-- A string of bytes, first byte first. -/
abbrev Bytes := List Byte

/-- A sparse map from natural numbers, as sorted data: keys strictly rise, and no entry equals the value an
unlisted key reads as (a function of the key, given to each operation). -/
abbrev SMap (α : Type) := List (Nat × α)

end Sys2Proof
end

