-- ==== Sys2Proof/Machine/Parts.lean ====
section
/-!
DEFINITION. The parts the state is built from, as plain data.
-/
namespace Sys2Proof.Machine

/-- The three variants (R1, R2). -/
inductive Variant where
  | a880 | a860 | a840
  deriving DecidableEq, Repr

/-- What is fused or written once in OTP (R55, R182, R423, R425). -/
structure Fuses where
  /-- The variant. -/
  variant : Variant
  /-- TOP_DEVID, 16 bytes. -/
  devid : Bytes
  /-- Die stepping. -/
  step : Byte
  /-- Management port station address, 6 bytes. -/
  mgtMac : Bytes
  /-- The device's unique secret, 32 bytes. -/
  uds : Bytes
  /-- The device identity certificate (R93). -/
  cert : Bytes
  /-- Token digests of R425. -/
  tokens : List Bytes
  /-- Life-cycle slots in the order written (R423). -/
  slots : List Word
  deriving DecidableEq, Repr

/-- An armed error injection (R48). -/
inductive Inject where
  | corr | uncorr | parity
  deriving DecidableEq, Repr

/-- A repair of an SRAM macro (R34): the bank and the row or column that spare ones replace. -/
structure Repair where
  bank : Nat
  line : Nat
  deriving DecidableEq, Repr

/-- What a page holds beside its registers. -/
structure PageAux where
  /-- CTRL.DRAIN_TO as latched at the last entry to DRAINING, and the tick of that entry (R50). -/
  drainTo : Nat
  drainAt : Nat
  /-- The armed injection (R48). -/
  inject : Option Inject
  /-- The spare position whose site is in its admission check for this page (R17). -/
  admitted : Option Nat
  /-- Failed oscillator sites, and sites the cruise releases, that wait for a spare (R293, R301); source page alone. -/
  waiting : List Nat
  /-- The cruise tests the site behind the page (R31). -/
  cruise : Bool
  /-- Repairs that wait for the block's next idle point, and those applied to the macros of the page's site (R34). -/
  repairs : List Repair
  applied : List Repair
  deriving DecidableEq, Repr

/-- The balls the block drives or reads (R484). -/
structure Balls where
  ready : Bool
  /-- FAULT_N asserted. -/
  fault : Bool
  /-- FENCE_N asserted by the board. -/
  fence : Bool
  pwrHold : Bool
  pairRoleHigh : Bool
  /-- PAIR_HB_OUT toggling. -/
  hbOut : Bool
  /-- PAIR_HB_IN present. -/
  hbIn : Bool
  gpio : Byte
  /-- The instruction register of the JTAG port (R433). -/
  tapIr : Byte
  /-- The byte the last I2C read returned. -/
  i2cOut : Byte
  deriving DecidableEq, Repr

/-- Device time (R437), the 1 us tick (R35), the RTC (R421) in microseconds, and the tick at which the watchdog last
restarted (R467). -/
structure Times where
  ns : Nat
  tick : Nat
  rtcUs : Nat
  wdt : Nat
  deriving DecidableEq, Repr

/-- One event record (R438). -/
structure EvRec where
  seq : Nat
  time : Nat
  code : Nat
  source : Nat
  p0 : Word
  p1 : Word
  p2 : Word
  p3 : Word
  deriving DecidableEq, Repr

/-- One entry of the histogram table (R444). -/
structure EvHist where
  code : Nat
  source : Nat
  maxP0 : Word
  first : Nat
  last : Nat
  bins : List Nat
  deriving DecidableEq, Repr

/-- The event recorder (R438 to R444). -/
structure Recorder where
  /-- Records retained, newest first. -/
  recs : List EvRec
  /-- Histogram entries in the order their codes first occurred. -/
  hist : List EvHist
  /-- SEQ of the next record. -/
  next : Nat
  /-- Records queued, oldest first. -/
  queue : List EvRec
  /-- Records lost since the previous LOST record. -/
  lostSince : Nat
  /-- Events missed since FREEZE was set. -/
  missedSince : Nat
  /-- Device time at which FREEZE was set. -/
  frozenAt : Nat
  /-- A record has been overwritten since the last clear. -/
  overwrote : Bool
  deriving DecidableEq, Repr

/-- Where a held work item is (R340). -/
inductive Place where
  | ready
  | prefetch (core : Nat)
  | running (core : Nat)
  | suspended
  deriving DecidableEq, Repr

/-- The addresses a response goes to (R62, R85). -/
structure Addr where
  mac : Bytes
  /-- IP address and UDP port in UDP mode. -/
  ip : Option (Bytes × Nat)
  deriving DecidableEq, Repr

/-- Which part of the frame buffer holds a frame (R64). -/
inductive Pool where
  | shared | control | runout | management
  deriving DecidableEq, Repr

/-- A work item (R320, R340, R89). -/
structure Item where
  /-- Admission stamp; also the item's name in the model. -/
  stamp : Nat
  /-- Region that holds it. -/
  region : Nat
  /-- Region of its ingress port. -/
  ingress : Nat
  entry : Cell
  tenant : Nat
  session : Nat
  tag : Word
  cmd : Nat
  fixed : Bool
  level : Nat
  /-- PORT: 0 to 127, 0x80 the management port, 0xFF none. -/
  port : Nat
  ctxId : Word
  fbOff : Nat
  payLen : Nat
  deadline : Nat
  args : Bytes
  seq : Nat
  cls : Nat
  tmo : Nat
  /-- The 40-byte header as received. -/
  header : Bytes
  /-- The payload: ciphertext until `verified`, plaintext after. -/
  payload : Bytes
  /-- The GCM tag as received. -/
  gtag : Bytes
  verified : Bool
  place : Place
  /-- Source addresses of the frame. -/
  source : Addr
  /-- VLAN tag of the frame (R62). -/
  vlan : Option Nat
  pool : Pool
  /-- Bytes it holds in its pool; 0 once dispatched. -/
  held : Nat
  /-- Submission ring index for control complex work (R355). -/
  sqIndex : Option Nat
  /-- The status it ended with before its tag was verified (R493). -/
  early : Option Nat
  /-- Tagged under R447, with the stamps ingress, dispatch, engine start and engine end. -/
  stamps : Option (Nat × Option Nat × Option Nat × Option Nat)
  /-- The duplicate-tag window of its session, once its tag has verified (R99, R107). -/
  window : Option Nat
  /-- Its session admitted no new work when it was admitted (R98). -/
  late : Bool
  deriving DecidableEq, Repr

/-- A response queued for transmit (R58, R62, R107). -/
structure Resp where
  tenant : Nat
  session : Nat
  cmd : Nat
  status : Nat
  tag : Word
  /-- The device's sequence number on it. -/
  seq : Nat
  /-- Host table entry of the requesting host, if any. -/
  host : Option Nat
  /-- Its class (R63). -/
  cls : Nat
  /-- Payload before sealing. -/
  payload : Bytes
  /-- The frame as it goes on the wire, without FCS. -/
  frame : Bytes
  deriving DecidableEq, Repr

/-- What a port holds beside its registers (R58 to R70). -/
structure PortSt where
  /-- Responses queued for transmit, oldest first. -/
  tx : List Resp
  /-- The head of `tx` is in transmission. -/
  sending : Bool
  /-- Link frames sent, or waiting ahead of the responses, since the last response was sent: ARP and Neighbour
  answers, PAUSE and PFC. -/
  link : List Bytes
  /-- Bytes held in the shared pool. -/
  shared : Nat
  /-- Bytes held in the class-7 reserve. -/
  control : Nat
  /-- Bytes held in the run-out reserve. -/
  runout : Nat
  /-- Classes held back by received PAUSE or PFC. -/
  paused : Byte
  deriving DecidableEq, Repr

/-- A job of a region's egress seal queue (R230): the item answered, the status and payload of its response, the device's
sequence number on it, the session's host, and the frame body as the seal makes it. -/
structure SealJob where
  item : Item
  status : Nat
  payload : Bytes
  seq : Nat
  host : Option Nat
  body : Bytes
  deriving DecidableEq, Repr

/-- A brake operation that has not yet reached every port (R73). -/
structure BrakeOp where
  filter : Nat
  set : Bool
  item : Item
  deriving DecidableEq, Repr

/-- A host table entry (R76, R82). -/
structure HostEntry where
  tenant : Nat
  key : Addr
  port : Nat
  isStatic : Bool
  valid : Bool
  /-- Device tick of the last frame. -/
  lastFrame : Nat
  /-- Device tick of the last move. -/
  lastMove : Option Nat
  deriving DecidableEq, Repr

/-- The management PHY operation in progress (R88). -/
structure MdioOp where
  write : Bool
  phy : Nat
  regad : Nat
  data : Nat
  deriving DecidableEq, Repr

/-- The stage of a session (R93, R99). -/
inductive Stage where
  | hello | opened | closing
  deriving DecidableEq, Repr

/-- A session (R93 to R99). -/
structure Session where
  tenant : Nat
  /-- Opened on the management port. -/
  mgmt : Bool
  stage : Stage
  /-- Key cache slots of the host-to-device and device-to-host keys (R94). -/
  slotIn : Nat
  slotOut : Nat
  saltIn : Bytes
  saltOut : Bytes
  /-- Highest host sequence number accepted. -/
  highest : Nat
  /-- Numbers accepted among the 1,024 below `highest` (R96). -/
  accepted : List Nat
  /-- Next device sequence number. -/
  devSeq : Nat
  /-- T' of R93. -/
  transcript : Bytes
  cred : Word
  window : Nat
  successor : Option Nat
  predecessor : Option Nat
  /-- Tick of its first verified frame (R99). -/
  seen : Option Nat
  host : Option Nat
  /-- The SESSION_CLOSE that has committed and is not yet answered. -/
  closeItem : Option Item
  deriving DecidableEq, Repr

/-- An entry of a duplicate-tag window (R107); no status while the command runs. -/
structure DupEntry where
  tag : Word
  cmd : Nat
  status : Option Nat
  result : Bytes
  deriving DecidableEq, Repr

/-- A completion slot of a core (R306, R328). -/
inductive Slot where
  | free
  | pending
  | done (word : Bytes)
  deriving DecidableEq, Repr

/-- What a core waits for (R326, R332). -/
inductive Waiting where
  | slot (s : Nat)
  | done (addr len status : Nat)
  deriving DecidableEq, Repr

/-- A Kreur core (R306, R319, R335). -/
structure Core where
  run : Option Nat
  prefetch : Option Nat
  /-- Data stack, top first. -/
  ds : List Cell
  /-- Return stack with link bits, top first. -/
  rs : List (Cell × Bool)
  pc : Cell
  /-- P7 to P0; bit 0 is 1. -/
  preds : Byte
  c : Bool
  v : Bool
  dz : Bool
  trapV : Bool
  trapDz : Bool
  /-- The eight completion slots. -/
  slots : List Slot
  /-- Boom words reserved, 8 bytes each. -/
  words : List Bytes
  /-- Local data. -/
  mem : SMap Byte
  /-- Context working copy, 256 bytes, and whether it has been written. -/
  ctx : Bytes
  ctxDirty : Bool
  /-- Work item window bytes 32 to 63. -/
  args : Bytes
  cycles : Nat
  tickHi : Cell
  wait : Option Waiting
  /-- CCLK cycles spent running tasks (KCR_BUSY). -/
  busy : Nat
  /-- A delete of the task's own context, taken at its commit (R345). -/
  dropCtx : Bool
  deriving DecidableEq, Repr

/-- The saved state of a suspended task (R333). -/
structure Saved where
  item : Nat
  ds : List Cell
  pc : Cell
  preds : Byte
  c : Bool
  v : Bool
  dz : Bool
  trapV : Bool
  trapDz : Bool
  args : Bytes
  cycles : Nat
  /-- Asleep until its wake timer fires; else on its ready list. -/
  asleep : Bool
  deriving DecidableEq, Repr

/-- What a delay-list timer does (R348, R349). -/
inductive TimerKind where
  | submit (level : Nat) (entry : Cell) (ctxId : Word) (arg : Bytes) (tenant : Nat)
  | expire (ctxId : Word)
  | heartbeat (tenant : Nat)
  | wake (item : Nat)
  deriving DecidableEq, Repr

/-- A delay-list timer: its expiry tick and what it does. -/
structure Timer where
  id : Nat
  due : Nat
  kind : TimerKind
  deriving DecidableEq, Repr

/-- A context (R350 to R354); `body` is bytes 8 to 255. -/
structure Ctx where
  /-- STATE is valid; a free context keeps its GEN. -/
  valid : Bool
  typ : Nat
  lock : Bool
  exp : Bool
  tenant : Nat
  gen : Word
  body : Bytes
  /-- To be wiped when its lock clears (R354, R345). -/
  wipe : Bool
  /-- Cores and slots whose delete waits for that (R345). -/
  waiters : List (Nat × Nat)
  /-- The handle of the key it is bound to; 0 for none (R120, R154). -/
  bound : Word
  deriving DecidableEq, Repr

/-- A submission ring entry accepted and not completed (R355). -/
structure RingEntry where
  index : Nat
  tag : Word
  deriving DecidableEq, Repr

/-- The three kinds of unit that take jobs from a queue (R230, R234, R248). -/
inductive UnitKind where
  | cipher | hash | engine
  deriving DecidableEq, Repr

/-- An entry of an engine job's operand list (R246). -/
structure OpEntry where
  addr : Nat
  len : Nat
  slot : Nat
  dir : Nat
  zero : Bool
  deriving DecidableEq, Repr

/-- A job sent to a lane or engine (R219, R249): who sent it, from which program segment, and its
descriptor. -/
structure Job where
  unit : UnitKind
  core : Nat
  slot : Nat
  item : Nat
  tenant : Nat
  seg : Nat
  desc : Bytes
  /-- The handle of the descriptor as resolved at binding, and the key bytes held by the lane. -/
  key : Option Bytes
  /-- The algorithm and parent generation of that key. -/
  alg : Nat
  parentGen : Nat
  /-- Sent while the reservation held words (R331). -/
  resv : Bool
  /-- Boom words drawn for the job. -/
  words : List Bytes
  /-- The time at which it was bound to its lane or engine (R230, R240). -/
  bound : Nat := 0
  /-- An engine counts it as long while it holds it (R248). -/
  long : Bool := false
  /-- The mode of use and the public exponent of its key (R258, R263). -/
  mode : Nat := 0
  exponent : Nat := 0
  /-- The operand list of an engine job, and the I/O slots of operand memory that ODM loaded from it (R242, R246, R247);
  every other slot is zero. -/
  ops : List OpEntry := []
  slots : List (Nat × Bytes) := []
  deriving DecidableEq, Repr

/-- What a lane or engine holds (R230, R227). -/
structure LaneSt where
  cur : Option Job
  pre : Option Job
  /-- Discarded jobs whose output is still to be zeroised, with the status to post, if any. -/
  discard : List (Job × Option Nat)
  /-- The egress seal job it works on (R230). -/
  sealing : Option SealJob
  deriving DecidableEq, Repr

/-- A tenant slice (R361 to R365, R379, R102, R193). -/
structure Tenant where
  /-- 0 FREE, 1 ACTIVE, 2 RESETTING. -/
  state : Nat
  /-- 0 none, 1 draining, 2 squashing, 3 wiping. -/
  phase : Nat
  asid : Option Nat
  siOwnerSubmit : Bool
  pinDowngrade : Bool
  qWork : Nat
  qCtx : Nat
  qHost : Nat
  qSess : Nat
  qKeys : Nat
  qVlt : Nat
  share : Nat
  deadlineMs : Nat
  jrnBase : Nat
  /-- Journal quota in units of 1,024 entries. -/
  jrnQuota : Nat
  resets : Nat
  done : Bool
  refused : Word
  /-- External key table: base in 4 KiB units of HBM, and entries. -/
  extBase : Nat
  extCount : Nat
  /-- Items squashed by the reset under way. -/
  squashed : Nat
  /-- The reset under way also frees the tenant (R379). -/
  release : Bool
  /-- The tick at which the reset under way began. -/
  resetAt : Nat
  /-- The code pages, newest first, each with the stamp of the first item it applies to (R102). -/
  codePages : List (Nat × Bytes)
  deriving DecidableEq, Repr

/-- A region's random expander (R295 to R298): DRBG key and V, the words free of reservation, and the 16-bit
draws left of the word that serves tagging (R447). -/
structure Boom where
  key : Bytes
  v : Bytes
  words : List Bytes
  tag : List Nat
  /-- The boom is being filled (R297). -/
  filling : Bool
  deriving DecidableEq, Repr

/-- A counter lease (R390): values below `acked` may be drawn; `bound` is the newest bound, sent in the delta of
epoch `epoch`. -/
structure Lease where
  acked : Nat
  bound : Nat
  epoch : Nat
  deriving DecidableEq, Repr

/-- A reply that waits at egress (R391, R396): the epoch of its commit, and what is to be sealed. -/
structure HeldReply where
  /-- The epoch whose acknowledgement releases it; none when it waits for a sequence number alone. -/
  epoch : Option Nat
  item : Item
  status : Nat
  payload : Bytes
  dup : Bool
  deriving DecidableEq, Repr

/-- A prefix table lookup in the pipeline (R177, R329). -/
structure Lookup where
  core : Nat
  slot : Nat
  /-- The completion word, which the copy generation at entry decides (R178). -/
  word : Bytes
  /-- It counts as a lookup, and as a miss; slots it treats as empty. -/
  counted : Bool
  miss : Bool
  bad : Nat
  /-- The slot whose uncorrectable bits it meets (R179). -/
  fault : Option Nat
  deriving DecidableEq, Repr

/-- A key of the key cache, by its first slot (R181, R184): the key is `masked` xor `mask`. -/
structure KeySlot where
  tenant : Nat
  /-- The eight attribute bytes in the KEY_SPEC layout of R115. -/
  attr : Bytes
  /-- Parent TMK number, 255 for none. -/
  parent : Nat
  parentGen : Nat
  felled : Bool
  masked : Bytes
  mask : Bytes
  /-- Consecutive slots it occupies. -/
  slots : Nat
  /-- The optional blocks of the key block it came from (R146). -/
  opt : Bytes
  /-- The context bound to it; 0 for none (R120). -/
  bound : Word
  /-- A session key, outside its tenant's quota (R94, R363). -/
  session : Bool
  deriving DecidableEq, Repr

/-- A logical NVM record (R189). -/
structure Rec where
  typ : Nat
  felled : Bool
  tenant : Nat
  index : Nat
  gen : Nat
  parent : Nat
  parentGen : Nat
  attr : Bytes
  wseq : Nat
  wrap0 : Bytes
  wrap1 : Bytes
  /-- The compressed point of a public record. -/
  pub : Bytes
  tag : Bytes
  /-- Of a working key: its length in bytes, its optional blocks and its bound context. -/
  len : Nat
  opt : Bytes
  bound : Word
  deriving DecidableEq, Repr

/-- A monotonic counter (R206): its eight positions, the one that the next write goes to, and the writes it has accepted
beyond its average. -/
structure Ctr where
  vals : List Nat
  next : Nat
  used : Nat
  deriving DecidableEq, Repr

/-- The NVM record banks (R181, R183, R203, R204). -/
structure Nvm where
  /-- The position of each logical record, the same in all four banks. -/
  pos : SMap (Option Nat)
  /-- The last WSEQ of each logical record. -/
  seq : SMap Nat
  /-- Record writes that each position has taken. -/
  writes : SMap Nat
  /-- What position p of bank b holds, at 12,800 b + p: 128 bytes under the bank's mask stream, and what else the vault
  keeps of a working key. -/
  cells : SMap (Option Bytes)
  /-- Sectors retired, spare sectors left, and each retired sector with the spare that took its place. -/
  retired : Nat
  spare : Nat
  moved : List (Nat × Nat)
  /-- The root was erased and its TMKs are not yet felled (R208). -/
  fell : Bool
  deriving DecidableEq, Repr

/-- The two shares of the root (R182). -/
structure Root where
  a : Bytes
  b : Bytes
  deriving DecidableEq, Repr

/-- The vault's mask generator (R202): AES-256 CTR, and the tick of its last seed. -/
structure MaskGen where
  key : Bytes
  ctr : Nat
  seeded : Nat
  deriving DecidableEq, Repr

/-- The NVM system area (R183, R199). -/
structure SysArea where
  /-- Migration state code. -/
  mig : Nat
  /-- Current and target measurement sets, MEAS_0 to MEAS_4. -/
  cur : Bytes
  target : Bytes
  /-- Versions the migration brings, and the flag to raise the floor. -/
  newVers : Bytes
  raise : Bool
  /-- The boot flash image slot the ROM takes as current. -/
  slot : Nat
  curWrap : Nat
  /-- TMK records re-wrapped when the pass last started, how many it has to do, and the device time of that start. -/
  rewrapped : Nat
  toRewrap : Nat
  rewrapAt : Nat
  versions : Bytes
  /-- The bank just rewritten. -/
  bank : Nat
  deriving DecidableEq, Repr

/-- An MPU entry in effect (R371). -/
structure MpuEntry where
  base : Nat
  size : Nat
  trel : Bool
  anyten : Bool
  user : Bool
  x : Bool
  w : Bool
  r : Bool
  tenant : Nat
  deriving DecidableEq, Repr

/-- A brake filter (R72, R73). -/
structure Brake where
  kind : Nat
  owner : Nat
  value : Nat
  /-- It has reached every port. -/
  active : Bool
  deriving DecidableEq, Repr

/-- What the cruise reports of a unit (R31, R33, R34): its test begins; the unit passes, fails at a vector, or has a
macro whose failing row or column spare ones cover or no longer cover.  `osc` reports a ring oscillator of the source
(R301): its test begins, or ends with a pass or a failure. -/
inductive CruiseResult where
  | start
  | pass
  | fail (vec : Nat)
  | repair (bank line : Nat)
  | uncoverable (bank line : Nat)
  | osc (site : Nat) (ok : Option Bool)
  deriving DecidableEq, Repr

/-- The tamper domain: what its battery domain retains, its NVM log and its supplies (R402 to R416, R487, R488). -/
structure TmpSt where
  /-- Bit m - 1 stands for monitor code m: conditions present, monitors disarmed, trips since last cleared. -/
  present : BitVec 16
  disarmed : BitVec 16
  seen : BitVec 16
  /-- TMP_RESP and TMP_CFG. -/
  resp : Word
  cfg : Word
  /-- A lock taken on the cell, not yet applied. -/
  pending : Bool
  /-- ERASE executed since the last unlock. -/
  erased : Bool
  /-- The check word over the retained state is invalid (R414). -/
  bad : Bool
  /-- R414 applied at this start. -/
  stateLost : Bool
  /-- Buffered entries without their tags, oldest first. -/
  buf : List Bytes
  /-- The NVM blaze log, oldest first, 16 bytes each. -/
  log : List Bytes
  /-- Trips not recorded. -/
  ovf : Nat
  /-- Stimulus tests: the first one's window is open; each with whether TMP_TEST asked for it (R410). -/
  tests : List (Nat × Bool)
  /-- The next monitor of the test cycle. -/
  nextTest : Nat
  /-- Main power is present. -/
  power : Bool
  /-- VDD_CORE and VDD_IO are in range. -/
  core : Bool
  io : Bool
  /-- The 2 ms window of a rail fall: which rails have fallen in it, and whether both were down together (R403). -/
  window : Option (Bool × Bool × Bool)
  /-- A backup cell is fitted; the hold-up capacitor is charged (R487, R488). -/
  cell : Bool
  vhold : Bool
  deriving DecidableEq, Repr

/-- A life-cycle transition and what the ROM left (R427 to R431). -/
structure LcsSt where
  /-- The slot being programmed: the target state and OWNER_PUB. -/
  prog : Option (Nat × Bytes)
  /-- ERASE_PENDING, with the target state whose erase is to finish. -/
  erase : Option Nat
  /-- Where the start stands: the ROM is about to run, runs its service, programs a slot, or has handed over. -/
  stage : Nat
  deriving DecidableEq, Repr

/-- The prefix table: slot of a block at 128 b + slot (R176, R178). -/
structure TriSt where
  active : SMap (BitVec 64)
  shadow : SMap (BitVec 64)
  locks : List Nat
  /-- The TRI_LOCK_SETs that are held, oldest first. -/
  hold : List Nat
  /-- Active slots whose bits are uncorrectable until their block is rewritten (R179). -/
  bad : List Nat
  deriving DecidableEq, Repr

/-- A tenant's stand-in state (R159, R163, R172, R173). -/
structure SiTenant where
  reachable : Bool
  /-- 0 none, 1 command, 2 heartbeat. -/
  cause : Nat
  /-- Heartbeat period in ms. -/
  period : Nat
  /-- JSEQ of the next entry; 0 before the first. -/
  next : Nat
  /-- Unreleased journal entries, ascending, 64 bytes each. -/
  journal : List Bytes
  deriving DecidableEq, Repr

/-- The microcode of a region's engine sites (R253): store words, the bits of FUNCS and VERSION. -/
structure Ucode where
  code : Bytes
  funcs : Nat
  version : Nat
  deriving DecidableEq, Repr

/-- An entry of a tenant's curve table (R262). -/
structure CurveEntry where
  lf : Nat
  /-- SHA-256 of the CURVE_PARAMS element. -/
  hash : Bytes
  p : Nat
  a : Nat
  b : Nat
  gx : Nat
  gy : Nat
  n : Nat
  h : Nat
  deriving DecidableEq, Repr

/-- An item of a delta or of the full copy (R387). -/
inductive DeltaItem where
  | context (r i : Nat) (c : Ctx)
  | lease (key bound : Nat)
  /-- A TMK: its key crosses the link as masked shares, and the receiving vault wraps it (R210, R382). -/
  | tmk (t i gen : Nat) (attr key : Bytes)
  /-- A TMK felled, with its new generation. -/
  | fell (t i gen : Nat)
  /-- Another record, or a record freed. -/
  | record (n : Nat) (x : Option Rec)
  | counter (n value : Nat)
  | active (t : Nat) (i : Option Nat)
  | key (slot : Nat) (k : Option KeySlot)
  | session (id : Nat) (x : Option Session)
  | window (w : Nat) (l : List DupEntry)
  | host (n : Nat) (h : Option HostEntry)
  | tenant (t : Nat) (x : Tenant)
  /-- Issuer state, heartbeat period and journal. -/
  | issuer (t : Nat) (x : SiTenant)
  | rules (n : Nat) (b : Option Bytes)
  | zone (n : Nat) (b : Option Bytes)
  /-- A node block committed, 128 slots. -/
  | nodes (b : Nat) (slots : List (BitVec 64))
  | curve (n : Nat) (c : Option CurveEntry)
  | brake (n : Nat) (b : Option Brake)
  deriving DecidableEq, Repr

/-- A delta: its epoch, its bytes on the link, the active unit's device time in ns at its close, and its items. -/
structure Delta where
  epoch : Nat
  bytes : Nat
  time : Nat
  items : List DeltaItem
  deriving DecidableEq, Repr

/-- What the link session shows of the partner (R382, R384): its role, whether it looks for a partner, its identity, its
owner authority key and life-cycle state, and whether its certificate verifies and its state format agrees. -/
structure Partner where
  role : Nat
  seeks : Bool
  devid : Bytes
  owner : Option Bytes
  life : Nat
  cert : Bool
  format : Bool
  deriving DecidableEq, Repr

/-- What the PAR page's engine holds beside its registers (R384, R387, R388, R393, R398). -/
structure PairSt where
  /-- A partner follows this serving unit, so counters are leased (R390). -/
  paired : Bool
  /-- The partner's role as its last message gave it. -/
  partner : Nat
  /-- Whole epochs closed since the last acknowledgement arrived, each begun after it. -/
  silent : Nat
  /-- An acknowledgement arrived in the current epoch. -/
  heard : Bool
  /-- Deltas closed and not acknowledged, oldest first. -/
  unacked : List Delta
  /-- The lasting state as the copy and the deltas closed so far give it to the standby (R385, R387). -/
  shadow : List DeltaItem
  /-- Tick at which the standby last applied a delta. -/
  lastDelta : Nat
  /-- The newest epoch applied; none until the full copy has given a number. -/
  applied : Option Nat
  /-- Deltas that have arrived whole and wait for an earlier epoch, by rising epoch. -/
  staged : List Delta
  /-- PAIR_ROLE as sampled at reset release. -/
  roleHigh : Bool
  /-- A partner is looked for at start-up (R384). -/
  joining : Bool
  /-- A switchover drains held work (R398). -/
  switching : Bool
  deriving DecidableEq, Repr

/-- The first stage in the slot the ROM chooses: what its directory, header or signature fails with, its VERSION and its
digest (R459, R461). -/
structure FirstStage where
  fault : Option Nat
  version : Nat
  digest : Bytes
  deriving DecidableEq, Repr

/-- How a boot flash transfer ends (R468). -/
inductive BflResult where
  | data (b : Bytes)
  | timeout
  | uncorrectable
  deriving DecidableEq, Repr


end Sys2Proof.Machine
end

