-- ==== Sys2Proof/Syntax.lean ====
section
/-!
DEFINITION. The commands of the block, one constructor for each row of the command table, and the operand
types they carry.
-/
namespace Sys2Proof

/-- A register page (R43, R44).  `lnk` takes the port number, `cls` to `pmc` the region, the four unit
groups the region and the position `k` within the group; `rng` is the entropy source, `rnx` a region's
random expander. -/
inductive PageId where
  | top | clk | pwr | rst | lcs | tmp | vlt | rng | evr | ten | htb | tri | par | mgt | bfl | hbc | dbg
  | ccr (c : Nat)
  | mpu (m : Nat)
  | lnk (p : Nat)
  | cls (r : Nat)
  | sch (r : Nat)
  | ctx (r : Nat)
  | odm (r : Nat)
  | rnx (r : Nat)
  | pmc (r : Nat)
  | kcr (r k : Nat)
  | cph (r k : Nat)
  | hsh (r k : Nat)
  | pke (r k : Nat)
  deriving DecidableEq, Repr

/-- A bus master of the control complex's address space (R362, R373): a control core, with its hart's satp.ASID in
U-mode and none in M-mode or S-mode; the pair link; the debug master. -/
inductive Master where
  | core (c : Nat) (asid : Option (BitVec 16))
  | pair
  | debug
  deriving DecidableEq, Repr

/-- The work that an uncorrectable error hits, where the error names one (R14, R81, R179, R247): a held frame, the
current job of a lane or engine, a prefix table lookup by its core and slot, or the prefix table's DMA. -/
inductive Victim where
  | none
  | frame (stamp : Nat)
  | unit (p : PageId)
  | lookup (core slot : Nat)
  | dma
  deriving DecidableEq, Repr

/-- The fields of a CTRL write that have no behaviour of their own (R46). -/
structure CtrlPlain where
  /-- CTRL.DRAIN_TO, in ticks of 1 us. -/
  drainTo : BitVec 16
  /-- CTRL.SPARE_ALLOW. -/
  spareAllow : Bool
  /-- CTRL.TEST_EN. -/
  testEn : Bool
  deriving DecidableEq, Repr

/-- The commands of the block: one constructor for each row of the command table. -/
inductive Instr where
  /-- SINGLE_BIT_ERROR (R13): A SECDED-protected cell access meets a single-bit error; the data is corrected and written back, and HEALTH.CORR counts it. -/
  | singleBitError (p : PageId) (code : Byte) (addr : BitVec 40)
  /-- BLOCK_UNCORRECTABLE_ERROR (R16): A block detects an uncorrectable error, discards its current job with ABORTED_FAULT and goes to FAILED. -/
  | blockUncorrectableError (p : PageId) (code : Byte) (parity : Bool) (victim : Victim) (addr : BitVec 40)
  /-- SPARE_ADMISSION_DONE (R17): A coppiced spare finishes its admission check and takes the failed block's logical instance, or is itself marked failed. -/
  | spareAdmissionDone (p : PageId) (res : Option Byte)
  /-- REGION_FATAL_ERROR (R21): An uncorrectable error in the region fabric, scheduler or context store isolates the whole region. -/
  | regionFatalError (r : Nat) (p1 : Word)
  /-- CHIP_LEVEL_FAULT (R25): A chip-level fault fail-stops the unit: FAULT_N asserted, ports braked and heartbeat stopped. -/
  | chipLevelFault (cause : Nat)
  /-- CRUISE_TEST (R31): The cruise tests one unit, coppicing a spare in first where one exists, and marks a failing unit FAILED. -/
  | cruiseTest (p : PageId) (res : Machine.CruiseResult)
  /-- SRAM_REPAIR_APPLY (R34): A repair entered in the repair map is applied to its macro at the block's next idle point. -/
  | sramRepairApply (p : PageId)
  /-- BLOCK_ENABLE (R50): A write of CTRL.EN = 1 with DRAIN_REQ = 0 moves a block from OFF or STOPPED to STARTING. -/
  | blockEnable (p : PageId) (c : CtrlPlain)
  /-- BLOCK_DISABLE (R50): A write that clears CTRL.EN moves a STARTING or RUNNING block to DRAINING and latches DRAIN_TO. -/
  | blockDisable (p : PageId) (c : CtrlPlain)
  /-- DRAIN_REQ (R50): A write of CTRL.DRAIN_REQ = 1 quiesces the block into DRAINING. -/
  | drainReq (p : PageId) (c : CtrlPlain) (en : Bool)
  /-- SQUASH_REQ (R50): A write of CTRL.SQUASH_REQ = 1 with EN = 0 squashes all held work and moves the block to STOPPED. -/
  | squashReq (p : PageId) (c : CtrlPlain) (drainReq : Bool)
  /-- STARTUP_SETTLED (R50): A block's start-up checks are done and it moves from STARTING to RUNNING. -/
  | startupSettled (p : PageId)
  /-- DRAIN_COMPLETE (R50): A draining block's INFLIGHT reaches zero and it enters STOPPED. -/
  | drainComplete (p : PageId)
  /-- DRAIN_TIMEOUT (R50): The latched DRAIN_TO elapses; remaining held work is squashed with ABORTED_DRAIN and the block stops. -/
  | drainTimeout (p : PageId)
  /-- ERR_WRITE (R47): A W1C write to ERR clears flags, and ERR.CODE clears when all flags are left zero. -/
  | errWrite (p : PageId) (v : Word)
  /-- ERRINJ (R48): A write to ERRINJ with TEST_EN set arms one injected error, the strongest requested, for the next protected access. -/
  | errinj (p : PageId) (v : Word)
  /-- LOCK (R49): Setting LOCK.LOCK freezes the page's lockable configuration until chip reset. -/
  | lock (p : PageId)
  /-- MALFORMED_ACCESS (R42): A register access of a wrong size or alignment reads zero or is ignored and sets ERR.ACCESS. -/
  | malformedAccess (x : Master) (a : Nat)
  /-- REGISTER_WRITE (R8): A write to a register field that has no behaviour of its own stores the value, subject to its type and lock rules. -/
  | registerWrite (x : Master) (a : Nat) (v : Word) (hi : Option Word)
  /-- FRAME_RECEIVED (R60): A host port receives a whole frame, runs the admission checks and admits it as a work item or drops it. -/
  | frameReceived (p : Nat) (frame : Bytes) (fcsOk : Bool)
  /-- XOFF_REPEAT (R66): The 1 ms repeat timer fires while the XOFF condition holds and XOFF is sent again. -/
  | xoffRepeat (p : Nat)
  /-- PAUSE_RECEIVED (R70): A received PAUSE or PFC frame holds back the port's transmission. -/
  | pauseReceived (p : Nat) (hold resume : Byte)
  /-- TXHOLD_TIMEOUT (R70): A response held by received flow control for longer than LNK_TXHOLD is discarded. -/
  | txholdTimeout (p : Nat)
  /-- TRAINING_TIMEOUT (R57): A Clause 72 training run fails within its max_wait_timer, sets IRQST.BLOCK[19] and retries. -/
  | trainingTimeout (p : Nat)
  /-- BLOCK_LOCK_ACQUIRED (R57): A port's PCS gains block lock and LNK_STATUS reports the link up. -/
  | blockLockAcquired (p : Nat)
  /-- LINK_DOWN (R58): A running port loses block lock, clears LINK_UP and discards its queued responses. -/
  | linkDown (p : Nat)
  /-- RESPONSE_TRANSMIT_DONE (R58): A response frame is sent whole on its port and counted in LNK_CNT_TXFRM. -/
  | responseTransmitDone (p : Nat)
  /-- BRAKE_SET (R72): A BRAKE request with ACTION set is checked and creates or reuses a brake filter. -/
  | brakeSet (r : Nat)
  /-- BRAKE_RELEASE (R72): A BRAKE request with ACTION release is checked and removes a brake filter. -/
  | brakeRelease (r : Nat)
  /-- BRAKE_FILTER_PROPAGATED (R73): A set or released filter has reached every port of the chip and the BRAKE response is queued. -/
  | brakeFilterPropagated
  /-- CLS_CONTROL_PARITY (R81): A control path parity error drops the affected frame and, in the filter mirror, starts a reload. -/
  | clsControlParity (r : Nat) (mirror : Bool)
  /-- BRAKE_MIRROR_RELOADED (R81): The classifier finishes reloading its brake filter mirror from the chip's filter set. -/
  | brakeMirrorReloaded (r : Nat)
  /-- FENCE_ASSERT (R75): FENCE_N is asserted and all host ports are braked within 1 µs. -/
  | fenceAssert
  /-- FENCE_DEASSERT (R75): FENCE_N is deasserted and the ports accept and send again. -/
  | fenceDeassert
  /-- HOST_ENTRY_AGE_OUT (R76): A host table entry without an open session reaches HTB_CFG.AGE seconds without a frame and is removed. -/
  | hostEntryAgeOut (h : Nat)
  /-- HTB_READ_ENTRY (R82): HTB_OP.CMD 1 reads the entry named by HTB_IDX into the window. -/
  | htbReadEntry
  /-- HTB_WRITE_STATIC (R82): HTB_OP.CMD 2 writes a static host table entry from the window. -/
  | htbWriteStatic
  /-- HTB_DELETE_ENTRY (R82): HTB_OP.CMD 3 deletes the host table entry named by HTB_IDX. -/
  | htbDeleteEntry
  /-- MGT_FRAME_RECEIVED (R84): The management port receives a whole frame, checks it and passes it to a running classifier or drops it. -/
  | mgtFrameReceived (frame : Bytes) (fcsOk : Bool)
  /-- MGT_LINK_UP (R83): The management PHY reports a link; it is accepted at 1 Gbit/s or counted in MGT_CNT_SPEED. -/
  | mgtLinkUp (mbps : Nat)
  /-- MDIO_WRITE (R88): MGT_MDIO.OP 1 starts a Clause 22 write of DATA to the PHY. -/
  | mdioWrite (phy regad : BitVec 5) (data : BitVec 16)
  /-- MDIO_READ (R88): MGT_MDIO.OP 2 starts a Clause 22 read of a PHY register into DATA. -/
  | mdioRead (phy regad : BitVec 5) (data : BitVec 16)
  /-- MDIO_DONE (R88): An MDIO operation completes, clears BUSY and sets IRQST.BLOCK[17]. -/
  | mdioDone (data : BitVec 16)
  /-- MDIO_TIMEOUT (R88): An MDIO operation not complete within 1 ms sets ERR.CODE 0x16. -/
  | mdioTimeout
  /-- ROM_REPORT (R86): In the ROM service, returns ROM_INFO and optionally blaze log entries. -/
  | romReport
  /-- ROM_LCS_REQUEST (R86): In the ROM service, checks a life-cycle transition request and performs it or refuses it. -/
  | romLcsRequest (vdd vbat : Bool)
  /-- TAG_VERIFY_DONE (R92): The dispatcher's GCM decrypt job completes; a verified frame proceeds to its command and a failed one is dropped. -/
  | tagVerifyDone (core : Nat)
  /-- EARLY_END_TAG_VERIFY (R493): The control path verifies the tag of an item that ended before verification and seals its status or drops it. -/
  | earlyEndTagVerify (stamp : Nat)
  /-- EARLY_END_VERIFY_TIMEOUT (R493): The control path has not verified an early-ended item's tag within 1 ms and the frame is dropped. -/
  | earlyEndVerifyTimeout (stamp : Nat)
  /-- SESSION_HELLO (R95): Checks a HELLO and opens a session with a device ephemeral key, nonce, certificate and signature. -/
  | sessionHello (core : Nat)
  /-- SESSION_FINISH (R93): Verifies HOST_SIG and completes the session, making its host table entry valid. -/
  | sessionFinish (core : Nat)
  /-- SESSION_CLOSE (R99): Stops admission on the session and closes it after its last response. -/
  | sessionClose (core : Nat)
  /-- SESSION_REKEY (R99): Opens a successor session inside an open one, sharing its duplicate-tag window. -/
  | sessionRekey (core : Nat)
  /-- REKEY_PREDECESSOR_CLOSE (R99): One second after the successor's first verified frame, the predecessor session closes. -/
  | rekeyPredecessorClose (id : Nat)
  /-- ECHO (R491): Returns the DATA element unchanged. -/
  | echo (core : Nat)
  /-- CODEPAGE_LOAD (R492): Replaces the tenant's code-page table after checking it. -/
  | codepageLoad (core : Nat)
  /-- DEADLINE_EXPIRY (R347): A held work item's deadline passes before commit and it ends with TIMEOUT. -/
  | deadlineExpiry (item : Nat)
  /-- PIN_TRANSLATE (R125): Translates a PIN block from KEY_A and FMT_IN to KEY_B and FMT_OUT. -/
  | pinTranslate (core : Nat)
  /-- PIN_VERIFY_OFFSET (R127): Verifies a PIN by the decimalisation-offset method. -/
  | pinVerifyOffset (core : Nat)
  /-- PIN_VERIFY_PVV (R130): Verifies a PIN against a verification value. -/
  | pinVerifyPvv (core : Nat)
  /-- PIN_GEN_OFFSET (R127): Generates a PIN offset by the decimalisation-offset method. -/
  | pinGenOffset (core : Nat)
  /-- PIN_GEN_PVV (R130): Generates a PIN verification value. -/
  | pinGenPvv (core : Nat)
  /-- MAC_GENERATE (R131): Generates a MAC over DATA or selected ISO 8583 fields. -/
  | macGenerate (core : Nat)
  /-- MAC_VERIFY (R131): Verifies a MAC over DATA or selected ISO 8583 fields. -/
  | macVerify (core : Nat)
  /-- ARQC_VERIFY (R137): Derives the EMV session key and verifies an ARQC. -/
  | arqcVerify (core : Nat)
  /-- ARQC_VERIFY_ARPC (R138): Verifies an ARQC and returns an ARPC on success. -/
  | arqcVerifyArpc (core : Nat)
  /-- ARPC_GENERATE (R138): Generates an ARPC by method 1 or 2. -/
  | arpcGenerate (core : Nat)
  /-- ARQC_GENERATE (R139): Draws the next ATC of an EMV card context and computes an ARQC. -/
  | arqcGenerate (core : Nat)
  /-- DUKPT_PIN_TRANSLATE (R142): Derives the DUKPT PIN key and translates a PIN block to KEY_B. -/
  | dukptPinTranslate (core : Nat)
  /-- DUKPT_MAC_VERIFY (R142): Derives the DUKPT MAC key and verifies a MAC. -/
  | dukptMacVerify (core : Nat)
  /-- DUKPT_DECRYPT (R142): Derives the DUKPT data key and deciphers DATA in CBC mode. -/
  | dukptDecrypt (core : Nat)
  /-- DUKPT_TXN_KEY (R144): Draws a terminal counter and performs one operation under a fresh transaction key. -/
  | dukptTxnKey (core : Nat)
  /-- DUKPT_INIT (R145): Imports a B1 key and creates a bound DUKPT terminal context. -/
  | dukptInit (core : Nat)
  /-- KEY_IMPORT (R146): Imports a key block under a K1 key into the key cache or vault. -/
  | keyImport (core : Nat)
  /-- KEY_EXPORT (R147): Exports a key as a key block under KEY_B. -/
  | keyExport (core : Nat)
  /-- KEY_GENERATE (R148): Generates a key from the DRBG and optionally exports it. -/
  | keyGenerate (core : Nat)
  /-- KEY_CHECK_VALUE (R149): Returns the key check value of a TDES or AES key. -/
  | keyCheckValue (core : Nat)
  /-- KEY_DELETE (R150): Zeroises a key slot and wipes any bound context. -/
  | keyDelete (core : Nat)
  /-- KEY_TRANSLATE (R147): Re-wraps a key block from KEY_A to KEY_B. -/
  | keyTranslate (core : Nat)
  /-- TOKENISE (R151): Enciphers the middle PAN digits with FF1 to form a token. -/
  | tokenise (core : Nat)
  /-- DETOKENISE (R151): Deciphers a token with FF1 to recover the PAN. -/
  | detokenise (core : Nat)
  /-- TOKENISE_COUNTED (R152): Tokenises with a tweak extended by a counter drawn from a token context. -/
  | tokeniseCounted (core : Nat)
  /-- DATA_ENCRYPT (R153): Draws a nonce counter and enciphers DATA in GCM or CBC. -/
  | dataEncrypt (core : Nat)
  /-- DATA_DECRYPT (R153): Deciphers DATA in GCM or CBC, verifying a GCM tag. -/
  | dataDecrypt (core : Nat)
  /-- CSC_GENERATE (R155): Computes a card security code. -/
  | cscGenerate (core : Nat)
  /-- CSC_VERIFY (R155): Verifies a card security code. -/
  | cscVerify (core : Nat)
  /-- SI_AUTHORISE (R170): Decides a stand-in authorisation, updates the card record and writes a journal entry. -/
  | siAuthorise (core : Nat)
  /-- SI_ISSUER_STATE (R159): Queries or sets a tenant's issuer state and heartbeat period. -/
  | siIssuerState (core : Nat)
  /-- SI_HEARTBEAT (R159): Re-arms the tenant's heartbeat timer and may return a heartbeat-caused UNREACHABLE state to REACHABLE. -/
  | siHeartbeat (core : Nat)
  /-- SI_JOURNAL_READ (R174): Returns unreleased journal entries with a CMAC over them. -/
  | siJournalRead (core : Nat)
  /-- SI_JOURNAL_RELEASE (R174): Frees every journal entry at or below a JSEQ. -/
  | siJournalRelease (core : Nat)
  /-- SI_RULES_LOAD (R163): Writes one rule set or one key zone of the tenant. -/
  | siRulesLoad (core : Nat)
  /-- SI_CARD_UPDATE (R166): Creates or changes a card stand-in record. -/
  | siCardUpdate (core : Nat)
  /-- HEARTBEAT_EXPIRY (R159): A tenant's heartbeat timer expires while REACHABLE and the issuer becomes UNREACHABLE with cause HEARTBEAT. -/
  | heartbeatExpiry (r t : Nat)
  /-- HEARTBEAT_REARM (R160): After a region isolation the control complex re-arms its heartbeat timers on a surviving region. -/
  | heartbeatRearm (r : Nat)
  /-- TRI_LOCK_SET (R178): Locks a prefix table block and starts copying its active copy to the shadow. -/
  | triLockSet (b : Nat) (recent : Bool)
  /-- TRI_LOCK_COPY_DONE (R178): The lock copy completes and TRI_STATUS.COPYING clears. -/
  | triLockCopyDone
  /-- TRI_LOCK_HOLD_RELEASE (R178): A held TRI_LOCK_SET proceeds once 16 FCLK cycles have passed since the block's swap. -/
  | triLockHoldRelease
  /-- TRI_LOCK_CLR (R178): Swaps one locked block's active and shadow copies and clears its lock. -/
  | triLockClr (b : Nat)
  /-- TRI_COMMIT (R178): Swaps every locked block in one FCLK cycle and clears all locks. -/
  | triCommit
  /-- TRI_NODE_WRITE (R178): A node window write goes to a locked block's shadow, or is ignored with ERR.ACCESS. -/
  | triNodeWrite (b n : Nat) (v : BitVec 64)
  /-- TRI_DMA_GO (R180): Starts a DMA copy of node blocks from HBM into locked shadows. -/
  | triDmaGo (first count : BitVec 13)
  /-- TRI_DMA_DONE (R180): The prefix table DMA completes, or stops at an unlocked target. -/
  | triDmaDone
  /-- PREFIX_LOOKUP_DONE (R177): A prefix table lookup leaves the pipeline 16 FCLK after entry with its route, a miss or a fault. -/
  | prefixLookupDone
  /-- AUTH_SET (R197): An update message that writes a tenant's update authority key. -/
  | authSet (core : Nat)
  /-- CUSTODIAN_SET (R197): An update message that writes the signer tenant's custodian list. -/
  | custodianSet (core : Nat)
  /-- TMK_GENERATE (R197): An update message that generates a tenant master key from the DRBG. -/
  | tmkGenerate (core : Nat)
  /-- TMK_LOAD (R197): An update message that loads a tenant master key sent under VTK. -/
  | tmkLoad (core : Nat)
  /-- TMK_INVALIDATE (R195): An update message that fells a tenant master key by incrementing its generation. -/
  | tmkInvalidate (core : Nat)
  /-- TMK_SELECT (R197): An update message that chooses the tenant's active TMK. -/
  | tmkSelect (core : Nat)
  /-- CRED_LOAD (R197): An update message that loads a session credential public key. -/
  | credLoad (core : Nat)
  /-- CRED_DELETE (R197): An update message that deletes a session credential. -/
  | credDelete (core : Nat)
  /-- FIRMWARE_MIGRATE (R199): An update message that starts measurement migration into REWRAP, or from HELD to ARMED. -/
  | firmwareMigrate (core : Nat)
  /-- MIGRATE_CANCEL (R199): An update message that abandons a migration and returns to IDLE. -/
  | migrateCancel (core : Nat)
  /-- MIGRATION_REWRAP_DONE (R199): The last TMK is re-wrapped under the target set and the migration state becomes ARMED. -/
  | migrationRewrapDone
  /-- MIG_CONFIRM (R199): A write of 0xA5 to VLT_MIG_CONFIRM in TRIAL flips CUR_WRAP and the image slot and enters CONFIRMING. -/
  | migConfirm (v : Byte)
  /-- MIGRATION_CONFIRM_DONE (R199): The superseded wraps are zeroised and the migration state returns to IDLE. -/
  | migrationConfirmDone
  /-- KEY_CACHE_REMASK (R202): The 1 ms cache re-mask pass re-masks every slot and zeroises felled slots. -/
  | keyCacheRemask
  /-- BBRAM_REMASK (R202): The 1 s pass re-masks both BBRAM shares. -/
  | bbramRemask
  /-- NVM_BANK_REMASK (R202): Every 60 s the oldest NVM record bank is rewritten from the newest under a new seed. -/
  | nvmBankRemask (fails : List Nat)
  /-- VAULT_MASK_RESEED (R202): Every 1 s the vault reseeds its mask generator from a boom, or sets MASK_STALE after 60 s without one. -/
  | vaultMaskReseed
  /-- WRITE_ALLOWANCE_REFILL (R205): The NVM write allowance refills at 1,000 writes per second up to 60,000. -/
  | writeAllowanceRefill
  /-- VAULT_STARTUP (R212): The vault clears the cache, checks the root, reconciles the banks, applies migration and reaches RUNNING. -/
  | vaultStartup (bad : List Nat)
  /-- MEAS_WRITE (R213): A write to a MEAS_n word, accepted only in seal order. -/
  | measWrite (n w : Nat) (v : Word)
  /-- MEAS_SEAL (R213): A write to VLT_MEAS_SEAL freezes MEAS_n; sealing MEAS_4 derives DR. -/
  | measSeal (v : Byte)
  /-- VLT_SEAL (R216): VLT_OP.CMD 1 seals a cache key into an external block. -/
  | vltSeal
  /-- VLT_INFO (R216): VLT_OP.CMD 2 reports a key's attributes into VLT_INFO_0 to 3. -/
  | vltInfo
  /-- VAULT_DEBUG_ACCESS (R215): A debug master access to the vault is refused, counted and raises IRQST.BLOCK[21]. -/
  | vaultDebugAccess
  /-- DEV_ATTEST (R211): Returns a signed attestation statement over ATT_NONCE. -/
  | devAttest (core : Nat)
  /-- CIPHER_JOB_BIND (R230): A cipher job is bound to a free lane, checked under R220 and started. -/
  | cipherJobBind (r k : Nat)
  /-- CIPHER_JOB_DONE (R223): A cipher lane ends a job or segment and posts its completion word. -/
  | cipherJobDone (r k : Nat)
  /-- DISCARD_ZEROISE_DONE (R227): The zeroising of a discarded job's output ends and its completion is posted. -/
  | discardZeroiseDone (p : PageId) (written : Nat)
  /-- HASH_JOB_BIND (R234): A hash job is bound to a free hash lane and started. -/
  | hashJobBind (r k : Nat)
  /-- HASH_JOB_DONE (R234): A hash lane ends a job and posts its completion word. -/
  | hashJobDone (r k : Nat)
  /-- LANE_STARTUP_VECTORS_DONE (R232): The start-up vector set completes on the lanes, and logical instances are filled from those that pass. -/
  | laneStartupVectorsDone (r : Nat) (cphFails hshFails : List (Nat × Byte))
  /-- CPH_TEST_RUN (R240): Runs the start-up vector set on one cipher lane site. -/
  | cphTestRun (r k : Nat) (res : Option Byte)
  /-- HSH_TEST_RUN (R241): Runs the start-up vector set on one hash lane site. -/
  | hshTestRun (r k : Nat) (res : Option Byte)
  /-- ENGINE_JOB_BIND (R248): An engine job is bound under the long-job limits and ODM loads its operands. -/
  | engineJobBind (r k : Nat)
  /-- ENGINE_JOB_DONE (R251): An engine job ends, its results are copied out, memory is zeroised and the completion is posted. -/
  | engineJobDone (r k : Nat)
  /-- ENGINE_STARTUP_VECTORS_DONE (R255): The engine start-up vector set completes and logical instances are filled from passing sites. -/
  | engineStartupVectorsDone (r : Nat) (fails : List (Nat × Byte))
  /-- PKE_TEST_RUN (R274): Runs the start-up vector set on one engine site. -/
  | pkeTestRun (r k : Nat) (res : Option Byte)
  /-- MICROCODE_LOAD (R253): ODM_UC.GO loads a microcode bundle into every fitted engine site, unless MEAS_4 is sealed. -/
  | microcodeLoad (r : Nat) (words : BitVec 15)
  /-- MICROCODE_LOAD_DONE (R253): The microcode load completes and ODM_UC.DONE is set. -/
  | microcodeLoadDone (r : Nat)
  /-- PK_SIGN (R267): Signs a digest or message with RSA, ECDSA or Ed25519. -/
  | pkSign (core : Nat)
  /-- PK_VERIFY (R267): Verifies a signature, or in its read form returns a public key. -/
  | pkVerify (core : Nat)
  /-- PK_ECDH (R268): Computes ECDH and returns the derived key as a key block. -/
  | pkEcdh (core : Nat)
  /-- PK_KEYGEN (R269): Generates an RSA, EC or Ed25519 key pair. -/
  | pkKeygen (core : Nat)
  /-- PK_RSA_DECRYPT (R269): Deciphers and OAEP-decodes an RSA ciphertext. -/
  | pkRsaDecrypt (core : Nat)
  /-- PK_CURVE_LOAD (R270): Checks a curve with CURVE_CHECK and loads it into the tenant's curve table. -/
  | pkCurveLoad (core : Nat)
  /-- LDG_CALC (R281): Performs one packed-decimal operation, or reads an account, and returns a MACed result. -/
  | ldgCalc (core : Nat)
  /-- LDG_ACCRUE (R282): Computes simple interest in exact decimal. -/
  | ldgAccrue (core : Nat)
  /-- LDG_POST (R286): Opens a ledger account or posts an amount to one. -/
  | ldgPost (core : Nat)
  /-- OSCILLATOR_HEALTH_FAIL (R293): An oscillator fails a health test; held blocks are discarded and a spare is coppiced in. -/
  | oscillatorHealthFail (site held : Nat)
  /-- CONDITIONED_BLOCK_RELEASE (R294): An adaptive proportion window closes with a pass and its 32 conditioned blocks enter the seed queue. -/
  | conditionedBlockRelease
  /-- DRBG_GENERATE_REQUEST (R296): An expander completes a 1 KiB generate request into the boom and counts toward its reseed limits. -/
  | drbgGenerateRequest (r : Nat)
  /-- DRBG_RESEED (R296): A seed arrives and is applied between requests, resetting the request count. -/
  | drbgReseed (r : Nat)
  /-- SOURCE_STARTUP_DONE (R299): The entropy source passes start-up tests and places its 32 oscillators. -/
  | sourceStartupDone (fails : List Nat)
  /-- EXPANDER_INSTANTIATED (R299): An expander instantiates its DRBG from a seed, draws the state key and becomes RUNNING. -/
  | expanderInstantiated (r : Nat)
  /-- RNG_RAW_ENABLE (R302): A write of RNG_RAW_CTRL.EN enters or leaves raw sample mode under its conditions. -/
  | rngRawEnable (en : Bool)
  /-- RNG_RAW_ARM (R302): Starts filling the raw window with samples. -/
  | rngRawArm (sel : BitVec 6)
  /-- RNG_RAW_FULL (R302): The raw capture completes and RNG_RAW_STATUS.FULL is set. -/
  | rngRawFull
  /-- RNG_RAW_PERMIT (R302): Sets the owner's permission for raw sampling before MEAS_5 is sealed. -/
  | rngRawPermit
  /-- WORK_ITEM_DISPATCH (R341): A work item enters a core's prefetch slot and starts, with its context lock set. -/
  | workItemDispatch (core : Nat)
  /-- NOP (R310): Does nothing for one cycle. -/
  | nop (core g : Nat) (sense : Bool)
  /-- DUP (R310): Duplicates the top cell. -/
  | dup (core g : Nat) (sense : Bool)
  /-- DROP (R310): Drops the top cell. -/
  | drop (core g : Nat) (sense : Bool)
  /-- SWAP (R310): Swaps the top two cells. -/
  | swap (core g : Nat) (sense : Bool)
  /-- OVER (R310): Copies the second cell to the top. -/
  | over (core g : Nat) (sense : Bool)
  /-- ROT (R310): Rotates the third cell to the top. -/
  | rot (core g : Nat) (sense : Bool)
  /-- NIP (R310): Drops the second cell. -/
  | nip (core g : Nat) (sense : Bool)
  /-- TUCK (R310): Copies the top cell below the second. -/
  | tuck (core g : Nat) (sense : Bool)
  /-- DUP2 (R310): Duplicates the top two cells. -/
  | dup2 (core g : Nat) (sense : Bool)
  /-- DROP2 (R310): Drops the top two cells. -/
  | drop2 (core g : Nat) (sense : Bool)
  /-- SWAP2 (R310): Swaps the top two cell pairs. -/
  | swap2 (core g : Nat) (sense : Bool)
  /-- PICK (R310): Copies the u-th cell to the top. -/
  | pick (core g : Nat) (sense : Bool)
  /-- DEPTH (R310): Pushes the data stack depth. -/
  | depth (core g : Nat) (sense : Bool)
  /-- ADD (R311): Adds two cells, setting C and V. -/
  | add (core g : Nat) (sense : Bool)
  /-- SUB (R311): Subtracts two cells, setting C and V. -/
  | sub (core g : Nat) (sense : Bool)
  /-- ADC (R311): Adds with carry. -/
  | adc (core g : Nat) (sense : Bool)
  /-- SBC (R311): Subtracts with borrow. -/
  | sbc (core g : Nat) (sense : Bool)
  /-- AND (R311): Bitwise AND of two cells. -/
  | and (core g : Nat) (sense : Bool)
  /-- OR (R311): Bitwise OR of two cells. -/
  | or (core g : Nat) (sense : Bool)
  /-- XOR (R311): Bitwise XOR of two cells. -/
  | xor (core g : Nat) (sense : Bool)
  /-- NOT (R311): Bitwise complement of a cell. -/
  | not (core g : Nat) (sense : Bool)
  /-- NEG (R312): Negates a cell, setting V for 0x8000. -/
  | neg (core g : Nat) (sense : Bool)
  /-- ABS (R312): Absolute value of a cell, setting V for 0x8000. -/
  | abs (core g : Nat) (sense : Bool)
  /-- MUL (R311): Unsigned multiply to a double cell. -/
  | mul (core g : Nat) (sense : Bool)
  /-- MULS (R311): Signed multiply to a double cell. -/
  | muls (core g : Nat) (sense : Bool)
  /-- DIV (R312): Unsigned divide in 17 cycles, setting DZ on a zero divisor. -/
  | div (core g : Nat) (sense : Bool)
  /-- DIVS (R312): Signed truncating divide in 17 cycles, setting V and DZ. -/
  | divs (core g : Nat) (sense : Bool)
  /-- ADD32 (R311): Adds two double cells. -/
  | add32 (core g : Nat) (sense : Bool)
  /-- SUB32 (R311): Subtracts two double cells. -/
  | sub32 (core g : Nat) (sense : Bool)
  /-- INC (R311): Increments a cell. -/
  | inc (core g : Nat) (sense : Bool)
  /-- DEC (R311): Decrements a cell. -/
  | dec (core g : Nat) (sense : Bool)
  /-- ADDI (R311): Adds a signed 7-bit immediate. -/
  | addi (core g : Nat) (sense : Bool) (n : BitVec 7)
  /-- SHL (R313): Shifts left by a popped count. -/
  | shl (core g : Nat) (sense : Bool)
  /-- SHR (R313): Logical shift right by a popped count. -/
  | shr (core g : Nat) (sense : Bool)
  /-- SAR (R313): Arithmetic shift right by a popped count. -/
  | sar (core g : Nat) (sense : Bool)
  /-- ROL (R313): Rotates left by a popped count mod 16. -/
  | rol (core g : Nat) (sense : Bool)
  /-- ROR (R313): Rotates right by a popped count mod 16. -/
  | ror (core g : Nat) (sense : Bool)
  /-- SHL32 (R313): Shifts a double cell left. -/
  | shl32 (core g : Nat) (sense : Bool)
  /-- SHR32 (R313): Logically shifts a double cell right. -/
  | shr32 (core g : Nat) (sense : Bool)
  /-- SHLI (R313): Shifts left by an immediate count. -/
  | shli (core g : Nat) (sense : Bool) (n : BitVec 4)
  /-- SHRI (R313): Logically shifts right by an immediate count. -/
  | shri (core g : Nat) (sense : Bool) (n : BitVec 4)
  /-- SARI (R313): Arithmetically shifts right by an immediate count. -/
  | sari (core g : Nat) (sense : Bool) (n : BitVec 4)
  /-- ROLI (R313): Rotates left by an immediate count. -/
  | roli (core g : Nat) (sense : Bool) (n : BitVec 4)
  /-- BFX (R314): Extracts a bit field, zero-extended. -/
  | bfx (core g : Nat) (sense : Bool) (imm : Cell)
  /-- BFXS (R314): Extracts a bit field, sign-extended. -/
  | bfxs (core g : Nat) (sense : Bool) (imm : Cell)
  /-- BFI (R314): Inserts a bit field. -/
  | bfi (core g : Nat) (sense : Bool) (imm : Cell)
  /-- CLZ (R314): Counts leading zero bits. -/
  | clz (core g : Nat) (sense : Bool)
  /-- CTZ (R314): Counts trailing zero bits. -/
  | ctz (core g : Nat) (sense : Bool)
  /-- POPC (R314): Counts set bits. -/
  | popc (core g : Nat) (sense : Bool)
  /-- BPERM (R315): Permutes the bytes of a double cell. -/
  | bperm (core g : Nat) (sense : Bool) (imm : Cell)
  /-- EQ (R316): Sets a predicate when a equals b. -/
  | eq (core g : Nat) (sense : Bool) (pd : Nat)
  /-- NE (R316): Sets a predicate when a differs from b. -/
  | ne (core g : Nat) (sense : Bool) (pd : Nat)
  /-- LTU (R316): Unsigned less-than compare into a predicate. -/
  | ltu (core g : Nat) (sense : Bool) (pd : Nat)
  /-- GEU (R316): Unsigned greater-or-equal compare into a predicate. -/
  | geu (core g : Nat) (sense : Bool) (pd : Nat)
  /-- GTU (R316): Unsigned greater-than compare into a predicate. -/
  | gtu (core g : Nat) (sense : Bool) (pd : Nat)
  /-- LEU (R316): Unsigned less-or-equal compare into a predicate. -/
  | leu (core g : Nat) (sense : Bool) (pd : Nat)
  /-- LT (R316): Signed less-than compare into a predicate. -/
  | lt (core g : Nat) (sense : Bool) (pd : Nat)
  /-- GE (R316): Signed greater-or-equal compare into a predicate. -/
  | ge (core g : Nat) (sense : Bool) (pd : Nat)
  /-- GT (R316): Signed greater-than compare into a predicate. -/
  | gt (core g : Nat) (sense : Bool) (pd : Nat)
  /-- LE (R316): Signed less-or-equal compare into a predicate. -/
  | le (core g : Nat) (sense : Bool) (pd : Nat)
  /-- EQZ (R316): Sets a predicate when a is zero. -/
  | eqz (core g : Nat) (sense : Bool) (pd : Nat)
  /-- NEZ (R316): Sets a predicate when a is non-zero. -/
  | nez (core g : Nat) (sense : Bool) (pd : Nat)
  /-- LTZ (R316): Sets a predicate when a is negative. -/
  | ltz (core g : Nat) (sense : Bool) (pd : Nat)
  /-- GEZ (R316): Sets a predicate when a is non-negative. -/
  | gez (core g : Nat) (sense : Bool) (pd : Nat)
  /-- BIT (R316): Sets a predicate from bit n mod 16 of a. -/
  | bit (core g : Nat) (sense : Bool) (pd : Nat)
  /-- PC (R316): Copies flag C into a predicate. -/
  | pc (core g : Nat) (sense : Bool) (pd : Nat)
  /-- PV (R316): Copies flag V into a predicate. -/
  | pv (core g : Nat) (sense : Bool) (pd : Nat)
  /-- PDZ (R316): Copies flag DZ into a predicate. -/
  | pdz (core g : Nat) (sense : Bool) (pd : Nat)
  /-- PRED_AND (R317): ANDs a source predicate into a destination predicate. -/
  | predAnd (core g : Nat) (sense : Bool) (ps pd : Nat)
  /-- PRED_OR (R317): ORs a source predicate into a destination predicate. -/
  | predOr (core g : Nat) (sense : Bool) (ps pd : Nat)
  /-- PRED_XOR (R317): XORs a source predicate into a destination predicate. -/
  | predXor (core g : Nat) (sense : Bool) (ps pd : Nat)
  /-- PRED_MOV (R317): Copies a source predicate to a destination predicate. -/
  | predMov (core g : Nat) (sense : Bool) (ps pd : Nat)
  /-- LIT8 (R318): Pushes an 8-bit constant, zero-extended. -/
  | lit8 (core g : Nat) (sense : Bool) (n : Byte)
  /-- LIT16 (R318): Pushes the following 16-bit word. -/
  | lit16 (core g : Nat) (sense : Bool) (n : Cell)
  /-- LD (R321): Loads a cell from local space. -/
  | ld (core g : Nat) (sense : Bool)
  /-- ST (R321): Stores a cell to local space. -/
  | st (core g : Nat) (sense : Bool)
  /-- LDB (R321): Loads a byte, zero-extended. -/
  | ldb (core g : Nat) (sense : Bool)
  /-- STB (R321): Stores the low byte of a cell. -/
  | stb (core g : Nat) (sense : Bool)
  /-- LD32 (R321): Loads a double cell. -/
  | ld32 (core g : Nat) (sense : Bool)
  /-- ST32 (R321): Stores a double cell. -/
  | st32 (core g : Nat) (sense : Bool)
  /-- LDP (R321): Loads a cell and advances the address. -/
  | ldp (core g : Nat) (sense : Bool)
  /-- STP (R321): Stores a cell and advances the address. -/
  | stp (core g : Nat) (sense : Bool)
  /-- COPY (R321): Copies up to 4,096 bytes within local space. -/
  | copy (core g : Nat) (sense : Bool)
  /-- ZERO (R321): Zeroes up to 4,096 bytes of local space. -/
  | zero (core g : Nat) (sense : Bool)
  /-- LDW (R321): Loads a work item cell. -/
  | ldw (core g : Nat) (sense : Bool) (w : BitVec 5)
  /-- STW (R321): Stores a writable work item cell. -/
  | stw (core g : Nat) (sense : Bool) (w : BitVec 5)
  /-- LDC (R321): Loads a cell of the context working copy. -/
  | ldc (core g : Nat) (sense : Bool) (w : BitVec 7)
  /-- BR (R323): Branches by a signed byte offset. -/
  | br (core g : Nat) (sense : Bool) (d : BitVec 8)
  /-- CALL (R323): Pushes a link and jumps to the following word. -/
  | call (core g : Nat) (sense : Bool) (target : Cell)
  /-- JMP (R323): Jumps to the following word. -/
  | jmp (core g : Nat) (sense : Bool) (target : Cell)
  /-- LOOP (R323): Decrements the loop count and branches while it is non-zero. -/
  | loop (core g : Nat) (sense : Bool) (target : Cell)
  /-- RET (R324): Returns to a link-marked return stack entry. -/
  | ret (core g : Nat) (sense : Bool)
  /-- CALLS (R323): Calls a popped address. -/
  | calls (core g : Nat) (sense : Bool)
  /-- JMPS (R323): Jumps to a popped address. -/
  | jmps (core g : Nat) (sense : Bool)
  /-- TOR (R324): Moves a cell to the return stack with the link bit clear. -/
  | tor (core g : Nat) (sense : Bool)
  /-- FROMR (R324): Moves a cell from the return stack. -/
  | fromr (core g : Nat) (sense : Bool)
  /-- COPYR (R324): Copies the top of the return stack. -/
  | copyr (core g : Nat) (sense : Bool)
  /-- RDROP (R324): Drops the top of the return stack. -/
  | rdrop (core g : Nat) (sense : Bool)
  /-- RDEPTH (R324): Pushes the return stack depth. -/
  | rdepth (core g : Nat) (sense : Bool)
  /-- SEND_CIPHER (R327): SEND to target 0 queues a cipher job and takes a completion slot. -/
  | sendCipher (core g : Nat) (sense : Bool)
  /-- SEND_HASH (R327): SEND to target 1 queues a hash job. -/
  | sendHash (core g : Nat) (sense : Bool)
  /-- SEND_ENGINE (R327): SEND to target 2 queues an engine job. -/
  | sendEngine (core g : Nat) (sense : Bool)
  /-- SEND_LOOKUP (R329): SEND to target 4 starts a prefix table lookup. -/
  | sendLookup (core g : Nat) (sense : Bool)
  /-- SEND_VAULT (R327): SEND to target 5 passes a platform request to the vault commit sequencer. -/
  | sendVault (core g : Nat) (sense : Bool)
  /-- CTX_DRAW (R345): A context store descriptor with OP 0x01 draws the next counter value of the task's own counter context. -/
  | ctxDraw (core g : Nat) (sense : Bool)
  /-- CTX_FETCH (R345): A context store descriptor with OP 0x02 copies another context of the tenant into local data. -/
  | ctxFetch (core g : Nat) (sense : Bool)
  /-- CTX_CREATE (R345): A context store descriptor with OP 0x03 creates a context. -/
  | ctxCreate (core g : Nat) (sense : Bool)
  /-- CTX_DELETE (R345): A context store descriptor with OP 0x04 wipes a context of the tenant. -/
  | ctxDelete (core g : Nat) (sense : Bool)
  /-- TIMER_SUBMIT (R349): A delay list descriptor with ACTION SUBMIT sets a timer that will ready a new work item. -/
  | timerSubmit (core g : Nat) (sense : Bool)
  /-- TIMER_EXPIRE (R349): A delay list descriptor with ACTION EXPIRE sets a context expiry timer. -/
  | timerExpire (core g : Nat) (sense : Bool)
  /-- TIMER_HEARTBEAT (R349): A delay list descriptor with ACTION HEARTBEAT sets a tenant's heartbeat timer. -/
  | timerHeartbeat (core g : Nat) (sense : Bool)
  /-- TIMER_CANCEL (R349): A delay list descriptor with ACTION CANCEL cancels a timer. -/
  | timerCancel (core g : Nat) (sense : Bool)
  /-- WAIT (R328): Waits until a completion slot is DONE. -/
  | wait (core g : Nat) (sense : Bool)
  /-- GETW (R328): Reads a cell of a DONE slot's completion word. -/
  | getw (core g : Nat) (sense : Bool)
  /-- RELS (R328): Frees a DONE completion slot. -/
  | rels (core g : Nat) (sense : Bool)
  /-- RESV (R331): Reserves boom words whole, or sets C. -/
  | resv (core g : Nat) (sense : Bool)
  /-- RAND (R331): Writes one reserved random word to local data. -/
  | rand (core g : Nat) (sense : Bool)
  /-- DONE (R332): Waits for pending slots, then ends the task and commits with its response at egress. -/
  | done (core g : Nat) (sense : Bool)
  /-- YIELD (R333): Returns the task to the tail of its ready level. -/
  | yield (core g : Nat) (sense : Bool)
  /-- SLEEP (R333): Suspends the task on a delay-list timer. -/
  | sleep (core g : Nat) (sense : Bool)
  /-- TRAP (R335): Raises a PROGRAM trap with code n. -/
  | trap (core g : Nat) (sense : Bool) (n : BitVec 6)
  /-- CSRGET (R335): Pushes a CSR value. -/
  | csrget (core g : Nat) (sense : Bool) (n : BitVec 6)
  /-- CSRPUT (R335): Writes a CSR value. -/
  | csrput (core g : Nat) (sense : Bool) (n : BitVec 6)
  /-- SLEEP_WAKE (R348): A sleeping task's wake timer fires and the task rejoins its ready level. -/
  | sleepWake (r : Nat)
  /-- DELAY_TIMER_FIRE (R349): A SUBMIT timer fires and readies a new work item. -/
  | delayTimerFire (r : Nat)
  /-- CONTEXT_EXPIRY (R354): An EXPIRE timer fires and wipes its extension context once the context is unlocked. -/
  | contextExpiry (r : Nat)
  /-- CONTEXT_WINDOW_WRITE (R354): A control complex write through the context window commits to an unlocked valid context. -/
  | contextWindowWrite (r off : Nat) (b : Bytes)
  /-- SUBMISSION_DOORBELL (R355): A write to SCH_SQ_TAIL submits ring entries up to that index. -/
  | submissionDoorbell (r : Nat) (tail : BitVec 10)
  /-- SUBMISSION_ACCEPT (R355): The scheduler accepts a submission entry once the completion ring has room for it. -/
  | submissionAccept (r : Nat)
  /-- PROGRAM_LOAD (R358): SCH_PRG.GO writes bundle words into the program space of every active region, or refuses them. -/
  | programLoad (r : Nat)
  /-- PROGRAM_LOAD_DONE (R358): The program write completes and SCH_PRG.DONE is set. -/
  | programLoadDone (r : Nat)
  /-- CTX_OP_CREATE (R360): CTX_OP.CMD 1 creates an extension context. -/
  | ctxOpCreate (r : Nat)
  /-- CTX_OP_DELETE (R360): CTX_OP.CMD 2 deletes a context, waiting for its lock to clear. -/
  | ctxOpDelete (r : Nat)
  /-- TENANT_RESET (R368): Starts a tenant reset, which enters phase 1. -/
  | tenantReset (core : Nat)
  /-- TENANT_RESET_DRAIN_END (R369): The tenant holds nothing, or TEN_DRAIN_TIMEOUT elapses, and phase 2 squashes the tenant's remaining work. -/
  | tenantResetDrainEnd (t : Nat)
  /-- TENANT_RESET_SQUASH_DONE (R369): The squash phase ends and phase 3 wipes the tenant's contexts, cache slots and host entries. -/
  | tenantResetSquashDone (t : Nat)
  /-- TENANT_RESET_COMPLETE (R369): The wipe finishes and the tenant returns to ACTIVE with DONE set. -/
  | tenantResetComplete (t : Nat)
  /-- TEN_CREATE (R379): TEN_OP.CMD 1 moves a FREE tenant to ACTIVE with its defaults. -/
  | tenCreate
  /-- TEN_RESET (R368): TEN_OP.CMD 2 starts a tenant reset from owner firmware. -/
  | tenReset
  /-- TEN_RELEASE (R379): TEN_OP.CMD 3 resets a tenant, fells its keys, frees its records and returns it to FREE. -/
  | tenRelease
  /-- TEN_BIND (R362): TEN_OP.CMD 4 binds an ASID to the tenant. -/
  | tenBind
  /-- TEN_UNBIND (R379): TEN_OP.CMD 5 clears the tenant's ASID binding. -/
  | tenUnbind
  /-- TEN_DOORBELL (R367): A write to TEN_DB sets the writer's tenant bit in TEN_DB_PEND. -/
  | tenDoorbell (user : Option (BitVec 16))
  /-- MPU_ENTRY_WRITE (R371): A write of an MPU entry's CFG word makes the entry take effect, or refuses it. -/
  | mpuEntryWrite (m n : Nat) (cfg : Word)
  /-- MPU_PARITY_ERROR (R378): A parity error in MPU entries fails the MPU, which then refuses its master's accesses. -/
  | mpuParityError (m : Nat)
  /-- PAIR_LINK_UP (R382): The pair link comes up and the units open and check a link session. -/
  | pairLinkUp (lanes : Byte) (x : Machine.Partner)
  /-- PAIR_LINK_DOWN (R381): A link frame is not delivered within 149 µs, or all lanes lose lock, and the link is declared down. -/
  | pairLinkDown (abandoned : Bool)
  /-- PAIR_JOIN_TIMEOUT (R384): No partner appears within JOIN_WAIT and the unit stays NONE. -/
  | pairJoinTimeout
  /-- FULL_COPY_DONE (R385): A SYNCING unit has applied the full copy and its deltas and becomes STANDBY. -/
  | fullCopyDone (mib : BitVec 16) (copy : List Machine.DeltaItem)
  /-- PAIR_HEARTBEAT_LOST (R386): PAIR_HB_IN shows fewer than two edges in 4 µs and the peer heartbeat is lost. -/
  | pairHeartbeatLost
  /-- PAIR_HEARTBEAT_PRESENT (R386): PAIR_HB_IN regains its edges and PEER_HB is set. -/
  | pairHeartbeatPresent
  /-- EPOCH_CLOSE (R387): The active unit closes a 50 µs epoch and sends its delta, fencing itself after four unacknowledged epochs. -/
  | epochClose (bytes sent : BitVec 24) (retries : Byte)
  /-- DELTA_RECEIVED (R388): The standby receives a whole verified delta, applies it in epoch order and acknowledges it. -/
  | deltaReceived (d : Machine.Delta)
  /-- DELTA_ACK_RECEIVED (R390): The active unit receives an acknowledgement, making lease bounds usable and releasing held replies. -/
  | deltaAckReceived (e : Nat) (standby : Bool)
  /-- STANDBY_TIMEOUT (R393): A standby applies no delta for 200 µs and promotes itself to ACTIVE. -/
  | standbyTimeout
  /-- PARTNER_PROMOTED_MSG (R393): An active unit receives the partner's promotion message and becomes FENCED. -/
  | partnerPromotedMsg
  /-- PARTNER_WITHDRAW_MSG (R409): An active unit receives a locked partner's withdraw message and becomes ALONE. -/
  | partnerWithdrawMsg
  /-- PAIR_SWITCH (R398): PAIR_CMD SWITCH starts a planned switchover. -/
  | pairSwitch
  /-- SWITCH_DRAIN_TIMEOUT (R398): PAIR_SW_DRAIN elapses and the switchover closes the epoch and demotes the unit. -/
  | switchDrainTimeout
  /-- PAIR_PROMOTE (R393): PAIR_CMD PROMOTE makes a standby ACTIVE, or a NONE unit ALONE. -/
  | pairPromote
  /-- ABANDON_STATE (R384): PAIR_CMD ABANDON_STATE discards lasting state and makes the unit NONE. -/
  | abandonState
  /-- PAR_UNCORRECTABLE_ERROR (R400): An uncorrectable error in PAR stops the heartbeat and is handled as a link loss. -/
  | parUncorrectableError (parity : Bool)
  /-- TAMPER_TRIP (R404): An armed monitor's condition appears, and it logs, locks or erases under its response. -/
  | tamperTrip (v : BitVec 16) (pulsed : Bool)
  /-- MONITOR_REARM (R404): A monitor's condition has been absent for 1 ms and the monitor re-arms. -/
  | monitorRearm (m : Nat)
  /-- RAIL_FALL (R403): VDD_CORE or VDD_IO falls below its threshold and the vault and key bus close at once. -/
  | railFall (core : Bool)
  /-- RAIL_FALL_WINDOW_END (R403): The 2 ms window ends: a power loss enters cell operation, or the single rail's monitor trips. -/
  | railFallWindowEnd
  /-- STIMULUS_TEST_PERIOD (R410): The test period timer starts a stimulus test of the next monitor in the cycle. -/
  | stimulusTestPeriod
  /-- TMP_TEST_RUN (R410): A write of TMP_TEST.RUN starts a stimulus test of the selected monitor. -/
  | tmpTestRun (sel : BitVec 5)
  /-- STIMULUS_WINDOW_CLOSE (R410): A stimulus window closes; the test passes or fails, and a persisting condition trips for real. -/
  | stimulusWindowClose (tripped persists : Bool)
  /-- BLAZE_LOG_NVM_WRITE_DONE (R412): A buffered entry's NVM copy verifies and the entry is freed from the battery-domain buffer. -/
  | blazeLogNvmWriteDone
  /-- TMP_RESP_WRITE (R406): A write to TMP_RESP, limited to raising fields after MEAS_5 is sealed and to the floors. -/
  | tmpRespWrite (v : Word)
  /-- TMP_CFG_WRITE (R406): A write to TMP_CFG, under the same raise-only rule. -/
  | tmpCfgWrite (v : Word)
  /-- TMP_LOG_READ (R421): A read of TMP_LOG_DATA_3 returns the last word of an entry and advances the cursor. -/
  | tmpLogRead
  /-- BATTERY_DOMAIN_ERROR (R420): An uncorrectable error in the battery-domain buffer or retained state executes ERASE and locks. -/
  | batteryDomainError
  /-- DEV_STATUS (R417): Returns the device status and TAMPER_STATE. -/
  | devStatus (core : Nat)
  /-- DEV_UNLOCK (R418): Checks custodian signatures over the lock counter and log head and clears the lock. -/
  | devUnlock (core : Nat)
  /-- LCS_ARM (R428): A write of LCS_CTRL.ARM resets the chip to run the staged transition request. -/
  | lcsArm
  /-- LCS_PROGRAM_DONE (R430): The OTP slot finishes programming and the ROM restarts to decode the new state. -/
  | lcsProgramDone (partly : Option Word)
  /-- EXTEST (R433): JTAG boundary scan EXTEST instruction, or BYPASS where not allowed. -/
  | extest
  /-- IDCODE (R433): JTAG IDCODE instruction. -/
  | idcode
  /-- SAMPLE_PRELOAD (R433): JTAG SAMPLE/PRELOAD instruction, or BYPASS where not allowed. -/
  | samplePreload
  /-- DTMCS (R433): JTAG debug transport control instruction, allowed only in debug states. -/
  | dtmcs
  /-- DMI (R433): JTAG debug module interface instruction, allowed only in debug states. -/
  | dmi
  /-- BYPASS (R433): JTAG BYPASS instruction. -/
  | bypass
  /-- EVENT_RECORD_WRITE (R440): The recorder writes one queued record per FCLK cycle, or a LOST record after drops. -/
  | eventRecordWrite
  /-- EVR_FREEZE (R442): A write of EVR_CTRL.FREEZE stops or resumes recording, writing a MISSED record on resume. -/
  | evrFreeze (on : Bool)
  /-- EVR_FREEZE_TIMEOUT (R442): FREEZE has been set for EVR_FREEZE_MAX ms and clears itself. -/
  | evrFreezeTimeout
  /-- EVR_CLEAR (R443): Discards every event record and writes a CLEAR record. -/
  | evrClear (core : Nat)
  /-- EVR_TIME_SET (R437): EVR_TIME_CMD.GO loads a new device time and records TIME_SET. -/
  | evrTimeSet
  /-- EVR_POST (R439): A write of EVR_POST_CODE posts an owner record. -/
  | evrPost (code : BitVec 12)
  /-- PMC_ZERO (R451): PMC_CTRL.ZERO zeroes every counter, the ring and the histograms. -/
  | pmcZero (x : Master) (r : Nat)
  /-- PMC_FREEZE (R445): PMC_CTRL.FREEZE stops or restarts all 16 counters in one cycle. -/
  | pmcFreeze (x : Master) (r : Nat) (on : Bool)
  /-- PMC_HIST_CLR (R451): Clears the latency histograms of the selected groups. -/
  | pmcHistClr (x : Master) (r : Nat) (groups : BitVec 16)
  /-- PMC_COUNTER_WRAP (R445): A counter passes from 2^48 − 1 to 0 and sets its PMC_OVF bit. -/
  | pmcCounterWrap (r c : Nat)
  /-- POWER_ON (R455): VDD_CORE enters its range and starts a power-on chip reset. -/
  | powerOn
  /-- RESET_N (R455): RESET_N held low for 100 ns or longer resets the chip. -/
  | resetN
  /-- RST_CMD (R455): A write of 0x0000_00C1 to RST_CMD resets the chip. -/
  | rstCmd (v : Word)
  /-- WATCHDOG_HALF (R467): Half the watchdog timeout passes without a kick and IRQST.BLOCK[16] is set. -/
  | watchdogHalf
  /-- WATCHDOG_EXPIRY (R455): RST_WDT expires without a kick and resets the chip. -/
  | watchdogExpiry
  /-- RST_WDT_KICK (R467): Any write restarts the watchdog. -/
  | rstWdtKick
  /-- BOOT_FAILURE (R463): A stage finds a component missing or failing verification, writes RST_BOOT and resets with cause 6. -/
  | bootFailure (typ : Byte) (status : Cell)
  /-- ROM_START (R461): After reset release the ROM decodes the life-cycle state, chooses the slot and verifies the first stage. -/
  | romStart (f : Machine.FirstStage) (vdd vbat : Bool)
  /-- RST_READY (R464): A write of RST_READY drives READY when its conditions hold. -/
  | rstReady (on : Bool)
  /-- BFL_TRANSFER (R468): BFL_XFER.GO starts a hashed read from the boot flash. -/
  | bflTransfer
  /-- BFL_TRANSFER_DONE (R468): A boot flash transfer completes with its digest. -/
  | bflTransferDone (r : Machine.BflResult)
  /-- BFL_COMMAND (R460): A write of BFL_CMD.OP issues an xSPI command, refusing program and erase of the current platform area. -/
  | bflCommand (op : Byte) (reply : Bytes)
  /-- HBM_TRAINING_DONE (R471): HBM training completes, the XTS keys are drawn and HBC becomes RUNNING, or it fails. -/
  | hbmTrainingDone (ok : Bool) (us : BitVec 24)
  /-- HBM_INIT_DONE (R471): The background initialisation of the whole stack finishes. -/
  | hbmInitDone
  /-- HBM_SCRUB_PASS (R472): A patrol scrub pass completes over every line. -/
  | hbmScrubPass
  /-- HBM_TEMP_THRESHOLD (R472): The stack temperature crosses 85 °C or 95 °C, doubling refresh or raising an interrupt. -/
  | hbmTempThreshold (t : BitVec 16)
  /-- SERDES_PLL_LOCK_LOSS (R465): A SerDes PLL loses lock and CLK_SD_LOSS counts it. -/
  | serdesPllLockLoss (q : BitVec 6)
  /-- DIE_TEMP_ALARM (R466): The die temperature conversion exceeds PWR_TALARM and raises IRQST.BLOCK[16]. -/
  | dieTempAlarm (t : BitVec 16)
  /-- I2C_READ (R484): An I2C read at address 0x5A returns a status byte. -/
  | i2cRead (c : Byte)
  /-- MGT_LINK_DOWN (R83): The management port loses SGMII synchronisation or its PHY link, clears MGT_STATUS.LINK_UP and raises IRQST.BLOCK[16]. -/
  | mgtLinkDown (syncLost : Bool)
  /-- PAUSE_QUANTA_EXPIRY (R70): The pause time of a received PAUSE or PFC frame runs out, and held transmission resumes with PAUSED_RX clearing. -/
  | pauseQuantaExpiry (p : Nat) (classes : Byte)
  /-- PAIR_LANE_BLOCK_LOCK (R381): One pair lane loses or regains block lock while other lanes run, so the link continues with payload in proportion and PAIR_STATUS.LANES changes. -/
  | pairLaneBlockLock (n : BitVec 3) (lock : Bool)
  /-- ROLE_MESSAGE_RECEIVED (R398): A standby receives the role message of a switchover, or the promote message of a partner that has locked, and promotes to ACTIVE. -/
  | roleMessageReceived (switchover : Bool)
  /-- RAIL_RETURN (R403): VDD_CORE or VDD_IO returns into range after a single-rail dip with a LOG response, and the vault and key bus reopen. -/
  | railReturn (core : Bool)
  /-- ILLEGAL_INSTRUCTION (R336): A Kreur core executes a word of a reserved class or OP, or GUARD 0 with SENSE 1, and takes an ILLEGAL trap. -/
  | illegalInstruction (core : Nat)
  /-- TMP_LOGIC_PARITY (R420): A parity error in the tamper domain's main-power logic sets ERR.UNCORRECTED and starts an immediate stimulus test of every monitor. -/
  | tmpLogicParity (code : Byte)
  /-- PMC_COUNTER_UNCORRECTABLE (R449): An uncorrectable error in a PMC counter sets ERR.UNCORRECTED, zeroes that counter and sets its PMC_OVF bit, without failing the page. -/
  | pmcCounterUncorrectable (r c : Nat)
  /-- COUNTER_WRITE_REFILL (R206): A vault counter's write budget of one write per second, with bursts of 64, refills over time so that a counter refused with BUSY accepts writes again. -/
  | counterWriteRefill (n : Nat)
  /-- CELL_INSERTED (R488): A backup cell is fitted while main power is present, VBAT returns, and the part starts charging the VHOLD capacitor. -/
  | cellInserted
  /-- VHOLD_CHARGED (R487): The VHOLD capacitor finishes charging from VBAT within 2 s, so the battery domain again has hold-up for a later cell removal. -/
  | vholdCharged
  /-- HOLD_UP_EXHAUSTED (R487): With main power off and no cell, the hold-up capacitor runs down to 1.6 V and the battery domain stops, losing its retained state. -/
  | holdUpExhausted
  deriving DecidableEq, Repr

end Sys2Proof
end

