-- ==== Sys2Proof/Decode.lean ====
section
/-!
DEFINITION. The decoder of command words, and the words of the Kreur instructions.  The command table gives no row a width
or any bits, so no word spells a command; R307 and the tables of R310 to R335 give the words a Kreur program holds.
-/
namespace Sys2Proof

/-- The command that a word spells by the table's bits: none, for the table gives no bits. -/
def decodeTableWord (_nbits _w : Nat) : Option Instr := none

/-- An instruction word (R307): GUARD in [15:13], SENSE in [12], CLASS in [11:8], OP in [7:0]. -/
def kWord (g : Nat) (t : Bool) (cls op : Nat) : BitVec 16 :=
  BitVec.ofNat 3 g ++ BitVec.ofBool t ++ BitVec.ofNat 4 cls ++ BitVec.ofNat 8 op

/-- The words of a Kreur instruction, by the tables of R310, R311, R313, R314, R316, R317, R318, R321, R323, R324, R326,
R327 and R335; empty for every other command.  The rows of one SEND target share its word and differ in the descriptor. -/
def kreurWords : Instr → List (BitVec 16)
  | .nop _ g t => [kWord g t 0x0 0x0]
  | .dup _ g t => [kWord g t 0x0 0x1]
  | .drop _ g t => [kWord g t 0x0 0x2]
  | .swap _ g t => [kWord g t 0x0 0x3]
  | .over _ g t => [kWord g t 0x0 0x4]
  | .rot _ g t => [kWord g t 0x0 0x5]
  | .nip _ g t => [kWord g t 0x0 0x6]
  | .tuck _ g t => [kWord g t 0x0 0x7]
  | .dup2 _ g t => [kWord g t 0x0 0x8]
  | .drop2 _ g t => [kWord g t 0x0 0x9]
  | .swap2 _ g t => [kWord g t 0x0 0xa]
  | .pick _ g t => [kWord g t 0x0 0xb]
  | .depth _ g t => [kWord g t 0x0 0xc]
  | .add _ g t => [kWord g t 0x1 0x0]
  | .sub _ g t => [kWord g t 0x1 0x1]
  | .adc _ g t => [kWord g t 0x1 0x2]
  | .sbc _ g t => [kWord g t 0x1 0x3]
  | .and _ g t => [kWord g t 0x1 0x4]
  | .or _ g t => [kWord g t 0x1 0x5]
  | .xor _ g t => [kWord g t 0x1 0x6]
  | .not _ g t => [kWord g t 0x1 0x7]
  | .neg _ g t => [kWord g t 0x1 0x8]
  | .abs _ g t => [kWord g t 0x1 0x9]
  | .mul _ g t => [kWord g t 0x1 0xa]
  | .muls _ g t => [kWord g t 0x1 0xb]
  | .div _ g t => [kWord g t 0x1 0xc]
  | .divs _ g t => [kWord g t 0x1 0xd]
  | .add32 _ g t => [kWord g t 0x1 0xe]
  | .sub32 _ g t => [kWord g t 0x1 0xf]
  | .inc _ g t => [kWord g t 0x1 0x10]
  | .dec _ g t => [kWord g t 0x1 0x11]
  | .addi _ g t n => [kWord g t 0x1 (0x80 + n.toNat)]
  | .shl _ g t => [kWord g t 0x2 0x0]
  | .shr _ g t => [kWord g t 0x2 0x1]
  | .sar _ g t => [kWord g t 0x2 0x2]
  | .rol _ g t => [kWord g t 0x2 0x3]
  | .ror _ g t => [kWord g t 0x2 0x4]
  | .shl32 _ g t => [kWord g t 0x2 0x5]
  | .shr32 _ g t => [kWord g t 0x2 0x6]
  | .shli _ g t n => [kWord g t 0x2 (0x10 + n.toNat)]
  | .shri _ g t n => [kWord g t 0x2 (0x20 + n.toNat)]
  | .sari _ g t n => [kWord g t 0x2 (0x30 + n.toNat)]
  | .roli _ g t n => [kWord g t 0x2 (0x40 + n.toNat)]
  | .bfx _ g t imm => [kWord g t 0x3 0x0, imm]
  | .bfxs _ g t imm => [kWord g t 0x3 0x1, imm]
  | .bfi _ g t imm => [kWord g t 0x3 0x2, imm]
  | .clz _ g t => [kWord g t 0x3 0x3]
  | .ctz _ g t => [kWord g t 0x3 0x4]
  | .popc _ g t => [kWord g t 0x3 0x5]
  | .bperm _ g t imm => [kWord g t 0x3 0x6, imm]
  | .eq _ g t pd => [kWord g t 0x4 (8 * 0x0 + pd)]
  | .ne _ g t pd => [kWord g t 0x4 (8 * 0x1 + pd)]
  | .ltu _ g t pd => [kWord g t 0x4 (8 * 0x2 + pd)]
  | .geu _ g t pd => [kWord g t 0x4 (8 * 0x3 + pd)]
  | .gtu _ g t pd => [kWord g t 0x4 (8 * 0x4 + pd)]
  | .leu _ g t pd => [kWord g t 0x4 (8 * 0x5 + pd)]
  | .lt _ g t pd => [kWord g t 0x4 (8 * 0x6 + pd)]
  | .ge _ g t pd => [kWord g t 0x4 (8 * 0x7 + pd)]
  | .gt _ g t pd => [kWord g t 0x4 (8 * 0x8 + pd)]
  | .le _ g t pd => [kWord g t 0x4 (8 * 0x9 + pd)]
  | .eqz _ g t pd => [kWord g t 0x4 (8 * 0xa + pd)]
  | .nez _ g t pd => [kWord g t 0x4 (8 * 0xb + pd)]
  | .ltz _ g t pd => [kWord g t 0x4 (8 * 0xc + pd)]
  | .gez _ g t pd => [kWord g t 0x4 (8 * 0xd + pd)]
  | .bit _ g t pd => [kWord g t 0x4 (8 * 0xe + pd)]
  | .pc _ g t pd => [kWord g t 0x4 (8 * 0x10 + pd)]
  | .pv _ g t pd => [kWord g t 0x4 (8 * 0x11 + pd)]
  | .pdz _ g t pd => [kWord g t 0x4 (8 * 0x12 + pd)]
  | .predAnd _ g t ps pd => [kWord g t 0x5 (64 * 0 + 8 * ps + pd)]
  | .predOr _ g t ps pd => [kWord g t 0x5 (64 * 1 + 8 * ps + pd)]
  | .predXor _ g t ps pd => [kWord g t 0x5 (64 * 2 + 8 * ps + pd)]
  | .predMov _ g t ps pd => [kWord g t 0x5 (64 * 3 + 8 * ps + pd)]
  | .lit8 _ g t n => [kWord g t 0x6 n.toNat]
  | .lit16 _ g t n => [kWord g t 0x6 0xFF, n]
  | .ld _ g t => [kWord g t 0x7 0x0]
  | .st _ g t => [kWord g t 0x7 0x1]
  | .ldb _ g t => [kWord g t 0x7 0x2]
  | .stb _ g t => [kWord g t 0x7 0x3]
  | .ld32 _ g t => [kWord g t 0x7 0x4]
  | .st32 _ g t => [kWord g t 0x7 0x5]
  | .ldp _ g t => [kWord g t 0x7 0x6]
  | .stp _ g t => [kWord g t 0x7 0x7]
  | .copy _ g t => [kWord g t 0x7 0x8]
  | .zero _ g t => [kWord g t 0x7 0x9]
  | .ldw _ g t w => [kWord g t 0x7 (0x40 + w.toNat)]
  | .stw _ g t w => [kWord g t 0x7 (0x60 + w.toNat)]
  | .ldc _ g t w => [kWord g t 0x7 (0x80 + w.toNat)]
  | .br _ g t d => [kWord g t 0x8 d.toNat]
  | .call _ g t a => [kWord g t 0x8 0x80, a]
  | .jmp _ g t a => [kWord g t 0x8 0x81, a]
  | .loop _ g t a => [kWord g t 0x8 0x82, a]
  | .ret _ g t => [kWord g t 0x8 0x83]
  | .calls _ g t => [kWord g t 0x8 0x84]
  | .jmps _ g t => [kWord g t 0x8 0x85]
  | .tor _ g t => [kWord g t 0x9 0x0]
  | .fromr _ g t => [kWord g t 0x9 0x1]
  | .copyr _ g t => [kWord g t 0x9 0x2]
  | .rdrop _ g t => [kWord g t 0x9 0x3]
  | .rdepth _ g t => [kWord g t 0x9 0x4]
  | .sendCipher _ g t => [kWord g t 0xA 0x0]
  | .sendHash _ g t => [kWord g t 0xA 0x1]
  | .sendEngine _ g t => [kWord g t 0xA 0x2]
  | .ctxDraw _ g t => [kWord g t 0xA 0x3]
  | .ctxFetch _ g t => [kWord g t 0xA 0x3]
  | .ctxCreate _ g t => [kWord g t 0xA 0x3]
  | .ctxDelete _ g t => [kWord g t 0xA 0x3]
  | .sendLookup _ g t => [kWord g t 0xA 0x4]
  | .sendVault _ g t => [kWord g t 0xA 0x5]
  | .timerSubmit _ g t => [kWord g t 0xA 0x6]
  | .timerExpire _ g t => [kWord g t 0xA 0x6]
  | .timerHeartbeat _ g t => [kWord g t 0xA 0x6]
  | .timerCancel _ g t => [kWord g t 0xA 0x6]
  | .wait _ g t => [kWord g t 0xa 0x10]
  | .getw _ g t => [kWord g t 0xa 0x11]
  | .rels _ g t => [kWord g t 0xa 0x12]
  | .resv _ g t => [kWord g t 0xa 0x13]
  | .rand _ g t => [kWord g t 0xa 0x14]
  | .done _ g t => [kWord g t 0xa 0x15]
  | .yield _ g t => [kWord g t 0xa 0x16]
  | .sleep _ g t => [kWord g t 0xa 0x17]
  | .trap _ g t n => [kWord g t 0xB (0x0 + n.toNat)]
  | .csrget _ g t n => [kWord g t 0xB (0x40 + n.toNat)]
  | .csrput _ g t n => [kWord g t 0xB (0x80 + n.toNat)]
  | _ => []

/-- The fields of an instruction word (R307): GUARD, SENSE, CLASS and OP. -/
def kFields (w : BitVec 16) : Nat × Bool × Nat × Nat :=
  ((w.extractLsb' 13 3).toNat, w.getLsbD 12, (w.extractLsb' 8 4).toNat, (w.extractLsb' 0 8).toNat)

/-- The words at the front of a program that spell the Kreur instruction `i`. -/
def spells (p : List (BitVec 16)) (i : Instr) : Bool :=
  let w := kreurWords i
  ! w.isEmpty && decide (p.take w.length = w)

end Sys2Proof
end

