-- ==== Sys2Proof/Config.lean ====
section
/-!
DEFINITION. What the spec leaves open: values nothing constrains, as constants without a body, applied to a
counter of the state or to the operands they depend on.
-/
namespace Sys2Proof.Config

/-- DESIGN CHOICE (log 8): the `n`-th string of 1,024 raw bits that the conditioner takes from the oscillators (R291 to
R294). -/
opaque rawEntropy : Nat → BitVec 1024

/-- DESIGN CHOICE (log 12): the type of service, fragment flag and identification of an IPv4 response, which R62
does not give. -/
opaque ipv4Fill : Nat → BitVec 32

/-- DESIGN CHOICE (log 12): the traffic class and flow label of an IPv6 response, which R62 does not give. -/
opaque ipv6Fill : Nat → BitVec 32

/-- DESIGN CHOICE (log 13): the submission index in the completion of a timer's item, which no submission ring
entry names (R349, R355). -/
opaque timerIndex : Nat → BitVec 16

/-- DESIGN CHOICE (log 14): the result word that the program of a state-changing command leaves in the
duplicate-tag window when it ends with DONE, which R332 gives no operand for. -/
opaque doneResult : Nat → BitVec 64

/-- DESIGN CHOICE (log 15): the completion word of a platform request to the vault, internal to the platform
bundle (R327). -/
opaque vaultReply : Nat → BitVec 256

/-- DESIGN CHOICE (log 16): the cell GETW pushes for a cell number above 15, which R326 gives no value for. -/
opaque getwBeyond : Nat → BitVec 16

/-- DESIGN CHOICE (log 8): the 32,768 raw samples of a capture (R302). -/
opaque rawSamples : Nat → BitVec 32768

/-- DESIGN CHOICE (log 18): the program word address of the platform dispatcher, which R320 gives no number. -/
opaque dispatcherEntry : BitVec 16

/-- DESIGN CHOICE (log 20): the OFFSET digits beyond the end of a customer PIN shorter than CHECK_LEN, which R127 does
not state. -/
opaque offsetDigits : Nat → BitVec 64

/-- DESIGN CHOICE (log 23): the check value of an HMAC key, which R149 does not define. -/
opaque hmacKcv : Nat → BitVec 24

/-- DESIGN CHOICE (log 25): what DEV_STATUS returns beside TAMPER_STATE, which the spec does not list (R417). -/
opaque deviceStatus : Nat → BitVec 64

/-- DESIGN CHOICE (log 26): the cause PAIR_LASTROLE takes on a role change that R401's list does not name: a lock, an
enable, a fault of PAR, and the joining of a partner. -/
opaque roleCause : Nat → BitVec 3

/-- DESIGN CHOICE (log 27): the amount of a window bucket whose sum leaves its 48 bits, which R167 does not state. -/
opaque bucketAmount : Nat → BitVec 48

/-- DESIGN CHOICE (log 28): the number an engine takes from a ledger operand that is no packed decimal, which only an
engine job can bring (R278). -/
opaque decOperand : Nat → BitVec 256

/-- DESIGN CHOICE (log 29): the lengths in bytes of the Generate calls that an engine job makes of its generator before a
draw, by its function, the 64 bytes that instantiate the generator and the draw: R257 does not say in which order and
lengths the microcode draws. -/
opaque drawsBefore : Nat → List (BitVec 8) → Nat → List Nat

/-- DESIGN CHOICE (log 30): POINT elements the device returns are compressed; R265 allows both forms. -/
opaque compressedPoints : Bool

/-- DESIGN CHOICE (log 34): what a comparator or converter that a live register follows shows at a tick, by the
register's address (R465, R466). -/
opaque liveInput : Nat → Nat → BitVec 32

/-- DESIGN CHOICE (log 35): which bits of a life-cycle slot stand when a reset or power loss stops its programming
(R424, R430). -/
opaque slotBits : Nat → BitVec 32

/-- DESIGN CHOICE (log 35): the status RST_BOOT shows for a first stage below the version floor, which R461 does not
give. -/
opaque floorStatus : BitVec 16

/-- DESIGN CHOICE (log 36): SHA-384 of the ROM, 48 bytes (R462). -/
opaque romDigest : BitVec 384

/-- DESIGN CHOICE (log 36): the Decvos life-cycle public key whose hash the ROM holds, compressed (R427). -/
opaque lifeCycleKey : BitVec 392

/-- DESIGN CHOICE (log 36): the Decvos voucher public key (R427). -/
opaque voucherKey : BitVec 392

/-- DESIGN CHOICE (log 94): the ERR.CODE a page takes with an injected single-bit error, by the page's address: the
chapters list codes of uncorrectable errors alone (R48). -/
opaque correctedCode : Nat → BitVec 8

/-- DESIGN CHOICE (log 96): the words of the ROM, which the spec does not print (R40). -/
opaque romWord : Nat → BitVec 32

/-- DESIGN CHOICE (log 106): how long the MAC of DUKPT_TXN_KEY is without MAC_LEN, which R144 and R145 do not say. -/
opaque txnMacLen : BitVec 8

/-- DESIGN CHOICE (log 106): the IV of DUKPT_TXN_KEY without IV. -/
opaque txnIv : BitVec 128

/-- DESIGN CHOICE (log 59): the mask stream of an NVM bank, by its seed and the position: R181 and R182 give the seed and
not the generator. -/
opaque bankMask : List (BitVec 8) → Nat → BitVec 1024

end Sys2Proof.Config
end

