-- ==== Sys2Proof/Machine/SMap.lean ====
section
/-!
DEFINITION. The operations of the sparse map: one reading and one writing function, and the canonical form
(keys strictly rising, no entry equal to what an unlisted key reads as).
-/
namespace Sys2Proof.Machine

/-- What key `k` holds: its entry, or `d k` when none is listed. -/
def mget {α : Type} (d : Nat → α) : SMap α → Nat → α
  | [], k => d k
  | (k', v) :: m, k => if k = k' then v else mget d m k

/-- Key `k` set to `v`, the canonical form kept. -/
def mset {α : Type} [DecidableEq α] (d : Nat → α) : SMap α → Nat → α → SMap α
  | [], k, v => if v = d k then [] else [(k, v)]
  | (k', v') :: m, k, v =>
    if k < k' then (if v = d k then (k', v') :: m else (k, v) :: (k', v') :: m)
    else if k = k' then (if v = d k then m else (k, v) :: m)
    else (k', v') :: mset d m k v

/-- The canonical form above a lower bound on the keys. -/
def mwfFrom {α : Type} [DecidableEq α] (d : Nat → α) : Nat → SMap α → Bool
  | _, [] => true
  | lo, (k, v) :: m => decide (lo ≤ k) && decide (v ≠ d k) && mwfFrom d (k + 1) m

/-- The canonical form. -/
def mwf {α : Type} [DecidableEq α] (d : Nat → α) (m : SMap α) : Bool := mwfFrom d 0 m

/-- Every listed value changed by `f`, the canonical form kept. -/
def mmap {α : Type} [DecidableEq α] (d : Nat → α) (f : α → α) (m : SMap α) : SMap α :=
  m.filterMap fun e => if f e.2 = d e.1 then none else some (e.1, f e.2)

/-- Every entry that fails `keep` goes back to what an unlisted key reads as. -/
def mfilter {α : Type} (keep : Nat → α → Bool) (m : SMap α) : SMap α := m.filter fun e => keep e.1 e.2

end Sys2Proof.Machine
end

