-- ==== Sys2Proof/Machine/Bytes.lean ====
section
/-!
DEFINITION. Byte strings: conversion to and from numbers (big-endian unless named otherwise, R7), slices,
exclusive or, and bytes of a memory held as a sparse map whose unlisted bytes read zero.
-/
namespace Sys2Proof.Machine

/-- A big-endian number. -/
def beNat (b : Bytes) : Nat := b.foldl (fun n x => n * 256 + x.toNat) 0

/-- The low `w` bytes of a number, big-endian. -/
def beBytes : Nat → Nat → Bytes
  | 0, _ => []
  | w + 1, n => BitVec.ofNat 8 (n / 256 ^ w) :: beBytes w n

/-- A little-endian number. -/
def leNat (b : Bytes) : Nat := beNat b.reverse

/-- The low `w` bytes of a number, little-endian. -/
def leBytes (w n : Nat) : Bytes := (beBytes w n).reverse

/-- `n` bytes from offset `off`. -/
def slice (b : Bytes) (off n : Nat) : Bytes := (b.drop off).take n

/-- The big-endian number in `n` bytes at `off`. -/
def field (b : Bytes) (off n : Nat) : Nat := beNat (slice b off n)

/-- Byte `i`, zero beyond the end. -/
def byteAt (b : Bytes) (i : Nat) : Nat := (b.getD i 0).toNat

/-- Bytewise exclusive or, to the shorter length. -/
def xorB (a b : Bytes) : Bytes := List.zipWith (· ^^^ ·) a b

/-- `n` zero bytes. -/
def zeros (n : Nat) : Bytes := List.replicate n 0

/-- Cut or extended with zero bytes on the right to `n` bytes. -/
def fitR (n : Nat) (b : Bytes) : Bytes := b.take n ++ zeros (n - b.length)

/-- The string with `v` written over it from offset `off`. -/
def patch (b : Bytes) (off : Nat) (v : Bytes) : Bytes :=
  b.take off ++ v ++ b.drop (off + v.length)

/-- Cuts a string into blocks of `n` bytes, the last one perhaps short.  The first argument bounds the count. -/
def chunksAux : Nat → Nat → Bytes → List Bytes
  | 0, _, _ => []
  | _ + 1, _, [] => []
  | k + 1, n, b => b.take n :: chunksAux k n (b.drop n)

/-- Blocks of `n` bytes. -/
def chunks (n : Nat) (b : Bytes) : List Bytes := chunksAux b.length n b

/-- An ASCII string as bytes. -/
def ascii (s : List Char) : Bytes := s.map fun c => BitVec.ofNat 8 c.toNat

/-- A free run of `n` positions from a sorted list of used positions with their lengths, below `top`. -/
def freeRun (n top : Nat) : Nat → List (Nat × Nat) → Option Nat
  | pos, [] => if pos + n ≤ top then some pos else none
  | pos, (k, len) :: l => if pos + n ≤ k then some pos else freeRun n top (max pos (k + len)) l

/-- A memory whose unlisted bytes read zero: the byte at `a`. -/
def memGet (m : SMap Byte) (a : Nat) : Byte := mget (fun _ => 0) m a

/-- The form every memory keeps: addresses strictly rise, and no zero byte is listed. -/
def Memory.wf (m : SMap Byte) : Bool := mwf (fun _ => 0) m

/-- The byte at `a` stored. -/
def memSet (m : SMap Byte) (a : Nat) (v : Byte) : SMap Byte := mset (fun _ => 0) m a v

/-- `n` bytes from `a`. -/
def memRead (m : SMap Byte) (a : Nat) : Nat → Bytes
  | 0 => []
  | n + 1 => memGet m a :: memRead m (a + 1) n

/-- A byte string stored from `a`. -/
def memWrite (m : SMap Byte) (a : Nat) : Bytes → SMap Byte
  | [] => m
  | b :: bs => memWrite (memSet m a b) (a + 1) bs

/-- Every byte of `[a, a + n)` zeroed. -/
def memZero (m : SMap Byte) (a n : Nat) : SMap Byte :=
  mfilter (fun k _ => decide (k < a) || decide (a + n ≤ k)) m

end Sys2Proof.Machine
end

