-- ==== Sys2Proof/Machine/RegTables.lean ====
section
/-!
DEFINITION. The register fields of every page: offset, bits, type, reset value, and whether the field is
lockable (R49) or stopped only (R54), as the register tables of the spec give them.
-/
namespace Sys2Proof.Machine

/-- A register field: page offset, lowest bit, width. -/
structure Fld where
  off : Nat
  lo : Nat
  width : Nat
  deriving DecidableEq, Repr

/-- The type codes of the register tables (00_scope). -/
inductive RegType where
  | ro | rw | wo | w1c | w1s | so
  deriving DecidableEq, Repr

/-- One row of a register table.  `own` marks a field whose writes have a command or a rule of their own;
`count` and `stride` give a row that repeats. -/
structure FieldDef where
  fld : Fld
  ty : RegType
  reset : Nat
  lock : Bool
  stopped : Bool
  own : Bool
  count : Nat
  stride : Nat
  deriving DecidableEq, Repr

/-- ID.BTYPE (R46). -/
def ID_BTYPE : Fld := ⟨0x000, 16, 16⟩
/-- ID.INST (R46). -/
def ID_INST : Fld := ⟨0x000, 8, 8⟩
/-- ID.VER (R46). -/
def ID_VER : Fld := ⟨0x000, 0, 8⟩
/-- CAP (R46). -/
def CAP : Fld := ⟨0x004, 0, 32⟩
/-- CTRL.DRAIN_TO (R46). -/
def CTRL_DRAIN_TO : Fld := ⟨0x008, 16, 16⟩
/-- CTRL.SPARE_ALLOW (R46). -/
def CTRL_SPARE_ALLOW : Fld := ⟨0x008, 4, 1⟩
/-- CTRL.TEST_EN (R46). -/
def CTRL_TEST_EN : Fld := ⟨0x008, 3, 1⟩
/-- CTRL.SQUASH_REQ (R46). -/
def CTRL_SQUASH_REQ : Fld := ⟨0x008, 2, 1⟩
/-- CTRL.DRAIN_REQ (R46). -/
def CTRL_DRAIN_REQ : Fld := ⟨0x008, 1, 1⟩
/-- CTRL.EN (R46). -/
def CTRL_EN : Fld := ⟨0x008, 0, 1⟩
/-- STAT.INFLIGHT (R46). -/
def STAT_INFLIGHT : Fld := ⟨0x00C, 16, 16⟩
/-- STAT.SPARE_IN_USE (R46). -/
def STAT_SPARE_IN_USE : Fld := ⟨0x00C, 5, 1⟩
/-- STAT.BUSY (R46). -/
def STAT_BUSY : Fld := ⟨0x00C, 4, 1⟩
/-- STAT.STATE (R46). -/
def STAT_STATE : Fld := ⟨0x00C, 0, 4⟩
/-- ERR.MULTIPLE (R46). -/
def ERR_MULTIPLE : Fld := ⟨0x010, 31, 1⟩
/-- ERR.ACCESS (R46). -/
def ERR_ACCESS : Fld := ⟨0x010, 12, 1⟩
/-- ERR.TIMEOUT (R46). -/
def ERR_TIMEOUT : Fld := ⟨0x010, 11, 1⟩
/-- ERR.PARITY (R46). -/
def ERR_PARITY : Fld := ⟨0x010, 10, 1⟩
/-- ERR.UNCORRECTED (R46). -/
def ERR_UNCORRECTED : Fld := ⟨0x010, 9, 1⟩
/-- ERR.CORRECTED (R46). -/
def ERR_CORRECTED : Fld := ⟨0x010, 8, 1⟩
/-- ERR.CODE (R46). -/
def ERR_CODE : Fld := ⟨0x010, 0, 8⟩
/-- ERRMASK.CLASS (R46). -/
def ERRMASK_CLASS : Fld := ⟨0x014, 8, 5⟩
/-- ERRINJ.PARITY (R46). -/
def ERRINJ_PARITY : Fld := ⟨0x018, 10, 1⟩
/-- ERRINJ.UNCORR (R46). -/
def ERRINJ_UNCORR : Fld := ⟨0x018, 9, 1⟩
/-- ERRINJ.CORR (R46). -/
def ERRINJ_CORR : Fld := ⟨0x018, 8, 1⟩
/-- IRQST.BLOCK (R46). -/
def IRQST_BLOCK : Fld := ⟨0x01C, 16, 16⟩
/-- IRQST.SPARE (R46). -/
def IRQST_SPARE : Fld := ⟨0x01C, 2, 1⟩
/-- IRQST.STATE (R46). -/
def IRQST_STATE : Fld := ⟨0x01C, 1, 1⟩
/-- IRQST.ERR (R46). -/
def IRQST_ERR : Fld := ⟨0x01C, 0, 1⟩
/-- IRQEN (R46). -/
def IRQEN : Fld := ⟨0x020, 0, 32⟩
/-- LOCK.LOCK (R46). -/
def LOCK_LOCK : Fld := ⟨0x024, 0, 1⟩
/-- SPARE.SITE (R46). -/
def SPARE_SITE : Fld := ⟨0x028, 8, 8⟩
/-- SPARE.LEFT (R46). -/
def SPARE_LEFT : Fld := ⟨0x028, 0, 8⟩
/-- HEALTH.CRUISE (R46). -/
def HEALTH_CRUISE : Fld := ⟨0x02C, 24, 8⟩
/-- HEALTH.UNCORR (R46). -/
def HEALTH_UNCORR : Fld := ⟨0x02C, 16, 8⟩
/-- HEALTH.CORR (R46). -/
def HEALTH_CORR : Fld := ⟨0x02C, 0, 16⟩
/-- TOP_DEVID_0–3 (R55), entry `i`. -/
def TOP_DEVID (i : Nat) : Fld := ⟨0x040 + 4 * i, 0, 32⟩
/-- TOP_PART.STEP (R55). -/
def TOP_PART_STEP : Fld := ⟨0x050, 16, 8⟩
/-- TOP_PART.CODE (R55). -/
def TOP_PART_CODE : Fld := ⟨0x050, 0, 16⟩
/-- TOP_FITTED_0.HBM_GIB (R55). -/
def TOP_FITTED_0_HBM_GIB : Fld := ⟨0x054, 24, 8⟩
/-- TOP_FITTED_0.EVR_HIST (R55). -/
def TOP_FITTED_0_EVR_HIST : Fld := ⟨0x054, 11, 1⟩
/-- TOP_FITTED_0.LEDGER (R55). -/
def TOP_FITTED_0_LEDGER : Fld := ⟨0x054, 10, 1⟩
/-- TOP_FITTED_0.STANDIN (R55). -/
def TOP_FITTED_0_STANDIN : Fld := ⟨0x054, 9, 1⟩
/-- TOP_FITTED_0.PAIR (R55). -/
def TOP_FITTED_0_PAIR : Fld := ⟨0x054, 8, 1⟩
/-- TOP_FITTED_0.RGN (R55). -/
def TOP_FITTED_0_RGN : Fld := ⟨0x054, 0, 4⟩
/-- TOP_FITTED_1.KCR (R55). -/
def TOP_FITTED_1_KCR : Fld := ⟨0x058, 24, 8⟩
/-- TOP_FITTED_1.CPH (R55). -/
def TOP_FITTED_1_CPH : Fld := ⟨0x058, 16, 8⟩
/-- TOP_FITTED_1.HSH (R55). -/
def TOP_FITTED_1_HSH : Fld := ⟨0x058, 8, 8⟩
/-- TOP_FITTED_1.PKE (R55). -/
def TOP_FITTED_1_PKE : Fld := ⟨0x058, 0, 8⟩
/-- TOP_FITTED_2.TEN_MAX (R55). -/
def TOP_FITTED_2_TEN_MAX : Fld := ⟨0x05C, 16, 10⟩
/-- TOP_FITTED_2.CTX_K (R55). -/
def TOP_FITTED_2_CTX_K : Fld := ⟨0x05C, 0, 16⟩
/-- TOP_FITTED_3.KC_K (R55). -/
def TOP_FITTED_3_KC_K : Fld := ⟨0x060, 16, 16⟩
/-- TOP_FITTED_3.BIN_K (R55). -/
def TOP_FITTED_3_BIN_K : Fld := ⟨0x060, 0, 16⟩
/-- TOP_PORTS_0–3 (R55), entry `i`. -/
def TOP_PORTS (i : Nat) : Fld := ⟨0x070 + 4 * i, 0, 32⟩
/-- TOP_RGN_STATUS.ISOLATED (R55). -/
def TOP_RGN_STATUS_ISOLATED : Fld := ⟨0x080, 8, 4⟩
/-- TOP_RGN_STATUS.ACTIVE (R55). -/
def TOP_RGN_STATUS_ACTIVE : Fld := ⟨0x080, 0, 4⟩
/-- TOP_ACTIVE_0.KCR (R55). -/
def TOP_ACTIVE_0_KCR : Fld := ⟨0x084, 24, 8⟩
/-- TOP_ACTIVE_0.CPH (R55). -/
def TOP_ACTIVE_0_CPH : Fld := ⟨0x084, 16, 8⟩
/-- TOP_ACTIVE_0.HSH (R55). -/
def TOP_ACTIVE_0_HSH : Fld := ⟨0x084, 8, 8⟩
/-- TOP_ACTIVE_0.PKE (R55). -/
def TOP_ACTIVE_0_PKE : Fld := ⟨0x084, 0, 8⟩
/-- TOP_ACTIVE_1.CCR (R55). -/
def TOP_ACTIVE_1_CCR : Fld := ⟨0x088, 24, 8⟩
/-- TOP_ACTIVE_1.OSC (R55). -/
def TOP_ACTIVE_1_OSC : Fld := ⟨0x088, 16, 8⟩
/-- TOP_ACTIVE_1.LNK (R55). -/
def TOP_ACTIVE_1_LNK : Fld := ⟨0x088, 8, 8⟩
/-- TOP_SPARES_0.CPH (R55). -/
def TOP_SPARES_0_CPH : Fld := ⟨0x08C, 16, 16⟩
/-- TOP_SPARES_0.KCR (R55). -/
def TOP_SPARES_0_KCR : Fld := ⟨0x08C, 0, 16⟩
/-- TOP_SPARES_1.PKE (R55). -/
def TOP_SPARES_1_PKE : Fld := ⟨0x090, 16, 16⟩
/-- TOP_SPARES_1.HSH (R55). -/
def TOP_SPARES_1_HSH : Fld := ⟨0x090, 0, 16⟩
/-- TOP_SPARES_2.OSC (R55). -/
def TOP_SPARES_2_OSC : Fld := ⟨0x094, 8, 4⟩
/-- TOP_SPARES_2.CCR (R55). -/
def TOP_SPARES_2_CCR : Fld := ⟨0x094, 0, 4⟩
/-- LNK_MODE.UDP6_EN (R80). -/
def LNK_MODE_UDP6_EN : Fld := ⟨0x040, 8, 1⟩
/-- LNK_MODE.UDP4_EN (R80). -/
def LNK_MODE_UDP4_EN : Fld := ⟨0x040, 7, 1⟩
/-- LNK_MODE.ETH_EN (R80). -/
def LNK_MODE_ETH_EN : Fld := ⟨0x040, 6, 1⟩
/-- LNK_MODE.FC (R80). -/
def LNK_MODE_FC : Fld := ⟨0x040, 4, 2⟩
/-- LNK_MODE.FEC (R80). -/
def LNK_MODE_FEC : Fld := ⟨0x040, 3, 1⟩
/-- LNK_MODE.TRAIN_EN (R80). -/
def LNK_MODE_TRAIN_EN : Fld := ⟨0x040, 2, 1⟩
/-- LNK_MODE.PHY (R80). -/
def LNK_MODE_PHY : Fld := ⟨0x040, 0, 2⟩
/-- LNK_ETYPE (R80). -/
def LNK_ETYPE : Fld := ⟨0x044, 0, 16⟩
/-- LNK_UDP (R80). -/
def LNK_UDP : Fld := ⟨0x048, 0, 16⟩
/-- LNK_MAC_LO (R80). -/
def LNK_MAC_LO : Fld := ⟨0x04C, 0, 32⟩
/-- LNK_MAC_HI (R80). -/
def LNK_MAC_HI : Fld := ⟨0x050, 0, 16⟩
/-- LNK_IPV4 (R80). -/
def LNK_IPV4 : Fld := ⟨0x054, 0, 32⟩
/-- LNK_IPV6_0–3 (R80), entry `i`. -/
def LNK_IPV6 (i : Nat) : Fld := ⟨0x058 + 4 * i, 0, 32⟩
/-- LNK_MAXFRM (R80). -/
def LNK_MAXFRM : Fld := ⟨0x068, 0, 14⟩
/-- LNK_BUF.RUNOUT (R80). -/
def LNK_BUF_RUNOUT : Fld := ⟨0x06C, 16, 8⟩
/-- LNK_BUF.CTL (R80). -/
def LNK_BUF_CTL : Fld := ⟨0x06C, 0, 8⟩
/-- LNK_XOFF.XON (R80). -/
def LNK_XOFF_XON : Fld := ⟨0x070, 16, 16⟩
/-- LNK_XOFF.XOFF (R80). -/
def LNK_XOFF_XOFF : Fld := ⟨0x070, 0, 16⟩
/-- LNK_PFC.EN (R80). -/
def LNK_PFC_EN : Fld := ⟨0x074, 0, 7⟩
/-- LNK_TXHOLD (R80). -/
def LNK_TXHOLD : Fld := ⟨0x078, 0, 16⟩
/-- LNK_STATUS.FENCED (R80). -/
def LNK_STATUS_FENCED : Fld := ⟨0x07C, 6, 1⟩
/-- LNK_STATUS.PAUSED_RX (R80). -/
def LNK_STATUS_PAUSED_RX : Fld := ⟨0x07C, 5, 1⟩
/-- LNK_STATUS.XOFF (R80). -/
def LNK_STATUS_XOFF : Fld := ⟨0x07C, 4, 1⟩
/-- LNK_STATUS.TRAINED (R80). -/
def LNK_STATUS_TRAINED : Fld := ⟨0x07C, 2, 1⟩
/-- LNK_STATUS.LINK_UP (R80). -/
def LNK_STATUS_LINK_UP : Fld := ⟨0x07C, 1, 1⟩
/-- LNK_STATUS.BLOCK_LOCK (R80). -/
def LNK_STATUS_BLOCK_LOCK : Fld := ⟨0x07C, 0, 1⟩
/-- LNK_CNT_RXFRM (R80). -/
def LNK_CNT_RXFRM : Fld := ⟨0x080, 0, 32⟩
/-- LNK_CNT_TXFRM (R80). -/
def LNK_CNT_TXFRM : Fld := ⟨0x084, 0, 32⟩
/-- LNK_CNT_BADFRM (R80). -/
def LNK_CNT_BADFRM : Fld := ⟨0x088, 0, 32⟩
/-- LNK_CNT_RUNOUT (R80). -/
def LNK_CNT_RUNOUT : Fld := ⟨0x08C, 0, 32⟩
/-- LNK_CNT_CTLDROP (R80). -/
def LNK_CNT_CTLDROP : Fld := ⟨0x090, 0, 32⟩
/-- LNK_CNT_TXDISC (R80). -/
def LNK_CNT_TXDISC : Fld := ⟨0x094, 0, 32⟩
/-- CLS_LVLMAP (R81). -/
def CLS_LVLMAP : Fld := ⟨0x040, 0, 21⟩
/-- CLS_FB_SHARED (R81). -/
def CLS_FB_SHARED : Fld := ⟨0x044, 0, 14⟩
/-- CLS_FB_USED (R81). -/
def CLS_FB_USED : Fld := ⟨0x048, 0, 14⟩
/-- CLS_BRK_USED (R81). -/
def CLS_BRK_USED : Fld := ⟨0x04C, 0, 7⟩
/-- CLS_DROP_NOMATCH (R81). -/
def CLS_DROP_NOMATCH : Fld := ⟨0x050, 0, 32⟩
/-- CLS_DROP_FORMAT (R81). -/
def CLS_DROP_FORMAT : Fld := ⟨0x054, 0, 32⟩
/-- CLS_DROP_BRAKE (R81). -/
def CLS_DROP_BRAKE : Fld := ⟨0x058, 0, 32⟩
/-- CLS_DROP_AUTH (R81). -/
def CLS_DROP_AUTH : Fld := ⟨0x05C, 0, 32⟩
/-- CLS_FWD (R81). -/
def CLS_FWD : Fld := ⟨0x060, 0, 32⟩
/-- CLS_DROP_STOPPED (R81). -/
def CLS_DROP_STOPPED : Fld := ⟨0x064, 0, 32⟩
/-- BRK_f.VALID (R81), entry `i`. -/
def BRK_VALID (i : Nat) : Fld := ⟨0x100 + 16 * i, 31, 1⟩
/-- BRK_f.KIND (R81), entry `i`. -/
def BRK_KIND (i : Nat) : Fld := ⟨0x100 + 16 * i, 28, 2⟩
/-- BRK_f.OWNER (R81), entry `i`. -/
def BRK_OWNER (i : Nat) : Fld := ⟨0x100 + 16 * i, 16, 10⟩
/-- BRK_f.VALUE (R81), entry `i`. -/
def BRK_VALUE (i : Nat) : Fld := ⟨0x104 + 16 * i, 0, 32⟩
/-- BRK_f.COUNT (R81), entry `i`. -/
def BRK_COUNT (i : Nat) : Fld := ⟨0x108 + 16 * i, 0, 32⟩
/-- HTB_CFG.DAMP (R82). -/
def HTB_CFG_DAMP : Fld := ⟨0x040, 16, 16⟩
/-- HTB_CFG.AGE (R82). -/
def HTB_CFG_AGE : Fld := ⟨0x040, 0, 16⟩
/-- HTB_COUNT.STATIC (R82). -/
def HTB_COUNT_STATIC : Fld := ⟨0x044, 16, 13⟩
/-- HTB_COUNT.USED (R82). -/
def HTB_COUNT_USED : Fld := ⟨0x044, 0, 13⟩
/-- HTB_MOVES (R82). -/
def HTB_MOVES : Fld := ⟨0x048, 0, 32⟩
/-- HTB_DAMPED (R82). -/
def HTB_DAMPED : Fld := ⟨0x04C, 0, 32⟩
/-- HTB_NOPORT (R82). -/
def HTB_NOPORT : Fld := ⟨0x050, 0, 32⟩
/-- HTB_OP.BUSY (R82). -/
def HTB_OP_BUSY : Fld := ⟨0x054, 31, 1⟩
/-- HTB_OP.CMD (R82). -/
def HTB_OP_CMD : Fld := ⟨0x054, 0, 2⟩
/-- HTB_IDX (R82). -/
def HTB_IDX : Fld := ⟨0x058, 0, 12⟩
/-- HTB_ENT_0.VALID (R82). -/
def HTB_ENT_0_VALID : Fld := ⟨0x05C, 31, 1⟩
/-- HTB_ENT_0.STATIC (R82). -/
def HTB_ENT_0_STATIC : Fld := ⟨0x05C, 30, 1⟩
/-- HTB_ENT_0.IP (R82). -/
def HTB_ENT_0_IP : Fld := ⟨0x05C, 29, 1⟩
/-- HTB_ENT_0.V6 (R82). -/
def HTB_ENT_0_V6 : Fld := ⟨0x05C, 28, 1⟩
/-- HTB_ENT_0.TENANT (R82). -/
def HTB_ENT_0_TENANT : Fld := ⟨0x05C, 16, 10⟩
/-- HTB_ENT_0.PORT (R82). -/
def HTB_ENT_0_PORT : Fld := ⟨0x05C, 0, 7⟩
/-- HTB_ENT_1 (R82). -/
def HTB_ENT_1 : Fld := ⟨0x060, 0, 32⟩
/-- HTB_ENT_2 (R82). -/
def HTB_ENT_2 : Fld := ⟨0x064, 0, 16⟩
/-- HTB_ENT_3.UDP (R82). -/
def HTB_ENT_3_UDP : Fld := ⟨0x068, 16, 16⟩
/-- HTB_ENT_3.MAC_HI (R82). -/
def HTB_ENT_3_MAC_HI : Fld := ⟨0x068, 0, 16⟩
/-- HTB_ENT_4–7 (R82), entry `i`. -/
def HTB_ENT (i : Nat) : Fld := ⟨0x06C + 4 * i, 0, 32⟩
/-- HTB_OP_STATUS (R82). -/
def HTB_OP_STATUS : Fld := ⟨0x07C, 0, 16⟩
/-- MGT_MODE.UDP6_EN (R88). -/
def MGT_MODE_UDP6_EN : Fld := ⟨0x040, 8, 1⟩
/-- MGT_MODE.UDP4_EN (R88). -/
def MGT_MODE_UDP4_EN : Fld := ⟨0x040, 7, 1⟩
/-- MGT_MODE.ETH_EN (R88). -/
def MGT_MODE_ETH_EN : Fld := ⟨0x040, 6, 1⟩
/-- MGT_MODE.LOOP (R88). -/
def MGT_MODE_LOOP : Fld := ⟨0x040, 0, 2⟩
/-- MGT_ETYPE (R88). -/
def MGT_ETYPE : Fld := ⟨0x044, 0, 16⟩
/-- MGT_UDP (R88). -/
def MGT_UDP : Fld := ⟨0x048, 0, 16⟩
/-- MGT_MAC_LO (R88). -/
def MGT_MAC_LO : Fld := ⟨0x04C, 0, 32⟩
/-- MGT_MAC_HI (R88). -/
def MGT_MAC_HI : Fld := ⟨0x050, 0, 16⟩
/-- MGT_IPV4 (R88). -/
def MGT_IPV4 : Fld := ⟨0x054, 0, 32⟩
/-- MGT_IPV6_0–3 (R88), entry `i`. -/
def MGT_IPV6 (i : Nat) : Fld := ⟨0x058 + 4 * i, 0, 32⟩
/-- MGT_MAXFRM (R88). -/
def MGT_MAXFRM : Fld := ⟨0x068, 0, 14⟩
/-- MGT_STATUS.ROM_SVC (R88). -/
def MGT_STATUS_ROM_SVC : Fld := ⟨0x06C, 3, 1⟩
/-- MGT_STATUS.PAUSED_RX (R88). -/
def MGT_STATUS_PAUSED_RX : Fld := ⟨0x06C, 2, 1⟩
/-- MGT_STATUS.LINK_UP (R88). -/
def MGT_STATUS_LINK_UP : Fld := ⟨0x06C, 1, 1⟩
/-- MGT_STATUS.SYNC (R88). -/
def MGT_STATUS_SYNC : Fld := ⟨0x06C, 0, 1⟩
/-- MGT_MDIO.BUSY (R88). -/
def MGT_MDIO_BUSY : Fld := ⟨0x070, 31, 1⟩
/-- MGT_MDIO.OP (R88). -/
def MGT_MDIO_OP : Fld := ⟨0x070, 26, 2⟩
/-- MGT_MDIO.PHYAD (R88). -/
def MGT_MDIO_PHYAD : Fld := ⟨0x070, 21, 5⟩
/-- MGT_MDIO.REGAD (R88). -/
def MGT_MDIO_REGAD : Fld := ⟨0x070, 16, 5⟩
/-- MGT_MDIO.DATA (R88). -/
def MGT_MDIO_DATA : Fld := ⟨0x070, 0, 16⟩
/-- MGT_CNT_RXFRM (R88). -/
def MGT_CNT_RXFRM : Fld := ⟨0x074, 0, 32⟩
/-- MGT_CNT_TXFRM (R88). -/
def MGT_CNT_TXFRM : Fld := ⟨0x078, 0, 32⟩
/-- MGT_CNT_BADFRM (R88). -/
def MGT_CNT_BADFRM : Fld := ⟨0x07C, 0, 32⟩
/-- MGT_CNT_DROP (R88). -/
def MGT_CNT_DROP : Fld := ⟨0x080, 0, 32⟩
/-- MGT_CNT_TXDISC (R88). -/
def MGT_CNT_TXDISC : Fld := ⟨0x084, 0, 32⟩
/-- MGT_CNT_SPEED (R88). -/
def MGT_CNT_SPEED : Fld := ⟨0x088, 0, 32⟩
/-- MGT_SESS (R88). -/
def MGT_SESS : Fld := ⟨0x08C, 0, 5⟩
/-- TRI_LOCK_SET (R180). -/
def TRI_LOCK_SET : Fld := ⟨0x040, 0, 13⟩
/-- TRI_LOCK_CLR (R180). -/
def TRI_LOCK_CLR : Fld := ⟨0x044, 0, 13⟩
/-- TRI_COMMIT (R180). -/
def TRI_COMMIT : Fld := ⟨0x048, 0, 1⟩
/-- TRI_STATUS.COPYING (R180). -/
def TRI_STATUS_COPYING : Fld := ⟨0x04C, 31, 1⟩
/-- TRI_STATUS.HOLD (R180). -/
def TRI_STATUS_HOLD : Fld := ⟨0x04C, 30, 1⟩
/-- TRI_STATUS.LOCKED (R180). -/
def TRI_STATUS_LOCKED : Fld := ⟨0x04C, 0, 14⟩
/-- TRI_DMA_SRC_LO (R180). -/
def TRI_DMA_SRC_LO : Fld := ⟨0x050, 0, 32⟩
/-- TRI_DMA_SRC_HI (R180). -/
def TRI_DMA_SRC_HI : Fld := ⟨0x054, 0, 4⟩
/-- TRI_DMA.GO (R180). -/
def TRI_DMA_GO : Fld := ⟨0x058, 31, 1⟩
/-- TRI_DMA.FIRST (R180). -/
def TRI_DMA_FIRST : Fld := ⟨0x058, 16, 13⟩
/-- TRI_DMA.COUNT (R180). -/
def TRI_DMA_COUNT : Fld := ⟨0x058, 0, 13⟩
/-- TRI_LOOKUPS (R180). -/
def TRI_LOOKUPS : Fld := ⟨0x05C, 0, 32⟩
/-- TRI_MISSES (R180). -/
def TRI_MISSES : Fld := ⟨0x060, 0, 32⟩
/-- TRI_BADPTR (R180). -/
def TRI_BADPTR : Fld := ⟨0x064, 0, 32⟩
/-- TRI_ERRADDR (R180). -/
def TRI_ERRADDR : Fld := ⟨0x068, 0, 20⟩
/-- VLT_STATUS.LOCKED (R216). -/
def VLT_STATUS_LOCKED : Fld := ⟨0x040, 31, 1⟩
/-- VLT_STATUS.ERASED (R216). -/
def VLT_STATUS_ERASED : Fld := ⟨0x040, 30, 1⟩
/-- VLT_STATUS.ROOT_VALID (R216). -/
def VLT_STATUS_ROOT_VALID : Fld := ⟨0x040, 29, 1⟩
/-- VLT_STATUS.MASK_STALE (R216). -/
def VLT_STATUS_MASK_STALE : Fld := ⟨0x040, 28, 1⟩
/-- VLT_STATUS.DERIVED (R216). -/
def VLT_STATUS_DERIVED : Fld := ⟨0x040, 27, 1⟩
/-- VLT_STATUS.MIG (R216). -/
def VLT_STATUS_MIG : Fld := ⟨0x040, 16, 4⟩
/-- VLT_STATUS.CUR_WRAP (R216). -/
def VLT_STATUS_CUR_WRAP : Fld := ⟨0x040, 12, 1⟩
/-- VLT_CACHE_USED (R216). -/
def VLT_CACHE_USED : Fld := ⟨0x044, 0, 19⟩
/-- VLT_NVM.FREE (R216). -/
def VLT_NVM_FREE : Fld := ⟨0x048, 16, 14⟩
/-- VLT_NVM.USED (R216). -/
def VLT_NVM_USED : Fld := ⟨0x048, 0, 14⟩
/-- VLT_NVM_SECT.RETIRED (R216). -/
def VLT_NVM_SECT_RETIRED : Fld := ⟨0x04C, 16, 9⟩
/-- VLT_NVM_SECT.SPARE (R216). -/
def VLT_NVM_SECT_SPARE : Fld := ⟨0x04C, 0, 9⟩
/-- VLT_NVM_ALLOW (R216). -/
def VLT_NVM_ALLOW : Fld := ⟨0x050, 0, 16⟩
/-- VLT_MIG.DONE (R216). -/
def VLT_MIG_DONE : Fld := ⟨0x054, 16, 14⟩
/-- VLT_MIG.TOTAL (R216). -/
def VLT_MIG_TOTAL : Fld := ⟨0x054, 0, 14⟩
/-- VLT_MIG_CONFIRM (R216). -/
def VLT_MIG_CONFIRM : Fld := ⟨0x058, 0, 8⟩
/-- VLT_OP.BUSY (R216). -/
def VLT_OP_BUSY : Fld := ⟨0x05C, 31, 1⟩
/-- VLT_OP.CMD (R216). -/
def VLT_OP_CMD : Fld := ⟨0x05C, 16, 2⟩
/-- VLT_OP.STATUS (R216). -/
def VLT_OP_STATUS : Fld := ⟨0x05C, 0, 16⟩
/-- VLT_OP_HANDLE (R216). -/
def VLT_OP_HANDLE : Fld := ⟨0x060, 0, 32⟩
/-- VLT_OP_INDEX (R216). -/
def VLT_OP_INDEX : Fld := ⟨0x064, 0, 18⟩
/-- VLT_INFO_0.USAGE (R216). -/
def VLT_INFO_0_USAGE : Fld := ⟨0x068, 16, 16⟩
/-- VLT_INFO_0.ALG (R216). -/
def VLT_INFO_0_ALG : Fld := ⟨0x068, 8, 8⟩
/-- VLT_INFO_0.MODE (R216). -/
def VLT_INFO_0_MODE : Fld := ⟨0x068, 0, 8⟩
/-- VLT_INFO_1.EXPORT (R216). -/
def VLT_INFO_1_EXPORT : Fld := ⟨0x06C, 24, 8⟩
/-- VLT_INFO_1.LEN (R216). -/
def VLT_INFO_1_LEN : Fld := ⟨0x06C, 16, 8⟩
/-- VLT_INFO_1.STATE (R216). -/
def VLT_INFO_1_STATE : Fld := ⟨0x06C, 8, 8⟩
/-- VLT_INFO_1.PARENT (R216). -/
def VLT_INFO_1_PARENT : Fld := ⟨0x06C, 0, 8⟩
/-- VLT_INFO_2 (R216). -/
def VLT_INFO_2 : Fld := ⟨0x070, 0, 32⟩
/-- VLT_INFO_3 (R216). -/
def VLT_INFO_3 : Fld := ⟨0x074, 0, 32⟩
/-- VLT_EXT_TEN (R216). -/
def VLT_EXT_TEN : Fld := ⟨0x078, 0, 10⟩
/-- VLT_EXT_BASE (R216). -/
def VLT_EXT_BASE : Fld := ⟨0x07C, 0, 24⟩
/-- VLT_EXT_COUNT (R216). -/
def VLT_EXT_COUNT : Fld := ⟨0x080, 0, 19⟩
/-- VLT_RESOLVES (R216). -/
def VLT_RESOLVES : Fld := ⟨0x084, 0, 32⟩
/-- VLT_ORPHANS (R216). -/
def VLT_ORPHANS : Fld := ⟨0x088, 0, 32⟩
/-- VLT_UPD.REFUSED (R216). -/
def VLT_UPD_REFUSED : Fld := ⟨0x08C, 16, 16⟩
/-- VLT_UPD.ACCEPTED (R216). -/
def VLT_UPD_ACCEPTED : Fld := ⟨0x08C, 0, 16⟩
/-- VLT_DBG_REFUSED (R216). -/
def VLT_DBG_REFUSED : Fld := ⟨0x090, 0, 16⟩
/-- VLT_REMASK.NVM (R216). -/
def VLT_REMASK_NVM : Fld := ⟨0x094, 16, 16⟩
/-- VLT_REMASK.CACHE (R216). -/
def VLT_REMASK_CACHE : Fld := ⟨0x094, 0, 16⟩
/-- VLT_MEAS_SEAL (R216). -/
def VLT_MEAS_SEAL : Fld := ⟨0x098, 0, 8⟩
/-- VLT_FWVER_0–3 (R216), entry `i`. -/
def VLT_FWVER (i : Nat) : Fld := ⟨0x0A0 + 4 * i, 0, 32⟩
/-- VLT_VFLOOR (R216). -/
def VLT_VFLOOR : Fld := ⟨0x0B0, 0, 32⟩
/-- MEAS_n word w (R216), entry `i`. -/
def MEAS (i : Nat) : Fld := ⟨0x100 + 4 * i, 0, 32⟩
/-- CPH_CUR.VALID (R240). -/
def CPH_CUR_VALID : Fld := ⟨0x040, 31, 1⟩
/-- CPH_CUR.TENANT (R240). -/
def CPH_CUR_TENANT : Fld := ⟨0x040, 20, 10⟩
/-- CPH_CUR.OP (R240). -/
def CPH_CUR_OP : Fld := ⟨0x040, 8, 8⟩
/-- CPH_CUR.ALG (R240). -/
def CPH_CUR_ALG : Fld := ⟨0x040, 0, 8⟩
/-- CPH_CUR_HANDLE (R240). -/
def CPH_CUR_HANDLE : Fld := ⟨0x044, 0, 32⟩
/-- CPH_CUR_DONE (R240). -/
def CPH_CUR_DONE : Fld := ⟨0x048, 0, 32⟩
/-- CPH_JOBS (R240). -/
def CPH_JOBS : Fld := ⟨0x04C, 0, 32⟩
/-- CPH_BLOCKS_LO (R240). -/
def CPH_BLOCKS_LO : Fld := ⟨0x050, 0, 32⟩
/-- CPH_BLOCKS_HI (R240). -/
def CPH_BLOCKS_HI : Fld := ⟨0x054, 0, 16⟩
/-- CPH_REFUSED (R240). -/
def CPH_REFUSED : Fld := ⟨0x058, 0, 32⟩
/-- CPH_VFAIL (R240). -/
def CPH_VFAIL : Fld := ⟨0x05C, 0, 32⟩
/-- CPH_CTREXH (R240). -/
def CPH_CTREXH : Fld := ⟨0x060, 0, 32⟩
/-- CPH_KAT.PASS (R240). -/
def CPH_KAT_PASS : Fld := ⟨0x064, 16, 16⟩
/-- CPH_KAT.VECTOR (R240). -/
def CPH_KAT_VECTOR : Fld := ⟨0x064, 8, 8⟩
/-- CPH_KAT.FAIL (R240). -/
def CPH_KAT_FAIL : Fld := ⟨0x064, 0, 1⟩
/-- CPH_TEST.RUN (R240). -/
def CPH_TEST_RUN : Fld := ⟨0x068, 0, 1⟩
/-- CPH_ERRJOB.TENANT (R240). -/
def CPH_ERRJOB_TENANT : Fld := ⟨0x06C, 20, 10⟩
/-- CPH_ERRJOB.OP (R240). -/
def CPH_ERRJOB_OP : Fld := ⟨0x06C, 8, 8⟩
/-- HSH_CUR.VALID (R241). -/
def HSH_CUR_VALID : Fld := ⟨0x040, 31, 1⟩
/-- HSH_CUR.TENANT (R241). -/
def HSH_CUR_TENANT : Fld := ⟨0x040, 20, 10⟩
/-- HSH_CUR.OP (R241). -/
def HSH_CUR_OP : Fld := ⟨0x040, 8, 8⟩
/-- HSH_CUR_HANDLE (R241). -/
def HSH_CUR_HANDLE : Fld := ⟨0x044, 0, 32⟩
/-- HSH_CUR_DONE (R241). -/
def HSH_CUR_DONE : Fld := ⟨0x048, 0, 32⟩
/-- HSH_JOBS (R241). -/
def HSH_JOBS : Fld := ⟨0x04C, 0, 32⟩
/-- HSH_BLOCKS_LO (R241). -/
def HSH_BLOCKS_LO : Fld := ⟨0x050, 0, 32⟩
/-- HSH_BLOCKS_HI (R241). -/
def HSH_BLOCKS_HI : Fld := ⟨0x054, 0, 16⟩
/-- HSH_REFUSED (R241). -/
def HSH_REFUSED : Fld := ⟨0x058, 0, 32⟩
/-- HSH_VFAIL (R241). -/
def HSH_VFAIL : Fld := ⟨0x05C, 0, 32⟩
/-- HSH_KAT.PASS (R241). -/
def HSH_KAT_PASS : Fld := ⟨0x064, 16, 16⟩
/-- HSH_KAT.VECTOR (R241). -/
def HSH_KAT_VECTOR : Fld := ⟨0x064, 8, 8⟩
/-- HSH_KAT.FAIL (R241). -/
def HSH_KAT_FAIL : Fld := ⟨0x064, 0, 1⟩
/-- HSH_TEST.RUN (R241). -/
def HSH_TEST_RUN : Fld := ⟨0x068, 0, 1⟩
/-- PKE_CUR.VALID (R274). -/
def PKE_CUR_VALID : Fld := ⟨0x040, 31, 1⟩
/-- PKE_CUR.TENANT (R274). -/
def PKE_CUR_TENANT : Fld := ⟨0x040, 20, 10⟩
/-- PKE_CUR.FUNC (R274). -/
def PKE_CUR_FUNC : Fld := ⟨0x040, 8, 8⟩
/-- PKE_CUR.SLOT (R274). -/
def PKE_CUR_SLOT : Fld := ⟨0x040, 0, 3⟩
/-- PKE_CUR_HANDLE (R274). -/
def PKE_CUR_HANDLE : Fld := ⟨0x044, 0, 32⟩
/-- PKE_CUR_BITS (R274). -/
def PKE_CUR_BITS : Fld := ⟨0x048, 0, 14⟩
/-- PKE_JOBS (R274). -/
def PKE_JOBS : Fld := ⟨0x04C, 0, 32⟩
/-- PKE_REFUSED (R274). -/
def PKE_REFUSED : Fld := ⟨0x050, 0, 32⟩
/-- PKE_VFAIL (R274). -/
def PKE_VFAIL : Fld := ⟨0x054, 0, 32⟩
/-- PKE_RESCHK (R274). -/
def PKE_RESCHK : Fld := ⟨0x058, 0, 16⟩
/-- PKE_UC_VER (R274). -/
def PKE_UC_VER : Fld := ⟨0x05C, 0, 32⟩
/-- PKE_UC_CRC (R274). -/
def PKE_UC_CRC : Fld := ⟨0x060, 0, 32⟩
/-- PKE_KAT.PASS (R274). -/
def PKE_KAT_PASS : Fld := ⟨0x064, 16, 16⟩
/-- PKE_KAT.VECTOR (R274). -/
def PKE_KAT_VECTOR : Fld := ⟨0x064, 8, 8⟩
/-- PKE_KAT.FAIL (R274). -/
def PKE_KAT_FAIL : Fld := ⟨0x064, 0, 1⟩
/-- PKE_TEST.RUN (R274). -/
def PKE_TEST_RUN : Fld := ⟨0x068, 0, 1⟩
/-- PKE_ERRJOB.TENANT (R274). -/
def PKE_ERRJOB_TENANT : Fld := ⟨0x06C, 20, 10⟩
/-- PKE_ERRJOB.FUNC (R274). -/
def PKE_ERRJOB_FUNC : Fld := ⟨0x06C, 8, 8⟩
/-- ODM_CFG.LONG_MAX (R275). -/
def ODM_CFG_LONG_MAX : Fld := ⟨0x040, 0, 3⟩
/-- ODM_QUEUE.LONG (R275). -/
def ODM_QUEUE_LONG : Fld := ⟨0x044, 16, 10⟩
/-- ODM_QUEUE.ALL (R275). -/
def ODM_QUEUE_ALL : Fld := ⟨0x044, 0, 10⟩
/-- ODM_BYTES_IN (R275). -/
def ODM_BYTES_IN : Fld := ⟨0x048, 0, 32⟩
/-- ODM_BYTES_OUT (R275). -/
def ODM_BYTES_OUT : Fld := ⟨0x04C, 0, 32⟩
/-- ODM_ERRADDR_LO (R275). -/
def ODM_ERRADDR_LO : Fld := ⟨0x050, 0, 32⟩
/-- ODM_ERRADDR_HI (R275). -/
def ODM_ERRADDR_HI : Fld := ⟨0x054, 0, 8⟩
/-- ODM_UC_SRC_LO (R275). -/
def ODM_UC_SRC_LO : Fld := ⟨0x058, 0, 32⟩
/-- ODM_UC_SRC_HI (R275). -/
def ODM_UC_SRC_HI : Fld := ⟨0x05C, 0, 8⟩
/-- ODM_UC.GO (R275). -/
def ODM_UC_GO : Fld := ⟨0x060, 31, 1⟩
/-- ODM_UC.DONE (R275). -/
def ODM_UC_DONE : Fld := ⟨0x060, 30, 1⟩
/-- ODM_UC.REFUSED (R275). -/
def ODM_UC_REFUSED : Fld := ⟨0x060, 29, 1⟩
/-- ODM_UC.WORDS (R275). -/
def ODM_UC_WORDS : Fld := ⟨0x060, 0, 15⟩
/-- ODM_UC_CRC (R275). -/
def ODM_UC_CRC : Fld := ⟨0x064, 0, 32⟩
/-- ODM_CURVE_BASE (R275). -/
def ODM_CURVE_BASE : Fld := ⟨0x068, 0, 24⟩
/-- ODM_PASSED (R275). -/
def ODM_PASSED : Fld := ⟨0x06C, 0, 32⟩
/-- RNG_SRC_STATUS.STARTUP_DONE (R304). -/
def RNG_SRC_STATUS_STARTUP_DONE : Fld := ⟨0x040, 31, 1⟩
/-- RNG_SRC_STATUS.BELOW_MIN (R304). -/
def RNG_SRC_STATUS_BELOW_MIN : Fld := ⟨0x040, 30, 1⟩
/-- RNG_SRC_STATUS.RAW (R304). -/
def RNG_SRC_STATUS_RAW : Fld := ⟨0x040, 29, 1⟩
/-- RNG_SRC_STATUS.HEALTHY (R304). -/
def RNG_SRC_STATUS_HEALTHY : Fld := ⟨0x040, 16, 6⟩
/-- RNG_SRC_STATUS.SEEDQ (R304). -/
def RNG_SRC_STATUS_SEEDQ : Fld := ⟨0x040, 0, 6⟩
/-- RNG_CFG.MIN_OSC (R304). -/
def RNG_CFG_MIN_OSC : Fld := ⟨0x044, 0, 6⟩
/-- RNG_OSC_FAIL_LO (R304). -/
def RNG_OSC_FAIL_LO : Fld := ⟨0x048, 0, 32⟩
/-- RNG_OSC_FAIL_HI (R304). -/
def RNG_OSC_FAIL_HI : Fld := ⟨0x04C, 0, 8⟩
/-- RNG_OSC_USE_LO (R304). -/
def RNG_OSC_USE_LO : Fld := ⟨0x050, 0, 32⟩
/-- RNG_OSC_USE_HI (R304). -/
def RNG_OSC_USE_HI : Fld := ⟨0x054, 0, 8⟩
/-- RNG_CUTOFF.APT (R304). -/
def RNG_CUTOFF_APT : Fld := ⟨0x058, 16, 10⟩
/-- RNG_CUTOFF.RCT (R304). -/
def RNG_CUTOFF_RCT : Fld := ⟨0x058, 0, 8⟩
/-- RNG_HT_FAILS (R304). -/
def RNG_HT_FAILS : Fld := ⟨0x05C, 0, 32⟩
/-- RNG_SEEDS (R304). -/
def RNG_SEEDS : Fld := ⟨0x060, 0, 32⟩
/-- RNG_DISCARDS (R304). -/
def RNG_DISCARDS : Fld := ⟨0x064, 0, 32⟩
/-- RNG_RAW_PERMIT (R304). -/
def RNG_RAW_PERMIT : Fld := ⟨0x068, 0, 1⟩
/-- RNG_RAW_CTRL.EN (R304). -/
def RNG_RAW_CTRL_EN : Fld := ⟨0x06C, 31, 1⟩
/-- RNG_RAW_CTRL.ARM (R304). -/
def RNG_RAW_CTRL_ARM : Fld := ⟨0x06C, 16, 1⟩
/-- RNG_RAW_CTRL.SEL (R304). -/
def RNG_RAW_CTRL_SEL : Fld := ⟨0x06C, 0, 6⟩
/-- RNG_RAW_STATUS.FULL (R304). -/
def RNG_RAW_STATUS_FULL : Fld := ⟨0x070, 31, 1⟩
/-- RNG_RAW_STATUS.WORDS (R304). -/
def RNG_RAW_STATUS_WORDS : Fld := ⟨0x070, 0, 11⟩
/-- RNG_DRBG_STATUS.SEEDED (R305). -/
def RNG_DRBG_STATUS_SEEDED : Fld := ⟨0x040, 31, 1⟩
/-- RNG_DRBG_STATUS.STRETCH (R305). -/
def RNG_DRBG_STATUS_STRETCH : Fld := ⟨0x040, 30, 1⟩
/-- RNG_DRBG_STATUS.LIMIT (R305). -/
def RNG_DRBG_STATUS_LIMIT : Fld := ⟨0x040, 29, 1⟩
/-- RNG_DRBG_STATUS.REQS (R305). -/
def RNG_DRBG_STATUS_REQS : Fld := ⟨0x040, 0, 21⟩
/-- RNG_BOOM.RESV (R305). -/
def RNG_BOOM_RESV : Fld := ⟨0x044, 16, 14⟩
/-- RNG_BOOM.FILL (R305). -/
def RNG_BOOM_FILL : Fld := ⟨0x044, 0, 14⟩
/-- RNG_REFILL (R305). -/
def RNG_REFILL : Fld := ⟨0x048, 0, 14⟩
/-- RNG_RESEEDS (R305). -/
def RNG_RESEEDS : Fld := ⟨0x04C, 0, 32⟩
/-- RNG_GEN_LO (R305). -/
def RNG_GEN_LO : Fld := ⟨0x050, 0, 32⟩
/-- RNG_GEN_HI (R305). -/
def RNG_GEN_HI : Fld := ⟨0x054, 0, 16⟩
/-- RNG_UNAVAIL (R305). -/
def RNG_UNAVAIL : Fld := ⟨0x058, 0, 32⟩
/-- RNG_KAT.PASS (R305). -/
def RNG_KAT_PASS : Fld := ⟨0x05C, 16, 16⟩
/-- RNG_KAT.FAIL (R305). -/
def RNG_KAT_FAIL : Fld := ⟨0x05C, 0, 1⟩
/-- SCH_HELD.SUSP (R358). -/
def SCH_HELD_SUSP : Fld := ⟨0x040, 16, 14⟩
/-- SCH_HELD.ALL (R358). -/
def SCH_HELD_ALL : Fld := ⟨0x040, 0, 14⟩
/-- SCH_DLY (R358). -/
def SCH_DLY : Fld := ⟨0x044, 0, 13⟩
/-- SCH_DISPATCHED (R358). -/
def SCH_DISPATCHED : Fld := ⟨0x048, 0, 32⟩
/-- SCH_TIMEOUTS (R358). -/
def SCH_TIMEOUTS : Fld := ⟨0x04C, 0, 32⟩
/-- SCH_REFUSED (R358). -/
def SCH_REFUSED : Fld := ⟨0x050, 0, 32⟩
/-- SCH_DLY_LATE (R358). -/
def SCH_DLY_LATE : Fld := ⟨0x054, 0, 16⟩
/-- SCH_DLY_FULL (R358). -/
def SCH_DLY_FULL : Fld := ⟨0x058, 0, 16⟩
/-- SCH_SQ_LO (R358). -/
def SCH_SQ_LO : Fld := ⟨0x05C, 0, 32⟩
/-- SCH_SQ_HI (R358). -/
def SCH_SQ_HI : Fld := ⟨0x060, 0, 8⟩
/-- SCH_SQ_CFG.SIZE (R358). -/
def SCH_SQ_CFG_SIZE : Fld := ⟨0x064, 0, 4⟩
/-- SCH_SQ_TAIL (R358). -/
def SCH_SQ_TAIL : Fld := ⟨0x068, 0, 10⟩
/-- SCH_SQ_HEAD (R358). -/
def SCH_SQ_HEAD : Fld := ⟨0x06C, 0, 10⟩
/-- SCH_CQ_LO (R358). -/
def SCH_CQ_LO : Fld := ⟨0x070, 0, 32⟩
/-- SCH_CQ_HI (R358). -/
def SCH_CQ_HI : Fld := ⟨0x074, 0, 8⟩
/-- SCH_CQ_HEAD (R358). -/
def SCH_CQ_HEAD : Fld := ⟨0x078, 0, 10⟩
/-- SCH_CQ_TAIL (R358). -/
def SCH_CQ_TAIL : Fld := ⟨0x07C, 0, 10⟩
/-- SCH_RSP_LO (R358). -/
def SCH_RSP_LO : Fld := ⟨0x080, 0, 32⟩
/-- SCH_RSP_HI (R358). -/
def SCH_RSP_HI : Fld := ⟨0x084, 0, 8⟩
/-- SCH_PRG_SRC_LO (R358). -/
def SCH_PRG_SRC_LO : Fld := ⟨0x088, 0, 32⟩
/-- SCH_PRG_SRC_HI (R358). -/
def SCH_PRG_SRC_HI : Fld := ⟨0x08C, 0, 8⟩
/-- SCH_PRG.GO (R358). -/
def SCH_PRG_GO : Fld := ⟨0x090, 31, 1⟩
/-- SCH_PRG.DONE (R358). -/
def SCH_PRG_DONE : Fld := ⟨0x090, 30, 1⟩
/-- SCH_PRG.REFUSED (R358). -/
def SCH_PRG_REFUSED : Fld := ⟨0x090, 29, 1⟩
/-- SCH_PRG.SEG (R358). -/
def SCH_PRG_SEG : Fld := ⟨0x090, 16, 2⟩
/-- SCH_PRG.BASE (R358). -/
def SCH_PRG_BASE : Fld := ⟨0x090, 0, 16⟩
/-- SCH_PRG_WORDS (R358). -/
def SCH_PRG_WORDS : Fld := ⟨0x094, 0, 17⟩
/-- SCH_LEVEL_l (R358), entry `i`. -/
def SCH_LEVEL (i : Nat) : Fld := ⟨0x0A0 + 4 * i, 0, 14⟩
/-- SCH_TBIND_p.VALID (R358), entry `i`. -/
def SCH_TBIND_VALID (i : Nat) : Fld := ⟨0x100 + 4 * i, 31, 1⟩
/-- SCH_TBIND_p.TENANT (R358), entry `i`. -/
def SCH_TBIND_TENANT (i : Nat) : Fld := ⟨0x100 + 4 * i, 0, 10⟩
/-- KCR_CUR.VALID (R359). -/
def KCR_CUR_VALID : Fld := ⟨0x040, 31, 1⟩
/-- KCR_CUR.TENANT (R359). -/
def KCR_CUR_TENANT : Fld := ⟨0x040, 20, 10⟩
/-- KCR_CUR.CMD (R359). -/
def KCR_CUR_CMD : Fld := ⟨0x040, 0, 16⟩
/-- KCR_PC (R359). -/
def KCR_PC : Fld := ⟨0x044, 0, 16⟩
/-- KCR_TASKS (R359). -/
def KCR_TASKS : Fld := ⟨0x048, 0, 32⟩
/-- KCR_TRAPS (R359). -/
def KCR_TRAPS : Fld := ⟨0x04C, 0, 32⟩
/-- KCR_LASTTRAP.CODE (R359). -/
def KCR_LASTTRAP_CODE : Fld := ⟨0x050, 24, 8⟩
/-- KCR_LASTTRAP.PC (R359). -/
def KCR_LASTTRAP_PC : Fld := ⟨0x050, 0, 16⟩
/-- KCR_BUSY (R359). -/
def KCR_BUSY : Fld := ⟨0x054, 0, 32⟩
/-- CTX_USED (R360). -/
def CTX_USED : Fld := ⟨0x040, 0, 17⟩
/-- CTX_LOCKED (R360). -/
def CTX_LOCKED : Fld := ⟨0x044, 0, 17⟩
/-- CTX_EXPIRED (R360). -/
def CTX_EXPIRED : Fld := ⟨0x048, 0, 32⟩
/-- CTX_DRAWS (R360). -/
def CTX_DRAWS : Fld := ⟨0x04C, 0, 32⟩
/-- CTX_OP.BUSY (R360). -/
def CTX_OP_BUSY : Fld := ⟨0x050, 31, 1⟩
/-- CTX_OP.CMD (R360). -/
def CTX_OP_CMD : Fld := ⟨0x050, 0, 2⟩
/-- CTX_OP_ID (R360). -/
def CTX_OP_ID : Fld := ⟨0x054, 0, 32⟩
/-- CTX_OP_TEN (R360). -/
def CTX_OP_TEN : Fld := ⟨0x058, 0, 10⟩
/-- CTX_OP_STATUS (R360). -/
def CTX_OP_STATUS : Fld := ⟨0x05C, 0, 16⟩
/-- CTX_ERRIDX (R360). -/
def CTX_ERRIDX : Fld := ⟨0x060, 0, 16⟩
/-- TEN_SEL (R379). -/
def TEN_SEL : Fld := ⟨0x040, 0, 10⟩
/-- TEN_DB (R379). -/
def TEN_DB : Fld := ⟨0x044, 0, 32⟩
/-- TEN_OP.BUSY (R379). -/
def TEN_OP_BUSY : Fld := ⟨0x048, 31, 1⟩
/-- TEN_OP.CMD (R379). -/
def TEN_OP_CMD : Fld := ⟨0x048, 0, 3⟩
/-- TEN_OP_STATUS (R379). -/
def TEN_OP_STATUS : Fld := ⟨0x04C, 0, 16⟩
/-- TEN_STATUS.DONE (R379). -/
def TEN_STATUS_DONE : Fld := ⟨0x050, 31, 1⟩
/-- TEN_STATUS.RESETS (R379). -/
def TEN_STATUS_RESETS : Fld := ⟨0x050, 8, 8⟩
/-- TEN_STATUS.PHASE (R379). -/
def TEN_STATUS_PHASE : Fld := ⟨0x050, 4, 2⟩
/-- TEN_STATUS.STATE (R379). -/
def TEN_STATUS_STATE : Fld := ⟨0x050, 0, 2⟩
/-- TEN_ASID.VALID (R379). -/
def TEN_ASID_VALID : Fld := ⟨0x054, 31, 1⟩
/-- TEN_ASID.ASID (R379). -/
def TEN_ASID_ASID : Fld := ⟨0x054, 0, 16⟩
/-- TEN_POLICY.SI_OWNER_SUBMIT (R379). -/
def TEN_POLICY_SI_OWNER_SUBMIT : Fld := ⟨0x058, 1, 1⟩
/-- TEN_POLICY.PIN_DOWNGRADE (R379). -/
def TEN_POLICY_PIN_DOWNGRADE : Fld := ⟨0x058, 0, 1⟩
/-- TEN_Q_WORK (R379). -/
def TEN_Q_WORK : Fld := ⟨0x05C, 0, 14⟩
/-- TEN_Q_CTX (R379). -/
def TEN_Q_CTX : Fld := ⟨0x060, 0, 17⟩
/-- TEN_Q_NET.HOST (R379). -/
def TEN_Q_NET_HOST : Fld := ⟨0x064, 16, 13⟩
/-- TEN_Q_NET.SESS (R379). -/
def TEN_Q_NET_SESS : Fld := ⟨0x064, 0, 13⟩
/-- TEN_Q_KEYS (R379). -/
def TEN_Q_KEYS : Fld := ⟨0x068, 0, 19⟩
/-- TEN_Q_VLT (R379). -/
def TEN_Q_VLT : Fld := ⟨0x06C, 0, 14⟩
/-- TEN_SCHED.SHARE (R379). -/
def TEN_SCHED_SHARE : Fld := ⟨0x070, 16, 8⟩
/-- TEN_SCHED.DEADLINE (R379). -/
def TEN_SCHED_DEADLINE : Fld := ⟨0x070, 0, 16⟩
/-- TEN_JRN_BASE (R379). -/
def TEN_JRN_BASE : Fld := ⟨0x074, 0, 24⟩
/-- TEN_JRN_QUOTA (R379). -/
def TEN_JRN_QUOTA : Fld := ⟨0x078, 0, 11⟩
/-- TEN_USE_0.HOST (R379). -/
def TEN_USE_0_HOST : Fld := ⟨0x07C, 16, 13⟩
/-- TEN_USE_0.SESS (R379). -/
def TEN_USE_0_SESS : Fld := ⟨0x07C, 0, 13⟩
/-- TEN_USE_KEYS (R379). -/
def TEN_USE_KEYS : Fld := ⟨0x080, 0, 19⟩
/-- TEN_USE_VLT (R379). -/
def TEN_USE_VLT : Fld := ⟨0x084, 0, 14⟩
/-- TEN_USE_JRN (R379). -/
def TEN_USE_JRN : Fld := ⟨0x088, 0, 21⟩
/-- TEN_REFUSED (R379). -/
def TEN_REFUSED : Fld := ⟨0x08C, 0, 32⟩
/-- TEN_DRAIN_TIMEOUT (R379). -/
def TEN_DRAIN_TIMEOUT : Fld := ⟨0x090, 0, 16⟩
/-- TEN_MBX_BASE (R379). -/
def TEN_MBX_BASE : Fld := ⟨0x094, 0, 24⟩
/-- TEN_DB_PEND_n (R379), entry `i`. -/
def TEN_DB_PEND (i : Nat) : Fld := ⟨0x0A0 + 4 * i, 0, 32⟩
/-- MPU_FAULT_LO (R380). -/
def MPU_FAULT_LO : Fld := ⟨0x040, 0, 32⟩
/-- MPU_FAULT_HI (R380). -/
def MPU_FAULT_HI : Fld := ⟨0x044, 0, 8⟩
/-- MPU_FAULT_INFO.VALID (R380). -/
def MPU_FAULT_INFO_VALID : Fld := ⟨0x048, 31, 1⟩
/-- MPU_FAULT_INFO.WRITE (R380). -/
def MPU_FAULT_INFO_WRITE : Fld := ⟨0x048, 30, 1⟩
/-- MPU_FAULT_INFO.PRIV (R380). -/
def MPU_FAULT_INFO_PRIV : Fld := ⟨0x048, 29, 1⟩
/-- MPU_FAULT_INFO.NOMATCH (R380). -/
def MPU_FAULT_INFO_NOMATCH : Fld := ⟨0x048, 28, 1⟩
/-- MPU_FAULT_INFO.ENTRY (R380). -/
def MPU_FAULT_INFO_ENTRY : Fld := ⟨0x048, 24, 4⟩
/-- MPU_FAULT_INFO.SPACE (R380). -/
def MPU_FAULT_INFO_SPACE : Fld := ⟨0x048, 20, 2⟩
/-- MPU_FAULT_INFO.UNTAGGED (R380). -/
def MPU_FAULT_INFO_UNTAGGED : Fld := ⟨0x048, 11, 1⟩
/-- MPU_FAULT_INFO.TENANT (R380). -/
def MPU_FAULT_INFO_TENANT : Fld := ⟨0x048, 0, 10⟩
/-- MPU_FAULTS (R380). -/
def MPU_FAULTS : Fld := ⟨0x04C, 0, 32⟩
/-- MPU_MASTER (R380). -/
def MPU_MASTER : Fld := ⟨0x050, 0, 8⟩
/-- MPU_ENT_r_LO.BASE (R380), entry `i`. -/
def MPU_ENT_LO (i : Nat) : Fld := ⟨0x100 + 16 * i, 12, 20⟩
/-- MPU_ENT_r_HI.BASE (R380), entry `i`. -/
def MPU_ENT_HI (i : Nat) : Fld := ⟨0x104 + 16 * i, 0, 8⟩
/-- MPU_ENT_r_CFG.VALID (R380), entry `i`. -/
def MPU_ENT_CFG_VALID (i : Nat) : Fld := ⟨0x108 + 16 * i, 31, 1⟩
/-- MPU_ENT_r_CFG.SIZE (R380), entry `i`. -/
def MPU_ENT_CFG_SIZE (i : Nat) : Fld := ⟨0x108 + 16 * i, 24, 6⟩
/-- MPU_ENT_r_CFG.TREL (R380), entry `i`. -/
def MPU_ENT_CFG_TREL (i : Nat) : Fld := ⟨0x108 + 16 * i, 23, 1⟩
/-- MPU_ENT_r_CFG.ANYTEN (R380), entry `i`. -/
def MPU_ENT_CFG_ANYTEN (i : Nat) : Fld := ⟨0x108 + 16 * i, 22, 1⟩
/-- MPU_ENT_r_CFG.USER (R380), entry `i`. -/
def MPU_ENT_CFG_USER (i : Nat) : Fld := ⟨0x108 + 16 * i, 21, 1⟩
/-- MPU_ENT_r_CFG.X (R380), entry `i`. -/
def MPU_ENT_CFG_X (i : Nat) : Fld := ⟨0x108 + 16 * i, 20, 1⟩
/-- MPU_ENT_r_CFG.W (R380), entry `i`. -/
def MPU_ENT_CFG_W (i : Nat) : Fld := ⟨0x108 + 16 * i, 19, 1⟩
/-- MPU_ENT_r_CFG.R (R380), entry `i`. -/
def MPU_ENT_CFG_R (i : Nat) : Fld := ⟨0x108 + 16 * i, 18, 1⟩
/-- MPU_ENT_r_CFG.TENANT (R380), entry `i`. -/
def MPU_ENT_CFG_TENANT (i : Nat) : Fld := ⟨0x108 + 16 * i, 0, 10⟩
/-- PAIR_CTRL.SYNC_REPLY (R401). -/
def PAIR_CTRL_SYNC_REPLY : Fld := ⟨0x040, 0, 1⟩
/-- PAIR_CMD (R401). -/
def PAIR_CMD : Fld := ⟨0x044, 0, 3⟩
/-- PAIR_STATUS.UNACKED (R401). -/
def PAIR_STATUS_UNACKED : Fld := ⟨0x048, 24, 8⟩
/-- PAIR_STATUS.LANES (R401). -/
def PAIR_STATUS_LANES : Fld := ⟨0x048, 16, 8⟩
/-- PAIR_STATUS.FMT_MISMATCH (R401). -/
def PAIR_STATUS_FMT_MISMATCH : Fld := ⟨0x048, 12, 1⟩
/-- PAIR_STATUS.ID_REFUSED (R401). -/
def PAIR_STATUS_ID_REFUSED : Fld := ⟨0x048, 11, 1⟩
/-- PAIR_STATUS.CONFLICT (R401). -/
def PAIR_STATUS_CONFLICT : Fld := ⟨0x048, 10, 1⟩
/-- PAIR_STATUS.PEER_HB (R401). -/
def PAIR_STATUS_PEER_HB : Fld := ⟨0x048, 9, 1⟩
/-- PAIR_STATUS.LINK_UP (R401). -/
def PAIR_STATUS_LINK_UP : Fld := ⟨0x048, 8, 1⟩
/-- PAIR_STATUS.ROLE (R401). -/
def PAIR_STATUS_ROLE : Fld := ⟨0x048, 0, 4⟩
/-- PAIR_PEER_ID_0–3 (R401), entry `i`. -/
def PAIR_PEER_ID (i : Nat) : Fld := ⟨0x04C + 4 * i, 0, 32⟩
/-- PAIR_EPOCH_LO (R401). -/
def PAIR_EPOCH_LO : Fld := ⟨0x05C, 0, 32⟩
/-- PAIR_EPOCH_HI (R401). -/
def PAIR_EPOCH_HI : Fld := ⟨0x060, 0, 32⟩
/-- PAIR_ACKED_LO (R401). -/
def PAIR_ACKED_LO : Fld := ⟨0x064, 0, 32⟩
/-- PAIR_DELTA_LAST (R401). -/
def PAIR_DELTA_LAST : Fld := ⟨0x068, 0, 24⟩
/-- PAIR_BACKLOG (R401). -/
def PAIR_BACKLOG : Fld := ⟨0x06C, 0, 24⟩
/-- PAIR_BACKLOG_MAX (R401). -/
def PAIR_BACKLOG_MAX : Fld := ⟨0x070, 0, 16⟩
/-- PAIR_LEASE_A.ATC (R401). -/
def PAIR_LEASE_A_ATC : Fld := ⟨0x074, 24, 8⟩
/-- PAIR_LEASE_A.DUKPT (R401). -/
def PAIR_LEASE_A_DUKPT : Fld := ⟨0x074, 16, 8⟩
/-- PAIR_LEASE_A.TOKEN (R401). -/
def PAIR_LEASE_A_TOKEN : Fld := ⟨0x074, 8, 8⟩
/-- PAIR_LEASE_A.NONCE (R401). -/
def PAIR_LEASE_A_NONCE : Fld := ⟨0x074, 0, 8⟩
/-- PAIR_LEASE_B.SEQ (R401). -/
def PAIR_LEASE_B_SEQ : Fld := ⟨0x078, 8, 8⟩
/-- PAIR_LEASE_B.JSEQ (R401). -/
def PAIR_LEASE_B_JSEQ : Fld := ⟨0x078, 0, 8⟩
/-- PAIR_SW_DRAIN (R401). -/
def PAIR_SW_DRAIN : Fld := ⟨0x07C, 0, 16⟩
/-- PAIR_CFG.JOIN_WAIT (R401). -/
def PAIR_CFG_JOIN_WAIT : Fld := ⟨0x080, 0, 16⟩
/-- PAIR_COPY.TOTAL (R401). -/
def PAIR_COPY_TOTAL : Fld := ⟨0x084, 16, 16⟩
/-- PAIR_COPY.DONE (R401). -/
def PAIR_COPY_DONE : Fld := ⟨0x084, 0, 16⟩
/-- PAIR_FAILOVERS (R401). -/
def PAIR_FAILOVERS : Fld := ⟨0x088, 0, 16⟩
/-- PAIR_HELD (R401). -/
def PAIR_HELD : Fld := ⟨0x08C, 0, 16⟩
/-- PAIR_DISC (R401). -/
def PAIR_DISC : Fld := ⟨0x090, 0, 32⟩
/-- PAIR_RETRY (R401). -/
def PAIR_RETRY : Fld := ⟨0x094, 0, 32⟩
/-- PAIR_LASTROLE (R401). -/
def PAIR_LASTROLE : Fld := ⟨0x098, 0, 3⟩
/-- TMP_STATUS.LOCKED (R421). -/
def TMP_STATUS_LOCKED : Fld := ⟨0x040, 31, 1⟩
/-- TMP_STATUS.PENDING (R421). -/
def TMP_STATUS_PENDING : Fld := ⟨0x040, 30, 1⟩
/-- TMP_STATUS.LOG_FULL (R421). -/
def TMP_STATUS_LOG_FULL : Fld := ⟨0x040, 29, 1⟩
/-- TMP_STATUS.TESTING (R421). -/
def TMP_STATUS_TESTING : Fld := ⟨0x040, 28, 1⟩
/-- TMP_STATUS.STATE_LOST (R421). -/
def TMP_STATUS_STATE_LOST : Fld := ⟨0x040, 27, 1⟩
/-- TMP_STATUS.ERASED (R421). -/
def TMP_STATUS_ERASED : Fld := ⟨0x040, 26, 1⟩
/-- TMP_TRIPPED (R421). -/
def TMP_TRIPPED : Fld := ⟨0x044, 0, 16⟩
/-- TMP_SEEN (R421). -/
def TMP_SEEN : Fld := ⟨0x048, 0, 16⟩
/-- TMP_RESP (R421). -/
def TMP_RESP : Fld := ⟨0x04C, 0, 32⟩
/-- TMP_FLOOR (R421). -/
def TMP_FLOOR : Fld := ⟨0x050, 0, 32⟩
/-- TMP_CFG.LOOP_B_EN (R421). -/
def TMP_CFG_LOOP_B_EN : Fld := ⟨0x054, 17, 1⟩
/-- TMP_CFG.LOOP_A_EN (R421). -/
def TMP_CFG_LOOP_A_EN : Fld := ⟨0x054, 16, 1⟩
/-- TMP_CFG.TESTFAIL_RESP (R421). -/
def TMP_CFG_TESTFAIL_RESP : Fld := ⟨0x054, 8, 2⟩
/-- TMP_CFG.TEST_PERIOD (R421). -/
def TMP_CFG_TEST_PERIOD : Fld := ⟨0x054, 0, 8⟩
/-- TMP_TEST.RUN (R421). -/
def TMP_TEST_RUN : Fld := ⟨0x058, 31, 1⟩
/-- TMP_TEST.DONE (R421). -/
def TMP_TEST_DONE : Fld := ⟨0x058, 30, 1⟩
/-- TMP_TEST.FAIL (R421). -/
def TMP_TEST_FAIL : Fld := ⟨0x058, 29, 1⟩
/-- TMP_TEST.SEL (R421). -/
def TMP_TEST_SEL : Fld := ⟨0x058, 0, 5⟩
/-- TMP_LOCK_CTR_LO (R421). -/
def TMP_LOCK_CTR_LO : Fld := ⟨0x05C, 0, 32⟩
/-- TMP_LOCK_CTR_HI (R421). -/
def TMP_LOCK_CTR_HI : Fld := ⟨0x060, 0, 32⟩
/-- TMP_LOG.BUF (R421). -/
def TMP_LOG_BUF : Fld := ⟨0x064, 16, 9⟩
/-- TMP_LOG.USED (R421). -/
def TMP_LOG_USED : Fld := ⟨0x064, 0, 13⟩
/-- TMP_LOG_HEAD_LO (R421). -/
def TMP_LOG_HEAD_LO : Fld := ⟨0x068, 0, 32⟩
/-- TMP_LOG_HEAD_HI (R421). -/
def TMP_LOG_HEAD_HI : Fld := ⟨0x06C, 0, 32⟩
/-- TMP_LOG_CURSOR (R421). -/
def TMP_LOG_CURSOR : Fld := ⟨0x070, 0, 12⟩
/-- TMP_LOG_DATA_0–3 (R421), entry `i`. -/
def TMP_LOG_DATA (i : Nat) : Fld := ⟨0x074 + 4 * i, 0, 32⟩
/-- TMP_CELL_OVF (R421). -/
def TMP_CELL_OVF : Fld := ⟨0x084, 0, 32⟩
/-- TMP_RTC_SEC (R421). -/
def TMP_RTC_SEC : Fld := ⟨0x088, 0, 32⟩
/-- TMP_RTC_SUB (R421). -/
def TMP_RTC_SUB : Fld := ⟨0x08C, 0, 15⟩
/-- TMP_TESTS (R421). -/
def TMP_TESTS : Fld := ⟨0x090, 0, 32⟩
/-- LCS_STATE.SLOTS (R435). -/
def LCS_STATE_SLOTS : Fld := ⟨0x040, 16, 8⟩
/-- LCS_STATE.STATE (R435). -/
def LCS_STATE_STATE : Fld := ⟨0x040, 0, 8⟩
/-- LCS_TOKENS (R435). -/
def LCS_TOKENS : Fld := ⟨0x044, 0, 16⟩
/-- LCS_STATUS.BUSY (R435). -/
def LCS_STATUS_BUSY : Fld := ⟨0x048, 31, 1⟩
/-- LCS_STATUS.ERASE_PENDING (R435). -/
def LCS_STATUS_ERASE_PENDING : Fld := ⟨0x048, 1, 1⟩
/-- LCS_CTRL.ARM (R435). -/
def LCS_CTRL_ARM : Fld := ⟨0x04C, 0, 1⟩
/-- LCS_REQ_LEN (R435). -/
def LCS_REQ_LEN : Fld := ⟨0x050, 0, 11⟩
/-- LCS_RESULT.VALID (R435). -/
def LCS_RESULT_VALID : Fld := ⟨0x054, 31, 1⟩
/-- LCS_RESULT.STEP (R435). -/
def LCS_RESULT_STEP : Fld := ⟨0x054, 16, 4⟩
/-- LCS_RESULT.STATUS (R435). -/
def LCS_RESULT_STATUS : Fld := ⟨0x054, 0, 16⟩
/-- LCS_MARGIN.PWR_HOLD (R435). -/
def LCS_MARGIN_PWR_HOLD : Fld := ⟨0x058, 2, 1⟩
/-- LCS_MARGIN.VDD (R435). -/
def LCS_MARGIN_VDD : Fld := ⟨0x058, 1, 1⟩
/-- LCS_MARGIN.VBAT (R435). -/
def LCS_MARGIN_VBAT : Fld := ⟨0x058, 0, 1⟩
/-- LCS_REQ (R435), entry `i`. -/
def LCS_REQ (i : Nat) : Fld := ⟨0x800 + 4 * i, 0, 32⟩
/-- DBG_STATUS.MASTER_EN (R436). -/
def DBG_STATUS_MASTER_EN : Fld := ⟨0x040, 31, 1⟩
/-- DBG_STATUS.DM_EN (R436). -/
def DBG_STATUS_DM_EN : Fld := ⟨0x040, 30, 1⟩
/-- DBG_STATUS.SCAN (R436). -/
def DBG_STATUS_SCAN : Fld := ⟨0x040, 0, 2⟩
/-- DBG_IDCODE (R436). -/
def DBG_IDCODE : Fld := ⟨0x044, 0, 32⟩
/-- DBG_HALTED (R436). -/
def DBG_HALTED : Fld := ⟨0x048, 0, 10⟩
/-- DBG_REFUSED (R436). -/
def DBG_REFUSED : Fld := ⟨0x04C, 0, 16⟩
/-- EVR_CTRL.FREEZE (R450). -/
def EVR_CTRL_FREEZE : Fld := ⟨0x040, 0, 1⟩
/-- EVR_FREEZE_MAX (R450). -/
def EVR_FREEZE_MAX : Fld := ⟨0x044, 0, 16⟩
/-- EVR_CURSOR (R450). -/
def EVR_CURSOR : Fld := ⟨0x048, 0, 32⟩
/-- EVR_NEWEST (R450). -/
def EVR_NEWEST : Fld := ⟨0x04C, 0, 32⟩
/-- EVR_OLDEST (R450). -/
def EVR_OLDEST : Fld := ⟨0x050, 0, 32⟩
/-- EVR_MISSED (R450). -/
def EVR_MISSED : Fld := ⟨0x054, 0, 32⟩
/-- EVR_LOST (R450). -/
def EVR_LOST : Fld := ⟨0x058, 0, 32⟩
/-- EVR_TIME_LO (R450). -/
def EVR_TIME_LO : Fld := ⟨0x05C, 0, 32⟩
/-- EVR_TIME_HI (R450). -/
def EVR_TIME_HI : Fld := ⟨0x060, 0, 32⟩
/-- EVR_TIME_SET_LO (R450). -/
def EVR_TIME_SET_LO : Fld := ⟨0x064, 0, 32⟩
/-- EVR_TIME_SET_HI (R450). -/
def EVR_TIME_SET_HI : Fld := ⟨0x068, 0, 32⟩
/-- EVR_TIME_CMD.GO (R450). -/
def EVR_TIME_CMD_GO : Fld := ⟨0x06C, 0, 1⟩
/-- EVR_POST_CODE (R450). -/
def EVR_POST_CODE : Fld := ⟨0x070, 0, 12⟩
/-- EVR_POST_P0–3 (R450), entry `i`. -/
def EVR_POST_P0_3 (i : Nat) : Fld := ⟨0x074 + 4 * i, 0, 32⟩
/-- EVR_HIST_USED (R450). -/
def EVR_HIST_USED : Fld := ⟨0x084, 0, 9⟩
/-- EVR_HIST_OTHER (R450). -/
def EVR_HIST_OTHER : Fld := ⟨0x088, 0, 32⟩
/-- PMC_CTRL.ZERO (R451). -/
def PMC_CTRL_ZERO : Fld := ⟨0x040, 1, 1⟩
/-- PMC_CTRL.FREEZE (R451). -/
def PMC_CTRL_FREEZE : Fld := ⟨0x040, 0, 1⟩
/-- PMC_OVF (R451). -/
def PMC_OVF : Fld := ⟨0x044, 0, 16⟩
/-- PMC_TAG.EN (R451). -/
def PMC_TAG_EN : Fld := ⟨0x048, 31, 1⟩
/-- PMC_TAG.K (R451). -/
def PMC_TAG_K : Fld := ⟨0x048, 0, 5⟩
/-- PMC_TAG_COUNT (R451). -/
def PMC_TAG_COUNT : Fld := ⟨0x04C, 0, 32⟩
/-- PMC_TAG_SKIP (R451). -/
def PMC_TAG_SKIP : Fld := ⟨0x050, 0, 32⟩
/-- PMC_TAG_HEAD (R451). -/
def PMC_TAG_HEAD : Fld := ⟨0x054, 0, 5⟩
/-- PMC_HIST_CLR (R451). -/
def PMC_HIST_CLR : Fld := ⟨0x058, 0, 16⟩
/-- PMC_SEL_c.EN (R451), entry `i`. -/
def PMC_SEL_EN (i : Nat) : Fld := ⟨0x100 + 16 * i, 31, 1⟩
/-- PMC_SEL_c.OCC (R451), entry `i`. -/
def PMC_SEL_OCC (i : Nat) : Fld := ⟨0x100 + 16 * i, 30, 1⟩
/-- PMC_SEL_c.TEN_EN (R451), entry `i`. -/
def PMC_SEL_TEN_EN (i : Nat) : Fld := ⟨0x100 + 16 * i, 29, 1⟩
/-- PMC_SEL_c.TENANT (R451), entry `i`. -/
def PMC_SEL_TENANT (i : Nat) : Fld := ⟨0x100 + 16 * i, 16, 10⟩
/-- PMC_SEL_c.EVENT (R451), entry `i`. -/
def PMC_SEL_EVENT (i : Nat) : Fld := ⟨0x100 + 16 * i, 0, 8⟩
/-- PMC_THR_c (R451), entry `i`. -/
def PMC_THR (i : Nat) : Fld := ⟨0x104 + 16 * i, 0, 16⟩
/-- PMC_CNT_c_LO (R451), entry `i`. -/
def PMC_CNT_LO (i : Nat) : Fld := ⟨0x108 + 16 * i, 0, 32⟩
/-- PMC_CNT_c_HI (R451), entry `i`. -/
def PMC_CNT_HI (i : Nat) : Fld := ⟨0x10C + 16 * i, 0, 16⟩
/-- PMC_HIST_g_b (R451), entry `i`. -/
def PMC_HIST (i : Nat) : Fld := ⟨0x400 + 4 * i, 0, 32⟩
/-- PMC_RING_e_w (R451), entry `i`. -/
def PMC_RING (i : Nat) : Fld := ⟨0xC00 + 4 * i, 0, 32⟩
/-- CLK_STATUS.MAIN_LOCK (R465). -/
def CLK_STATUS_MAIN_LOCK : Fld := ⟨0x040, 31, 1⟩
/-- CLK_STATUS.HBM_LOCK (R465). -/
def CLK_STATUS_HBM_LOCK : Fld := ⟨0x040, 30, 1⟩
/-- CLK_STATUS.PAIR_LOCK (R465). -/
def CLK_STATUS_PAIR_LOCK : Fld := ⟨0x040, 29, 1⟩
/-- CLK_STATUS.REF_OK (R465). -/
def CLK_STATUS_REF_OK : Fld := ⟨0x040, 28, 1⟩
/-- CLK_SD_LOCK (R465). -/
def CLK_SD_LOCK : Fld := ⟨0x044, 0, 32⟩
/-- CLK_CCLK_DEV (R465). -/
def CLK_CCLK_DEV : Fld := ⟨0x048, 0, 16⟩
/-- CLK_SD_LOSS (R465). -/
def CLK_SD_LOSS : Fld := ⟨0x04C, 0, 16⟩
/-- PWR_STATUS.HOLD (R466). -/
def PWR_STATUS_HOLD : Fld := ⟨0x040, 8, 1⟩
/-- PWR_STATUS.RAILS (R466). -/
def PWR_STATUS_RAILS : Fld := ⟨0x040, 0, 8⟩
/-- PWR_VCORE (R466). -/
def PWR_VCORE : Fld := ⟨0x044, 0, 12⟩
/-- PWR_VBAT (R466). -/
def PWR_VBAT : Fld := ⟨0x048, 0, 12⟩
/-- PWR_TEMP (R466). -/
def PWR_TEMP : Fld := ⟨0x04C, 0, 16⟩
/-- PWR_TALARM (R466). -/
def PWR_TALARM : Fld := ⟨0x050, 0, 8⟩
/-- PWR_ICORE (R466). -/
def PWR_ICORE : Fld := ⟨0x054, 0, 8⟩
/-- RST_CAUSE (R467). -/
def RST_CAUSE : Fld := ⟨0x040, 0, 4⟩
/-- RST_CMD (R467). -/
def RST_CMD : Fld := ⟨0x044, 0, 32⟩
/-- RST_READY (R467). -/
def RST_READY : Fld := ⟨0x048, 0, 1⟩
/-- RST_WDT (R467). -/
def RST_WDT : Fld := ⟨0x04C, 0, 16⟩
/-- RST_WDT_KICK (R467). -/
def RST_WDT_KICK : Fld := ⟨0x050, 0, 32⟩
/-- RST_BOOT.TYPE (R467). -/
def RST_BOOT_TYPE : Fld := ⟨0x054, 24, 8⟩
/-- RST_BOOT.STATUS (R467). -/
def RST_BOOT_STATUS : Fld := ⟨0x054, 0, 16⟩
/-- RST_COUNT (R467). -/
def RST_COUNT : Fld := ⟨0x058, 0, 16⟩
/-- BFL_CFG.DIV (R468). -/
def BFL_CFG_DIV : Fld := ⟨0x040, 8, 8⟩
/-- BFL_CFG.OCTAL (R468). -/
def BFL_CFG_OCTAL : Fld := ⟨0x040, 0, 1⟩
/-- BFL_SLOT.BOOTED (R468). -/
def BFL_SLOT_BOOTED : Fld := ⟨0x044, 1, 1⟩
/-- BFL_SLOT.CUR (R468). -/
def BFL_SLOT_CUR : Fld := ⟨0x044, 0, 1⟩
/-- BFL_SRC (R468). -/
def BFL_SRC : Fld := ⟨0x048, 0, 27⟩
/-- BFL_DST_LO (R468). -/
def BFL_DST_LO : Fld := ⟨0x04C, 0, 32⟩
/-- BFL_DST_HI (R468). -/
def BFL_DST_HI : Fld := ⟨0x050, 0, 8⟩
/-- BFL_LEN (R468). -/
def BFL_LEN : Fld := ⟨0x054, 0, 27⟩
/-- BFL_XFER.GO (R468). -/
def BFL_XFER_GO : Fld := ⟨0x058, 31, 1⟩
/-- BFL_XFER.DONE (R468). -/
def BFL_XFER_DONE : Fld := ⟨0x058, 30, 1⟩
/-- BFL_XFER.ERR (R468). -/
def BFL_XFER_ERR : Fld := ⟨0x058, 29, 1⟩
/-- BFL_CMD.OP (R468). -/
def BFL_CMD_OP : Fld := ⟨0x05C, 0, 8⟩
/-- BFL_CMD_ADDR (R468). -/
def BFL_CMD_ADDR : Fld := ⟨0x060, 0, 27⟩
/-- BFL_CMD_LEN (R468). -/
def BFL_CMD_LEN : Fld := ⟨0x064, 0, 9⟩
/-- BFL_DIGEST_0–11 (R468), entry `i`. -/
def BFL_DIGEST (i : Nat) : Fld := ⟨0x070 + 4 * i, 0, 32⟩
/-- BFL_DATA (R468), entry `i`. -/
def BFL_DATA (i : Nat) : Fld := ⟨0x100 + 4 * i, 0, 32⟩
/-- HBC_STATUS.TRAINED (R473). -/
def HBC_STATUS_TRAINED : Fld := ⟨0x040, 31, 1⟩
/-- HBC_STATUS.KEYED (R473). -/
def HBC_STATUS_KEYED : Fld := ⟨0x040, 30, 1⟩
/-- HBC_STATUS.INIT_DONE (R473). -/
def HBC_STATUS_INIT_DONE : Fld := ⟨0x040, 29, 1⟩
/-- HBC_STATUS.HOT (R473). -/
def HBC_STATUS_HOT : Fld := ⟨0x040, 28, 1⟩
/-- HBC_STATUS.SCRUBBING (R473). -/
def HBC_STATUS_SCRUBBING : Fld := ⟨0x040, 27, 1⟩
/-- HBC_TRAIN_US (R473). -/
def HBC_TRAIN_US : Fld := ⟨0x044, 0, 24⟩
/-- HBC_CORR (R473). -/
def HBC_CORR : Fld := ⟨0x048, 0, 32⟩
/-- HBC_UNCORR (R473). -/
def HBC_UNCORR : Fld := ⟨0x04C, 0, 32⟩
/-- HBC_ERRADDR_LO (R473). -/
def HBC_ERRADDR_LO : Fld := ⟨0x050, 0, 32⟩
/-- HBC_ERRADDR_HI (R473). -/
def HBC_ERRADDR_HI : Fld := ⟨0x054, 0, 2⟩
/-- HBC_SCRUB (R473). -/
def HBC_SCRUB : Fld := ⟨0x058, 0, 8⟩
/-- HBC_SCRUB_PASSES (R473). -/
def HBC_SCRUB_PASSES : Fld := ⟨0x05C, 0, 32⟩
/-- HBC_TEMP (R473). -/
def HBC_TEMP : Fld := ⟨0x060, 0, 16⟩
/-- HBC_RD_BLK (R473). -/
def HBC_RD_BLK : Fld := ⟨0x064, 0, 32⟩
/-- HBC_WR_BLK (R473). -/
def HBC_WR_BLK : Fld := ⟨0x068, 0, 32⟩

/-- Rows of the `hdr` table, part 0. -/
def rows_hdr_0 : List FieldDef := [
  ⟨ID_BTYPE, .ro, 0, false, false, false, 1, 0⟩,
  ⟨ID_INST, .ro, 0, false, false, false, 1, 0⟩,
  ⟨ID_VER, .ro, 0, false, false, false, 1, 0⟩,
  ⟨CAP, .ro, 0, false, false, false, 1, 0⟩,
  ⟨CTRL_DRAIN_TO, .rw, 0x64, true, false, true, 1, 0⟩,
  ⟨CTRL_SPARE_ALLOW, .rw, 1, true, false, true, 1, 0⟩,
  ⟨CTRL_TEST_EN, .rw, 0, true, false, true, 1, 0⟩,
  ⟨CTRL_SQUASH_REQ, .wo, 0, false, false, false, 1, 0⟩,
  ⟨CTRL_DRAIN_REQ, .rw, 0, false, false, true, 1, 0⟩,
  ⟨CTRL_EN, .rw, 0, false, false, true, 1, 0⟩,
  ⟨STAT_INFLIGHT, .ro, 0, false, false, false, 1, 0⟩,
  ⟨STAT_SPARE_IN_USE, .ro, 0, false, false, false, 1, 0⟩,
  ⟨STAT_BUSY, .ro, 0, false, false, false, 1, 0⟩,
  ⟨STAT_STATE, .ro, 0, false, false, false, 1, 0⟩,
  ⟨ERR_MULTIPLE, .w1c, 0, false, false, true, 1, 0⟩,
  ⟨ERR_ACCESS, .w1c, 0, false, false, true, 1, 0⟩,
  ⟨ERR_TIMEOUT, .w1c, 0, false, false, true, 1, 0⟩,
  ⟨ERR_PARITY, .w1c, 0, false, false, true, 1, 0⟩,
  ⟨ERR_UNCORRECTED, .w1c, 0, false, false, true, 1, 0⟩,
  ⟨ERR_CORRECTED, .w1c, 0, false, false, true, 1, 0⟩]

/-- Rows of the `hdr` table, part 1. -/
def rows_hdr_1 : List FieldDef := [
  ⟨ERR_CODE, .ro, 0, false, false, false, 1, 0⟩,
  ⟨ERRMASK_CLASS, .rw, 0, true, false, false, 1, 0⟩,
  ⟨ERRINJ_PARITY, .wo, 0, false, false, false, 1, 0⟩,
  ⟨ERRINJ_UNCORR, .wo, 0, false, false, false, 1, 0⟩,
  ⟨ERRINJ_CORR, .wo, 0, false, false, false, 1, 0⟩,
  ⟨IRQST_BLOCK, .w1c, 0, false, false, false, 1, 0⟩,
  ⟨IRQST_SPARE, .w1c, 0, false, false, false, 1, 0⟩,
  ⟨IRQST_STATE, .w1c, 0, false, false, false, 1, 0⟩,
  ⟨IRQST_ERR, .w1c, 0, false, false, false, 1, 0⟩,
  ⟨IRQEN, .rw, 0, true, false, false, 1, 0⟩,
  ⟨LOCK_LOCK, .so, 0, false, false, true, 1, 0⟩,
  ⟨SPARE_SITE, .ro, 0, false, false, false, 1, 0⟩,
  ⟨SPARE_LEFT, .ro, 0, false, false, false, 1, 0⟩,
  ⟨HEALTH_CRUISE, .ro, 0, false, false, false, 1, 0⟩,
  ⟨HEALTH_UNCORR, .ro, 0, false, false, false, 1, 0⟩,
  ⟨HEALTH_CORR, .ro, 0, false, false, false, 1, 0⟩]

/-- The `hdr` register table. -/
def rows_hdr : List FieldDef := rows_hdr_0 ++ rows_hdr_1

/-- Rows of the `top` table, part 0. -/
def rows_top_0 : List FieldDef := [
  ⟨(TOP_DEVID 0), .ro, 0, false, false, false, 4, 4⟩,
  ⟨TOP_PART_STEP, .ro, 0, false, false, false, 1, 0⟩,
  ⟨TOP_PART_CODE, .ro, 0, false, false, false, 1, 0⟩,
  ⟨TOP_FITTED_0_HBM_GIB, .ro, 0, false, false, false, 1, 0⟩,
  ⟨TOP_FITTED_0_EVR_HIST, .ro, 0, false, false, false, 1, 0⟩,
  ⟨TOP_FITTED_0_LEDGER, .ro, 0, false, false, false, 1, 0⟩,
  ⟨TOP_FITTED_0_STANDIN, .ro, 0, false, false, false, 1, 0⟩,
  ⟨TOP_FITTED_0_PAIR, .ro, 0, false, false, false, 1, 0⟩,
  ⟨TOP_FITTED_0_RGN, .ro, 0, false, false, false, 1, 0⟩,
  ⟨TOP_FITTED_1_KCR, .ro, 0, false, false, false, 1, 0⟩,
  ⟨TOP_FITTED_1_CPH, .ro, 0, false, false, false, 1, 0⟩,
  ⟨TOP_FITTED_1_HSH, .ro, 0, false, false, false, 1, 0⟩,
  ⟨TOP_FITTED_1_PKE, .ro, 0, false, false, false, 1, 0⟩,
  ⟨TOP_FITTED_2_TEN_MAX, .ro, 0, false, false, false, 1, 0⟩,
  ⟨TOP_FITTED_2_CTX_K, .ro, 0, false, false, false, 1, 0⟩,
  ⟨TOP_FITTED_3_KC_K, .ro, 0, false, false, false, 1, 0⟩,
  ⟨TOP_FITTED_3_BIN_K, .ro, 0, false, false, false, 1, 0⟩,
  ⟨(TOP_PORTS 0), .ro, 0, false, false, false, 4, 4⟩,
  ⟨TOP_RGN_STATUS_ISOLATED, .ro, 0, false, false, false, 1, 0⟩,
  ⟨TOP_RGN_STATUS_ACTIVE, .ro, 0, false, false, false, 1, 0⟩]

/-- Rows of the `top` table, part 1. -/
def rows_top_1 : List FieldDef := [
  ⟨TOP_ACTIVE_0_KCR, .ro, 0, false, false, false, 1, 0⟩,
  ⟨TOP_ACTIVE_0_CPH, .ro, 0, false, false, false, 1, 0⟩,
  ⟨TOP_ACTIVE_0_HSH, .ro, 0, false, false, false, 1, 0⟩,
  ⟨TOP_ACTIVE_0_PKE, .ro, 0, false, false, false, 1, 0⟩,
  ⟨TOP_ACTIVE_1_CCR, .ro, 0, false, false, false, 1, 0⟩,
  ⟨TOP_ACTIVE_1_OSC, .ro, 0, false, false, false, 1, 0⟩,
  ⟨TOP_ACTIVE_1_LNK, .ro, 0, false, false, false, 1, 0⟩,
  ⟨TOP_SPARES_0_CPH, .ro, 0, false, false, false, 1, 0⟩,
  ⟨TOP_SPARES_0_KCR, .ro, 0, false, false, false, 1, 0⟩,
  ⟨TOP_SPARES_1_PKE, .ro, 0, false, false, false, 1, 0⟩,
  ⟨TOP_SPARES_1_HSH, .ro, 0, false, false, false, 1, 0⟩,
  ⟨TOP_SPARES_2_OSC, .ro, 0, false, false, false, 1, 0⟩,
  ⟨TOP_SPARES_2_CCR, .ro, 0, false, false, false, 1, 0⟩]

/-- The `top` register table. -/
def rows_top : List FieldDef := rows_top_0 ++ rows_top_1

/-- Rows of the `lnk` table, part 0. -/
def rows_lnk_0 : List FieldDef := [
  ⟨LNK_MODE_UDP6_EN, .rw, 0, true, true, false, 1, 0⟩,
  ⟨LNK_MODE_UDP4_EN, .rw, 0, true, true, false, 1, 0⟩,
  ⟨LNK_MODE_ETH_EN, .rw, 1, true, true, false, 1, 0⟩,
  ⟨LNK_MODE_FC, .rw, 2, true, true, false, 1, 0⟩,
  ⟨LNK_MODE_FEC, .rw, 0, true, true, false, 1, 0⟩,
  ⟨LNK_MODE_TRAIN_EN, .rw, 1, true, true, false, 1, 0⟩,
  ⟨LNK_MODE_PHY, .rw, 0, true, true, false, 1, 0⟩,
  ⟨LNK_ETYPE, .rw, 0x88b5, true, true, false, 1, 0⟩,
  ⟨LNK_UDP, .rw, 0xb86a, true, true, false, 1, 0⟩,
  ⟨LNK_MAC_LO, .rw, 0, true, true, false, 1, 0⟩,
  ⟨LNK_MAC_HI, .rw, 0, true, true, false, 1, 0⟩,
  ⟨LNK_IPV4, .rw, 0, true, true, false, 1, 0⟩,
  ⟨(LNK_IPV6 0), .rw, 0, true, true, false, 4, 4⟩,
  ⟨LNK_MAXFRM, .rw, 0x5f2, true, true, false, 1, 0⟩,
  ⟨LNK_BUF_RUNOUT, .rw, 0x18, true, true, false, 1, 0⟩,
  ⟨LNK_BUF_CTL, .ro, 8, false, false, false, 1, 0⟩,
  ⟨LNK_XOFF_XON, .rw, 0x40, true, false, false, 1, 0⟩,
  ⟨LNK_XOFF_XOFF, .rw, 0x60, true, false, false, 1, 0⟩,
  ⟨LNK_PFC_EN, .rw, 0x7f, true, false, false, 1, 0⟩,
  ⟨LNK_TXHOLD, .rw, 0x2710, true, false, false, 1, 0⟩]

/-- Rows of the `lnk` table, part 1. -/
def rows_lnk_1 : List FieldDef := [
  ⟨LNK_STATUS_FENCED, .ro, 0, false, false, false, 1, 0⟩,
  ⟨LNK_STATUS_PAUSED_RX, .ro, 0, false, false, false, 1, 0⟩,
  ⟨LNK_STATUS_XOFF, .ro, 0, false, false, false, 1, 0⟩,
  ⟨LNK_STATUS_TRAINED, .ro, 0, false, false, false, 1, 0⟩,
  ⟨LNK_STATUS_LINK_UP, .ro, 0, false, false, false, 1, 0⟩,
  ⟨LNK_STATUS_BLOCK_LOCK, .ro, 0, false, false, false, 1, 0⟩,
  ⟨LNK_CNT_RXFRM, .rw, 0, false, false, false, 1, 0⟩,
  ⟨LNK_CNT_TXFRM, .rw, 0, false, false, false, 1, 0⟩,
  ⟨LNK_CNT_BADFRM, .rw, 0, false, false, false, 1, 0⟩,
  ⟨LNK_CNT_RUNOUT, .rw, 0, false, false, false, 1, 0⟩,
  ⟨LNK_CNT_CTLDROP, .rw, 0, false, false, false, 1, 0⟩,
  ⟨LNK_CNT_TXDISC, .rw, 0, false, false, false, 1, 0⟩]

/-- The `lnk` register table. -/
def rows_lnk : List FieldDef := rows_lnk_0 ++ rows_lnk_1

/-- Rows of the `cls` table, part 0. -/
def rows_cls_0 : List FieldDef := [
  ⟨CLS_LVLMAP, .rw, 0x53977, true, false, false, 1, 0⟩,
  ⟨CLS_FB_SHARED, .ro, 0, false, false, false, 1, 0⟩,
  ⟨CLS_FB_USED, .ro, 0, false, false, false, 1, 0⟩,
  ⟨CLS_BRK_USED, .ro, 0, false, false, false, 1, 0⟩,
  ⟨CLS_DROP_NOMATCH, .rw, 0, false, false, false, 1, 0⟩,
  ⟨CLS_DROP_FORMAT, .rw, 0, false, false, false, 1, 0⟩,
  ⟨CLS_DROP_BRAKE, .rw, 0, false, false, false, 1, 0⟩,
  ⟨CLS_DROP_AUTH, .rw, 0, false, false, false, 1, 0⟩,
  ⟨CLS_FWD, .rw, 0, false, false, false, 1, 0⟩,
  ⟨CLS_DROP_STOPPED, .rw, 0, false, false, false, 1, 0⟩,
  ⟨(BRK_VALID 0), .ro, 0, false, false, false, 64, 16⟩,
  ⟨(BRK_KIND 0), .ro, 0, false, false, false, 64, 16⟩,
  ⟨(BRK_OWNER 0), .ro, 0, false, false, false, 64, 16⟩,
  ⟨(BRK_VALUE 0), .ro, 0, false, false, false, 64, 16⟩,
  ⟨(BRK_COUNT 0), .ro, 0, false, false, false, 64, 16⟩]

/-- The `cls` register table. -/
def rows_cls : List FieldDef := rows_cls_0

/-- Rows of the `htb` table, part 0. -/
def rows_htb_0 : List FieldDef := [
  ⟨HTB_CFG_DAMP, .rw, 0x64, true, false, false, 1, 0⟩,
  ⟨HTB_CFG_AGE, .rw, 0x12c, true, false, false, 1, 0⟩,
  ⟨HTB_COUNT_STATIC, .ro, 0, false, false, false, 1, 0⟩,
  ⟨HTB_COUNT_USED, .ro, 0, false, false, false, 1, 0⟩,
  ⟨HTB_MOVES, .ro, 0, false, false, false, 1, 0⟩,
  ⟨HTB_DAMPED, .ro, 0, false, false, false, 1, 0⟩,
  ⟨HTB_NOPORT, .ro, 0, false, false, false, 1, 0⟩,
  ⟨HTB_OP_BUSY, .ro, 0, false, false, false, 1, 0⟩,
  ⟨HTB_OP_CMD, .wo, 0, false, false, false, 1, 0⟩,
  ⟨HTB_IDX, .rw, 0, false, false, false, 1, 0⟩,
  ⟨HTB_ENT_0_VALID, .rw, 0, false, false, false, 1, 0⟩,
  ⟨HTB_ENT_0_STATIC, .rw, 0, false, false, false, 1, 0⟩,
  ⟨HTB_ENT_0_IP, .rw, 0, false, false, false, 1, 0⟩,
  ⟨HTB_ENT_0_V6, .rw, 0, false, false, false, 1, 0⟩,
  ⟨HTB_ENT_0_TENANT, .rw, 0, false, false, false, 1, 0⟩,
  ⟨HTB_ENT_0_PORT, .rw, 0, false, false, false, 1, 0⟩,
  ⟨HTB_ENT_1, .ro, 0, false, false, false, 1, 0⟩,
  ⟨HTB_ENT_2, .ro, 0, false, false, false, 1, 0⟩,
  ⟨HTB_ENT_3_UDP, .rw, 0, false, false, false, 1, 0⟩,
  ⟨HTB_ENT_3_MAC_HI, .rw, 0, false, false, false, 1, 0⟩]

/-- Rows of the `htb` table, part 1. -/
def rows_htb_1 : List FieldDef := [
  ⟨(HTB_ENT 0), .rw, 0, false, false, false, 4, 4⟩,
  ⟨HTB_OP_STATUS, .ro, 0, false, false, false, 1, 0⟩]

/-- The `htb` register table. -/
def rows_htb : List FieldDef := rows_htb_0 ++ rows_htb_1

/-- Rows of the `mgt` table, part 0. -/
def rows_mgt_0 : List FieldDef := [
  ⟨MGT_MODE_UDP6_EN, .rw, 0, true, true, false, 1, 0⟩,
  ⟨MGT_MODE_UDP4_EN, .rw, 0, true, true, false, 1, 0⟩,
  ⟨MGT_MODE_ETH_EN, .rw, 1, true, true, false, 1, 0⟩,
  ⟨MGT_MODE_LOOP, .rw, 0, false, true, false, 1, 0⟩,
  ⟨MGT_ETYPE, .rw, 0x88b5, true, true, false, 1, 0⟩,
  ⟨MGT_UDP, .rw, 0xb86a, true, true, false, 1, 0⟩,
  ⟨MGT_MAC_LO, .rw, 0, true, true, false, 1, 0⟩,
  ⟨MGT_MAC_HI, .rw, 0, true, true, false, 1, 0⟩,
  ⟨MGT_IPV4, .rw, 0, true, true, false, 1, 0⟩,
  ⟨(MGT_IPV6 0), .rw, 0, true, true, false, 4, 4⟩,
  ⟨MGT_MAXFRM, .rw, 0x5f2, true, true, false, 1, 0⟩,
  ⟨MGT_STATUS_ROM_SVC, .ro, 0, false, false, false, 1, 0⟩,
  ⟨MGT_STATUS_PAUSED_RX, .ro, 0, false, false, false, 1, 0⟩,
  ⟨MGT_STATUS_LINK_UP, .ro, 0, false, false, false, 1, 0⟩,
  ⟨MGT_STATUS_SYNC, .ro, 0, false, false, false, 1, 0⟩,
  ⟨MGT_MDIO_BUSY, .ro, 0, false, false, false, 1, 0⟩,
  ⟨MGT_MDIO_OP, .wo, 0, false, false, false, 1, 0⟩,
  ⟨MGT_MDIO_PHYAD, .rw, 0, false, false, false, 1, 0⟩,
  ⟨MGT_MDIO_REGAD, .rw, 0, false, false, false, 1, 0⟩,
  ⟨MGT_MDIO_DATA, .rw, 0, false, false, false, 1, 0⟩]

/-- Rows of the `mgt` table, part 1. -/
def rows_mgt_1 : List FieldDef := [
  ⟨MGT_CNT_RXFRM, .rw, 0, false, false, false, 1, 0⟩,
  ⟨MGT_CNT_TXFRM, .rw, 0, false, false, false, 1, 0⟩,
  ⟨MGT_CNT_BADFRM, .rw, 0, false, false, false, 1, 0⟩,
  ⟨MGT_CNT_DROP, .rw, 0, false, false, false, 1, 0⟩,
  ⟨MGT_CNT_TXDISC, .rw, 0, false, false, false, 1, 0⟩,
  ⟨MGT_CNT_SPEED, .rw, 0, false, false, false, 1, 0⟩,
  ⟨MGT_SESS, .ro, 0, false, false, false, 1, 0⟩]

/-- The `mgt` register table. -/
def rows_mgt : List FieldDef := rows_mgt_0 ++ rows_mgt_1

/-- Rows of the `tri` table, part 0. -/
def rows_tri_0 : List FieldDef := [
  ⟨TRI_LOCK_SET, .wo, 0, false, false, false, 1, 0⟩,
  ⟨TRI_LOCK_CLR, .wo, 0, false, false, false, 1, 0⟩,
  ⟨TRI_COMMIT, .wo, 0, false, false, false, 1, 0⟩,
  ⟨TRI_STATUS_COPYING, .ro, 0, false, false, false, 1, 0⟩,
  ⟨TRI_STATUS_HOLD, .ro, 0, false, false, false, 1, 0⟩,
  ⟨TRI_STATUS_LOCKED, .ro, 0, false, false, false, 1, 0⟩,
  ⟨TRI_DMA_SRC_LO, .rw, 0, false, false, false, 1, 0⟩,
  ⟨TRI_DMA_SRC_HI, .rw, 0, false, false, false, 1, 0⟩,
  ⟨TRI_DMA_GO, .w1s, 0, false, false, false, 1, 0⟩,
  ⟨TRI_DMA_FIRST, .rw, 0, false, false, false, 1, 0⟩,
  ⟨TRI_DMA_COUNT, .rw, 0, false, false, false, 1, 0⟩,
  ⟨TRI_LOOKUPS, .ro, 0, false, false, false, 1, 0⟩,
  ⟨TRI_MISSES, .ro, 0, false, false, false, 1, 0⟩,
  ⟨TRI_BADPTR, .ro, 0, false, false, false, 1, 0⟩,
  ⟨TRI_ERRADDR, .ro, 0, false, false, false, 1, 0⟩]

/-- The `tri` register table. -/
def rows_tri : List FieldDef := rows_tri_0

/-- Rows of the `vlt` table, part 0. -/
def rows_vlt_0 : List FieldDef := [
  ⟨VLT_STATUS_LOCKED, .ro, 0, false, false, false, 1, 0⟩,
  ⟨VLT_STATUS_ERASED, .ro, 0, false, false, false, 1, 0⟩,
  ⟨VLT_STATUS_ROOT_VALID, .ro, 0, false, false, false, 1, 0⟩,
  ⟨VLT_STATUS_MASK_STALE, .ro, 0, false, false, false, 1, 0⟩,
  ⟨VLT_STATUS_DERIVED, .ro, 0, false, false, false, 1, 0⟩,
  ⟨VLT_STATUS_MIG, .ro, 0, false, false, false, 1, 0⟩,
  ⟨VLT_STATUS_CUR_WRAP, .ro, 0, false, false, false, 1, 0⟩,
  ⟨VLT_CACHE_USED, .ro, 0, false, false, false, 1, 0⟩,
  ⟨VLT_NVM_FREE, .ro, 0, false, false, false, 1, 0⟩,
  ⟨VLT_NVM_USED, .ro, 0, false, false, false, 1, 0⟩,
  ⟨VLT_NVM_SECT_RETIRED, .ro, 0, false, false, false, 1, 0⟩,
  ⟨VLT_NVM_SECT_SPARE, .ro, 0, false, false, false, 1, 0⟩,
  ⟨VLT_NVM_ALLOW, .ro, 0xea60, false, false, false, 1, 0⟩,
  ⟨VLT_MIG_DONE, .ro, 0, false, false, false, 1, 0⟩,
  ⟨VLT_MIG_TOTAL, .ro, 0, false, false, false, 1, 0⟩,
  ⟨VLT_MIG_CONFIRM, .wo, 0, false, false, false, 1, 0⟩,
  ⟨VLT_OP_BUSY, .ro, 0, false, false, false, 1, 0⟩,
  ⟨VLT_OP_CMD, .wo, 0, false, false, false, 1, 0⟩,
  ⟨VLT_OP_STATUS, .ro, 0, false, false, false, 1, 0⟩,
  ⟨VLT_OP_HANDLE, .rw, 0, false, false, false, 1, 0⟩]

/-- Rows of the `vlt` table, part 1. -/
def rows_vlt_1 : List FieldDef := [
  ⟨VLT_OP_INDEX, .rw, 0, false, false, false, 1, 0⟩,
  ⟨VLT_INFO_0_USAGE, .ro, 0, false, false, false, 1, 0⟩,
  ⟨VLT_INFO_0_ALG, .ro, 0, false, false, false, 1, 0⟩,
  ⟨VLT_INFO_0_MODE, .ro, 0, false, false, false, 1, 0⟩,
  ⟨VLT_INFO_1_EXPORT, .ro, 0, false, false, false, 1, 0⟩,
  ⟨VLT_INFO_1_LEN, .ro, 0, false, false, false, 1, 0⟩,
  ⟨VLT_INFO_1_STATE, .ro, 0, false, false, false, 1, 0⟩,
  ⟨VLT_INFO_1_PARENT, .ro, 0, false, false, false, 1, 0⟩,
  ⟨VLT_INFO_2, .ro, 0, false, false, false, 1, 0⟩,
  ⟨VLT_INFO_3, .ro, 0, false, false, false, 1, 0⟩,
  ⟨VLT_EXT_TEN, .rw, 0, false, false, false, 1, 0⟩,
  ⟨VLT_EXT_BASE, .rw, 0, true, false, false, 1, 0⟩,
  ⟨VLT_EXT_COUNT, .rw, 0, true, false, false, 1, 0⟩,
  ⟨VLT_RESOLVES, .ro, 0, false, false, false, 1, 0⟩,
  ⟨VLT_ORPHANS, .ro, 0, false, false, false, 1, 0⟩,
  ⟨VLT_UPD_REFUSED, .ro, 0, false, false, false, 1, 0⟩,
  ⟨VLT_UPD_ACCEPTED, .ro, 0, false, false, false, 1, 0⟩,
  ⟨VLT_DBG_REFUSED, .ro, 0, false, false, false, 1, 0⟩,
  ⟨VLT_REMASK_NVM, .ro, 0, false, false, false, 1, 0⟩,
  ⟨VLT_REMASK_CACHE, .ro, 0, false, false, false, 1, 0⟩]

/-- Rows of the `vlt` table, part 2. -/
def rows_vlt_2 : List FieldDef := [
  ⟨VLT_MEAS_SEAL, .so, 0, false, false, true, 1, 0⟩,
  ⟨(VLT_FWVER 0), .ro, 0, false, false, false, 4, 4⟩,
  ⟨VLT_VFLOOR, .ro, 0, false, false, false, 1, 0⟩,
  ⟨(MEAS 0), .rw, 0, false, false, true, 96, 4⟩]

/-- The `vlt` register table. -/
def rows_vlt : List FieldDef := rows_vlt_0 ++ rows_vlt_1 ++ rows_vlt_2

/-- Rows of the `cph` table, part 0. -/
def rows_cph_0 : List FieldDef := [
  ⟨CPH_CUR_VALID, .ro, 0, false, false, false, 1, 0⟩,
  ⟨CPH_CUR_TENANT, .ro, 0, false, false, false, 1, 0⟩,
  ⟨CPH_CUR_OP, .ro, 0, false, false, false, 1, 0⟩,
  ⟨CPH_CUR_ALG, .ro, 0, false, false, false, 1, 0⟩,
  ⟨CPH_CUR_HANDLE, .ro, 0, false, false, false, 1, 0⟩,
  ⟨CPH_CUR_DONE, .ro, 0, false, false, false, 1, 0⟩,
  ⟨CPH_JOBS, .ro, 0, false, false, false, 1, 0⟩,
  ⟨CPH_BLOCKS_LO, .ro, 0, false, false, false, 1, 0⟩,
  ⟨CPH_BLOCKS_HI, .ro, 0, false, false, false, 1, 0⟩,
  ⟨CPH_REFUSED, .ro, 0, false, false, false, 1, 0⟩,
  ⟨CPH_VFAIL, .ro, 0, false, false, false, 1, 0⟩,
  ⟨CPH_CTREXH, .ro, 0, false, false, false, 1, 0⟩,
  ⟨CPH_KAT_PASS, .ro, 0, false, false, false, 1, 0⟩,
  ⟨CPH_KAT_VECTOR, .ro, 0, false, false, false, 1, 0⟩,
  ⟨CPH_KAT_FAIL, .ro, 0, false, false, false, 1, 0⟩,
  ⟨CPH_TEST_RUN, .wo, 0, false, true, false, 1, 0⟩,
  ⟨CPH_ERRJOB_TENANT, .ro, 0, false, false, false, 1, 0⟩,
  ⟨CPH_ERRJOB_OP, .ro, 0, false, false, false, 1, 0⟩]

/-- The `cph` register table. -/
def rows_cph : List FieldDef := rows_cph_0

/-- Rows of the `hsh` table, part 0. -/
def rows_hsh_0 : List FieldDef := [
  ⟨HSH_CUR_VALID, .ro, 0, false, false, false, 1, 0⟩,
  ⟨HSH_CUR_TENANT, .ro, 0, false, false, false, 1, 0⟩,
  ⟨HSH_CUR_OP, .ro, 0, false, false, false, 1, 0⟩,
  ⟨HSH_CUR_HANDLE, .ro, 0, false, false, false, 1, 0⟩,
  ⟨HSH_CUR_DONE, .ro, 0, false, false, false, 1, 0⟩,
  ⟨HSH_JOBS, .ro, 0, false, false, false, 1, 0⟩,
  ⟨HSH_BLOCKS_LO, .ro, 0, false, false, false, 1, 0⟩,
  ⟨HSH_BLOCKS_HI, .ro, 0, false, false, false, 1, 0⟩,
  ⟨HSH_REFUSED, .ro, 0, false, false, false, 1, 0⟩,
  ⟨HSH_VFAIL, .ro, 0, false, false, false, 1, 0⟩,
  ⟨HSH_KAT_PASS, .ro, 0, false, false, false, 1, 0⟩,
  ⟨HSH_KAT_VECTOR, .ro, 0, false, false, false, 1, 0⟩,
  ⟨HSH_KAT_FAIL, .ro, 0, false, false, false, 1, 0⟩,
  ⟨HSH_TEST_RUN, .wo, 0, false, true, false, 1, 0⟩]

/-- The `hsh` register table. -/
def rows_hsh : List FieldDef := rows_hsh_0

/-- Rows of the `pke` table, part 0. -/
def rows_pke_0 : List FieldDef := [
  ⟨PKE_CUR_VALID, .ro, 0, false, false, false, 1, 0⟩,
  ⟨PKE_CUR_TENANT, .ro, 0, false, false, false, 1, 0⟩,
  ⟨PKE_CUR_FUNC, .ro, 0, false, false, false, 1, 0⟩,
  ⟨PKE_CUR_SLOT, .ro, 0, false, false, false, 1, 0⟩,
  ⟨PKE_CUR_HANDLE, .ro, 0, false, false, false, 1, 0⟩,
  ⟨PKE_CUR_BITS, .ro, 0, false, false, false, 1, 0⟩,
  ⟨PKE_JOBS, .ro, 0, false, false, false, 1, 0⟩,
  ⟨PKE_REFUSED, .ro, 0, false, false, false, 1, 0⟩,
  ⟨PKE_VFAIL, .ro, 0, false, false, false, 1, 0⟩,
  ⟨PKE_RESCHK, .ro, 0, false, false, false, 1, 0⟩,
  ⟨PKE_UC_VER, .ro, 0, false, false, false, 1, 0⟩,
  ⟨PKE_UC_CRC, .ro, 0, false, false, false, 1, 0⟩,
  ⟨PKE_KAT_PASS, .ro, 0, false, false, false, 1, 0⟩,
  ⟨PKE_KAT_VECTOR, .ro, 0, false, false, false, 1, 0⟩,
  ⟨PKE_KAT_FAIL, .ro, 0, false, false, false, 1, 0⟩,
  ⟨PKE_TEST_RUN, .wo, 0, false, true, false, 1, 0⟩,
  ⟨PKE_ERRJOB_TENANT, .ro, 0, false, false, false, 1, 0⟩,
  ⟨PKE_ERRJOB_FUNC, .ro, 0, false, false, false, 1, 0⟩]

/-- The `pke` register table. -/
def rows_pke : List FieldDef := rows_pke_0

/-- Rows of the `odm` table, part 0. -/
def rows_odm_0 : List FieldDef := [
  ⟨ODM_CFG_LONG_MAX, .rw, 2, true, false, false, 1, 0⟩,
  ⟨ODM_QUEUE_LONG, .ro, 0, false, false, false, 1, 0⟩,
  ⟨ODM_QUEUE_ALL, .ro, 0, false, false, false, 1, 0⟩,
  ⟨ODM_BYTES_IN, .ro, 0, false, false, false, 1, 0⟩,
  ⟨ODM_BYTES_OUT, .ro, 0, false, false, false, 1, 0⟩,
  ⟨ODM_ERRADDR_LO, .ro, 0, false, false, false, 1, 0⟩,
  ⟨ODM_ERRADDR_HI, .ro, 0, false, false, false, 1, 0⟩,
  ⟨ODM_UC_SRC_LO, .rw, 0, false, false, false, 1, 0⟩,
  ⟨ODM_UC_SRC_HI, .rw, 0, false, false, false, 1, 0⟩,
  ⟨ODM_UC_GO, .w1s, 0, false, false, false, 1, 0⟩,
  ⟨ODM_UC_DONE, .ro, 0, false, false, false, 1, 0⟩,
  ⟨ODM_UC_REFUSED, .ro, 0, false, false, false, 1, 0⟩,
  ⟨ODM_UC_WORDS, .rw, 0, false, false, false, 1, 0⟩,
  ⟨ODM_UC_CRC, .ro, 0, false, false, false, 1, 0⟩,
  ⟨ODM_CURVE_BASE, .rw, 0, true, false, false, 1, 0⟩,
  ⟨ODM_PASSED, .ro, 0, false, false, false, 1, 0⟩]

/-- The `odm` register table. -/
def rows_odm : List FieldDef := rows_odm_0

/-- Rows of the `rng` table, part 0. -/
def rows_rng_0 : List FieldDef := [
  ⟨RNG_SRC_STATUS_STARTUP_DONE, .ro, 0, false, false, false, 1, 0⟩,
  ⟨RNG_SRC_STATUS_BELOW_MIN, .ro, 0, false, false, false, 1, 0⟩,
  ⟨RNG_SRC_STATUS_RAW, .ro, 0, false, false, false, 1, 0⟩,
  ⟨RNG_SRC_STATUS_HEALTHY, .ro, 0, false, false, false, 1, 0⟩,
  ⟨RNG_SRC_STATUS_SEEDQ, .ro, 0, false, false, false, 1, 0⟩,
  ⟨RNG_CFG_MIN_OSC, .rw, 0x18, true, false, false, 1, 0⟩,
  ⟨RNG_OSC_FAIL_LO, .ro, 0, false, false, false, 1, 0⟩,
  ⟨RNG_OSC_FAIL_HI, .ro, 0, false, false, false, 1, 0⟩,
  ⟨RNG_OSC_USE_LO, .ro, 0, false, false, false, 1, 0⟩,
  ⟨RNG_OSC_USE_HI, .ro, 0, false, false, false, 1, 0⟩,
  ⟨RNG_CUTOFF_APT, .ro, 0x33b, false, false, false, 1, 0⟩,
  ⟨RNG_CUTOFF_RCT, .ro, 0x51, false, false, false, 1, 0⟩,
  ⟨RNG_HT_FAILS, .ro, 0, false, false, false, 1, 0⟩,
  ⟨RNG_SEEDS, .ro, 0, false, false, false, 1, 0⟩,
  ⟨RNG_DISCARDS, .ro, 0, false, false, false, 1, 0⟩,
  ⟨RNG_RAW_PERMIT, .so, 0, false, false, true, 1, 0⟩,
  ⟨RNG_RAW_CTRL_EN, .rw, 0, false, false, true, 1, 0⟩,
  ⟨RNG_RAW_CTRL_ARM, .w1s, 0, false, false, false, 1, 0⟩,
  ⟨RNG_RAW_CTRL_SEL, .rw, 0, false, false, false, 1, 0⟩,
  ⟨RNG_RAW_STATUS_FULL, .ro, 0, false, false, false, 1, 0⟩]

/-- Rows of the `rng` table, part 1. -/
def rows_rng_1 : List FieldDef := [
  ⟨RNG_RAW_STATUS_WORDS, .ro, 0, false, false, false, 1, 0⟩]

/-- The `rng` register table. -/
def rows_rng : List FieldDef := rows_rng_0 ++ rows_rng_1

/-- Rows of the `rnx` table, part 0. -/
def rows_rnx_0 : List FieldDef := [
  ⟨RNG_DRBG_STATUS_SEEDED, .ro, 0, false, false, false, 1, 0⟩,
  ⟨RNG_DRBG_STATUS_STRETCH, .ro, 0, false, false, false, 1, 0⟩,
  ⟨RNG_DRBG_STATUS_LIMIT, .ro, 0, false, false, false, 1, 0⟩,
  ⟨RNG_DRBG_STATUS_REQS, .ro, 0, false, false, false, 1, 0⟩,
  ⟨RNG_BOOM_RESV, .ro, 0, false, false, false, 1, 0⟩,
  ⟨RNG_BOOM_FILL, .ro, 0, false, false, false, 1, 0⟩,
  ⟨RNG_REFILL, .rw, 0x1800, true, false, false, 1, 0⟩,
  ⟨RNG_RESEEDS, .ro, 0, false, false, false, 1, 0⟩,
  ⟨RNG_GEN_LO, .ro, 0, false, false, false, 1, 0⟩,
  ⟨RNG_GEN_HI, .ro, 0, false, false, false, 1, 0⟩,
  ⟨RNG_UNAVAIL, .ro, 0, false, false, false, 1, 0⟩,
  ⟨RNG_KAT_PASS, .ro, 0, false, false, false, 1, 0⟩,
  ⟨RNG_KAT_FAIL, .ro, 0, false, false, false, 1, 0⟩]

/-- The `rnx` register table. -/
def rows_rnx : List FieldDef := rows_rnx_0

/-- Rows of the `sch` table, part 0. -/
def rows_sch_0 : List FieldDef := [
  ⟨SCH_HELD_SUSP, .ro, 0, false, false, false, 1, 0⟩,
  ⟨SCH_HELD_ALL, .ro, 0, false, false, false, 1, 0⟩,
  ⟨SCH_DLY, .ro, 0, false, false, false, 1, 0⟩,
  ⟨SCH_DISPATCHED, .ro, 0, false, false, false, 1, 0⟩,
  ⟨SCH_TIMEOUTS, .ro, 0, false, false, false, 1, 0⟩,
  ⟨SCH_REFUSED, .ro, 0, false, false, false, 1, 0⟩,
  ⟨SCH_DLY_LATE, .ro, 0, false, false, false, 1, 0⟩,
  ⟨SCH_DLY_FULL, .ro, 0, false, false, false, 1, 0⟩,
  ⟨SCH_SQ_LO, .rw, 0, true, true, false, 1, 0⟩,
  ⟨SCH_SQ_HI, .rw, 0, true, true, false, 1, 0⟩,
  ⟨SCH_SQ_CFG_SIZE, .rw, 4, true, true, false, 1, 0⟩,
  ⟨SCH_SQ_TAIL, .rw, 0, false, false, true, 1, 0⟩,
  ⟨SCH_SQ_HEAD, .ro, 0, false, false, false, 1, 0⟩,
  ⟨SCH_CQ_LO, .rw, 0, true, true, false, 1, 0⟩,
  ⟨SCH_CQ_HI, .rw, 0, true, true, false, 1, 0⟩,
  ⟨SCH_CQ_HEAD, .rw, 0, false, false, false, 1, 0⟩,
  ⟨SCH_CQ_TAIL, .ro, 0, false, false, false, 1, 0⟩,
  ⟨SCH_RSP_LO, .rw, 0, true, true, false, 1, 0⟩,
  ⟨SCH_RSP_HI, .rw, 0, true, true, false, 1, 0⟩,
  ⟨SCH_PRG_SRC_LO, .rw, 0, false, false, false, 1, 0⟩]

/-- Rows of the `sch` table, part 1. -/
def rows_sch_1 : List FieldDef := [
  ⟨SCH_PRG_SRC_HI, .rw, 0, false, false, false, 1, 0⟩,
  ⟨SCH_PRG_GO, .w1s, 0, false, false, false, 1, 0⟩,
  ⟨SCH_PRG_DONE, .ro, 0, false, false, false, 1, 0⟩,
  ⟨SCH_PRG_REFUSED, .ro, 0, false, false, false, 1, 0⟩,
  ⟨SCH_PRG_SEG, .rw, 0, false, false, false, 1, 0⟩,
  ⟨SCH_PRG_BASE, .rw, 0, false, false, false, 1, 0⟩,
  ⟨SCH_PRG_WORDS, .rw, 0, false, false, false, 1, 0⟩,
  ⟨(SCH_LEVEL 0), .ro, 0, false, false, false, 8, 4⟩,
  ⟨(SCH_TBIND_VALID 0), .rw, 0, false, false, false, 64, 4⟩,
  ⟨(SCH_TBIND_TENANT 0), .rw, 0, false, false, false, 64, 4⟩]

/-- The `sch` register table. -/
def rows_sch : List FieldDef := rows_sch_0 ++ rows_sch_1

/-- Rows of the `kcr` table, part 0. -/
def rows_kcr_0 : List FieldDef := [
  ⟨KCR_CUR_VALID, .ro, 0, false, false, false, 1, 0⟩,
  ⟨KCR_CUR_TENANT, .ro, 0, false, false, false, 1, 0⟩,
  ⟨KCR_CUR_CMD, .ro, 0, false, false, false, 1, 0⟩,
  ⟨KCR_PC, .ro, 0, false, false, false, 1, 0⟩,
  ⟨KCR_TASKS, .ro, 0, false, false, false, 1, 0⟩,
  ⟨KCR_TRAPS, .ro, 0, false, false, false, 1, 0⟩,
  ⟨KCR_LASTTRAP_CODE, .ro, 0, false, false, false, 1, 0⟩,
  ⟨KCR_LASTTRAP_PC, .ro, 0, false, false, false, 1, 0⟩,
  ⟨KCR_BUSY, .ro, 0, false, false, false, 1, 0⟩]

/-- The `kcr` register table. -/
def rows_kcr : List FieldDef := rows_kcr_0

/-- Rows of the `ctx` table, part 0. -/
def rows_ctx_0 : List FieldDef := [
  ⟨CTX_USED, .ro, 0, false, false, false, 1, 0⟩,
  ⟨CTX_LOCKED, .ro, 0, false, false, false, 1, 0⟩,
  ⟨CTX_EXPIRED, .ro, 0, false, false, false, 1, 0⟩,
  ⟨CTX_DRAWS, .ro, 0, false, false, false, 1, 0⟩,
  ⟨CTX_OP_BUSY, .ro, 0, false, false, false, 1, 0⟩,
  ⟨CTX_OP_CMD, .wo, 0, false, false, false, 1, 0⟩,
  ⟨CTX_OP_ID, .rw, 0, false, false, false, 1, 0⟩,
  ⟨CTX_OP_TEN, .rw, 0, false, false, false, 1, 0⟩,
  ⟨CTX_OP_STATUS, .ro, 0, false, false, false, 1, 0⟩,
  ⟨CTX_ERRIDX, .ro, 0, false, false, false, 1, 0⟩]

/-- The `ctx` register table. -/
def rows_ctx : List FieldDef := rows_ctx_0

/-- Rows of the `ten` table, part 0. -/
def rows_ten_0 : List FieldDef := [
  ⟨TEN_SEL, .rw, 0, false, false, false, 1, 0⟩,
  ⟨TEN_DB, .wo, 0, false, false, false, 1, 0⟩,
  ⟨TEN_OP_BUSY, .ro, 0, false, false, false, 1, 0⟩,
  ⟨TEN_OP_CMD, .wo, 0, false, false, false, 1, 0⟩,
  ⟨TEN_OP_STATUS, .ro, 0, false, false, false, 1, 0⟩,
  ⟨TEN_STATUS_DONE, .w1c, 0, false, false, true, 1, 0⟩,
  ⟨TEN_STATUS_RESETS, .ro, 0, false, false, false, 1, 0⟩,
  ⟨TEN_STATUS_PHASE, .ro, 0, false, false, false, 1, 0⟩,
  ⟨TEN_STATUS_STATE, .ro, 0, false, false, false, 1, 0⟩,
  ⟨TEN_ASID_VALID, .rw, 0, false, false, true, 1, 0⟩,
  ⟨TEN_ASID_ASID, .rw, 0, false, false, true, 1, 0⟩,
  ⟨TEN_POLICY_SI_OWNER_SUBMIT, .rw, 0, false, false, false, 1, 0⟩,
  ⟨TEN_POLICY_PIN_DOWNGRADE, .rw, 0, false, false, false, 1, 0⟩,
  ⟨TEN_Q_WORK, .rw, 0x100, false, false, false, 1, 0⟩,
  ⟨TEN_Q_CTX, .rw, 0x400, false, false, false, 1, 0⟩,
  ⟨TEN_Q_NET_HOST, .rw, 0x10, false, false, false, 1, 0⟩,
  ⟨TEN_Q_NET_SESS, .rw, 0x10, false, false, false, 1, 0⟩,
  ⟨TEN_Q_KEYS, .rw, 0x1000, false, false, false, 1, 0⟩,
  ⟨TEN_Q_VLT, .rw, 0x40, false, false, false, 1, 0⟩,
  ⟨TEN_SCHED_SHARE, .rw, 1, false, false, false, 1, 0⟩]

/-- Rows of the `ten` table, part 1. -/
def rows_ten_1 : List FieldDef := [
  ⟨TEN_SCHED_DEADLINE, .rw, 0x64, false, false, false, 1, 0⟩,
  ⟨TEN_JRN_BASE, .rw, 0, false, false, false, 1, 0⟩,
  ⟨TEN_JRN_QUOTA, .rw, 0x40, false, false, false, 1, 0⟩,
  ⟨TEN_USE_0_HOST, .ro, 0, false, false, false, 1, 0⟩,
  ⟨TEN_USE_0_SESS, .ro, 0, false, false, false, 1, 0⟩,
  ⟨TEN_USE_KEYS, .ro, 0, false, false, false, 1, 0⟩,
  ⟨TEN_USE_VLT, .ro, 0, false, false, false, 1, 0⟩,
  ⟨TEN_USE_JRN, .ro, 0, false, false, false, 1, 0⟩,
  ⟨TEN_REFUSED, .ro, 0, false, false, false, 1, 0⟩,
  ⟨TEN_DRAIN_TIMEOUT, .rw, 0xc8, true, false, false, 1, 0⟩,
  ⟨TEN_MBX_BASE, .rw, 0, true, false, false, 1, 0⟩,
  ⟨(TEN_DB_PEND 0), .w1c, 0, false, false, false, 32, 4⟩]

/-- The `ten` register table. -/
def rows_ten : List FieldDef := rows_ten_0 ++ rows_ten_1

/-- Rows of the `mpu` table, part 0. -/
def rows_mpu_0 : List FieldDef := [
  ⟨MPU_FAULT_LO, .ro, 0, false, false, false, 1, 0⟩,
  ⟨MPU_FAULT_HI, .ro, 0, false, false, false, 1, 0⟩,
  ⟨MPU_FAULT_INFO_VALID, .w1c, 0, false, false, false, 1, 0⟩,
  ⟨MPU_FAULT_INFO_WRITE, .ro, 0, false, false, false, 1, 0⟩,
  ⟨MPU_FAULT_INFO_PRIV, .ro, 0, false, false, false, 1, 0⟩,
  ⟨MPU_FAULT_INFO_NOMATCH, .ro, 0, false, false, false, 1, 0⟩,
  ⟨MPU_FAULT_INFO_ENTRY, .ro, 0, false, false, false, 1, 0⟩,
  ⟨MPU_FAULT_INFO_SPACE, .ro, 0, false, false, false, 1, 0⟩,
  ⟨MPU_FAULT_INFO_UNTAGGED, .ro, 0, false, false, false, 1, 0⟩,
  ⟨MPU_FAULT_INFO_TENANT, .ro, 0, false, false, false, 1, 0⟩,
  ⟨MPU_FAULTS, .ro, 0, false, false, false, 1, 0⟩,
  ⟨MPU_MASTER, .ro, 0, false, false, false, 1, 0⟩,
  ⟨(MPU_ENT_LO 0), .rw, 0, false, false, false, 16, 16⟩,
  ⟨(MPU_ENT_HI 0), .rw, 0, false, false, false, 16, 16⟩,
  ⟨(MPU_ENT_CFG_VALID 0), .rw, 0, false, false, true, 16, 16⟩,
  ⟨(MPU_ENT_CFG_SIZE 0), .rw, 0, false, false, true, 16, 16⟩,
  ⟨(MPU_ENT_CFG_TREL 0), .rw, 0, false, false, true, 16, 16⟩,
  ⟨(MPU_ENT_CFG_ANYTEN 0), .rw, 0, false, false, true, 16, 16⟩,
  ⟨(MPU_ENT_CFG_USER 0), .rw, 0, false, false, true, 16, 16⟩,
  ⟨(MPU_ENT_CFG_X 0), .rw, 0, false, false, true, 16, 16⟩]

/-- Rows of the `mpu` table, part 1. -/
def rows_mpu_1 : List FieldDef := [
  ⟨(MPU_ENT_CFG_W 0), .rw, 0, false, false, true, 16, 16⟩,
  ⟨(MPU_ENT_CFG_R 0), .rw, 0, false, false, true, 16, 16⟩,
  ⟨(MPU_ENT_CFG_TENANT 0), .rw, 0, false, false, true, 16, 16⟩]

/-- The `mpu` register table. -/
def rows_mpu : List FieldDef := rows_mpu_0 ++ rows_mpu_1

/-- Rows of the `par` table, part 0. -/
def rows_par_0 : List FieldDef := [
  ⟨PAIR_CTRL_SYNC_REPLY, .rw, 1, true, false, false, 1, 0⟩,
  ⟨PAIR_CMD, .wo, 0, false, false, false, 1, 0⟩,
  ⟨PAIR_STATUS_UNACKED, .ro, 0, false, false, false, 1, 0⟩,
  ⟨PAIR_STATUS_LANES, .ro, 0, false, false, false, 1, 0⟩,
  ⟨PAIR_STATUS_FMT_MISMATCH, .ro, 0, false, false, false, 1, 0⟩,
  ⟨PAIR_STATUS_ID_REFUSED, .ro, 0, false, false, false, 1, 0⟩,
  ⟨PAIR_STATUS_CONFLICT, .ro, 0, false, false, false, 1, 0⟩,
  ⟨PAIR_STATUS_PEER_HB, .ro, 0, false, false, false, 1, 0⟩,
  ⟨PAIR_STATUS_LINK_UP, .ro, 0, false, false, false, 1, 0⟩,
  ⟨PAIR_STATUS_ROLE, .ro, 0, false, false, false, 1, 0⟩,
  ⟨(PAIR_PEER_ID 0), .rw, 0, true, false, false, 4, 4⟩,
  ⟨PAIR_EPOCH_LO, .ro, 0, false, false, false, 1, 0⟩,
  ⟨PAIR_EPOCH_HI, .ro, 0, false, false, false, 1, 0⟩,
  ⟨PAIR_ACKED_LO, .ro, 0, false, false, false, 1, 0⟩,
  ⟨PAIR_DELTA_LAST, .ro, 0, false, false, false, 1, 0⟩,
  ⟨PAIR_BACKLOG, .ro, 0, false, false, false, 1, 0⟩,
  ⟨PAIR_BACKLOG_MAX, .rw, 0x200, true, false, false, 1, 0⟩,
  ⟨PAIR_LEASE_A_ATC, .rw, 3, true, true, false, 1, 0⟩,
  ⟨PAIR_LEASE_A_DUKPT, .rw, 3, true, true, false, 1, 0⟩,
  ⟨PAIR_LEASE_A_TOKEN, .rw, 0xc, true, true, false, 1, 0⟩]

/-- Rows of the `par` table, part 1. -/
def rows_par_1 : List FieldDef := [
  ⟨PAIR_LEASE_A_NONCE, .rw, 0x10, true, true, false, 1, 0⟩,
  ⟨PAIR_LEASE_B_SEQ, .rw, 0x10, true, true, false, 1, 0⟩,
  ⟨PAIR_LEASE_B_JSEQ, .rw, 0xc, true, true, false, 1, 0⟩,
  ⟨PAIR_SW_DRAIN, .rw, 0x64, true, false, false, 1, 0⟩,
  ⟨PAIR_CFG_JOIN_WAIT, .rw, 0x7d0, true, false, false, 1, 0⟩,
  ⟨PAIR_COPY_TOTAL, .ro, 0, false, false, false, 1, 0⟩,
  ⟨PAIR_COPY_DONE, .ro, 0, false, false, false, 1, 0⟩,
  ⟨PAIR_FAILOVERS, .ro, 0, false, false, false, 1, 0⟩,
  ⟨PAIR_HELD, .ro, 0, false, false, false, 1, 0⟩,
  ⟨PAIR_DISC, .ro, 0, false, false, false, 1, 0⟩,
  ⟨PAIR_RETRY, .ro, 0, false, false, false, 1, 0⟩,
  ⟨PAIR_LASTROLE, .ro, 0, false, false, false, 1, 0⟩]

/-- The `par` register table. -/
def rows_par : List FieldDef := rows_par_0 ++ rows_par_1

/-- Rows of the `tmp` table, part 0. -/
def rows_tmp_0 : List FieldDef := [
  ⟨TMP_STATUS_LOCKED, .ro, 0, false, false, false, 1, 0⟩,
  ⟨TMP_STATUS_PENDING, .ro, 0, false, false, false, 1, 0⟩,
  ⟨TMP_STATUS_LOG_FULL, .ro, 0, false, false, false, 1, 0⟩,
  ⟨TMP_STATUS_TESTING, .ro, 0, false, false, false, 1, 0⟩,
  ⟨TMP_STATUS_STATE_LOST, .ro, 0, false, false, false, 1, 0⟩,
  ⟨TMP_STATUS_ERASED, .ro, 0, false, false, false, 1, 0⟩,
  ⟨TMP_TRIPPED, .ro, 0, false, false, false, 1, 0⟩,
  ⟨TMP_SEEN, .w1c, 0, false, false, false, 1, 0⟩,
  ⟨TMP_RESP, .rw, 0, false, false, true, 1, 0⟩,
  ⟨TMP_FLOOR, .ro, 0, false, false, false, 1, 0⟩,
  ⟨TMP_CFG_LOOP_B_EN, .rw, 0, false, false, true, 1, 0⟩,
  ⟨TMP_CFG_LOOP_A_EN, .rw, 0, false, false, true, 1, 0⟩,
  ⟨TMP_CFG_TESTFAIL_RESP, .rw, 1, false, false, true, 1, 0⟩,
  ⟨TMP_CFG_TEST_PERIOD, .rw, 0x3c, false, false, true, 1, 0⟩,
  ⟨TMP_TEST_RUN, .w1s, 0, false, false, false, 1, 0⟩,
  ⟨TMP_TEST_DONE, .ro, 0, false, false, false, 1, 0⟩,
  ⟨TMP_TEST_FAIL, .ro, 0, false, false, false, 1, 0⟩,
  ⟨TMP_TEST_SEL, .rw, 0, false, false, false, 1, 0⟩,
  ⟨TMP_LOCK_CTR_LO, .ro, 0, false, false, false, 1, 0⟩,
  ⟨TMP_LOCK_CTR_HI, .ro, 0, false, false, false, 1, 0⟩]

/-- Rows of the `tmp` table, part 1. -/
def rows_tmp_1 : List FieldDef := [
  ⟨TMP_LOG_BUF, .ro, 0, false, false, false, 1, 0⟩,
  ⟨TMP_LOG_USED, .ro, 0, false, false, false, 1, 0⟩,
  ⟨TMP_LOG_HEAD_LO, .ro, 0, false, false, false, 1, 0⟩,
  ⟨TMP_LOG_HEAD_HI, .ro, 0, false, false, false, 1, 0⟩,
  ⟨TMP_LOG_CURSOR, .rw, 0, false, false, false, 1, 0⟩,
  ⟨(TMP_LOG_DATA 0), .ro, 0, false, false, false, 4, 4⟩,
  ⟨TMP_CELL_OVF, .ro, 0, false, false, false, 1, 0⟩,
  ⟨TMP_RTC_SEC, .ro, 0, false, false, false, 1, 0⟩,
  ⟨TMP_RTC_SUB, .ro, 0, false, false, false, 1, 0⟩,
  ⟨TMP_TESTS, .ro, 0, false, false, false, 1, 0⟩]

/-- The `tmp` register table. -/
def rows_tmp : List FieldDef := rows_tmp_0 ++ rows_tmp_1

/-- Rows of the `lcs` table, part 0. -/
def rows_lcs_0 : List FieldDef := [
  ⟨LCS_STATE_SLOTS, .ro, 0, false, false, false, 1, 0⟩,
  ⟨LCS_STATE_STATE, .ro, 0, false, false, false, 1, 0⟩,
  ⟨LCS_TOKENS, .ro, 0, false, false, false, 1, 0⟩,
  ⟨LCS_STATUS_BUSY, .ro, 0, false, false, false, 1, 0⟩,
  ⟨LCS_STATUS_ERASE_PENDING, .ro, 0, false, false, false, 1, 0⟩,
  ⟨LCS_CTRL_ARM, .w1s, 0, false, false, false, 1, 0⟩,
  ⟨LCS_REQ_LEN, .rw, 0, false, false, false, 1, 0⟩,
  ⟨LCS_RESULT_VALID, .w1c, 0, false, false, false, 1, 0⟩,
  ⟨LCS_RESULT_STEP, .ro, 0, false, false, false, 1, 0⟩,
  ⟨LCS_RESULT_STATUS, .ro, 0, false, false, false, 1, 0⟩,
  ⟨LCS_MARGIN_PWR_HOLD, .ro, 0, false, false, false, 1, 0⟩,
  ⟨LCS_MARGIN_VDD, .ro, 0, false, false, false, 1, 0⟩,
  ⟨LCS_MARGIN_VBAT, .ro, 0, false, false, false, 1, 0⟩,
  ⟨(LCS_REQ 0), .rw, 0, false, false, false, 512, 4⟩]

/-- The `lcs` register table. -/
def rows_lcs : List FieldDef := rows_lcs_0

/-- Rows of the `dbg` table, part 0. -/
def rows_dbg_0 : List FieldDef := [
  ⟨DBG_STATUS_MASTER_EN, .ro, 0, false, false, false, 1, 0⟩,
  ⟨DBG_STATUS_DM_EN, .ro, 0, false, false, false, 1, 0⟩,
  ⟨DBG_STATUS_SCAN, .ro, 0, false, false, false, 1, 0⟩,
  ⟨DBG_IDCODE, .ro, 0, false, false, false, 1, 0⟩,
  ⟨DBG_HALTED, .ro, 0, false, false, false, 1, 0⟩,
  ⟨DBG_REFUSED, .ro, 0, false, false, false, 1, 0⟩]

/-- The `dbg` register table. -/
def rows_dbg : List FieldDef := rows_dbg_0

/-- Rows of the `evr` table, part 0. -/
def rows_evr_0 : List FieldDef := [
  ⟨EVR_CTRL_FREEZE, .rw, 0, false, false, true, 1, 0⟩,
  ⟨EVR_FREEZE_MAX, .rw, 0xa, true, false, false, 1, 0⟩,
  ⟨EVR_CURSOR, .rw, 0, false, false, false, 1, 0⟩,
  ⟨EVR_NEWEST, .ro, 0, false, false, false, 1, 0⟩,
  ⟨EVR_OLDEST, .ro, 0, false, false, false, 1, 0⟩,
  ⟨EVR_MISSED, .ro, 0, false, false, false, 1, 0⟩,
  ⟨EVR_LOST, .ro, 0, false, false, false, 1, 0⟩,
  ⟨EVR_TIME_LO, .ro, 0, false, false, false, 1, 0⟩,
  ⟨EVR_TIME_HI, .ro, 0, false, false, false, 1, 0⟩,
  ⟨EVR_TIME_SET_LO, .rw, 0, false, false, false, 1, 0⟩,
  ⟨EVR_TIME_SET_HI, .rw, 0, false, false, false, 1, 0⟩,
  ⟨EVR_TIME_CMD_GO, .w1s, 0, false, false, false, 1, 0⟩,
  ⟨EVR_POST_CODE, .wo, 0, false, false, false, 1, 0⟩,
  ⟨(EVR_POST_P0_3 0), .rw, 0, false, false, false, 4, 4⟩,
  ⟨EVR_HIST_USED, .ro, 0, false, false, false, 1, 0⟩,
  ⟨EVR_HIST_OTHER, .ro, 0, false, false, false, 1, 0⟩]

/-- The `evr` register table. -/
def rows_evr : List FieldDef := rows_evr_0

/-- Rows of the `pmc` table, part 0. -/
def rows_pmc_0 : List FieldDef := [
  ⟨PMC_CTRL_ZERO, .wo, 0, false, false, false, 1, 0⟩,
  ⟨PMC_CTRL_FREEZE, .rw, 0, false, false, true, 1, 0⟩,
  ⟨PMC_OVF, .w1c, 0, false, false, false, 1, 0⟩,
  ⟨PMC_TAG_EN, .rw, 0, true, false, false, 1, 0⟩,
  ⟨PMC_TAG_K, .rw, 0xa, true, false, false, 1, 0⟩,
  ⟨PMC_TAG_COUNT, .ro, 0, false, false, false, 1, 0⟩,
  ⟨PMC_TAG_SKIP, .ro, 0, false, false, false, 1, 0⟩,
  ⟨PMC_TAG_HEAD, .ro, 0, false, false, false, 1, 0⟩,
  ⟨PMC_HIST_CLR, .wo, 0, false, false, false, 1, 0⟩,
  ⟨(PMC_SEL_EN 0), .rw, 0, false, false, false, 16, 16⟩,
  ⟨(PMC_SEL_OCC 0), .rw, 0, false, false, false, 16, 16⟩,
  ⟨(PMC_SEL_TEN_EN 0), .rw, 0, false, false, false, 16, 16⟩,
  ⟨(PMC_SEL_TENANT 0), .rw, 0, false, false, false, 16, 16⟩,
  ⟨(PMC_SEL_EVENT 0), .rw, 0, false, false, false, 16, 16⟩,
  ⟨(PMC_THR 0), .rw, 0, false, false, false, 16, 16⟩,
  ⟨(PMC_CNT_LO 0), .rw, 0, false, false, false, 16, 16⟩,
  ⟨(PMC_CNT_HI 0), .rw, 0, false, false, false, 16, 16⟩,
  ⟨(PMC_HIST 0), .ro, 0, false, false, false, 512, 4⟩,
  ⟨(PMC_RING 0), .ro, 0, false, false, false, 256, 4⟩]

/-- The `pmc` register table. -/
def rows_pmc : List FieldDef := rows_pmc_0

/-- Rows of the `clk` table, part 0. -/
def rows_clk_0 : List FieldDef := [
  ⟨CLK_STATUS_MAIN_LOCK, .ro, 1, false, false, false, 1, 0⟩,
  ⟨CLK_STATUS_HBM_LOCK, .ro, 1, false, false, false, 1, 0⟩,
  ⟨CLK_STATUS_PAIR_LOCK, .ro, 1, false, false, false, 1, 0⟩,
  ⟨CLK_STATUS_REF_OK, .ro, 1, false, false, false, 1, 0⟩,
  ⟨CLK_SD_LOCK, .ro, 0xffffffff, false, false, false, 1, 0⟩,
  ⟨CLK_CCLK_DEV, .ro, 0, false, false, false, 1, 0⟩,
  ⟨CLK_SD_LOSS, .ro, 0, false, false, false, 1, 0⟩]

/-- The `clk` register table. -/
def rows_clk : List FieldDef := rows_clk_0

/-- Rows of the `pwr` table, part 0. -/
def rows_pwr_0 : List FieldDef := [
  ⟨PWR_STATUS_HOLD, .ro, 0, false, false, false, 1, 0⟩,
  ⟨PWR_STATUS_RAILS, .ro, 0, false, false, false, 1, 0⟩,
  ⟨PWR_VCORE, .ro, 0, false, false, false, 1, 0⟩,
  ⟨PWR_VBAT, .ro, 0, false, false, false, 1, 0⟩,
  ⟨PWR_TEMP, .ro, 0, false, false, false, 1, 0⟩,
  ⟨PWR_TALARM, .rw, 0x64, true, false, false, 1, 0⟩,
  ⟨PWR_ICORE, .ro, 0, false, false, false, 1, 0⟩]

/-- The `pwr` register table. -/
def rows_pwr : List FieldDef := rows_pwr_0

/-- Rows of the `rst` table, part 0. -/
def rows_rst_0 : List FieldDef := [
  ⟨RST_CAUSE, .ro, 0, false, false, false, 1, 0⟩,
  ⟨RST_CMD, .wo, 0, false, false, false, 1, 0⟩,
  ⟨RST_READY, .rw, 0, false, false, true, 1, 0⟩,
  ⟨RST_WDT, .rw, 0, true, false, false, 1, 0⟩,
  ⟨RST_WDT_KICK, .wo, 0, false, false, false, 1, 0⟩,
  ⟨RST_BOOT_TYPE, .rw, 0, false, false, false, 1, 0⟩,
  ⟨RST_BOOT_STATUS, .rw, 0, false, false, false, 1, 0⟩,
  ⟨RST_COUNT, .ro, 0, false, false, false, 1, 0⟩]

/-- The `rst` register table. -/
def rows_rst : List FieldDef := rows_rst_0

/-- Rows of the `bfl` table, part 0. -/
def rows_bfl_0 : List FieldDef := [
  ⟨BFL_CFG_DIV, .rw, 0xc8, false, true, false, 1, 0⟩,
  ⟨BFL_CFG_OCTAL, .rw, 0, false, true, false, 1, 0⟩,
  ⟨BFL_SLOT_BOOTED, .ro, 0, false, false, false, 1, 0⟩,
  ⟨BFL_SLOT_CUR, .ro, 0, false, false, false, 1, 0⟩,
  ⟨BFL_SRC, .rw, 0, false, false, false, 1, 0⟩,
  ⟨BFL_DST_LO, .rw, 0, false, false, false, 1, 0⟩,
  ⟨BFL_DST_HI, .rw, 0, false, false, false, 1, 0⟩,
  ⟨BFL_LEN, .rw, 0, false, false, false, 1, 0⟩,
  ⟨BFL_XFER_GO, .w1s, 0, false, false, false, 1, 0⟩,
  ⟨BFL_XFER_DONE, .ro, 0, false, false, false, 1, 0⟩,
  ⟨BFL_XFER_ERR, .ro, 0, false, false, false, 1, 0⟩,
  ⟨BFL_CMD_OP, .wo, 0, false, false, false, 1, 0⟩,
  ⟨BFL_CMD_ADDR, .rw, 0, false, false, false, 1, 0⟩,
  ⟨BFL_CMD_LEN, .rw, 0, false, false, false, 1, 0⟩,
  ⟨(BFL_DIGEST 0), .ro, 0, false, false, false, 12, 4⟩,
  ⟨(BFL_DATA 0), .rw, 0, false, false, false, 64, 4⟩]

/-- The `bfl` register table. -/
def rows_bfl : List FieldDef := rows_bfl_0

/-- Rows of the `hbc` table, part 0. -/
def rows_hbc_0 : List FieldDef := [
  ⟨HBC_STATUS_TRAINED, .ro, 0, false, false, false, 1, 0⟩,
  ⟨HBC_STATUS_KEYED, .ro, 0, false, false, false, 1, 0⟩,
  ⟨HBC_STATUS_INIT_DONE, .ro, 0, false, false, false, 1, 0⟩,
  ⟨HBC_STATUS_HOT, .ro, 0, false, false, false, 1, 0⟩,
  ⟨HBC_STATUS_SCRUBBING, .ro, 0, false, false, false, 1, 0⟩,
  ⟨HBC_TRAIN_US, .ro, 0, false, false, false, 1, 0⟩,
  ⟨HBC_CORR, .ro, 0, false, false, false, 1, 0⟩,
  ⟨HBC_UNCORR, .ro, 0, false, false, false, 1, 0⟩,
  ⟨HBC_ERRADDR_LO, .ro, 0, false, false, false, 1, 0⟩,
  ⟨HBC_ERRADDR_HI, .ro, 0, false, false, false, 1, 0⟩,
  ⟨HBC_SCRUB, .rw, 0x18, true, false, false, 1, 0⟩,
  ⟨HBC_SCRUB_PASSES, .ro, 0, false, false, false, 1, 0⟩,
  ⟨HBC_TEMP, .ro, 0, false, false, false, 1, 0⟩,
  ⟨HBC_RD_BLK, .ro, 0, false, false, false, 1, 0⟩,
  ⟨HBC_WR_BLK, .ro, 0, false, false, false, 1, 0⟩]

/-- The `hbc` register table. -/
def rows_hbc : List FieldDef := rows_hbc_0

end Sys2Proof.Machine
end

