-- ==== Sys2Proof/Machine/State.lean ====
section
/-!
DEFINITION. The state of the block as plain data, the reasons a step can stop, and the state right after reset.
-/
namespace Sys2Proof.Machine

/-- Why a step stops with a fault. -/
inductive Fault where
  /-- A register access outside every range the address map gives the part (R40, R41).  Raised by
  REGISTER_WRITE and MALFORMED_ACCESS.  Safe: the model stops where the spec gives no effect. -/
  | unassignedAddress
  deriving DecidableEq, Repr

/-- Why a step is refused. -/
inductive Refusal where
  /-- The command has no meaning yet.  Raised by the dispatcher.  Safe. -/
  | notModelled (mnemonic : String)
  deriving DecidableEq, Repr

/-- The state of the block. -/
structure State where
  /-- The commands that wait, first in first out. -/
  pending : List Instr
  /-- Counts the free values taken (the model's own; log 8). -/
  fresh : Nat
  fuse : Fuses
  /-- Every register by physical address (R40 to R46). -/
  regs : SMap Word
  aux : SMap PageAux
  balls : Balls
  time : Times
  /-- The repair map of the NVM system area: the address of the page at the macro's home position, and the repair (R34). -/
  repairMap : List (Nat × Repair)
  /-- The cause of a chip-level fault (R25). -/
  chipFault : Option Nat
  evr : Recorder
  ports : SMap PortSt
  brakeOps : List BrakeOp
  /-- Regions whose brake filter mirror is being reloaded (R81). -/
  mirrorBad : List Nat
  hosts : SMap (Option HostEntry)
  mdio : Option MdioOp
  sessions : SMap (Option Session)
  windows : SMap (List DupEntry)
  items : SMap (Option Item)
  nextItem : Nat
  /-- Ready list of region r, level l, at key 8 r + l. -/
  ready : SMap (List Nat)
  cores : SMap Core
  saved : List Saved
  prog : SMap Cell
  progHash : SMap Bytes
  rings : SMap (List RingEntry)
  timers : SMap (List Timer)
  ctxs : SMap Ctx
  hbm : List Host.Cell
  sram : List Host.Cell
  /-- The frame buffers; region r at r * 8 MiB. -/
  fb : List Host.Cell
  /-- Items that ended before their tag was verified (R493). -/
  early : List Item
  /-- Job queues: cipher, hash and engine jobs of region r at keys 3 r, 3 r + 1, 3 r + 2. -/
  laneQ : SMap (List Job)
  /-- Egress seal queues by region, oldest first (R230). -/
  sealQ : SMap (List SealJob)
  /-- Lanes and engines by page address. -/
  lanes : SMap LaneSt
  tenants : SMap Tenant
  booms : SMap Boom
  /-- Deletes to be answered: core and slot, or 128 + region for CTX_OP (R345, R360). -/
  answers : List (Nat × Nat)
  /-- Counter leases: contexts at their keys, sessions from 2^32, JSEQ from 2^34 (R390). -/
  leases : SMap (Option Lease)
  /-- Replies that wait at egress, oldest first. -/
  held : List HeldReply
  /-- Prefix table lookups in flight, oldest first. -/
  lookups : List Lookup
  /-- The device is locked (R405, R207). -/
  devLocked : Bool
  /-- The vault and the private key bus are closed by a rail fall or a chip-level fault (R25, R403). -/
  shut : Bool
  keys : SMap (Option KeySlot)
  recs : SMap (Option Rec)
  /-- How the banks hold the records. -/
  nvm : Nvm
  ctrs : SMap Ctr
  root : Root
  /-- DR, once derived (R186). -/
  dr : Option Bytes
  maskGen : MaskGen
  /-- The battery domain's own generator, for the cell (R202). -/
  cellGen : MaskGen
  sys : SysArea
  /-- Each tenant's active TMK (R194). -/
  activeTmks : SMap (Option Nat)
  /-- MPU entries in effect: entry r of MPU m at 16 m + r (R371, R380). -/
  mpus : SMap (Option MpuEntry)
  /-- Virtual time of each tenant's grants: queue q and tenant t at 1024 q + t, and of queue q at 2^20 + q (R364). -/
  grants : SMap Nat
  /-- The state key of each region and the count of areas it has sealed (R228). -/
  stateKeys : SMap Bytes
  sealed : Nat
  /-- The seed queue of the entropy source, oldest first (R294). -/
  seedQ : List Bytes
  /-- The raw sample window (R302). -/
  rawWin : Bytes
  pair : PairSt
  /-- The chip's brake filters, 0 to 63 (R73). -/
  brakes : SMap (Option Brake)
  /-- BRAKE frames waiting for a region's control path, oldest first (R71). -/
  brakeQ : SMap (List Item)
  /-- ROM service requests held, oldest first (R86). -/
  romQ : List Item
  /-- The tamper domain (R402 to R416). -/
  tmp : TmpSt
  /-- The life-cycle transition and the stage of the start (R427 to R431, R461). -/
  lcs : LcsSt
  tri : TriSt
  si : SMap SiTenant
  /-- Rule set i of tenant t at 1024 t + i, key zone z at 256 t + z (R163). -/
  rules : SMap (Option Bytes)
  zones : SMap (Option Bytes)
  /-- The microcode of each region (R253). -/
  ucode : SMap (Option Ucode)
  /-- Entry c of tenant t's curve table at 16 t + c (R262). -/
  curves : SMap (Option CurveEntry)
  /-- The two XTS keys of the HBM controller (R470). -/
  hbcKeys : Bytes
  deriving DecidableEq, Repr

/-- The machine right after reset: an A880 with nothing queued, nothing stored and every register at the value the
spec gives it (R455 to R457; log 2, log 3, log 11). -/
def State.reset : State where
  pending := []
  fresh := 0
  fuse := {
    variant := .a880, devid := List.replicate 16 0, step := 1, mgtMac := List.replicate 6 0
    uds := List.replicate 32 0, cert := [], tokens := [], slots := [] }
  regs := [(0xF0003040, 1)]
  aux := []
  balls := {
    ready := false, fault := false, fence := false, pwrHold := false, pairRoleHigh := true, hbOut := false
    hbIn := false, gpio := 0, tapIr := 0x01, i2cOut := 0 }
  time := { ns := 0, tick := 0, rtcUs := 0, wdt := 0 }
  repairMap := []
  chipFault := none
  evr := {
    recs := [], hist := [], next := 1, queue := [], lostSince := 0, missedSince := 0, frozenAt := 0
    overwrote := false }
  ports := []
  brakeOps := []
  mirrorBad := []
  hosts := []
  mdio := none
  sessions := []
  windows := []
  items := []
  nextItem := 1
  ready := []
  cores := []
  saved := []
  prog := []
  progHash := []
  rings := []
  timers := []
  ctxs := []
  hbm := []
  sram := []
  fb := []
  early := []
  laneQ := []
  sealQ := []
  lanes := []
  tenants := [(0, {
    state := 1, phase := 0, asid := none, siOwnerSubmit := false, pinDowngrade := false, qWork := 8192, qCtx := 65536
    qHost := 4096, qSess := 4096, qKeys := 262144, qVlt := 12672, share := 16, deadlineMs := 100, jrnBase := 0
    jrnQuota := 1024, resets := 0, done := false, refused := 0, extBase := 0, extCount := 0, squashed := 0
    release := false, resetAt := 0, codePages := [] })]
  booms := []
  answers := []
  leases := []
  held := []
  lookups := []
  devLocked := false
  shut := false
  keys := []
  recs := []
  nvm := { pos := [], seq := [], writes := [], cells := [], retired := 0, spare := 256, moved := [], fell := false }
  ctrs := []
  root := { a := [], b := [] }
  dr := none
  maskGen := { key := [], ctr := 0, seeded := 0 }
  cellGen := { key := [], ctr := 0, seeded := 0 }
  sys := {
    mig := 0, cur := [], target := [], newVers := [], raise := false, slot := 0, curWrap := 0, rewrapped := 0
    toRewrap := 0, rewrapAt := 0, versions := [], bank := 0 }
  activeTmks := []
  mpus := []
  grants := []
  stateKeys := []
  sealed := 0
  seedQ := []
  rawWin := []
  pair := {
    paired := false, partner := 0, silent := 0, heard := false, unacked := [], shadow := [], lastDelta := 0, applied := none, staged := []
    roleHigh := true, joining := false, switching := false }
  brakes := []
  brakeQ := []
  romQ := []
  tmp := {
    present := 0, disarmed := 0, seen := 0, resp := 0x89694555, cfg := 0x13C, pending := false, erased := false
    bad := false, stateLost := false, buf := [], log := [], ovf := 0, tests := [], nextTest := 1, power := true
    core := true, io := true, window := none, cell := true, vhold := true }
  lcs := { prog := none, erase := none, stage := 0 }
  tri := { active := [], shadow := [], locks := [], hold := [], bad := [] }
  si := []
  rules := []
  zones := []
  ucode := []
  curves := []
  hbcKeys := []

end Sys2Proof.Machine
end

