-- ==== Sys2Proof/Machine/Regs.lean ====
section
/-!
DEFINITION. Register pages: where they lie (R40, R43, R44), which of them a part has (R4, R5, R30, R45), the
stored registers and their fields, and the figures of the three variants (R2, R55).
-/
namespace Sys2Proof.Machine

/-! ## Variant figures (R2, R30, R55) -/

/-- A choice by variant. -/
def Variant.pick {α : Type} (v : Variant) (a b c : α) : α :=
  match v with
  | .a880 => a
  | .a860 => b
  | .a840 => c

/-- Regions fitted. -/
def Variant.regions (v : Variant) : Nat := v.pick 4 4 2
/-- Host ports fitted in each region. -/
def Variant.portsPerRegion (v : Variant) : Nat := v.pick 32 16 16
/-- Logical cipher lanes in each region. -/
def Variant.cphPerRegion (v : Variant) : Nat := v.pick 16 8 8
/-- Logical engines in each region. -/
def Variant.pkePerRegion (v : Variant) : Nat := v.pick 4 2 2
/-- Contexts of each region. -/
def Variant.ctxPerRegion (v : Variant) : Nat := v.pick 65536 32768 32768
/-- Key cache slots. -/
def Variant.keySlots (v : Variant) : Nat := v.pick 262144 262144 131072
/-- The highest tenant number. -/
def Variant.tenMax (v : Variant) : Nat := v.pick 1022 1022 254
/-- Stand-in service fitted. -/
def Variant.standIn (v : Variant) : Bool := v.pick true false false
/-- Ledger arithmetic fitted. -/
def Variant.ledger (v : Variant) : Bool := v.pick true true false
/-- Event recorder in histogram mode. -/
def Variant.evrHist (v : Variant) : Bool := v.pick false false true
/-- HBM size in bytes. -/
def Variant.hbmBytes (v : Variant) : Nat := v.pick 0x400000000 0x400000000 0x200000000
/-- Prefix table node blocks: entries of R2 over 128. -/
def Variant.triBlocks (v : Variant) : Nat := v.pick 8192 4096 2048

/-- A region of the part. -/
def regionFitted (s : State) (r : Nat) : Bool := decide (r < s.fuse.variant.regions)

/-- A host port of the part (R2, R45). -/
def portFitted (s : State) (p : Nat) : Bool :=
  regionFitted s (p / 32) && decide (p % 32 < s.fuse.variant.portsPerRegion)

/-! ## Where pages lie -/

/-- The base address of region n's pages (R40). -/
def regionBase (r : Nat) : Nat := 0xF1000000 + r * 0x400000

/-- The physical address of a page (R43, R44). -/
def pageBase : PageId → Nat
  | .top => 0xF0000000
  | .clk => 0xF0001000
  | .pwr => 0xF0002000
  | .rst => 0xF0003000
  | .lcs => 0xF0004000
  | .tmp => 0xF0005000
  | .vlt => 0xF0006000
  | .rng => 0xF0007000
  | .evr => 0xF0008000
  | .ten => 0xF0009000
  | .htb => 0xF000A000
  | .tri => 0xF000B000
  | .par => 0xF000C000
  | .mgt => 0xF000D000
  | .bfl => 0xF000E000
  | .hbc => 0xF000F000
  | .dbg => 0xF0010000
  | .ccr c => 0xF0014000 + c * 0x1000
  | .mpu m => 0xF0020000 + m * 0x1000
  | .lnk p => regionBase (p / 32) + (p % 32) * 0x1000
  | .cls r => regionBase r + 0x20000
  | .sch r => regionBase r + 0x21000
  | .ctx r => regionBase r + 0x22000
  | .odm r => regionBase r + 0x23000
  | .rnx r => regionBase r + 0x24000
  | .pmc r => regionBase r + 0x25000
  | .kcr r k => regionBase r + 0x40000 + k * 0x1000
  | .cph r k => regionBase r + 0x80000 + k * 0x1000
  | .hsh r k => regionBase r + 0xA0000 + k * 0x1000
  | .pke r k => regionBase r + 0xB0000 + k * 0x1000

/-- The chip-level page numbered `n` from 0x00_F000_0000. -/
def chipPage (n : Nat) : Option PageId :=
  match n with
  | 0 => some .top
  | 1 => some .clk
  | 2 => some .pwr
  | 3 => some .rst
  | 4 => some .lcs
  | 5 => some .tmp
  | 6 => some .vlt
  | 7 => some .rng
  | 8 => some .evr
  | 9 => some .ten
  | 10 => some .htb
  | 11 => some .tri
  | 12 => some .par
  | 13 => some .mgt
  | 14 => some .bfl
  | 15 => some .hbc
  | 16 => some .dbg
  | n =>
    if 0x14 ≤ n ∧ n < 0x1E then some (.ccr (n - 0x14))
    else if 0x20 ≤ n ∧ n < 0x34 then some (.mpu (n - 0x20))
    else none

/-- The page numbered `n` from region `r`'s base (R44). -/
def regionPage (r n : Nat) : Option PageId :=
  if n < 0x20 then some (.lnk (32 * r + n))
  else if n = 0x20 then some (.cls r)
  else if n = 0x21 then some (.sch r)
  else if n = 0x22 then some (.ctx r)
  else if n = 0x23 then some (.odm r)
  else if n = 0x24 then some (.rnx r)
  else if n = 0x25 then some (.pmc r)
  else if 0x40 ≤ n ∧ n < 0x64 then some (.kcr r (n - 0x40))
  else if 0x80 ≤ n ∧ n < 0x92 then some (.cph r (n - 0x80))
  else if 0xA0 ≤ n ∧ n < 0xA5 then some (.hsh r (n - 0xA0))
  else if 0xB0 ≤ n ∧ n < 0xB5 then some (.pke r (n - 0xB0))
  else none

/-- The page at a physical address. -/
def pageOfAddr (a : Nat) : Option PageId :=
  if 0xF0000000 ≤ a ∧ a < 0xF0040000 then chipPage ((a - 0xF0000000) / 0x1000)
  else if 0xF1000000 ≤ a ∧ a < 0xF2000000 then
    regionPage ((a - 0xF1000000) / 0x400000) ((a - 0xF1000000) % 0x400000 / 0x1000)
  else none

/-- The region of a region page. -/
def pageRegion : PageId → Option Nat
  | .lnk p => some (p / 32)
  | .cls r | .sch r | .ctx r | .odm r | .rnx r | .pmc r => some r
  | .kcr r _ | .cph r _ | .hsh r _ | .pke r _ => some r
  | _ => none

/-- The block type code of a page (R43, R44). -/
def pageBtype : PageId → Nat
  | .top => 0x0100
  | .clk => 0x0101
  | .pwr => 0x0102
  | .rst => 0x0103
  | .lcs => 0x0104
  | .tmp => 0x0105
  | .vlt => 0x0106
  | .rng => 0x0107
  | .evr => 0x0108
  | .ten => 0x0109
  | .htb => 0x010A
  | .tri => 0x010B
  | .par => 0x010C
  | .mgt => 0x010D
  | .bfl => 0x010E
  | .hbc => 0x010F
  | .dbg => 0x0110
  | .ccr _ => 0x0111
  | .mpu _ => 0x0112
  | .lnk _ => 0x0200
  | .cls _ => 0x0201
  | .sch _ => 0x0202
  | .ctx _ => 0x0203
  | .odm _ => 0x0204
  | .rnx _ => 0x0205
  | .pmc _ => 0x0206
  | .kcr _ _ => 0x0210
  | .cph _ _ => 0x0211
  | .hsh _ _ => 0x0212
  | .pke _ _ => 0x0213

/-- The global number in ID.INST (R43, R44). -/
def pageInst : PageId → Nat
  | .ccr c => c
  | .mpu m => m
  | .lnk p => p
  | .cls r | .sch r | .ctx r | .odm r | .rnx r | .pmc r => r
  | .kcr r k => if k < 32 then 32 * r + k else 128 + 4 * r + (k - 32)
  | .cph r k => if k < 16 then 16 * r + k else 64 + 2 * r + (k - 16)
  | .hsh r k => if k < 4 then 4 * r + k else 16 + r
  | .pke r k => if k < 4 then 4 * r + k else 16 + r
  | _ => 0

/-- The part has the page (R4, R5, R44, R45). -/
def present (s : State) : PageId → Bool
  | .ccr c => decide (c < 10)
  | .mpu m => decide (m < 20)
  | .lnk p => portFitted s p
  | .cls r | .sch r | .ctx r | .odm r | .rnx r | .pmc r => regionFitted s r
  | .kcr r k => regionFitted s r && decide (k < 36)
  | .cph r k =>
    regionFitted s r && (decide (k < s.fuse.variant.cphPerRegion) || decide (k = 16 ∨ k = 17))
  | .hsh r k => regionFitted s r && decide (k < 5)
  | .pke r k =>
    regionFitted s r && (decide (k < s.fuse.variant.pkePerRegion) || decide (k = 4))
  | _ => true

/-- A spare-position page (R44). -/
def isSparePage : PageId → Bool
  | .ccr c => decide (8 ≤ c)
  | .kcr _ k => decide (32 ≤ k)
  | .cph _ k => decide (16 ≤ k)
  | .hsh _ k => decide (4 ≤ k)
  | .pke _ k => decide (4 ≤ k)
  | _ => false

/-- The spare-position pages of the pool a page draws on (R29, R30). -/
def sparesOf : PageId → List PageId
  | .ccr _ => [.ccr 8, .ccr 9]
  | .kcr r _ => [.kcr r 32, .kcr r 33, .kcr r 34, .kcr r 35]
  | .cph r _ => [.cph r 16, .cph r 17]
  | .hsh r _ => [.hsh r 4]
  | .pke r _ => [.pke r 4]
  | _ => []

/-- The pages that have no drain and read RUNNING from ROM start (R53, R377, R436, R449). -/
def undrained : PageId → Bool
  | .top | .clk | .pwr | .rst | .lcs | .tmp | .evr | .dbg | .ten | .mpu _ => true
  | _ => false

/-! ## Stored registers -/

/-- The block-specific register table of a page. -/
def pageRows : PageId → List FieldDef
  | .top => rows_top
  | .clk => rows_clk
  | .pwr => rows_pwr
  | .rst => rows_rst
  | .lcs => rows_lcs
  | .tmp => rows_tmp
  | .vlt => rows_vlt
  | .rng => rows_rng
  | .evr => rows_evr
  | .ten => rows_ten
  | .htb => rows_htb
  | .tri => rows_tri
  | .par => rows_par
  | .mgt => rows_mgt
  | .bfl => rows_bfl
  | .hbc => rows_hbc
  | .dbg => rows_dbg
  | .ccr _ => []
  | .mpu _ => rows_mpu
  | .lnk _ => rows_lnk
  | .cls _ => rows_cls
  | .sch _ => rows_sch
  | .ctx _ => rows_ctx
  | .odm _ => rows_odm
  | .rnx _ => rows_rnx
  | .pmc _ => rows_pmc
  | .kcr _ _ => rows_kcr
  | .cph _ _ => rows_cph
  | .hsh _ _ => rows_hsh
  | .pke _ _ => rows_pke

/-- A row covers the word at page offset `off`. -/
def FieldDef.covers (d : FieldDef) (off : Nat) : Bool :=
  decide (d.fld.off ≤ off) && decide ((off - d.fld.off) % d.stride = 0) &&
    decide ((off - d.fld.off) / d.stride < d.count)

/-- The rows that lie in one word of a page, header rows first below 0x040. -/
def rowsAt (p : PageId) (off : Nat) : List FieldDef :=
  (if off < 0x40 then rows_hdr else pageRows p).filter fun d => d.covers off

/-- A page without spares has no SPARE_ALLOW (R46); the source's page holds that of its oscillators (R30, R293; log 95). -/
def coppiced : PageId → Bool
  | .rng | .ccr _ | .kcr _ _ | .cph _ _ | .hsh _ _ | .pke _ _ => true
  | _ => false

/-- The position of a unit page within its group, which numbers its physical site after reset (R44, R46). -/
def unitPos : PageId → Nat
  | .ccr c => c
  | .kcr _ k | .cph _ k | .hsh _ k | .pke _ k => k
  | _ => 0

/-- The spares a pool starts with (R30): eight oscillators, or the spare positions. -/
def poolSize (p : PageId) : Nat := if p = .rng then 8 else (sparesOf p).length

/-- What the word of a page holds after reset, by its rows; SPARE holds the site and the pool size (R46), and the vault's
STAT.STATE reads STARTING (R212). -/
def resetAt (p : PageId) (off : Nat) : Word :=
  if off = 0x00C ∧ p = .vlt then 1 else
  if off = 0x028 then BitVec.ofNat 32 (unitPos p * 256 + poolSize p) else
  let w := (rowsAt p off).foldl (fun (n : Nat) d => n + d.reset * 2 ^ d.fld.lo) 0
  if off = 0x008 ∧ coppiced p = false then BitVec.ofNat 32 (w - 16) else BitVec.ofNat 32 w

/-- What a stored register reads when nothing has written it. -/
def resetWord (a : Nat) : Word :=
  match pageOfAddr a with
  | some p => resetAt p (a % 0x1000)
  | none => 0

/-- The stored word of a page. -/
def State.reg (s : State) (p : PageId) (off : Nat) : Word := mget resetWord s.regs (pageBase p + off)

/-- The stored word of a page replaced. -/
def State.setReg (s : State) (p : PageId) (off : Nat) (v : Word) : State :=
  { s with regs := mset resetWord s.regs (pageBase p + off) v }

/-- The number in field `f` of a word. -/
def Fld.get (f : Fld) (w : Word) : Nat := w.toNat / 2 ^ f.lo % 2 ^ f.width

/-- A word with field `f` replaced by the low bits of `n`. -/
def Fld.put (f : Fld) (w : Word) (n : Nat) : Word :=
  BitVec.ofNat 32 (w.toNat - f.get w * 2 ^ f.lo + n % 2 ^ f.width * 2 ^ f.lo)

/-- A stored field. -/
def State.fld (s : State) (p : PageId) (f : Fld) : Nat := f.get (s.reg p f.off)

/-- A stored field replaced. -/
def State.setFld (s : State) (p : PageId) (f : Fld) (n : Nat) : State :=
  s.setReg p f.off (f.put (s.reg p f.off) n)

/-- A one-bit field. -/
def State.flag (s : State) (p : PageId) (f : Fld) : Bool := decide (s.fld p f = 1)

/-- A one-bit field replaced. -/
def State.setFlag (s : State) (p : PageId) (f : Fld) (b : Bool) : State :=
  s.setFld p f (if b then 1 else 0)

/-- A counting field that wraps. -/
def State.bump (s : State) (p : PageId) (f : Fld) (n : Nat := 1) : State := s.setFld p f (s.fld p f + n)

/-- A counting field that saturates. -/
def State.bumpSat (s : State) (p : PageId) (f : Fld) : State :=
  s.setFld p f (min (s.fld p f + 1) (2 ^ f.width - 1))

/-- What a page holds beside its registers, when nothing has changed it. -/
def PageAux.empty : PageAux :=
  { drainTo := 0, drainAt := 0, inject := none, admitted := none, waiting := [], cruise := false, repairs := [], applied := [] }

/-- What a page holds beside its registers. -/
def State.auxOf (s : State) (p : PageId) : PageAux := mget (fun _ => PageAux.empty) s.aux (pageBase p)

/-- It replaced. -/
def State.setAux (s : State) (p : PageId) (x : PageAux) : State :=
  { s with aux := mset (fun _ => PageAux.empty) s.aux (pageBase p) x }

/-- A region is isolated (R21, R55). -/
def isolated (s : State) (r : Nat) : Bool := (s.fld .top TOP_RGN_STATUS_ISOLATED).testBit r

/-- The page answers: the part has it, and its region is not isolated (R5, R23). -/
def live (s : State) (p : PageId) : Bool :=
  present s p && (match pageRegion p with | some r => ! isolated s r | none => true)

end Sys2Proof.Machine
end

