-- ==== Sys2Proof/Machine/Ops.lean ====
section
/-!
DEFINITION. The named operations over the state that every family uses: keyed objects, page states, error
flags and interrupts, event records, performance counters, memories and fabric addresses.
-/
namespace Sys2Proof.Machine

/-- The outcome of a meaning. -/
abbrev Res := Host.Outcome State Fault Refusal

/-- Main power is there and the unit has not stopped: the control complex and the ROM can run (R25, R456). -/
def complexRuns (s : State) : Bool := s.tmp.power && s.chipFault.isNone

/-- What the control complex alone can ask for has no effect while it is halted or without power (R25). -/
def onComplex (s : State) (k : Res) : Res := if complexRuns s then k else .next s

/-! ## Keyed objects -/

/-- An object that may be absent. -/
def oget {α : Type} (m : SMap (Option α)) (k : Nat) : Option α := mget (fun _ => none) m k
/-- It stored or removed. -/
def oset {α : Type} [DecidableEq α] (m : SMap (Option α)) (k : Nat) (v : Option α) : SMap (Option α) :=
  mset (fun _ => none) m k v
/-- A list, empty when nothing is stored. -/
def lget {α : Type} (m : SMap (List α)) (k : Nat) : List α := mget (fun _ => []) m k
/-- It stored. -/
def lset {α : Type} [DecidableEq α] (m : SMap (List α)) (k : Nat) (v : List α) : SMap (List α) :=
  mset (fun _ => []) m k v

/-- The objects that are present, with their keys. -/
def opresent {α : Type} (m : SMap (Option α)) : List (Nat × α) :=
  m.filterMap fun e => e.2.map fun v => (e.1, v)

/-- The lowest key from `lo`, among `n`, whose object is absent. -/
def ofree {α : Type} (m : SMap (Option α)) (lo n : Nat) : Option Nat :=
  ((List.range (min n (m.length + 1))).map (lo + ·)).find? fun k => (oget m k).isNone

/-- A work item. -/
def State.item (s : State) (i : Nat) : Option Item := oget s.items i
/-- A work item stored. -/
def State.setItem (s : State) (i : Nat) (v : Option Item) : State := { s with items := oset s.items i v }
/-- A session. -/
def State.session (s : State) (i : Nat) : Option Session := oget s.sessions i
/-- A session stored. -/
def State.setSession (s : State) (i : Nat) (v : Option Session) : State :=
  { s with sessions := oset s.sessions i v }
/-- A host table entry. -/
def State.host (s : State) (i : Nat) : Option HostEntry := oget s.hosts i
/-- A host table entry stored. -/
def State.setHost (s : State) (i : Nat) (v : Option HostEntry) : State := { s with hosts := oset s.hosts i v }

/-- The key of a context: its region and index. -/
def ctxKey (r i : Nat) : Nat := r * 65536 + i
/-- A free context that nothing has used. -/
def Ctx.free : Ctx :=
  { valid := false, typ := 0, lock := false, exp := false, tenant := 0, gen := 0, body := [], wipe := false,
    waiters := [], bound := 0 }
/-- A context. -/
def State.ctxAt (s : State) (r i : Nat) : Ctx := mget (fun _ => Ctx.free) s.ctxs (ctxKey r i)
/-- A context stored. -/
def State.setCtx (s : State) (r i : Nat) (v : Ctx) : State :=
  { s with ctxs := mset (fun _ => Ctx.free) s.ctxs (ctxKey r i) v }

/-- A tenant slice that is FREE. -/
def Tenant.free : Tenant :=
  { state := 0, phase := 0, asid := none, siOwnerSubmit := false, pinDowngrade := false, qWork := 256,
    qCtx := 1024, qHost := 16, qSess := 16, qKeys := 4096, qVlt := 64, share := 1, deadlineMs := 100,
    jrnBase := 0, jrnQuota := 64, resets := 0, done := false, refused := 0, extBase := 0, extCount := 0,
    squashed := 0, release := false, resetAt := 0, codePages := [] }
/-- The slices after reset: tenant 0 holds the whole part (R364, R379). -/
def initTenants (v : Variant) : SMap Tenant :=
  [(0, { Tenant.free with
    state := 1, qWork := 8192, qCtx := v.ctxPerRegion, qHost := 4096, qSess := 4096, qKeys := v.keySlots, qVlt := 12672
    share := 16, jrnQuota := 1024 })]
/-- Tenant `t`. -/
def State.tenant (s : State) (t : Nat) : Tenant := mget (fun _ => Tenant.free) s.tenants t
/-- It stored. -/
def State.setTenant (s : State) (t : Nat) (v : Tenant) : State :=
  { s with tenants := mset (fun _ => Tenant.free) s.tenants t v }
/-- A claim refused with QUOTA is counted (R379). -/
def countRefused (s : State) (t : Nat) : State :=
  s.setTenant t { s.tenant t with refused := (s.tenant t).refused + 1 }
/-- A status that answers a claim: QUOTA is counted (R363, R379). -/
def quotaCounted (s : State) (t st : Nat) : State := if st = 0x0403 then countRefused s t else s

/-- A core with no task and an empty local memory. -/
def Core.empty : Core :=
  { run := none, prefetch := none, ds := [], rs := [], pc := 0, preds := 1, c := false, v := false,
    dz := false, trapV := false, trapDz := false, slots := List.replicate 8 .free, words := [], mem := [],
    ctx := [], ctxDirty := false, args := [], cycles := 0, tickHi := 0, wait := none, busy := 0, dropCtx := false }
/-- Core `k` (32 n + position). -/
def State.core (s : State) (k : Nat) : Core := mget (fun _ => Core.empty) s.cores k
/-- It stored. -/
def State.setCore (s : State) (k : Nat) (c : Core) : State :=
  { s with cores := mset (fun _ => Core.empty) s.cores k c }

/-- A port with nothing queued. -/
def PortSt.empty : PortSt :=
  { tx := [], sending := false, link := [], shared := 0, control := 0, runout := 0, paused := 0 }
/-- Port `p`; 128 is the management port. -/
def State.port (s : State) (p : Nat) : PortSt := mget (fun _ => PortSt.empty) s.ports p
/-- It stored. -/
def State.setPort (s : State) (p : Nat) (v : PortSt) : State :=
  { s with ports := mset (fun _ => PortSt.empty) s.ports p v }

/-- The page of core `k`. -/
def corePage (k : Nat) : PageId := .kcr (k / 32) (k % 32)
/-- The page of port `p`, the management port being 128. -/
def portPage (p : Nat) : PageId := if p = 128 then .mgt else .lnk p

/-- The key behind a cache slot (R202). -/
def KeySlot.key (k : KeySlot) : Bytes := xorB k.masked k.mask
/-- The key in a cache slot; zeros where it holds none. -/
def cacheKey (s : State) (slot : Nat) : Bytes :=
  match oget s.keys slot with
  | some k => k.key
  | none => zeros 32

/-- The next free value's number, and the counter advanced. -/
def State.takeFresh (s : State) (n : Nat := 1) : State := { s with fresh := s.fresh + n }

/-! ## Page states (R46, R50, R53) -/

/-- STAT.STATE 0 OFF. -/
abbrev stOff : Nat := 0
/-- STAT.STATE 1 STARTING. -/
abbrev stStarting : Nat := 1
/-- STAT.STATE 2 RUNNING. -/
abbrev stRunning : Nat := 2
/-- STAT.STATE 3 DRAINING. -/
abbrev stDraining : Nat := 3
/-- STAT.STATE 4 STOPPED. -/
abbrev stStopped : Nat := 4
/-- STAT.STATE 5 FAILED. -/
abbrev stFailed : Nat := 5

/-- STAT.STATE: undrained pages read RUNNING unless failed (R53, R449), and every page of an isolated region
reads FAILED (R23). -/
def stateOf (s : State) (p : PageId) : Nat :=
  if present s p = false then 0
  else if live s p = false then stFailed
  else if undrained p && s.fld p STAT_STATE != stFailed then stRunning
  else s.fld p STAT_STATE

/-- The block is RUNNING. -/
def running (s : State) (p : PageId) : Bool := decide (stateOf s p = stRunning)

/-- A bit of a page's IRQST set. -/
def setIrq (s : State) (p : PageId) (bit : Nat) : State := s.setFlag p ⟨0x01C, bit, 1⟩ true

/-- STAT.STATE stored; entering STOPPED or FAILED sets IRQST.STATE (R46). -/
def setState (s : State) (p : PageId) (st : Nat) : State :=
  let s := s.setFld p STAT_STATE st
  if st = stStopped ∨ st = stFailed then setIrq s p 1 else s

/-- A page's LOCK is set (R49). -/
def locked (s : State) (p : PageId) : Bool := s.flag p LOCK_LOCK

/-- The page raises an interrupt: an enabled status bit (R46). -/
def irqLine (s : State) (p : PageId) : Bool := (s.reg p 0x01C &&& s.reg p 0x020) != 0

/-! ## Event records (R438 to R442) -/

/-- SOURCE of a page's records (R438). -/
def sourceOf (p : PageId) : Nat :=
  (if (pageRegion p).isSome then 0x8000 else 0) + pageBtype p % 128 * 256 + pageInst p

/-- An event record is queued, or counted as missed or lost (R440, R442, R449). -/
def postEvent (s : State) (p : PageId) (code : Nat) (p0 : Word := 0) (p1 : Word := 0) (p2 : Word := 0)
    (p3 : Word := 0) : State :=
  let e := s.evr
  let src := sourceOf p
  if stateOf s .evr ≠ stRunning then s
  else if s.flag .evr EVR_CTRL_FREEZE then
    { s.bump .evr EVR_MISSED with evr := { e with missedSince := e.missedSince + 1 } }
  else if 16 ≤ (e.queue.filter fun q => q.source = src).length then
    setIrq { s.bump .evr EVR_LOST with evr := { e with lostSince := e.lostSince + 1 } } .evr 17
  else
    { s with evr := { e with queue := e.queue ++
        [{ seq := 0, time := s.time.ns, code := code, source := src, p0 := p0, p1 := p1, p2 := p2, p3 := p3 }] } }

/-! ## Error flags (R13, R16, R46, R47) -/

/-- An error that sets the flag bits `clss` (8 to 12) with code `code`: the first error's code is kept, a later one
sets MULTIPLE; an unmasked class sets IRQST.ERR and writes a class 0x1 record (R46, R439). -/
def raiseErrs (s : State) (p : PageId) (clss : List Nat) (code : Nat) (tenant : Word := 0xFFFFFFFF)
    (addr : Word := 0) : State :=
  let flags := (s.reg p 0x010).toNat / 256 % 32
  let s := if flags ≠ 0 then s.setFlag p ERR_MULTIPLE true
    else if s.flag p ERR_MULTIPLE then s else s.setFld p ERR_CODE code
  let s := clss.foldl (fun s c => s.setFlag p ⟨0x010, c, 1⟩ true) s
  if clss.all fun c => s.flag p ⟨0x014, c, 1⟩ then s
  else postEvent (setIrq s p 0) p (0x1000 + code) (s.reg p 0x010) (s.reg p 0x02C) tenant addr

/-- An error of one class. -/
def raiseErr (s : State) (p : PageId) (cls code : Nat) (tenant : Word := 0xFFFFFFFF) (addr : Word := 0) :
    State :=
  raiseErrs s p [cls] code tenant addr

/-- An uncorrectable error: HEALTH.UNCORR counts it, ERR.UNCORRECTED and, for parity, ERR.PARITY are set, and the page
reads FAILED (R16, R46). -/
def failPage (s : State) (p : PageId) (code : Nat) (parity : Bool) (tenant : Word := 0xFFFFFFFF) (addr : Word := 0) :
    State :=
  let s := s.bumpSat p HEALTH_UNCORR
  setState (raiseErrs s p (if parity then [9, 10] else [9]) code tenant addr) p stFailed

/-- A page that reports an uncorrectable error and goes on: flags and counts alone (R81, R179, R301, R441, R87). -/
def reportUncorrected (s : State) (p : PageId) (code : Nat) (addr : Word := 0) : State :=
  raiseErr (s.bumpSat p HEALTH_UNCORR) p 9 code 0xFFFFFFFF addr

/-- ERR.ACCESS with the page's refused-access code. -/
def accessCode : PageId → Nat
  | .lnk _ => 0x12
  | .mgt => 0x15
  | .tri => 0x32
  | .vlt => 0x44
  | .cph _ _ => 0x54
  | .hsh _ _ => 0x5C
  | .pke _ _ => 0x66
  | .odm _ => 0x6A
  | .rng => 0x73
  | .rnx _ => 0x7B
  | .kcr _ _ => 0x83
  | .ctx _ => 0x89
  | .sch _ => 0x92
  | .ten => 0xA0
  | .mpu _ => 0xA9
  | .par => 0xB3
  | .tmp => 0xC0
  | .lcs => 0xD0
  | .dbg => 0xD8
  | .evr => 0xE2
  | .pmc _ => 0xE9
  | .hbc => 0xF7
  | .rst => 0xF8
  | .bfl => 0xFE
  | _ => 0

/-- A refused or malformed access (R42, R54): ERR.ACCESS. -/
def accessErr (s : State) (p : PageId) : State := raiseErr s p 12 (accessCode p)

/-! ## Performance counters (R445) -/

/-- Counter `c` of region `r`'s PMC page. -/
def pmcCount (s : State) (r c : Nat) : Nat :=
  s.fld (.pmc r) (PMC_CNT_LO c) + s.fld (.pmc r) (PMC_CNT_HI c) * 2 ^ 32

/-- Counter `c` advanced by `n`: it wraps at 2^48, setting PMC_OVF and IRQST.BLOCK[17]. -/
def pmcAdd (s : State) (r c n : Nat) : State :=
  let t := pmcCount s r c + n
  let s := (s.setFld (.pmc r) (PMC_CNT_LO c) t).setFld (.pmc r) (PMC_CNT_HI c) (t / 2 ^ 32)
  if t < 2 ^ 48 then s else setIrq (s.setFlag (.pmc r) ⟨0x044, c, 1⟩ true) (.pmc r) 17

/-- Counter `c` counts event `code` for `tenant`. -/
def pmcCounts (s : State) (r c code : Nat) (tenant : Option Nat) : Bool :=
  s.flag (.pmc r) (PMC_SEL_EN c) && ! s.flag (.pmc r) (PMC_SEL_OCC c) &&
    decide (s.fld (.pmc r) (PMC_SEL_EVENT c) = code) &&
    (! s.flag (.pmc r) (PMC_SEL_TEN_EN c) || decide (tenant = some (s.fld (.pmc r) (PMC_SEL_TENANT c))))

/-- `n` occurrences of an event in region `r`. -/
def pmcEvent (s : State) (r code : Nat) (tenant : Option Nat) (n : Nat := 1) : State :=
  if live s (.pmc r) = false ∨ s.flag (.pmc r) PMC_CTRL_FREEZE ∨ stateOf s (.pmc r) ≠ stRunning then s
  else (List.range 16).foldl (fun s c => if pmcCounts s r c code tenant then pmcAdd s r c n else s) s

/-- A frame dropped at a check that its region's classifier counts. -/
def clsDrop (s : State) (r : Nat) (f : Fld) (t : Option Nat := none) : State := pmcEvent (s.bump (.cls r) f) r 0x02 t

/-! ## Memories and fabric addresses (R40, R330) -/

/-- The size of a region's frame buffer. -/
def fbSize : Nat := 0x800000

/-- A fabric address (R330) as its space and offset, when it lies in a space. -/
def fabric (s : State) (a : Nat) : Option (Nat × Nat) :=
  let sp := a / 2 ^ 56
  let off := a % 2 ^ 56
  let lim := match sp with
    | 0 => 0x4000
    | 1 => fbSize
    | 2 => 256 * s.fuse.variant.ctxPerRegion
    | 3 => s.fuse.variant.hbmBytes
    | _ => 0
  if off < lim then some (sp, off) else none

/-- The length of a fabric space. -/
def fabricLimit (s : State) (sp : Nat) : Nat :=
  match sp with
  | 0 => 0x4000
  | 1 => fbSize
  | 2 => 256 * s.fuse.variant.ctxPerRegion
  | 3 => s.fuse.variant.hbmBytes
  | _ => 0

/-- The 8-byte header of a context (R352). -/
def ctxHeader (c : Ctx) : Bytes :=
  [BitVec.ofNat 8 ((if c.valid then 64 else 0) + c.typ),
   BitVec.ofNat 8 ((if c.lock then 128 else 0) + (if c.exp then 64 else 0))] ++
  beBytes 2 c.tenant ++ beBytes 4 c.gen.toNat

/-- The 256 bytes of a context position. -/
def ctxBytes (c : Ctx) : Bytes := ctxHeader c ++ fitR 248 c.body

/-- `n` bytes of a region's context store from a byte offset. -/
def ctxRead (s : State) (r : Nat) : Nat → Nat → Bytes
  | _, 0 => []
  | off, n + 1 => (ctxBytes (s.ctxAt r (off / 256))).getD (off % 256) 0 :: ctxRead s r (off + 1) n

/-- `n` bytes at a fabric address, as core `k` of region `r` names it. -/
def fabricRead (s : State) (r k a n : Nat) : Bytes :=
  match fabric s a with
  | some (0, off) => memRead (s.core k).mem off n
  | some (1, off) => memRead s.fb (r * fbSize + off) n
  | some (2, off) => ctxRead s r off n
  | some (3, off) => memRead s.hbm off n
  | _ => zeros n

/-- Bytes of a context body written from body offset `o`. -/
def ctxPatch (c : Ctx) (o : Nat) (b : Bytes) : Ctx := { c with body := patch (fitR 248 c.body) o b, gen := c.gen + 1 }

/-- A byte string stored in a region's context store from a byte offset: each context it reaches takes its part, but for
the 8-byte header, and a free context keeps nothing (R330, R352). -/
def ctxStore (s : State) (r off : Nat) (b : Bytes) : State :=
  (List.range ((off % 256 + b.length + 255) / 256)).foldl (fun s i =>
    let idx := off / 256 + i
    let lo := max off (256 * idx + 8)
    let hi := min (off + b.length) (256 * idx + 256)
    let c := s.ctxAt r idx
    if c.valid ∧ lo < hi then s.setCtx r idx (ctxPatch c (lo - 256 * idx - 8) (slice b (lo - off) (hi - lo))) else s) s

/-- A byte string stored at a fabric address. -/
def fabricWrite (s : State) (r k a : Nat) (b : Bytes) : State :=
  match fabric s a with
  | some (0, off) => s.setCore k { s.core k with mem := memWrite (s.core k).mem off b }
  | some (1, off) => { s with fb := memWrite s.fb (r * fbSize + off) b }
  | some (2, off) => ctxStore s r off b
  | some (3, off) => { s with hbm := memWrite s.hbm off b }
  | _ => s

/-- `n` bytes at a physical address of control SRAM or HBM (R40). -/
def physRead (s : State) (a n : Nat) : Bytes :=
  if 0x1000000000 ≤ a then memRead s.hbm (a - 0x1000000000) n
  else if 0x10000000 ≤ a ∧ a < 0x10800000 then memRead s.sram (a - 0x10000000) n
  else zeros n

/-- A byte string stored at a physical address of control SRAM or HBM. -/
def physWrite (s : State) (a : Nat) (b : Bytes) : State :=
  if 0x1000000000 ≤ a then { s with hbm := memWrite s.hbm (a - 0x1000000000) b }
  else if 0x10000000 ≤ a ∧ a < 0x10800000 then { s with sram := memWrite s.sram (a - 0x10000000) b }
  else s

end Sys2Proof.Machine
end

