-- ==== Sys2Proof/Machine/Commands.lean ====
section
/-!
DEFINITION. The host commands: their codes and re-issue classes (R109), the units they need, and the counter
leases of an active unit (R390, R391).
-/
namespace Sys2Proof.Machine

/-- The re-issue class of a command (R105). -/
inductive ReClass where
  | repeatable | counter | changing
  deriving DecidableEq, Repr

/-- The class of a listed command code; BRAKE is entered by R72 and is repeatable here. -/
def cmdClass (c : Nat) : Option ReClass :=
  if c ∈ [0x0304, 0x0404, 0x0603, 0x0604] then some .counter
  else if c ∈ [0x0405, 0x0501, 0x0503, 0x0505, 0x0804, 0x0806, 0x0901, 0x0904, 0x0905, 0x0906, 0x0A03, 0x0E02,
      0x0E03, 0x0E04, 0x0F03, 0x0F04, 0x0F05, 0x0F06, 0x0F07, 0x0F11] then some .changing
  else if c ∈ [0x0101, 0x0102, 0x0103, 0x0104, 0x0105, 0x0201, 0x0202, 0x0301, 0x0302, 0x0303, 0x0401, 0x0402,
      0x0403, 0x0502, 0x0504, 0x0506, 0x0601, 0x0602, 0x0605, 0x0701, 0x0702, 0x0801, 0x0802, 0x0803, 0x0805,
      0x0902, 0x0903, 0x0907, 0x0A01, 0x0A02, 0x0E01, 0x0E05, 0x0E10, 0x0F01, 0x0F02, 0x0F10]
    then some .repeatable
  else none

/-- Served in the ROM service alone (R86). -/
def romOnly (c : Nat) : Bool := decide (c = 0x0F10 ∨ c = 0x0F11)

/-- A command whose unit the part lacks (R2, R109). -/
def cmdFitted (v : Variant) (c : Nat) : Bool :=
  if c / 256 = 9 then v.standIn else if c / 256 = 10 then v.ledger else true

/-! ## Roles and leases (R383, R390, R391) -/

abbrev roNONE : Nat := 0
abbrev roALONE : Nat := 1
abbrev roACTIVE : Nat := 2
abbrev roSYNCING : Nat := 3
abbrev roSTANDBY : Nat := 4
abbrev roFENCED : Nat := 5

/-- PAIR_STATUS.ROLE. -/
def State.role (s : State) : Nat := s.fld .par PAIR_STATUS_ROLE
/-- Roles whose host ports are fenced (R383). -/
def fencedRole (r : Nat) : Bool := decide (r = roNONE ∨ r = roSYNCING ∨ r = roSTANDBY ∨ r = roFENCED)
/-- The host ports are fenced: by FENCE_N (R75), by the role (R383), or by a chip-level fault (R25). -/
def fenced (s : State) : Bool := s.balls.fence || fencedRole s.role || s.chipFault.isSome
/-- Counters are leased: the unit is ACTIVE with a partner (R390, R391). -/
def leasing (s : State) : Bool := decide (s.role = roACTIVE) && s.pair.paired
/-- The current epoch. -/
def State.epoch (s : State) : Nat := s.fld .par PAIR_EPOCH_LO + s.fld .par PAIR_EPOCH_HI * 2 ^ 32
/-- The key of a session's lease. -/
def leaseSession (id : Nat) : Nat := 2 ^ 32 + id
/-- The key of a tenant's JSEQ lease. -/
def leaseJseq (t : Nat) : Nat := 2 ^ 34 + t
/-- A lease. -/
def State.lease (s : State) (k : Nat) : Option Lease := oget s.leases k
/-- It stored. -/
def State.setLease (s : State) (k : Nat) (l : Option Lease) : State := { s with leases := oset s.leases k l }

/-- The block of a context type's lease. -/
def ctxBlock (s : State) (typ : Nat) : Nat :=
  2 ^ (match typ with
    | 4 => s.fld .par PAIR_LEASE_A_ATC
    | 5 => s.fld .par PAIR_LEASE_A_DUKPT
    | 6 => s.fld .par PAIR_LEASE_A_TOKEN
    | _ => s.fld .par PAIR_LEASE_A_NONCE)
/-- The block of a session's lease. -/
def seqBlock (s : State) : Nat := 2 ^ s.fld .par PAIR_LEASE_B_SEQ
/-- The block of a tenant's JSEQ lease. -/
def jseqBlock (s : State) : Nat := 2 ^ s.fld .par PAIR_LEASE_B_JSEQ

/-- A value may be drawn: always unless counters are leased, then below the acknowledged bound (R390, R391). -/
def leaseAllows (s : State) (k v : Nat) : Bool :=
  if leasing s then
    match s.lease k with
    | some l => decide (v < l.acked)
    | none => false
  else true

/-- The bound is raised by a block when fewer than half a block remains; the new bound goes into the current
delta (R390). No bound lies above `cap`. -/
def leaseTop (s : State) (k next block : Nat) (cap : Nat := 2 ^ 64) : State :=
  if leasing s then
    match s.lease k with
    | some l =>
      if l.bound = l.acked ∧ 2 * (l.acked - next) < block then
        s.setLease k (some { l with bound := min cap (l.bound + block), epoch := s.epoch })
      else s
    | none => s
  else s

/-- A lease is granted when a counter is created (R390). -/
def leaseGrant (s : State) (k next block : Nat) (cap : Nat := 2 ^ 64) : State :=
  if leasing s then
    s.setLease k (some { acked := min cap (next + block), bound := min cap (next + block), epoch := s.epoch })
  else s

end Sys2Proof.Machine
end

