-- ==== Sys2Proof/Machine/Jobs.lean ====
section
/-!
DEFINITION. Job queues and lanes as every family uses them: queueing, taking back, and squashing the jobs of a
task that ends (R18, R227, R230, R328).
-/
namespace Sys2Proof.Machine

/-- The key of a queue. -/
def queueKey (r : Nat) (u : UnitKind) : Nat :=
  3 * r + (match u with | .cipher => 0 | .hash => 1 | .engine => 2)
/-- How many jobs a queue holds (R230, R248). -/
def queueCap : UnitKind → Nat
  | .cipher => 1024
  | .hash => 256
  | .engine => 512
/-- A region's queue. -/
def State.queue (s : State) (r : Nat) (u : UnitKind) : List Job := lget s.laneQ (queueKey r u)
/-- It stored. -/
def State.setQueue (s : State) (r : Nat) (u : UnitKind) (q : List Job) : State :=
  { s with laneQ := lset s.laneQ (queueKey r u) q }

/-- A lane that holds nothing. -/
def LaneSt.empty : LaneSt := { cur := none, pre := none, discard := [], sealing := none }
/-- A lane or engine, by its page. -/
def State.lane (s : State) (p : PageId) : LaneSt := mget (fun _ => LaneSt.empty) s.lanes (pageBase p)
/-- It stored. -/
def State.setLane (s : State) (p : PageId) (l : LaneSt) : State :=
  { s with lanes := mset (fun _ => LaneSt.empty) s.lanes (pageBase p) l }

/-- The unit kind of a lane or engine page. -/
def unitOf : PageId → Option (Nat × UnitKind)
  | .cph r _ => some (r, .cipher)
  | .hsh r _ => some (r, .hash)
  | .pke r _ => some (r, .engine)
  | _ => none

/-- The logical and spare pages of a region's units of one kind. -/
def unitPages (r : Nat) : UnitKind → List PageId
  | .cipher => (List.range 16).map (PageId.cph r)
  | .hash => (List.range 4).map (PageId.hsh r)
  | .engine => (List.range 4).map (PageId.pke r)

/-- The prefetched job of a lane goes back to the head of its queue (R18, R237). -/
def returnPrefetch (s : State) (p : PageId) : State :=
  match unitOf p, (s.lane p).pre with
  | some (r, u), some j => (s.setLane p { s.lane p with pre := none }).setQueue r u (j :: s.queue r u)
  | _, _ => s

/-- The count of ended jobs of a lane or engine page (R240, R241, R274). -/
def jobsFld : PageId → Fld
  | .hsh _ _ => HSH_JOBS
  | .pke _ _ => PKE_JOBS
  | _ => CPH_JOBS

/-- A region's egress seal queue. -/
def State.seals (s : State) (r : Nat) : List SealJob := lget s.sealQ r
/-- It stored. -/
def State.setSeals (s : State) (r : Nat) (q : List SealJob) : State := { s with sealQ := lset s.sealQ r q }

/-- The seal job of a lane goes back to the head of its region's queue: a committed response is never lost (R230). -/
def returnSeal (s : State) (p : PageId) : State :=
  match unitOf p, (s.lane p).sealing with
  | some (r, _), some x => (s.setLane p { s.lane p with sealing := none }).setSeals r (x :: s.seals r)
  | _, _ => s

/-- The current job of a lane is discarded, and counted as ended: its key, random words and operand memory are gone, its
output is to be zeroised, and then `st` posted (R16, R227, R231, R245). -/
def discardCurrent (s : State) (p : PageId) (st : Option Nat) : State :=
  match (s.lane p).cur with
  | some j => (s.setLane p { s.lane p with cur := none, discard := (s.lane p).discard ++ [({ j with key := none, words := [], slots := [] }, st)] }).bump p (jobsFld p)
  | none => s

/-- One lane loses the jobs of core `k`'s task; nothing is posted for them (R328). -/
def squashLane (k : Nat) (s : State) (p : PageId) : State :=
  let l := s.lane p
  let l := match l.pre with
    | some j => if j.core = k then { l with pre := none } else l
    | none => l
  let s := s.setLane p l
  match l.cur with
  | some j => if j.core = k then discardCurrent s p none else s
  | none => s

/-- The slot number of a dispatcher's decrypt job, which completes into no slot (R92). -/
abbrev noSlot : Nat := 8

/-- Every job, lookup and waiting delete of core `k`'s task is squashed. -/
def squashJobs (s : State) (k : Nat) : State :=
  let r := k / 32
  let drop := fun (s : State) (u : UnitKind) =>
    (unitPages r u).foldl (squashLane k) (s.setQueue r u ((s.queue r u).filter fun j => j.core ≠ k))
  let s := drop (drop (drop s .cipher) .hash) .engine
  { s with
    lookups := s.lookups.filter fun x => x.core ≠ k
    answers := s.answers.filter fun x => x.1 ≠ k
    ctxs := mmap (fun _ => Ctx.free) (fun c => { c with waiters := c.waiters.filter fun x => x.1 ≠ k }) s.ctxs }

end Sys2Proof.Machine
end

