-- ==== Sys2Proof/Machine/Aes.lean ====
section
/-!
DEFINITION. AES (FIPS 197) with 128-, 192- and 256-bit keys.  The spec names the standard; its tables and
steps are the standard's (PRESUMED, log 7).
-/
namespace Sys2Proof.Machine

/-- The S-box, entry `x` in byte `x` from the low end. -/
def aesSboxTable : Nat :=
  (((((((0x16BB54B00F2D99416842E6BF0D89A18CDF2855CEE9871E9B948ED9691198F8E1 * 2 ^ 256
    + 0x9E1DC186B95735610EF6034866B53E708A8BBD4B1F74DDE8C6B4A61C2E2578BA) * 2 ^ 256
    + 0x08AE7A65EAF4566CA94ED58D6D37C8E779E4959162ACD3C25C2406490A3A32E0) * 2 ^ 256
    + 0xDB0B5EDE14B8EE4688902A22DC4F816073195D643D7EA7C41744975FEC130CCD) * 2 ^ 256
    + 0xD2F3FF1021DAB6BCF5389D928F40A351A89F3C507F02F94585334D43FBAAEFD0) * 2 ^ 256
    + 0xCF584C4A39BECB6A5BB1FC20ED00D153842FE329B3D63B52A05A6E1B1A2C8309) * 2 ^ 256
    + 0x75B227EBE28012079A059618C323C7041531D871F1E5A534CCF73F362693FDB7) * 2 ^ 256
    + 0xC072A49CAFA2D4ADF04759FA7DC982CA76ABD7FE2B670130C56F6BF27B777C63)

/-- The inverse S-box, laid out alike. -/
def aesInvTable : Nat :=
  (((((((0x7D0C2155631469E126D677BA7E042B17619953833CBBEBC8B0F52AAE4D3BE0A0 * 2 ^ 256
    + 0xEF9CC9939F7AE52D0D4AB519A97F51605FEC8027591012B131C7078833A8DD1F) * 2 ^ 256
    + 0xF45ACD78FEC0DB9A2079D2C64B3E56FC1BBE18AA0E62B76F89C5291D711AF147) * 2 ^ 256
    + 0x6EDF751CE837F9E28535ADE72274AC9673E6B4F0CECFF297EADC674F4111913A) * 2 ^ 256
    + 0x6B8A130103BDAFC1020F3FCA8F1E2CD00645B3B80558E4F70AD3BC8C00ABD890) * 2 ^ 256
    + 0x849D8DA75746155EDAB9EDFD5048706C92B6655DCC5CA4D41698688664F6F872) * 2 ^ 256
    + 0x25D18B6D49A25B76B224D92866A12E084EC3FA420B954CEE3D23C2A632947B54) * 2 ^ 256
    + 0xCBE9DEC444438E3487FF2F9B8239E37CFBD7F3819EA340BF38A53630D56A0952)

/-- SubBytes of one byte. -/
def aesSub (x : Nat) : Nat := aesSboxTable / 2 ^ (8 * x) % 256
/-- InvSubBytes of one byte. -/
def aesInvSub (x : Nat) : Nat := aesInvTable / 2 ^ (8 * x) % 256
/-- Multiplication by x in GF(2^8). -/
def aesX (a : Nat) : Nat := if a < 128 then 2 * a else Nat.xor (2 * a - 256) 0x1B
/-- Multiplication in GF(2^8) by a factor below 16. -/
def aesMul (f a : Nat) : Nat :=
  let a2 := aesX a
  let a4 := aesX a2
  let a8 := aesX a4
  Nat.xor (Nat.xor (if f.testBit 0 then a else 0) (if f.testBit 1 then a2 else 0))
    (Nat.xor (if f.testBit 2 then a4 else 0) (if f.testBit 3 then a8 else 0))

/-- Four bytes exclusive-ored. -/
def xorL (a b : List Nat) : List Nat := List.zipWith Nat.xor a b

/-- The words of the expanded key, newest first: one more word on `ws`. -/
def aesNextWord (nk i : Nat) (rcon : Nat) (ws : List (List Nat)) : List (List Nat) :=
  let prev := ws.getD 0 []
  let old := ws.getD (nk - 1) []
  let t :=
    if i % nk = 0 then
      match prev.map aesSub with
      | [a, b, c, d] => [Nat.xor b rcon, c, d, a]
      | l => l
    else if nk > 6 ∧ i % nk = 4 then prev.map aesSub
    else prev
  xorL old t :: ws

/-- `n` further words from word `i`, with the round constant in force. -/
def aesExpandFrom (nk : Nat) : Nat → Nat → Nat → List (List Nat) → List (List Nat)
  | 0, _, _, ws => ws
  | n + 1, i, rcon, ws =>
    aesExpandFrom nk n (i + 1) (if i % nk = 0 then aesX rcon else rcon) (aesNextWord nk i rcon ws)

/-- Groups of four. -/
def fours {α : Type} : List α → List (List α)
  | a :: b :: c :: d :: l => [a, b, c, d] :: fours l
  | _ => []

/-- The round keys of a key of 16, 24 or 32 bytes, 16 numbers each. -/
def aesKeys (key : Bytes) : List (List Nat) :=
  let nk := key.length / 4
  let ws := (fours (key.map (·.toNat))).reverse
  ((fours (aesExpandFrom nk (4 * (nk + 7) - nk) nk 1 ws).reverse).map List.flatten)

/-- ShiftRows, the state column by column. -/
def aesShift (s : List Nat) : List Nat :=
  [0, 5, 10, 15, 4, 9, 14, 3, 8, 13, 2, 7, 12, 1, 6, 11].map fun i => s.getD i 0
/-- InvShiftRows. -/
def aesUnshift (s : List Nat) : List Nat :=
  [0, 13, 10, 7, 4, 1, 14, 11, 8, 5, 2, 15, 12, 9, 6, 3].map fun i => s.getD i 0

/-- One column by a circulant matrix with first row `m0 m1 m2 m3`. -/
def aesCol (m0 m1 m2 m3 : Nat) (c : List Nat) : List Nat :=
  match c with
  | [a, b, d, e] =>
    [xor4 (aesMul m0 a) (aesMul m1 b) (aesMul m2 d) (aesMul m3 e),
     xor4 (aesMul m3 a) (aesMul m0 b) (aesMul m1 d) (aesMul m2 e),
     xor4 (aesMul m2 a) (aesMul m3 b) (aesMul m0 d) (aesMul m1 e),
     xor4 (aesMul m1 a) (aesMul m2 b) (aesMul m3 d) (aesMul m0 e)]
  | l => l
where
  /-- Exclusive or of four numbers. -/
  xor4 (a b c d : Nat) : Nat := Nat.xor (Nat.xor a b) (Nat.xor c d)

/-- MixColumns. -/
def aesMix (s : List Nat) : List Nat := ((fours s).map (aesCol 2 3 1 1)).flatten
/-- InvMixColumns. -/
def aesUnmix (s : List Nat) : List Nat := ((fours s).map (aesCol 14 11 13 9)).flatten

/-- The rounds after the first key addition. -/
def aesRounds : List (List Nat) → List Nat → List Nat
  | [], s => s
  | [k], s => xorL (aesShift (s.map aesSub)) k
  | k :: k' :: ks, s => aesRounds (k' :: ks) (xorL (aesMix (aesShift (s.map aesSub))) k)

/-- The inverse rounds, last round key first. -/
def aesInvRounds : List (List Nat) → List Nat → List Nat
  | [], s => s
  | [k], s => xorL ((aesUnshift s).map aesInvSub) k
  | k :: k' :: ks, s => aesInvRounds (k' :: ks) (aesUnmix (xorL ((aesUnshift s).map aesInvSub) k))

/-- Bytes from numbers. -/
def toBytes (l : List Nat) : Bytes := l.map (BitVec.ofNat 8)

/-- AES encipherment of one block under expanded keys. -/
def aesEncK (ks : List (List Nat)) (b : Bytes) : Bytes :=
  match ks with
  | k :: ks => toBytes (aesRounds ks (xorL (b.map (·.toNat)) k))
  | [] => b

/-- AES decipherment of one block under expanded keys. -/
def aesDecK (ks : List (List Nat)) (b : Bytes) : Bytes :=
  match ks.reverse with
  | k :: ks => toBytes (aesInvRounds ks (xorL (b.map (·.toNat)) k))
  | [] => b

/-- AES encipherment of one block. -/
def aesEnc (key b : Bytes) : Bytes := aesEncK (aesKeys key) b
/-- AES decipherment of one block. -/
def aesDec (key b : Bytes) : Bytes := aesDecK (aesKeys key) b

end Sys2Proof.Machine
end

