-- ==== Sys2Proof/Machine/Des.lean ====
section
/-!
DEFINITION. DES and triple DES (FIPS 46-3, SP 800-67).  The spec names the standards; the tables and steps are
the standards' (PRESUMED, log 7).
-/
namespace Sys2Proof.Machine

/-- The bits of an `n`-bit number named by a table (1 is the highest), the first named becoming the highest. -/
def permBits (n : Nat) (table : List Nat) (x : Nat) : Nat :=
  table.foldl (fun a i => 2 * a + (if x.testBit (n - i) then 1 else 0)) 0

/-- Initial permutation. -/
def desIp : List Nat :=
  [58, 50, 42, 34, 26, 18, 10, 2, 60, 52, 44, 36, 28, 20, 12, 4,
   62, 54, 46, 38, 30, 22, 14, 6, 64, 56, 48, 40, 32, 24, 16, 8,
   57, 49, 41, 33, 25, 17, 9, 1, 59, 51, 43, 35, 27, 19, 11, 3,
   61, 53, 45, 37, 29, 21, 13, 5, 63, 55, 47, 39, 31, 23, 15, 7]
/-- Final permutation. -/
def desFp : List Nat :=
  [40, 8, 48, 16, 56, 24, 64, 32, 39, 7, 47, 15, 55, 23, 63, 31,
   38, 6, 46, 14, 54, 22, 62, 30, 37, 5, 45, 13, 53, 21, 61, 29,
   36, 4, 44, 12, 52, 20, 60, 28, 35, 3, 43, 11, 51, 19, 59, 27,
   34, 2, 42, 10, 50, 18, 58, 26, 33, 1, 41, 9, 49, 17, 57, 25]
/-- Expansion. -/
def desE : List Nat :=
  [32, 1, 2, 3, 4, 5, 4, 5, 6, 7, 8, 9, 8, 9, 10, 11, 12, 13, 12, 13, 14, 15, 16, 17,
   16, 17, 18, 19, 20, 21, 20, 21, 22, 23, 24, 25, 24, 25, 26, 27, 28, 29, 28, 29, 30, 31, 32, 1]
/-- Round permutation. -/
def desP : List Nat :=
  [16, 7, 20, 21, 29, 12, 28, 17, 1, 15, 23, 26, 5, 18, 31, 10,
   2, 8, 24, 14, 32, 27, 3, 9, 19, 13, 30, 6, 22, 11, 4, 25]
/-- Key permutation 1. -/
def desPc1 : List Nat :=
  [57, 49, 41, 33, 25, 17, 9, 1, 58, 50, 42, 34, 26, 18, 10, 2, 59, 51, 43, 35, 27, 19, 11, 3, 60, 52, 44, 36,
   63, 55, 47, 39, 31, 23, 15, 7, 62, 54, 46, 38, 30, 22, 14, 6, 61, 53, 45, 37, 29, 21, 13, 5, 28, 20, 12, 4]
/-- Key permutation 2. -/
def desPc2 : List Nat :=
  [14, 17, 11, 24, 1, 5, 3, 28, 15, 6, 21, 10, 23, 19, 12, 4, 26, 8, 16, 7, 27, 20, 13, 2,
   41, 52, 31, 37, 47, 55, 30, 40, 51, 45, 33, 48, 44, 49, 39, 56, 34, 53, 46, 42, 50, 36, 29, 32]
/-- Key rotations. -/
def desShifts : List Nat := [1, 1, 2, 2, 2, 2, 2, 2, 1, 2, 2, 2, 2, 2, 2, 1]

/-- The eight S-boxes, each as its 64 entries row by row. -/
def desRows : List (List Nat) :=
  [[14, 4, 13, 1, 2, 15, 11, 8, 3, 10, 6, 12, 5, 9, 0, 7, 0, 15, 7, 4, 14, 2, 13, 1, 10, 6, 12, 11, 9, 5, 3, 8,
    4, 1, 14, 8, 13, 6, 2, 11, 15, 12, 9, 7, 3, 10, 5, 0, 15, 12, 8, 2, 4, 9, 1, 7, 5, 11, 3, 14, 10, 0, 6, 13],
   [15, 1, 8, 14, 6, 11, 3, 4, 9, 7, 2, 13, 12, 0, 5, 10, 3, 13, 4, 7, 15, 2, 8, 14, 12, 0, 1, 10, 6, 9, 11, 5,
    0, 14, 7, 11, 10, 4, 13, 1, 5, 8, 12, 6, 9, 3, 2, 15, 13, 8, 10, 1, 3, 15, 4, 2, 11, 6, 7, 12, 0, 5, 14, 9]] ++
  [[10, 0, 9, 14, 6, 3, 15, 5, 1, 13, 12, 7, 11, 4, 2, 8, 13, 7, 0, 9, 3, 4, 6, 10, 2, 8, 5, 14, 12, 11, 15, 1,
    13, 6, 4, 9, 8, 15, 3, 0, 11, 1, 2, 12, 5, 10, 14, 7, 1, 10, 13, 0, 6, 9, 8, 7, 4, 15, 14, 3, 11, 5, 2, 12],
   [7, 13, 14, 3, 0, 6, 9, 10, 1, 2, 8, 5, 11, 12, 4, 15, 13, 8, 11, 5, 6, 15, 0, 3, 4, 7, 2, 12, 1, 10, 14, 9,
    10, 6, 9, 0, 12, 11, 7, 13, 15, 1, 3, 14, 5, 2, 8, 4, 3, 15, 0, 6, 10, 1, 13, 8, 9, 4, 5, 11, 12, 7, 2, 14]] ++
  [[2, 12, 4, 1, 7, 10, 11, 6, 8, 5, 3, 15, 13, 0, 14, 9, 14, 11, 2, 12, 4, 7, 13, 1, 5, 0, 15, 10, 3, 9, 8, 6,
    4, 2, 1, 11, 10, 13, 7, 8, 15, 9, 12, 5, 6, 3, 0, 14, 11, 8, 12, 7, 1, 14, 2, 13, 6, 15, 0, 9, 10, 4, 5, 3],
   [12, 1, 10, 15, 9, 2, 6, 8, 0, 13, 3, 4, 14, 7, 5, 11, 10, 15, 4, 2, 7, 12, 9, 5, 6, 1, 13, 14, 0, 11, 3, 8,
    9, 14, 15, 5, 2, 8, 12, 3, 7, 0, 4, 10, 1, 13, 11, 6, 4, 3, 2, 12, 9, 5, 15, 10, 11, 14, 1, 7, 6, 0, 8, 13]] ++
  [[4, 11, 2, 14, 15, 0, 8, 13, 3, 12, 9, 7, 5, 10, 6, 1, 13, 0, 11, 7, 4, 9, 1, 10, 14, 3, 5, 12, 2, 15, 8, 6,
    1, 4, 11, 13, 12, 3, 7, 14, 10, 15, 6, 8, 0, 5, 9, 2, 6, 11, 13, 8, 1, 4, 10, 7, 9, 5, 0, 15, 14, 2, 3, 12],
   [13, 2, 8, 4, 6, 15, 11, 1, 10, 9, 3, 14, 5, 0, 12, 7, 1, 15, 13, 8, 10, 3, 7, 4, 12, 5, 6, 11, 0, 14, 9, 2,
    7, 11, 4, 1, 9, 12, 14, 2, 0, 6, 10, 13, 15, 3, 5, 8, 2, 1, 14, 7, 4, 10, 8, 13, 15, 12, 9, 0, 3, 5, 6, 11]]

/-- The S-boxes on 48 bits, box `i` from the high end. -/
def desSub (x : Nat) : Nat :=
  (List.zip desRows [7, 6, 5, 4, 3, 2, 1, 0]).foldl (fun a e =>
    let v := x / 2 ^ (6 * e.2) % 64
    a * 16 + e.1.getD ((v / 32 * 2 + v % 2) * 16 + v / 2 % 16) 0) 0

/-- A 28-bit rotate left. -/
def rot28 (n x : Nat) : Nat := (x * 2 ^ n) % 2 ^ 28 + x / 2 ^ (28 - n)

/-- The round keys from the two key halves. -/
def desKeysFrom : List Nat → Nat → Nat → List Nat
  | [], _, _ => []
  | n :: ns, c, d =>
    let c := rot28 n c
    let d := rot28 n d
    permBits 56 desPc2 (c * 2 ^ 28 + d) :: desKeysFrom ns c d

/-- The sixteen round keys of an 8-byte key. -/
def desKeys (key : Bytes) : List Nat :=
  let k := permBits 64 desPc1 (beNat key)
  desKeysFrom desShifts (k / 2 ^ 28) (k % 2 ^ 28)

/-- The rounds on the two halves. -/
def desRounds : List Nat → Nat → Nat → Nat
  | [], l, r => r * 2 ^ 32 + l
  | k :: ks, l, r => desRounds ks r (Nat.xor l (permBits 32 desP (desSub (Nat.xor (permBits 32 desE r) k))))

/-- DES of one block under a list of round keys. -/
def desWith (ks : List Nat) (b : Bytes) : Bytes :=
  let x := permBits 64 desIp (beNat b)
  beBytes 8 (permBits 64 desFp (desRounds ks (x / 2 ^ 32) (x % 2 ^ 32)))

/-- DES encipherment. -/
def desEnc (key b : Bytes) : Bytes := desWith (desKeys key) b
/-- DES decipherment. -/
def desDec (key b : Bytes) : Bytes := desWith (desKeys key).reverse b

/-- The three parts of a key of 8, 16 or 24 bytes; a 16-byte key repeats its first part. -/
def tdesParts (key : Bytes) : Bytes × Bytes × Bytes :=
  let k1 := slice key 0 8
  if key.length ≤ 8 then (k1, k1, k1)
  else if key.length ≤ 16 then (k1, slice key 8 8, k1)
  else (k1, slice key 8 8, slice key 16 8)

/-- Triple DES encipherment of one block. -/
def tdesEnc (key b : Bytes) : Bytes :=
  let (a, m, c) := tdesParts key
  desEnc c (desDec m (desEnc a b))
/-- Triple DES decipherment of one block. -/
def tdesDec (key b : Bytes) : Bytes :=
  let (a, m, c) := tdesParts key
  desDec a (desEnc m (desDec c b))

end Sys2Proof.Machine
end

