-- ==== Sys2Proof/Machine/Modes.lean ====
section
/-!
DEFINITION. Modes of operation over a block function: ECB, CBC, CTR, CFB-8, GCM (SP 800-38D), CMAC
(SP 800-38B), the ISO 9797-1 MACs, AES key wrap (SP 800-38F) and the CTR_DRBG (SP 800-90A).  The spec names the
standards; their steps are PRESUMED (log 7).
-/
namespace Sys2Proof.Machine

/-- CBC encipherment of whole blocks. -/
def cbcEncL (e : Bytes → Bytes) : Bytes → List Bytes → List Bytes
  | _, [] => []
  | iv, b :: bs => let c := e (xorB b iv); c :: cbcEncL e c bs
/-- CBC decipherment of whole blocks. -/
def cbcDecL (d : Bytes → Bytes) : Bytes → List Bytes → List Bytes
  | _, [] => []
  | iv, b :: bs => xorB (d b) iv :: cbcDecL d b bs
/-- CBC encipherment, blocks of `n` bytes. -/
def cbcEnc (e : Bytes → Bytes) (n : Nat) (iv m : Bytes) : Bytes := (cbcEncL e iv (chunks n m)).flatten
/-- CBC decipherment. -/
def cbcDec (d : Bytes → Bytes) (n : Nat) (iv m : Bytes) : Bytes := (cbcDecL d iv (chunks n m)).flatten
/-- ECB, either way. -/
def ecb (e : Bytes → Bytes) (n : Nat) (m : Bytes) : Bytes := ((chunks n m).map e).flatten

/-- CFB with 8-bit feedback, enciphering. -/
def cfb8Enc (e : Bytes → Bytes) : Bytes → Bytes → Bytes
  | _, [] => []
  | iv, x :: m => let c := x ^^^ (e iv).getD 0 0; c :: cfb8Enc e (iv.drop 1 ++ [c]) m
/-- CFB with 8-bit feedback, deciphering. -/
def cfb8Dec (e : Bytes → Bytes) : Bytes → Bytes → Bytes
  | _, [] => []
  | iv, c :: m => (c ^^^ (e iv).getD 0 0) :: cfb8Dec e (iv.drop 1 ++ [c]) m

/-- Counter mode from a counter block, of which the low `w` bytes count. -/
def ctrL (e : Bytes → Bytes) (w : Nat) : Bytes → List Bytes → List Bytes
  | _, [] => []
  | cb, b :: bs =>
    let hi := cb.take (cb.length - w)
    let lo := beNat (cb.drop (cb.length - w))
    xorB b (e cb) :: ctrL e w (hi ++ beBytes w (lo + 1)) bs
/-- Counter mode. -/
def ctrMode (e : Bytes → Bytes) (w : Nat) (cb m : Bytes) : Bytes := (ctrL e w cb (chunks cb.length m)).flatten

/-! ## GCM -/

/-- Multiplication in the field of GCM, bit `i` of `x` from the high end; `n` bits left. -/
def gfMulFrom (x : Nat) : Nat → Nat → Nat → Nat
  | 0, z, _ => z
  | n + 1, z, v =>
    gfMulFrom x n (if x.testBit n then Nat.xor z v else z)
      (if v % 2 = 1 then Nat.xor (v / 2) (0xE1 * 2 ^ 120) else v / 2)
/-- Multiplication in the field of GCM. -/
def gfMul (x y : Nat) : Nat := gfMulFrom x 128 0 y
/-- GHASH of whole blocks. -/
def ghash (h : Nat) (bs : List Bytes) : Nat := bs.foldl (fun y b => gfMul (Nat.xor y (beNat (fitR 16 b))) h) 0
/-- The blocks GHASH takes: data, text, lengths. -/
def ghashBlocks (aad c : Bytes) : List Bytes :=
  chunks 16 aad ++ chunks 16 c ++ [beBytes 8 (8 * aad.length) ++ beBytes 8 (8 * c.length)]
/-- The initial counter block of a nonce. -/
def gcmJ0 (e : Bytes → Bytes) (iv : Bytes) : Bytes :=
  if iv.length = 12 then iv ++ [0, 0, 0, 1]
  else beBytes 16 (ghash (beNat (e (zeros 16))) (chunks 16 iv ++ [zeros 8 ++ beBytes 8 (8 * iv.length)]))
/-- The tag over ciphertext. -/
def gcmTag (e : Bytes → Bytes) (iv aad c : Bytes) : Bytes :=
  xorB (beBytes 16 (ghash (beNat (e (zeros 16))) (ghashBlocks aad c))) (e (gcmJ0 e iv))
/-- The text enciphered or deciphered. -/
def gcmText (e : Bytes → Bytes) (iv m : Bytes) : Bytes :=
  let j := gcmJ0 e iv
  ctrMode e 4 (j.take 12 ++ beBytes 4 (beNat (j.drop 12) + 1)) m
/-- GCM encipherment: ciphertext and tag. -/
def gcmSeal (e : Bytes → Bytes) (iv aad m : Bytes) : Bytes × Bytes :=
  let c := gcmText e iv m
  (c, gcmTag e iv aad c)
/-- GCM decipherment: the plaintext where the tag is right. -/
def gcmOpen (e : Bytes → Bytes) (iv aad c tag : Bytes) : Option Bytes :=
  if gcmTag e iv aad c = tag then some (gcmText e iv c) else none

/-! ## CMAC and ISO 9797-1 -/

/-- Doubling in GF(2^(8n)) for 8- and 16-byte blocks. -/
def cmacDbl (n : Nat) (x : Nat) : Nat :=
  let y := 2 * x % 2 ^ (8 * n)
  if x.testBit (8 * n - 1) then Nat.xor y (if n = 8 then 0x1B else 0x87) else y
/-- CBC-MAC of whole blocks from an initial block. -/
def cbcMac (e : Bytes → Bytes) (iv : Bytes) (bs : List Bytes) : Bytes := bs.foldl (fun y b => e (xorB y b)) iv
/-- CMAC, blocks of `n` bytes. -/
def cmac (e : Bytes → Bytes) (n : Nat) (m : Bytes) : Bytes :=
  let k1 := cmacDbl n (beNat (e (zeros n)))
  let k2 := cmacDbl n k1
  let bs := chunks n m
  let last := (bs.getLast?).getD []
  let tail := if last.length = n then xorB last (beBytes n k1)
    else xorB (fitR n (last ++ [0x80])) (beBytes n k2)
  cbcMac e (zeros n) (bs.dropLast ++ [tail])
/-- AES-CMAC. -/
def aesCmac (key m : Bytes) : Bytes := cmac (aesEncK (aesKeys key)) 16 m
/-- ISO 9797-1 padding method 1 or 2 to blocks of `n` bytes; method 1 of an empty string is one zero block. -/
def pad9797 (method n : Nat) (m : Bytes) : Bytes :=
  let m := if method = 2 then m ++ [0x80] else m
  if m = [] then zeros n else m ++ zeros ((n - m.length % n) % n)
/-- ISO 9797-1 algorithm 1 over padded blocks. -/
def mac1 (e : Bytes → Bytes) (n : Nat) (bs : List Bytes) : Bytes := cbcMac e (zeros n) bs
/-- ISO 9797-1 algorithm 3 with DES: the second part deciphers and the first (or third) enciphers the result. -/
def mac3 (key : Bytes) (bs : List Bytes) : Bytes :=
  let (a, b, c) := tdesParts key
  desEnc c (desDec b (mac1 (desEnc a) 8 bs))

/-! ## Key wrap -/

/-- One pass of the wrap over the semiblocks. -/
def kwPass (e : Bytes → Bytes) : Nat → Bytes → List Bytes → Bytes × List Bytes
  | _, a, [] => (a, [])
  | t, a, r :: rs =>
    let b := e (a ++ r)
    let a' := beBytes 8 (Nat.xor (beNat (b.take 8)) t)
    let (x, l) := kwPass e (t + 1) a' rs
    (x, b.drop 8 :: l)
/-- AES-KW of whole semiblocks. -/
def kwWrap (e : Bytes → Bytes) (m : Bytes) : Bytes :=
  let rs := chunks 8 m
  let n := rs.length
  let (a, rs) := (List.range 6).foldl (fun x j => kwPass e (n * j + 1) x.1 x.2)
    (beBytes 8 0xA6A6A6A6A6A6A6A6, rs)
  a ++ rs.flatten
/-- One inverse pass, last semiblock first. -/
def kwUnpass (d : Bytes → Bytes) : Nat → Bytes → List Bytes → Bytes × List Bytes
  | _, a, [] => (a, [])
  | t, a, r :: rs =>
    let b := d (beBytes 8 (Nat.xor (beNat a) t) ++ r)
    let (x, l) := kwUnpass d (t - 1) (b.take 8) rs
    (x, b.drop 8 :: l)
/-- AES-KW unwrapping, where the integrity check passes. -/
def kwUnwrap (d : Bytes → Bytes) (c : Bytes) : Option Bytes :=
  let rs := (chunks 8 (c.drop 8)).reverse
  let n := rs.length
  let (a, rs) := ((List.range 6).reverse).foldl (fun x j => kwUnpass d (n * (j + 1)) x.1 x.2) (c.take 8, rs)
  if a = beBytes 8 0xA6A6A6A6A6A6A6A6 then some rs.reverse.flatten else none

/-! ## CTR_DRBG with AES-256 and a derivation function -/

/-- `n` successive blocks of the counter from V + 1, and the last counter. -/
def drbgBlocks (e : Bytes → Bytes) : Nat → Nat → Bytes × Nat
  | 0, v => ([], v)
  | n + 1, v =>
    let v := (v + 1) % 2 ^ 128
    let (b, v') := drbgBlocks e n v
    (e (beBytes 16 v) ++ b, v')
/-- The update step. -/
def drbgUpdate (key v data : Bytes) : Bytes × Bytes :=
  let x := xorB (drbgBlocks (aesEncK (aesKeys key)) 3 (beNat v)).1 (fitR 48 data)
  (x.take 32, x.drop 32)
/-- The derivation function: 48 bytes from an input. -/
def drbgDf (input : Bytes) : Bytes :=
  let s := beBytes 4 input.length ++ beBytes 4 48 ++ input ++ [0x80]
  let s := s ++ zeros ((16 - s.length % 16) % 16)
  let e := aesEncK (aesKeys (toBytes (List.range 32)))
  let bcc := fun i => cbcMac e (zeros 16) (chunks 16 (beBytes 4 i ++ zeros 12 ++ s))
  let t := bcc 0 ++ bcc 1 ++ bcc 2
  let e2 := aesEncK (aesKeys (t.take 32))
  let x1 := e2 (t.drop 32)
  let x2 := e2 x1
  x1 ++ x2 ++ e2 x2
/-- Instantiation from entropy input. -/
def drbgInit (entropy : Bytes) : Bytes × Bytes := drbgUpdate (zeros 32) (zeros 16) (drbgDf entropy)
/-- Reseeding. -/
def drbgReseed (key v entropy : Bytes) : Bytes × Bytes := drbgUpdate key v (drbgDf entropy)
/-- A request for `n` bytes: the output, and the key and V after it. -/
def drbgGen (key v : Bytes) (n : Nat) : Bytes × Bytes × Bytes :=
  let (out, v') := drbgBlocks (aesEncK (aesKeys key)) ((n + 15) / 16) (beNat v)
  (out.take n, drbgUpdate key (beBytes 16 v') (zeros 48))

end Sys2Proof.Machine
end

