-- ==== Sys2Proof/Machine/Egress.lean ====
section
/-!
DEFINITION. The egress: the response header (R89, R90), its seal (R92), the Ethernet, IP and UDP encapsulation
(R62), the port a response leaves by (R37, R79, R58), completions of control complex work (R355), and the ring
and histogram entries of tagged items (R447, R448).
-/
namespace Sys2Proof.Machine

/-! ## Status codes (R103) -/

abbrev stOK : Nat := 0x0000
abbrev stFORMAT : Nat := 0x0101
abbrev stLENGTH : Nat := 0x0102
abbrev stUNKNOWN_COMMAND : Nat := 0x0103
abbrev stNOT_AUTHORISED : Nat := 0x0201
abbrev stDUAL_CONTROL_REQUIRED : Nat := 0x0202
abbrev stKEY_NOT_FOUND : Nat := 0x0301
abbrev stKEY_USAGE : Nat := 0x0302
abbrev stKEY_INVALID : Nat := 0x0303
abbrev stKEY_ORPHANED : Nat := 0x0304
abbrev stNOT_FITTED : Nat := 0x0401
abbrev stBUSY : Nat := 0x0402
abbrev stQUOTA : Nat := 0x0403
abbrev stABORTED_FAULT : Nat := 0x0501
abbrev stABORTED_DRAIN : Nat := 0x0502
abbrev stDISCARDED_FAILOVER : Nat := 0x0503
abbrev stTIMEOUT : Nat := 0x0504
abbrev stRNG_UNAVAILABLE : Nat := 0x0601
abbrev stCOUNTER_EXHAUSTED : Nat := 0x0602
abbrev stPOINT_INVALID : Nat := 0x0603
abbrev stOPERAND_RANGE : Nat := 0x0604
abbrev stMODULUS_INVALID : Nat := 0x0605
abbrev stVERIFY_FAIL : Nat := 0x0606
abbrev stDEVICE_LOCKED : Nat := 0x0701
abbrev stTENANT_RESETTING : Nat := 0x0702
abbrev stPIN_FAIL : Nat := 0x0801
abbrev stCRYPTOGRAM_FAIL : Nat := 0x0802

/-- The kind of a status. -/
inductive StatusKind where
  | refused | completed | discarded
  deriving DecidableEq, Repr

/-- The kind column of R103; none for a code outside the table. -/
def statusKind (st : Nat) : Option StatusKind :=
  if st ∈ [stOK, stVERIFY_FAIL, stPIN_FAIL, stCRYPTOGRAM_FAIL] then some .completed
  else if st ∈ [stABORTED_FAULT, stABORTED_DRAIN, stDISCARDED_FAILOVER, stTIMEOUT] then some .discarded
  else if st ∈ [stFORMAT, stLENGTH, stUNKNOWN_COMMAND, stNOT_AUTHORISED, stDUAL_CONTROL_REQUIRED,
      stKEY_NOT_FOUND, stKEY_USAGE, stKEY_INVALID, stKEY_ORPHANED, stNOT_FITTED, stBUSY, stQUOTA,
      stRNG_UNAVAILABLE, stCOUNTER_EXHAUSTED, stPOINT_INVALID, stOPERAND_RANGE, stMODULUS_INVALID,
      stDEVICE_LOCKED, stTENANT_RESETTING] then some .refused
  else none

/-! ## Encapsulation -/

/-- The ones' complement sum of 16-bit words, folded. -/
def onesSum (b : Bytes) : Nat :=
  let t := (chunks 2 b).foldl (fun n w => n + beNat (fitR 2 w)) 0
  let t := t % 65536 + t / 65536
  t % 65536 + t / 65536
/-- The Internet checksum. -/
def inetSum (b : Bytes) : Nat := 65535 - onesSum b

/-- A port's station address; the fused one in the ROM service (R86). -/
def stationMac (s : State) (p : Nat) : Bytes :=
  if p = 128 then
    (if s.flag .mgt MGT_STATUS_ROM_SVC then fitR 6 s.fuse.mgtMac
     else beBytes 2 (s.fld .mgt MGT_MAC_HI) ++ beBytes 4 (s.fld .mgt MGT_MAC_LO))
  else beBytes 2 (s.fld (.lnk p) LNK_MAC_HI) ++ beBytes 4 (s.fld (.lnk p) LNK_MAC_LO)
/-- A port's IPv4 address. -/
def stationIp4 (s : State) (p : Nat) : Bytes :=
  beBytes 4 (if p = 128 then s.fld .mgt MGT_IPV4 else s.fld (.lnk p) LNK_IPV4)
/-- A port's IPv6 address. -/
def stationIp6 (s : State) (p : Nat) : Bytes :=
  ([3, 2, 1, 0].map fun i =>
    beBytes 4 (if p = 128 then s.fld .mgt (MGT_IPV6 i) else s.fld (.lnk p) (LNK_IPV6 i))).flatten
/-- A port's UDP port. -/
def stationUdp (s : State) (p : Nat) : Nat := if p = 128 then s.fld .mgt MGT_UDP else s.fld (.lnk p) LNK_UDP
/-- A port's transport EtherType; 0x88B5 in the ROM service (R86). -/
def stationEtype (s : State) (p : Nat) : Nat :=
  if p = 128 then (if s.flag .mgt MGT_STATUS_ROM_SVC then 0x88B5 else s.fld .mgt MGT_ETYPE) else s.fld (.lnk p) LNK_ETYPE

/-- A UDP datagram with its checksum over the given pseudo-header start; zero is sent as all ones. -/
def udpBytes (pseudo : Bytes) (sport dport : Nat) (m : Bytes) : Bytes :=
  let len := 8 + m.length
  let h := beBytes 2 sport ++ beBytes 2 dport ++ beBytes 2 len
  let c := inetSum (pseudo ++ h ++ [0, 0] ++ m)
  h ++ beBytes 2 (if c = 0 then 65535 else c) ++ m

/-- An IPv4 packet carrying UDP, TTL 64 (R62).  The identification, type of service and fragment fields of the
header are free (log 12). -/
def ipv4Bytes (ident : BitVec 32) (src dst : Bytes) (sport dport : Nat) (m : Bytes) : Bytes :=
  let len := 28 + m.length
  let pseudo := src ++ dst ++ [0, 17] ++ beBytes 2 (8 + m.length)
  let f := beBytes 4 ident.toNat
  let head := fun c => [0x45, f.getD 0 0] ++ beBytes 2 len ++ slice f 2 2 ++ [f.getD 1 0 &&& 0x40, 0, 64, 17] ++
    beBytes 2 c ++ src ++ dst
  head (inetSum (head 0)) ++ udpBytes pseudo sport dport m

/-- An IPv6 packet carrying UDP, hop limit 64 (R62).  The traffic class and flow label are free (log 12). -/
def ipv6Bytes (flow : BitVec 32) (src dst : Bytes) (sport dport : Nat) (m : Bytes) : Bytes :=
  let len := 8 + m.length
  let pseudo := src ++ dst ++ beBytes 4 len ++ [0, 0, 0, 17]
  beBytes 4 (6 * 2 ^ 28 + flow.toNat % 2 ^ 28) ++ beBytes 2 len ++ [17, 64] ++ src ++ dst ++
    udpBytes pseudo sport dport m

/-- An Ethernet frame without FCS, padded to its minimum. -/
def etherBytes (dst src : Bytes) (vlan : Option Nat) (etype : Nat) (m : Bytes) : Bytes :=
  let t := match vlan with
    | some v => [0x81, 0x00] ++ beBytes 2 v
    | none => []
  let f := dst ++ src ++ t ++ beBytes 2 etype ++ m
  f ++ zeros (60 - f.length)

/-- The whole frame by which port `p` sends an Adetra frame to a host. -/
def wireFrame (s : State) (p : Nat) (dest : Addr) (vlan : Option Nat) (m : Bytes) : Bytes :=
  match dest.ip with
  | none => etherBytes dest.mac (stationMac s p) vlan (stationEtype s p) m
  | some (ip, port) =>
    if ip.length = 4 then
      etherBytes dest.mac (stationMac s p) vlan 0x0800
        (ipv4Bytes (Config.ipv4Fill s.fresh) (stationIp4 s p) ip (stationUdp s p) port m)
    else
      etherBytes dest.mac (stationMac s p) vlan 0x86DD
        (ipv6Bytes (Config.ipv6Fill s.fresh) (stationIp6 s p) ip (stationUdp s p) port m)

/-! ## The response header and its seal -/

/-- Flags of R90. -/
abbrev flRESPONSE : Nat := 0x80
abbrev flFIXED : Nat := 0x40
abbrev flPLAIN : Nat := 0x20
abbrev flDUP : Nat := 0x10
abbrev flREKEY : Nat := 0x08

/-- The 40-byte header of a response (R89). -/
def respHeader (flags tenant session seq : Nat) (tag : Word) (cmd status len cls : Nat) (ctx : Word) : Bytes :=
  [1, BitVec.ofNat 8 flags] ++ beBytes 2 40 ++ beBytes 2 tenant ++ beBytes 4 session ++ beBytes 8 seq ++
  beBytes 4 tag.toNat ++ beBytes 2 cmd ++ beBytes 2 status ++ beBytes 2 len ++ beBytes 2 cls ++
  beBytes 4 ctx.toNat ++ zeros 6

/-- The nonce of a frame (R92). -/
def frameNonce (salt : Bytes) (seq : Nat) : Bytes := salt ++ beBytes 8 seq

/-- Header, sealed payload and tag of a response on a session. -/
def sealResponse (s : State) (se : Session) (header payload : Bytes) (seq : Nat) : Bytes :=
  let (c, t) := gcmSeal (aesEncK (aesKeys (fitR 32 (cacheKey s se.slotOut)))) (frameNonce se.saltOut seq) header payload
  header ++ c ++ t

/-! ## Queueing for transmit -/

/-- A response discarded at port `p` (R58, R79). -/
def countDisc (s : State) (p : Nat) (n : Nat := 1) : State :=
  if p = 128 then s.bump .mgt MGT_CNT_TXDISC n else s.bump (.lnk p) LNK_CNT_TXDISC n

/-- The port sends what is queued: RUNNING, link up and not fenced (R58, R75, R79). -/
def portSends (s : State) (p : Nat) : Bool :=
  if p = 128 then
    decide (stateOf s .mgt = stRunning ∨ stateOf s .mgt = stDraining) && s.flag .mgt MGT_STATUS_LINK_UP &&
      s.chipFault.isNone
  else running s (.lnk p) && s.flag (.lnk p) LNK_STATUS_LINK_UP && ! fenced s

/-- A port's page is taking responses into its queue, or still sends what it holds (R59, R87). -/
def portAlive (s : State) (p : Nat) : Bool :=
  let q := portPage p
  decide (stateOf s q = stRunning) || decide (stateOf s q = stDraining)

/-- Received flow control holds back a class (R70). -/
def held (s : State) (p c : Nat) : Bool := (s.port p).paused.toNat.testBit (c % 8)

/-- Transmission of the next response begins, where none is under way: the oldest that flow control does not hold. -/
def startTx (s : State) (p : Nat) : State :=
  let q := s.port p
  if q.sending then s
  else match q.tx.find? fun x => ! held s p x.cls with
    | some x => s.setPort p { q with tx := x :: q.tx.erase x, sending := true }
    | none => s

/-- A response joins the transmit queue of port `p`, or is discarded and counted there (R58, R79). -/
def queueResp (s : State) (p : Nat) (x : Resp) : State :=
  if p ≠ 128 ∧ live s (.lnk p) = false then s.bump .htb HTB_NOPORT
  else if portSends s p then startTx (s.setPort p { s.port p with tx := (s.port p).tx ++ [x] }) p
  else countDisc s p

/-- Two keys of the host table agree: by IP address and UDP port, else by MAC. -/
def sameHost (a b : Addr) : Bool :=
  match a.ip, b.ip with
  | some x, some y => decide (x = y)
  | none, none => decide (a.mac = b.mac)
  | _, _ => false

/-- The entry of a tenant's host. -/
def findHost (s : State) (t : Nat) (a : Addr) : Option (Nat × HostEntry) :=
  (opresent s.hosts).find? fun e => decide (e.2.tenant = t) && sameHost e.2.key a

/-- Where the response to an item leaves and to whom: as the host table records the host of its session, else the host
that sent the frame; or the request's own addresses on the management port (R37, R62, R78, R85). -/
def respDest (s : State) (host : Option Nat) (i : Item) : Nat × Addr × Option Nat :=
  if i.port = 0x80 then (128, i.source, none)
  else
    match (host.bind fun h => (s.host h).map fun e => (h, e)).orElse fun _ => findHost s i.tenant i.source with
    | some (h, e) => (e.port, e.key, some h)
    | none => (i.port, i.source, none)

/-- A frame body is put on the wire to an item's host, and its response joins the port's queue. -/
def launch (s : State) (i : Item) (host : Option Nat) (session status seq : Nat) (payload body : Bytes) : State :=
  let (port, dest, host) := respDest s host i
  queueResp s.takeFresh port
    { tenant := i.tenant, session := session, cmd := i.cmd, status := status, tag := i.tag, seq := seq,
      host := host, cls := i.cls % 8, payload := payload, frame := wireFrame s port dest i.vlan body }

/-- A session closes: its keys are zeroised and their cache slots freed, its lease dropped, its duplicate-tag window
discarded unless a successor keeps it, and a reservation whose FINISH has not succeeded released (R76, R94, R98,
R99). -/
def closeSession (s : State) (id : Nat) : State :=
  match s.session id with
  | none => s
  | some se =>
    let s := s.setSession id none
    let s := { s with
      keys := oset (oset s.keys se.slotIn none) se.slotOut none
      leases := oset s.leases (leaseSession id) none
      sessions := mmap (fun _ => none) (fun x : Option Session => x.map fun y => { y with
        successor := if y.successor = some id then none else y.successor
        predecessor := if y.predecessor = some id then none else y.predecessor }) s.sessions }
    let s := if (opresent s.sessions).any fun e => e.2.window = se.window then s
      else
        let part := fun (i : Item) => if i.window = some se.window then { i with window := none } else i
        { s with
          windows := lset s.windows se.window []
          items := mmap (fun _ => none) (fun x : Option Item => x.map part) s.items
          brakeOps := s.brakeOps.map fun o => { o with item := part o.item } }
    match se.host with
    | none => s
    | some h =>
      match s.host h with
      | some e =>
        if e.valid = false ∧ ((opresent s.sessions).any fun x => x.2.host = some h) = false then s.setHost h none
        else s
      | none => s

/-- An answer of a classifier's control path, which seals it with a GCM unit of its own: BRAKE, and items that ended
before their tag had verified (R71, R493). -/
def controlPath (i : Item) : Bool := decide (i.cmd = 0x0E10) || i.early.isSome

/-- The region whose lanes seal an item's response: the one that held it, or its ingress region where that is
isolated. -/
def sealRegion (s : State) (i : Item) : Nat := if isolated s i.region then i.ingress else i.region

/-- A sealed response is sent on its way. -/
def sendSealed (s : State) (x : SealJob) : State :=
  let s := launch s x.item x.host x.item.session x.status x.seq x.payload x.body
  if x.item.port < 128 then pmcEvent s x.item.region 0x0F (some x.item.tenant) else s

/-- A response on an open session takes the next device sequence number and goes to the egress seal queue, or through the
control path's own unit (R92, R97, R230).  The session closes after the answer of its CLOSE, after a FINISH whose signature
fails, and with its last sequence number (R93, R98, R99). -/
def respondSend (s : State) (i : Item) (status : Nat) (payload : Bytes) (dup : Bool) : State :=
  match s.session i.session with
  | none => s
  | some se =>
    let seq := se.devSeq
    if 2 ^ 36 ≤ seq then closeSession s i.session
    else
    let flags := flRESPONSE + (if i.fixed then flFIXED else 0) + (if dup then flDUP else 0) +
      (if 2 ^ 35 ≤ seq then flREKEY else 0)
    let h := respHeader flags i.tenant i.session seq i.tag i.cmd status payload.length i.cls i.ctxId
    let x : SealJob :=
      { item := i, status := status, payload := payload, seq := seq, host := se.host, body := sealResponse s se h payload seq }
    let s := s.setSession i.session (some { se with devSeq := seq + 1 })
    let s := leaseTop s (leaseSession i.session) (seq + 1) (seqBlock s) (2 ^ 36)
    let s := if controlPath i then sendSealed s x else s.setSeals (sealRegion s i) (s.seals (sealRegion s i) ++ [x])
    if (i.cmd = 0x0E03 ∧ status = stOK ∧ dup = false) ∨ (i.cmd = 0x0E02 ∧ status = stNOT_AUTHORISED ∧ se.stage = .hello) ∨
        seq = 2 ^ 36 - 1 then closeSession s i.session
    else s

/-- A response finds a device sequence number below the acknowledged bound (R391). -/
def seqAllows (s : State) (i : Item) : Bool :=
  match s.session i.session with
  | some se => leaseAllows s (leaseSession i.session) se.devSeq
  | none => true

/-- A response is sealed and queued, or waits at egress: for the acknowledgement of its commit's epoch when it
answers a state-changing command (R396), or for a device sequence number (R391). -/
def respondOn (s : State) (i : Item) (status : Nat) (payload : Bytes) (dup : Bool := false)
    (changing : Bool := decide (cmdClass i.cmd = some .changing)) : State :=
  let sync := decide (s.role = roACTIVE) && s.flag .par PAIR_CTRL_SYNC_REPLY && changing &&
    decide (statusKind status = some .completed) && ! dup
  if sync then
    { s with held := s.held ++
      [{ epoch := some s.epoch, item := i, status := status, payload := payload, dup := dup }] }
  else if seqAllows s i then respondSend s i status payload dup
  else { s with held := s.held ++ [{ epoch := none, item := i, status := status, payload := payload, dup := dup }] }

/-- A response in clear, for SESSION_HELLO and the ROM service, to where the host table records the host (R37, R62, R86,
R90, R93). -/
def respondPlain (s : State) (i : Item) (session seq status : Nat) (payload : Bytes) : State :=
  let h := respHeader (flRESPONSE + flPLAIN) i.tenant session seq i.tag i.cmd status payload.length i.cls i.ctxId
  launch s i ((s.session session).bind Session.host) session status seq payload (h ++ payload)

/-! ## Completions of control complex work (R355) -/

/-- A 40-bit address held in two registers. -/
def addr40 (s : State) (p : PageId) (lo hi : Fld) : Nat := s.fld p lo + s.fld p hi * 2 ^ 32

/-- Entries of a region's rings. -/
def ringSize (s : State) (r : Nat) : Nat := 2 ^ s.fld (.sch r) SCH_SQ_CFG_SIZE

/-- The completion of control complex work: response bytes first, then the 16-byte entry. -/
def postCompletion (s : State) (r : Nat) (index : Option Nat) (tag : Word) (status : Nat) (payload : Bytes) :
    State :=
  let idx := index.getD (Config.timerIndex s.fresh).toNat
  let s := match index with
    | some n => physWrite s (addr40 s (.sch r) SCH_RSP_LO SCH_RSP_HI + n * 12288) payload
    | none => s
  let tail := s.fld (.sch r) SCH_CQ_TAIL
  let e := beBytes 2 status ++ [0, 0] ++ beBytes 4 tag.toNat ++ beBytes 4 payload.length ++ beBytes 2 idx ++ [0, 0]
  let s := physWrite s (addr40 s (.sch r) SCH_CQ_LO SCH_CQ_HI + tail * 16) e
  let s := s.setFld (.sch r) SCH_CQ_TAIL ((tail + 1) % ringSize s r)
  let s := { s with rings := lset s.rings r ((lget s.rings r).filter fun x => some x.index ≠ index) }
  setIrq s.takeFresh (.sch r) 18

/-! ## Tagged items (R447, R448) -/

/-- The histogram bin of a latency in ns. -/
def latencyBin (l : Nat) : Nat := if l < 128 then 0 else min (Nat.log2 l - 6) 31

/-- The ring entry and histogram count of a tagged item at egress. -/
def tagEgress (s : State) (i : Item) (status : Nat) : State :=
  match i.stamps with
  | none => s
  | some (t0, d, e0, e1) =>
    let p := PageId.pmc i.ingress
    if stateOf s p ≠ stRunning then s
    else
      let e := s.fld p PMC_TAG_HEAD
      let rel := fun (x : Option Nat) => match x with
        | some t => t - t0
        | none => 0xFFFFFFFF
      let ws := [i.cmd * 65536 + status, i.tenant * 65536 + i.port, t0, t0 / 2 ^ 32, rel d, rel e0, rel e1,
        s.time.ns - t0]
      let s := (List.range 8).foldl (fun s w => s.setFld p (PMC_RING (8 * e + w)) (ws.getD w 0)) s
      let s := s.setFld p PMC_TAG_HEAD ((e + 1) % 32)
      s.bumpSat p (PMC_HIST (32 * (i.cmd / 256 % 16) + latencyBin (s.time.ns - t0)))

end Sys2Proof.Machine
end

