-- ==== Sys2Proof/Machine/Items.lean ====
section
/-!
DEFINITION. Work items from admission to their end: the buffer they hold and the flow control it drives (R64,
R66), the context lock (R344, R354), the duplicate-tag window (R107, R108), and the one operation by which an
item ends (R105, R332, R493).
-/
namespace Sys2Proof.Machine

/-! ## Buffers and flow control -/

/-- The run-out reserve of a port in bytes. -/
def runoutBytes (s : State) (p : Nat) : Nat := s.fld (.lnk p) LNK_BUF_RUNOUT * 1024

/-- The fitted ports of a region. -/
def regionPorts (s : State) (r : Nat) : List Nat :=
  (List.range s.fuse.variant.portsPerRegion).map (32 * r + ·)

/-- The shared pool of a region in bytes: what the reserves leave (R64). -/
def sharedPool (s : State) (r : Nat) : Nat :=
  (regionPorts s r).foldl (fun n p => n - 8192 - runoutBytes s p) fbSize

/-- Bytes of the management reserve that frames of a region hold (R85). -/
def mgmtBytes (s : State) (r : Nat) : Nat :=
  (((opresent s.items).map Prod.snd ++ (s.brakeQ.map Prod.snd).flatten ++ s.brakeOps.map BrakeOp.item).filter fun i =>
    i.ingress = r ∧ i.pool = .management).foldl (fun n i => n + i.held) 0

/-- The lowest-numbered region whose classifier is RUNNING (R85). -/
def mgmtRegion (s : State) : Option Nat := (List.range 4).find? fun r => running s (.cls r)

/-- What the management port takes of a region's shared pool: the reserve of 64 KiB in the region that serves it, and what
its frames still hold in another (R85). -/
def mgmtReserve (s : State) (r : Nat) : Nat := if mgmtRegion s = some r then 65536 else mgmtBytes s r

/-- Bytes of the shared pool in use, the management reserve included (R64, R85). -/
def sharedUsed (s : State) (r : Nat) : Nat :=
  (regionPorts s r).foldl (fun n p => n + (s.port p).shared) 0 + mgmtReserve s r

/-- A MAC control frame of PAUSE or PFC with one quanta value (R66). -/
def pauseFrame (s : State) (p : Nat) (quanta : Nat) : Bytes :=
  let m := if s.fld (.lnk p) LNK_MODE_FC = 1 then beBytes 2 1 ++ beBytes 2 quanta
    else
      let en := s.fld (.lnk p) LNK_PFC_EN
      beBytes 2 0x0101 ++ beBytes 2 en ++
        ((List.range 8).map fun c => beBytes 2 (if en.testBit c then quanta else 0)).flatten
  etherBytes (beBytes 6 0x0180C2000001) (stationMac s p) none 0x8808 m

/-- A PAUSE or PFC frame waits ahead of the queued responses; a fenced port or one without flow control sends
none (R66, R75). -/
def sendPause (s : State) (p quanta : Nat) : State :=
  let fc := s.fld (.lnk p) LNK_MODE_FC
  if fenced s ∨ (fc ≠ 1 ∧ fc ≠ 2) then s
  else s.setPort p { s.port p with link := (s.port p).link ++ [pauseFrame s p quanta] }

/-- The free part of a region's shared pool is below 1 MiB (R66). -/
def poolLow (s : State) (r : Nat) : Bool := decide (sharedPool s r - sharedUsed s r < 1048576)

/-- The condition under which a port asks its partner to stop (R66). -/
def xoffWanted (s : State) (p : Nat) : Bool :=
  decide (s.fld (.lnk p) LNK_XOFF_XOFF * 1024 < (s.port p).shared) || poolLow s (p / 32)

/-- XOFF is sent when its condition appears (R66). -/
def xoffCheck (s : State) (p : Nat) : State :=
  let fc := s.fld (.lnk p) LNK_MODE_FC
  if (fc = 1 ∨ fc = 2) ∧ running s (.lnk p) ∧ xoffWanted s p ∧ s.flag (.lnk p) LNK_STATUS_XOFF = false ∧
      fenced s = false then
    (sendPause s p 0xFFFF).setFlag (.lnk p) LNK_STATUS_XOFF true
  else s

/-- Quanta 0 is sent when the port's occupancy is below XON and the pool above 1 MiB (R66). -/
def xonCheck (s : State) (p : Nat) : State :=
  if s.flag (.lnk p) LNK_STATUS_XOFF ∧ (s.port p).shared < s.fld (.lnk p) LNK_XOFF_XON * 1024 ∧
      1048576 < sharedPool s (p / 32) - sharedUsed s (p / 32) then
    (sendPause s p 0).setFlag (.lnk p) LNK_STATUS_XOFF false
  else s

/-- Space of a region has been taken by port `p`: its own limit is looked at, and where the pool has run low the
condition has appeared for every port of the region (R66). -/
def spaceTaken (s : State) (r p : Nat) : State :=
  if poolLow s r then (regionPorts s r).foldl xoffCheck s
  else if p < 128 then xoffCheck s p else s

/-- Space of a region has come free: each port of it may let its partner go on (R66). -/
def spaceFreed (s : State) (r : Nat) : State := (regionPorts s r).foldl xonCheck s

/-- The buffer space an item holds is given back (R64, R85). -/
def releaseBuffer (s : State) (i : Item) : State :=
  let s := match s.item i.stamp with
    | some j => s.setItem i.stamp (some { j with held := 0 })
    | none => s
  if i.held = 0 then s
  else if i.port < 128 then
    let q := s.port i.port
    let q := match i.pool with
      | .shared => { q with shared := q.shared - i.held }
      | .control => { q with control := q.control - i.held }
      | .runout => { q with runout := q.runout - i.held }
      | .management => q
    spaceFreed (s.setPort i.port q) (i.port / 32)
  else if i.port = 128 then spaceFreed s i.ingress
  else s

/-! ## Contexts held by items -/

/-- A context wiped: bytes zeroised, header freed, GEN counted (R352, R354). -/
def wipeCtx (s : State) (r idx : Nat) : State :=
  s.setCtx r idx { Ctx.free with gen := (s.ctxAt r idx).gen + 1 }

/-- The index and region of a context ID (R351). -/
def ctxIndex (c : Word) : Nat := c.toNat % 65536
/-- The REGION bits of a context ID. -/
def ctxRegion (c : Word) : Nat := c.toNat / 65536 % 4
/-- The TYPE bits of a context ID. -/
def ctxTypeOf (c : Word) : Nat := c.toNat / 262144 % 64

/-- A wipe, and the deletes that waited for it are to be answered (R345, R354). -/
def wipeAnswer (s : State) (r idx : Nat) : State :=
  let c := s.ctxAt r idx
  { wipeCtx s r idx with answers := s.answers ++ c.waiters }

/-- The lock of a context clears, and a wipe that waits for it is done (R344, R354). -/
def unlockCtx (s : State) (r idx : Nat) : State :=
  let c := s.ctxAt r idx
  if c.wipe then wipeAnswer s r idx else s.setCtx r idx { c with lock := false }

/-- The saved task of an item. -/
def State.savedTask (s : State) (id : Nat) : Option Saved := s.saved.find? fun x => x.item = id

/-- The index of the context an item holds as its own: the one its ID names in the item's region, valid, of the ID's
type and of the item's tenant; any other ID names no context of the item (R344, R351, R352, R374). -/
def ownCtx (s : State) (i : Item) : Option Nat :=
  let idx := ctxIndex i.ctxId
  let c := s.ctxAt i.region idx
  if i.ctxId ≠ 0 ∧ i.ctxId.toNat < 2 ^ 24 ∧ ctxRegion i.ctxId = i.region ∧ idx < s.fuse.variant.ctxPerRegion ∧
      c.valid ∧ c.typ = ctxTypeOf i.ctxId ∧ c.tenant = i.tenant then some idx
  else none

/-- An item whose task has started holds its context's lock (R344). -/
def holdsLock (s : State) (i : Item) : Bool :=
  (ownCtx s i).isSome &&
    (match i.place with | .running _ => true | _ => (s.savedTask i.stamp).isSome)

/-! ## The duplicate-tag window (R107, R108) -/

/-- The duplicate-tag entry of an item. -/
def dupFind (s : State) (i : Item) : Option DupEntry :=
  (s.session i.session).bind fun se => (lget s.windows se.window).find? fun e => e.tag = i.tag

/-- The entries of an item's window replaced, which outlives a session that has a successor (R99). -/
def dupUpdate (s : State) (i : Item) (f : List DupEntry → List DupEntry) : State :=
  match i.window.orElse fun _ => (s.session i.session).map Session.window with
  | some w => { s with windows := lset s.windows w (f (lget s.windows w)) }
  | none => s

/-- An entry made when a state-changing command is admitted; the oldest leaves beyond 65,536. -/
def dupEnter (s : State) (i : Item) : State :=
  dupUpdate s i fun l => (l ++ [({ tag := i.tag, cmd := i.cmd, status := none, result := [] } : DupEntry)]).drop
    (l.length + 1 - 65536)

/-- The entry of a command that is refused or discarded is removed (R108); an item has one once its tag has verified. -/
def dupRemove (s : State) (i : Item) : State :=
  if i.verified = false then s
  else dupUpdate s i fun l => l.filter fun e => ! (decide (e.tag = i.tag ∧ e.cmd = i.cmd) && e.status.isNone)

/-- The entry of a command that commits takes its status and result word (R107). -/
def dupCommit (s : State) (i : Item) (status : Nat) (result : Bytes) : State :=
  dupUpdate s i fun l => l.map fun e =>
    if e.tag = i.tag ∧ e.cmd = i.cmd ∧ e.status.isNone then { e with status := some status, result := result } else e

/-! ## The end of an item -/

/-- A core after its task: everything empty but its prefetched item and its cycle count (R306, R319). -/
def coreAfter (c : Core) : Core := { Core.empty with prefetch := c.prefetch, busy := c.busy }

/-- A task leaves its core: jobs squashed, reserved words and local data zeroised (R319, R328, R298). -/
def clearCore (s : State) (k : Nat) : State :=
  let s := squashJobs s k
  (s.setCore k (coreAfter (s.core k))).bump (corePage k) KCR_TASKS

/-- The delay-list timers of a sleeping item are cancelled. -/
def cancelWake (s : State) (r id : Nat) : State :=
  { s with timers := lset s.timers r ((lget s.timers r).filter fun t => t.kind ≠ .wake id) }

/-- A region's ready list of one level. -/
def State.readyList (s : State) (r l : Nat) : List Nat := lget s.ready (8 * r + l)
/-- It stored. -/
def State.setReady (s : State) (r l : Nat) (v : List Nat) : State := { s with ready := lset s.ready (8 * r + l) v }
/-- An item taken off its ready list. -/
def unready (s : State) (i : Item) : State :=
  s.setReady i.region i.level ((s.readyList i.region i.level).filter (· ≠ i.stamp))

/-- An item leaves the region: its list, core, saved task, lock and buffer (R105, R340, R344). -/
def releaseItem (s : State) (i : Item) : State :=
  let lock := holdsLock s i
  let s := match i.place with
    | .ready => unready s i
    | .prefetch k => s.setCore k { s.core k with prefetch := none }
    | .running k => clearCore s k
    | .suspended => cancelWake (unready s i) i.region i.stamp
  let s := releaseBuffer { s with saved := s.saved.filter fun x => x.item ≠ i.stamp } i
  let s := if lock then unlockCtx s i.region (ctxIndex i.ctxId) else s
  s.setItem i.stamp none

/-- Work of a session that still has to be answered on it (R99). -/
def sessionBusy (s : State) (id : Nat) : Bool :=
  (opresent s.items).any (fun e => decide (e.2.session = id)) ||
    s.early.any (fun i => decide (i.session = id)) ||
    s.brakeOps.any (fun b => decide (b.item.session = id)) ||
    s.brakeQ.any (fun q => q.2.any fun i => decide (i.session = id)) ||
    s.held.any (fun h => decide (h.item.session = id))

/-- The answer of SESSION_CLOSE leaves once nothing else of the session remains (R99). -/
def settleClose (s : State) (id : Nat) : State :=
  match s.session id with
  | some se =>
    match se.closeItem with
    | some i =>
      if sessionBusy s id then s
      else
        let s := s.setSession id (some { se with closeItem := none })
        tagEgress (respondOn s i stOK [] false true) i stOK
    | none => s
  | none => s

/-- An item ends without a response. -/
def dropItemRaw (s : State) (i : Item) : State := settleClose (dupRemove (releaseItem s i) i) i.session

/-- A PLAIN frame: SESSION_HELLO, which no tag protects (R90). -/
def isPlain (i : Item) : Bool := (byteAt i.header 1).testBit 5

/-- An item ends with a status (R103, R105): control complex work posts its completion, a verified item is
answered, an item whose tag has not verified waits for that (R493).  Refused and discarded kinds remove the
duplicate-tag entry (R108).  Deletes that waited for its context are answered by the caller. -/
def endItemRaw (s : State) (i : Item) (status : Nat) (payload : Bytes) (changing : Bool) : State :=
  let s := releaseItem s i
  let s := if statusKind status = some .completed then s else dupRemove s i
  let s := if status = stTIMEOUT then
      pmcEvent (s.bump (.sch i.region) SCH_TIMEOUTS) i.region 0x05 (some i.tenant) else s
  if i.port = 0xFF then tagEgress (postCompletion s i.ingress i.sqIndex i.tag status payload) i status
  else if isPlain i then tagEgress (respondPlain s i 0 0 status payload) i status
  else if i.verified then settleClose (tagEgress (respondOn s i status payload false changing) i status) i.session
  else { s with early := s.early ++ [{ i with early := some status, held := 0 }] }

end Sys2Proof.Machine
end

