-- ==== Sys2Proof/Machine/Clock.lean ====
section
/-!
DEFINITION. The passing of time: device time, the 1 µs tick, the real-time clock and the occupancy counters of the
PMC pages (R35, R437, R445).
-/
namespace Sys2Proof.Machine

/-- Items held by a region (R340). -/
def heldCount (s : State) (r : Nat) : Nat := ((opresent s.items).filter fun e => e.2.region = r).length
/-- Items a region holds for a tenant. -/
def tenantHeld (s : State) (r t : Nat) : Nat :=
  ((opresent s.items).filter fun e => e.2.region = r ∧ e.2.tenant = t).length
/-- Items on a ready list. -/
def levelCount (s : State) (r l : Nat) : Nat := (s.readyList r l).length
/-- Tasks of a region suspended. -/
def suspendedCount (s : State) (r : Nat) : Nat :=
  ((opresent s.items).filter fun e => e.2.region = r ∧ e.2.place = .suspended).length
/-- Cores of a region that run a task. -/
def coresBusy (s : State) (r : Nat) : Nat :=
  ((List.range 32).filter fun k => (s.core (32 * r + k)).run.isSome).length

/-- The value an occupancy code measures in a region (R445). -/
def occupancy (s : State) (r code : Nat) : Option Nat :=
  match code with
  | 0x40 => some (heldCount s r)
  | 0x41 => some ((List.range 8).foldl (fun n l => n + levelCount s r l) 0)
  | 0x42 => some (levelCount s r 0)
  | 0x43 => some (coresBusy s r)
  | 0x44 => some (suspendedCount s r)
  | 0x45 => some (s.queue r .cipher).length
  | 0x46 => some (s.queue r .engine).length
  | 0x47 => some (sharedUsed s r / 1024)
  | 0x48 => some ((lget (s.booms.map fun e => (e.1, e.2.words)) r).length)
  | _ => none

/-- An occupancy counter over `n` ticks of 625 FCLK cycles. -/
def occTick (s : State) (r c n : Nat) : State :=
  if s.flag (.pmc r) (PMC_SEL_EN c) && s.flag (.pmc r) (PMC_SEL_OCC c) then
    match occupancy s r (s.fld (.pmc r) (PMC_SEL_EVENT c)) with
    | some v => if s.fld (.pmc r) (PMC_THR c) < v then pmcAdd s r c (625 * n) else s
    | none => s
  else s

/-- The occupancy counters of a region over `n` ticks. -/
def occTicks (s : State) (r n : Nat) : State :=
  if stateOf s (.pmc r) ≠ stRunning ∨ s.flag (.pmc r) PMC_CTRL_FREEZE then s
  else (List.range 16).foldl (fun s c => occTick s r c n) s

/-- `n` ticks of 1 µs pass. -/
def advance (s : State) (n : Nat) : State :=
  if n = 0 then s
  else
    let s := { s with time := { s.time with ns := s.time.ns + 1000 * n, tick := s.time.tick + n, rtcUs := s.time.rtcUs + n } }
    (List.range 4).foldl (fun s r => occTicks s r n) s

/-- Time passes up to a tick, where it lies ahead. -/
def advanceTo (s : State) (t : Nat) : State := advance s (t - s.time.tick)

end Sys2Proof.Machine
end

