-- ==== Sys2Proof/Machine/Sha.lean ====
section
/-!
DEFINITION. SHA-1, SHA-256, SHA-384 and SHA-512 (FIPS 180-4), HMAC (FIPS 198-1) and the counter-mode key
derivation of SP 800-108.  The spec names the standards; their constants and steps are PRESUMED (log 7).
-/
namespace Sys2Proof.Machine

/-- A rotate right of a `w`-bit number. -/
def rotR (w n x : Nat) : Nat := x / 2 ^ n + x * 2 ^ (w - n) % 2 ^ w
/-- Three-way exclusive or. -/
def xor3 (a b c : Nat) : Nat := Nat.xor (Nat.xor a b) c
/-- The choice function. -/
def shaCh (w x y z : Nat) : Nat := Nat.xor (Nat.land x y) (Nat.land (2 ^ w - 1 - x) z)
/-- The majority function. -/
def shaMaj (x y z : Nat) : Nat := xor3 (Nat.land x y) (Nat.land x z) (Nat.land y z)

/-- The message padded to whole blocks of `blk` bytes, with a length field of `lenB` bytes. -/
def shaPad (blk lenB : Nat) (m : Bytes) : Bytes :=
  let n := m.length
  m ++ [0x80] ++ zeros ((blk - (n + 1 + lenB) % blk) % blk) ++ beBytes lenB (8 * n)

/-- The figures by which SHA-256 and SHA-512 differ. -/
structure ShaKind where
  w : Nat
  blk : Nat
  lenB : Nat
  rounds : Nat
  /-- Rotations of the two big and the two small sigma functions; the last of each small one is a shift. -/
  b0 : Nat × Nat × Nat
  b1 : Nat × Nat × Nat
  s0 : Nat × Nat × Nat
  s1 : Nat × Nat × Nat
  deriving DecidableEq, Repr

/-- SHA-256. -/
def sha256K : ShaKind :=
  { w := 32, blk := 64, lenB := 8, rounds := 64, b0 := (2, 13, 22), b1 := (6, 11, 25), s0 := (7, 18, 3),
    s1 := (17, 19, 10) }
/-- SHA-512. -/
def sha512K : ShaKind :=
  { w := 64, blk := 128, lenB := 16, rounds := 80, b0 := (28, 34, 39), b1 := (14, 18, 41), s0 := (1, 8, 7),
    s1 := (19, 61, 6) }

/-- A big sigma function. -/
def bigSig (k : ShaKind) (r : Nat × Nat × Nat) (x : Nat) : Nat :=
  xor3 (rotR k.w r.1 x) (rotR k.w r.2.1 x) (rotR k.w r.2.2 x)
/-- A small sigma function. -/
def smallSig (k : ShaKind) (r : Nat × Nat × Nat) (x : Nat) : Nat :=
  xor3 (rotR k.w r.1 x) (rotR k.w r.2.1 x) (x / 2 ^ r.2.2)

/-- `n` further schedule words on the list `ws`, newest first. -/
def shaSchedule (k : ShaKind) : Nat → List Nat → List Nat
  | 0, ws => ws
  | n + 1, ws =>
    let w := (smallSig k k.s1 (ws.getD 1 0) + ws.getD 6 0 + smallSig k k.s0 (ws.getD 14 0) + ws.getD 15 0) % 2 ^ k.w
    shaSchedule k n (w :: ws)

/-- The rounds over pairs of constant and schedule word. -/
def shaRounds (k : ShaKind) : List (Nat × Nat) → List Nat → List Nat
  | [], st => st
  | (c, w) :: l, st =>
    match st with
    | [a, b, d, e, f, g, h, i] =>
      let t1 := i + bigSig k k.b1 f + shaCh k.w f g h + c + w
      let t2 := bigSig k k.b0 a + shaMaj a b d
      shaRounds k l [(t1 + t2) % 2 ^ k.w, a, b, d, (e + t1) % 2 ^ k.w, f, g, h]
    | st => st

/-- The `n` words of `w` bits that a number packs, the first at its top. -/
def packed (w n x : Nat) : List Nat := (List.range n).map fun i => x / 2 ^ (w * (n - 1 - i)) % 2 ^ w

/-- The fractional parts of the cube roots of the first 80 primes to 64 bits, four to a number: the round constants of
SHA-512.  SHA-256 takes the high halves of the first 64. -/
def rootTable : List Nat :=
  [0x428a2f98d728ae227137449123ef65cdb5c0fbcfec4d3b2fe9b5dba58189dbbc,
   0x3956c25bf348b53859f111f1b605d019923f82a4af194f9bab1c5ed5da6d8118,
   0xd807aa98a303024212835b0145706fbe243185be4ee4b28c550c7dc3d5ffb4e2,
   0x72be5d74f27b896f80deb1fe3b1696b19bdc06a725c71235c19bf174cf692694,
   0xe49b69c19ef14ad2efbe4786384f25e30fc19dc68b8cd5b5240ca1cc77ac9c65,
   0x2de92c6f592b02754a7484aa6ea6e4835cb0a9dcbd41fbd476f988da831153b5,
   0x983e5152ee66dfaba831c66d2db43210b00327c898fb213fbf597fc7beef0ee4,
   0xc6e00bf33da88fc2d5a79147930aa72506ca6351e003826f142929670a0e6e70,
   0x27b70a8546d22ffc2e1b21385c26c9264d2c6dfc5ac42aed53380d139d95b3df,
   0x650a73548baf63de766a0abb3c77b2a881c2c92e47edaee692722c851482353b] ++
  [0xa2bfe8a14cf10364a81a664bbc423001c24b8b70d0f89791c76c51a30654be30,
   0xd192e819d6ef5218d69906245565a910f40e35855771202a106aa07032bbd1b8,
   0x19a4c116b8d2d0c81e376c085141ab532748774cdf8eeb9934b0bcb5e19b48a8,
   0x391c0cb3c5c95a634ed8aa4ae3418acb5b9cca4f7763e373682e6ff3d6b2b8a3,
   0x748f82ee5defb2fc78a5636f43172f6084c87814a1f0ab728cc702081a6439ec,
   0x90befffa23631e28a4506cebde82bde9bef9a3f7b2c67915c67178f2e372532b,
   0xca273eceea26619cd186b8c721c0c207eada7dd6cde0eb1ef57d4f7fee6ed178,
   0x06f067aa72176fba0a637dc5a2c898a6113f9804bef90dae1b710b35131c471b,
   0x28db77f523047d8432caab7b40c724933c9ebe0a15c9bebc431d67c49c100d4c,
   0x4cc5d4becb3e42b6597f299cfc657e2a5fcb6fab3ad6faec6c44198c4a475817]

/-- The round constants of a kind. -/
def shaConsts (k : ShaKind) : List Nat :=
  let l := rootTable.flatMap (packed 64 4)
  if k.w = 64 then l else (l.take 64).map (· / 2 ^ 32)

/-- The compression of one block. -/
def shaBlock (k : ShaKind) (st : List Nat) (b : Bytes) : List Nat :=
  let ws := (shaSchedule k (k.rounds - 16) ((chunks (k.w / 8) b).map beNat).reverse).reverse
  let out := shaRounds k (List.zip (shaConsts k) ws) st
  List.zipWith (fun a c => (a + c) % 2 ^ k.w) st out

/-- Every block of a padded message. -/
def shaBlocks (k : ShaKind) (st : List Nat) (bs : List Bytes) : List Nat := bs.foldl (shaBlock k) st

/-- The hash of a message from an initial state, cut to `n` bytes. -/
def shaWith (k : ShaKind) (iv : List Nat) (n : Nat) (m : Bytes) : Bytes :=
  (((shaBlocks k iv (chunks k.blk (shaPad k.blk k.lenB m))).map (beBytes (k.w / 8))).flatten).take n

/-- Initial state of SHA-512: the square roots of the first eight primes. -/
def sha512Iv : List Nat :=
  packed 64 4 0x6a09e667f3bcc908bb67ae8584caa73b3c6ef372fe94f82ba54ff53a5f1d36f1 ++
    packed 64 4 0x510e527fade682d19b05688c2b3e6c1f1f83d9abfb41bd6b5be0cd19137e2179
/-- Initial state of SHA-384: those of the next eight. -/
def sha384Iv : List Nat :=
  packed 64 4 0xcbbb9d5dc1059ed8629a292a367cd5079159015a3070dd17152fecd8f70e5939 ++
    packed 64 4 0x67332667ffc00b318eb44a8768581511db0c2e0d64f98fa747b5481dbefa4fa4
/-- Initial state of SHA-256: the high halves of that of SHA-512. -/
def sha256Iv : List Nat := sha512Iv.map (· / 2 ^ 32)

/-- SHA-256. -/
def sha256 (m : Bytes) : Bytes := shaWith sha256K sha256Iv 32 m
/-- SHA-384. -/
def sha384 (m : Bytes) : Bytes := shaWith sha512K sha384Iv 48 m
/-- SHA-512. -/
def sha512 (m : Bytes) : Bytes := shaWith sha512K sha512Iv 64 m

/-- The schedule of SHA-1. -/
def sha1Schedule : Nat → List Nat → List Nat
  | 0, ws => ws
  | n + 1, ws =>
    let x := xor3 (Nat.xor (ws.getD 2 0) (ws.getD 7 0)) (ws.getD 13 0) (ws.getD 15 0)
    sha1Schedule n (rotR 32 31 x :: ws)

/-- The rounds of SHA-1 from round `i`. -/
def sha1Rounds : Nat → List Nat → List Nat → List Nat
  | _, [], st => st
  | i, w :: ws, st =>
    match st with
    | [a, b, c, d, e] =>
      let fk := if i < 20 then (shaCh 32 b c d, 0x5A827999)
        else if i < 40 then (xor3 b c d, 0x6ED9EBA1)
        else if i < 60 then (shaMaj b c d, 0x8F1BBCDC)
        else (xor3 b c d, 0xCA62C1D6)
      sha1Rounds (i + 1) ws [(rotR 32 27 a + fk.1 + e + fk.2 + w) % 2 ^ 32, a, rotR 32 2 b, c, d]
    | st => st

/-- The compression of one SHA-1 block. -/
def sha1Block (st : List Nat) (b : Bytes) : List Nat :=
  let ws := (sha1Schedule 64 ((chunks 4 b).map beNat).reverse).reverse
  List.zipWith (fun a c => (a + c) % 2 ^ 32) st (sha1Rounds 0 ws st)

/-- SHA-1. -/
def sha1 (m : Bytes) : Bytes :=
  (((chunks 64 (shaPad 64 8 m)).foldl sha1Block
    (packed 32 5 0x67452301EFCDAB8998BADCFE10325476C3D2E1F0)).map (beBytes 4)).flatten

/-- HMAC over a hash with blocks of `blk` bytes. -/
def hmac (h : Bytes → Bytes) (blk : Nat) (key m : Bytes) : Bytes :=
  let k := fitR blk (if blk < key.length then h key else key)
  h (k.map (· ^^^ 0x5C) ++ h (k.map (· ^^^ 0x36) ++ m))

/-- HMAC-SHA-256. -/
def hmac256 (key m : Bytes) : Bytes := hmac sha256 64 key m
/-- HMAC-SHA-384. -/
def hmac384 (key m : Bytes) : Bytes := hmac sha384 128 key m
/-- HMAC-SHA-512. -/
def hmac512 (key m : Bytes) : Bytes := hmac sha512 128 key m

/-- The counter-mode KDF of R94: `n` bytes from a key, an ASCII label and a context. -/
def kdf108 (key : Bytes) (label : List Char) (ctx : Bytes) (n : Nat) : Bytes :=
  let fixed := ascii label ++ [0] ++ ctx ++ beBytes 4 (8 * n)
  (((List.range ((n + 47) / 48)).map fun i => hmac384 key (beBytes 4 (i + 1) ++ fixed)).flatten).take n

end Sys2Proof.Machine
end

