-- ==== Sys2Proof/Machine/LaneCrypt.lean ====
section
/-!
DEFINITION. What a cipher or hash lane computes on one segment of a job, as a function of the data and of the
chaining values that the state area carries (R217, R223 to R226, R228, R234, R235, R494).
-/
namespace Sys2Proof.Machine

/-- What a state area carries from segment to segment (R228). -/
structure Chain where
  /-- Chaining value, feedback register or next counter block. -/
  iv : Bytes
  /-- GHASH accumulator, or the accumulator of a MAC. -/
  y : Nat
  /-- Bytes of data and of additional data so far. -/
  data : Nat
  aad : Nat
  /-- The block a MAC holds back, since it may be the last. -/
  last : Bytes
  /-- The counter has taken its all-ones value. -/
  spent : Bool
  /-- Running state of a hash. -/
  words : List Nat
  deriving DecidableEq, Repr

/-- The chain at FIRST. -/
def Chain.start (iv : Bytes) : Chain :=
  { iv := iv, y := 0, data := 0, aad := 0, last := [], spent := false, words := [] }

/-- What a segment gives: its output, status, blocks done, OUT16 and the chain after it. -/
structure SegOut where
  out : Bytes
  status : Nat
  blocks : Nat
  out16 : Bytes
  chain : Chain
  deriving DecidableEq, Repr

/-- A block cipher with its block length. -/
structure BlockCipher where
  n : Nat
  enc : Bytes → Bytes
  dec : Bytes → Bytes

/-- The cipher a key names: AES for algorithm A, TDES for T. -/
def cipherOf (alg : Nat) (key : Bytes) : BlockCipher :=
  if alg = 'A'.toNat then
    { n := 16, enc := aesEncK (aesKeys key), dec := aesDecK (aesKeys key) }
  else { n := 8, enc := tdesEnc key, dec := tdesDec key }

/-- Full-block cipher feedback: the feedback register after each block and the output. -/
def cfbRun (e : Bytes → Bytes) (decrypting : Bool) : Bytes → List Bytes → Bytes × Bytes
  | iv, [] => (iv, [])
  | iv, b :: bs =>
    let o := xorB b (e iv)
    let fb := if decrypting then b else o
    let r := cfbRun e decrypting (fitR iv.length fb) bs
    (r.1, o ++ r.2)

/-- Output feedback. -/
def ofbRun (e : Bytes → Bytes) : Bytes → List Bytes → Bytes × Bytes
  | iv, [] => (iv, [])
  | iv, b :: bs =>
    let k := e iv
    let r := ofbRun e k bs
    (r.1, xorB b k ++ r.2)

/-- The counter block after one: its rightmost `w` bytes as a field, the rest unchanged (R224). -/
def ctrInc (w : Nat) (cb : Bytes) : Bytes :=
  cb.take (cb.length - w) ++ beBytes w (beNat (cb.drop (cb.length - w)) + 1)
/-- The field of a counter block is all ones. -/
def ctrOnes (w : Nat) (cb : Bytes) : Bool := decide (beNat (cb.drop (cb.length - w)) = 256 ^ w - 1)

/-- CTR, stopping before the wrapping block (R225): the last counter block used, the chain's next one, whether it is
spent, blocks done, and the output. -/
def ctrRun (e : Bytes → Bytes) (w : Nat) : Bytes → Bool → List Bytes → Bytes × Bool × Nat × Bytes × Bytes
  | cb, spent, [] => (cb, spent, 0, [], [])
  | cb, true, _ :: _ => (cb, true, 0, [], [])
  | cb, false, b :: bs =>
    let o := xorB b (e cb)
    let r := ctrRun e w (ctrInc w cb) (ctrOnes w cb) bs
    (r.1, r.2.1, r.2.2.1 + 1, (if r.2.2.2.1 = [] then cb else r.2.2.2.1), o ++ r.2.2.2.2)

/-- GHASH from an accumulator. -/
def ghashFrom (h y : Nat) (bs : List Bytes) : Nat :=
  bs.foldl (fun y b => gfMul (Nat.xor y (beNat (fitR 16 b))) h) y

/-- ECB, CBC, CFB and OFB on one segment; `mode` 0 to 4. -/
def cipherSeg (c : BlockCipher) (mode : Nat) (decrypting : Bool) (ch : Chain) (m : Bytes) : SegOut :=
  let bs := chunks c.n m
  let iv := ch.iv
  let lastOf := fun (x : Bytes) => ((chunks c.n x).getLast?).getD iv
  let (out, next, blocks) : Bytes × Bytes × Nat :=
    match mode with
    | 0 => ((bs.map (if decrypting then c.dec else c.enc)).flatten, [], bs.length)
    | 1 =>
      let o := if decrypting then cbcDec c.dec c.n iv m else cbcEnc c.enc c.n iv m
      (o, lastOf (if decrypting then m else o), bs.length)
    | 2 =>
      let o := if decrypting then cfb8Dec c.enc iv m else cfb8Enc c.enc iv m
      let all := iv ++ (if decrypting then m else o)
      (o, all.drop (all.length - c.n), m.length)
    | 3 => let r := cfbRun c.enc decrypting iv bs; (r.2, r.1, bs.length)
    | _ => let r := ofbRun c.enc iv bs; (r.2, r.1, bs.length)
  { out := out, status := 0, blocks := blocks, out16 := if mode = 0 then [] else iv,
    chain := { ch with iv := next, data := ch.data + m.length } }

/-- CTR on one segment: COUNTER_EXHAUSTED where it stops before the wrapping block. -/
def ctrSeg (c : BlockCipher) (w : Nat) (ch : Chain) (m : Bytes) : SegOut :=
  let bs := chunks c.n m
  let r := ctrRun c.enc w ch.iv ch.spent bs
  { out := r.2.2.2.2, status := if r.2.2.1 < bs.length then 0x0602 else 0, blocks := r.2.2.1, out16 := r.2.2.2.1,
    chain := { ch with iv := r.1, spent := r.2.1, data := ch.data + m.length } }

/-- GCM on one segment; the tag on LAST.  A segment that would reach the wrapping block is refused whole (R225). -/
def gcmSeg (c : BlockCipher) (decrypting first last : Bool) (ch : Chain) (aad m : Bytes) (tagLen : Nat) : SegOut :=
  let nonce := ch.iv.take 12
  let h := beNat (c.enc (zeros 16))
  let done := ch.data / 16
  let bs := chunks 16 m
  if 2 ^ 32 - 2 < done + bs.length then
    { out := [], status := 0x0602, blocks := 0, out16 := [], chain := ch }
  else
    let y := if first then ghashFrom h 0 (chunks 16 aad) else ch.y
    let out := ctrMode c.enc 4 (nonce ++ beBytes 4 (2 + done)) m
    let y := ghashFrom h y (chunks 16 (if decrypting then m else out))
    let aadN := if first then aad.length else ch.aad
    let dataN := ch.data + m.length
    let tag := xorB (beBytes 16 (ghashFrom h y [beBytes 8 (8 * aadN) ++ beBytes 8 (8 * dataN)]))
      (c.enc (nonce ++ [0, 0, 0, 1]))
    { out := out, status := 0, blocks := bs.length, out16 := if last then tag.take tagLen else [],
      chain := { ch with y := y, data := dataN, aad := aadN } }

/-- MACs on one segment: mode 7 CMAC, 8 and 9 ISO 9797-1 algorithms 1 and 3; the MAC on LAST. -/
def macSeg (c : BlockCipher) (key : Bytes) (mode pad : Nat) (last : Bool) (ch : Chain) (m : Bytes) (macLen : Nat) :
    SegOut :=
  let rest := ch.last ++ m
  let one := if mode = 9 then desEnc (tdesParts key).1 else c.enc
  let y0 := beBytes c.n ch.y
  let chain := { ch with data := ch.data + m.length }
  let blocks := (chunks c.n m).length
  if last then
    let mac :=
      if mode = 7 then
        let k1 := cmacDbl c.n (beNat (c.enc (zeros c.n)))
        let k2 := cmacDbl c.n k1
        let bs := chunks c.n rest
        let tail := (bs.getLast?).getD []
        let t := if tail.length = c.n then xorB tail (beBytes c.n k1)
          else xorB (fitR c.n (tail ++ [0x80])) (beBytes c.n k2)
        cbcMac c.enc y0 (bs.dropLast ++ [t])
      else
        let p := if pad = 0 then rest else pad9797 pad c.n rest
        let t := cbcMac one y0 (chunks c.n p)
        if mode = 9 then desEnc (tdesParts key).2.2 (desDec (tdesParts key).2.1 t) else t
    { out := [], status := 0, blocks := blocks, out16 := mac.take macLen, chain := chain }
  else
    let bs := chunks c.n rest
    { out := [], status := 0, blocks := blocks, out16 := [],
      chain := { chain with y := beNat (cbcMac one y0 bs.dropLast), last := (bs.getLast?).getD [] } }

/-! ## Hashes -/

/-- The hash a mode names: its kind, start and length. -/
def hashOf (mode : Nat) : ShaKind × List Nat × Nat :=
  match mode % 4 with
  | 0 => (sha256K, sha256Iv, 32)
  | 1 => (sha512K, sha384Iv, 48)
  | _ => (sha512K, sha512Iv, 64)

/-- The rest of a message padded for a total of `n` bytes. -/
def padTotal (blk lenB n : Nat) (m : Bytes) : Bytes :=
  m ++ [0x80] ++ zeros ((blk - (m.length + 1 + lenB) % blk) % blk) ++ beBytes lenB (8 * n)

/-- The key block of HMAC. -/
def hmacBlock (k : ShaKind) (iv : List Nat) (len : Nat) (key : Bytes) : Bytes :=
  fitR k.blk (if k.blk < key.length then shaWith k iv len key else key)

/-- A hash or HMAC on one segment: the result on LAST. -/
def hashSeg (mode : Nat) (key : Option Bytes) (first last : Bool) (ch : Chain) (m : Bytes) : SegOut :=
  let (k, iv, len) := hashOf mode
  let kb := key.map (hmacBlock k iv len)
  let extra := if kb.isSome then k.blk else 0
  let st0 := if first then
      (match kb with
       | some b => shaBlock k iv (b.map (· ^^^ 0x36))
       | none => iv)
    else ch.words
  let total := ch.data + m.length
  let chain := { ch with data := total }
  if last then
    let bs := chunks k.blk (padTotal k.blk k.lenB (total + extra) m)
    let inner := (((shaBlocks k st0 bs).map (beBytes (k.w / 8))).flatten).take len
    let res := match kb with
      | some b => shaWith k iv len (b.map (· ^^^ 0x5C) ++ inner)
      | none => inner
    { out := res, status := 0, blocks := bs.length, out16 := res.take 16, chain := chain }
  else
    let bs := chunks k.blk m
    { out := [], status := 0, blocks := bs.length, out16 := [], chain := { chain with words := shaBlocks k st0 bs } }

/-! ## The state area -/

/-- The 100 bytes a state area holds in clear. -/
def chainBytes (hash : Bool) (ch : Chain) : Bytes :=
  if hash then fitR 64 ((ch.words.map (beBytes 8)).flatten) ++ beBytes 8 ch.data ++ zeros 28
  else fitR 16 ch.iv ++ beBytes 16 ch.y ++ beBytes 8 ch.data ++ beBytes 8 ch.aad ++
    [BitVec.ofNat 8 ch.iv.length, BitVec.ofNat 8 ch.last.length, if ch.spent then 1 else 0] ++ fitR 16 ch.last ++ zeros 33

/-- They read back. -/
def chainOf (hash : Bool) (b : Bytes) : Chain :=
  if hash then { Chain.start [] with words := (chunks 8 (slice b 0 64)).map beNat, data := field b 64 8 }
  else
    { iv := slice b 0 (byteAt b 48), y := field b 16 16, data := field b 32 8, aad := field b 40 8,
      last := slice b 51 (byteAt b 49), spent := decide (byteAt b 50 = 1), words := [] }

/-- A sealed 128-byte area: nonce, text and tag, bound to `aad`. -/
def sealArea (key : Bytes) (count : Nat) (aad text : Bytes) : Bytes :=
  let nonce := beBytes 12 count
  let (c, t) := gcmSeal (aesEncK (aesKeys key)) nonce aad text
  nonce ++ c ++ t
/-- The text of an area that verifies. -/
def openArea (key aad area : Bytes) : Option Bytes :=
  gcmOpen (aesEncK (aesKeys key)) (slice area 0 12) aad (slice area 12 100) (slice area 112 16)

end Sys2Proof.Machine
end

