-- ==== Sys2Proof/Machine/Mpu.lean ====
section
/-!
DEFINITION. Memory protection units: entries (R371, R380), the judgement of an access (R372 to R375), and their
errors (R378).
-/
namespace Sys2Proof.Machine

/-- The kinds of access an entry grants. -/
inductive AccessKind where
  | read | write | exec
  deriving DecidableEq, Repr

/-- An access of a master: its tenant tag, if any, and its privilege. -/
structure Access where
  kind : AccessKind
  tenant : Option Nat
  priv : Bool
  deriving DecidableEq, Repr

/-- The slice an entry covers for a tag (R371). -/
def MpuEntry.start (e : MpuEntry) (t : Option Nat) : Nat :=
  if e.trel then e.base + (t.getD 0) * 2 ^ e.size else e.base

/-- The tenant condition of an entry. -/
def MpuEntry.admits (e : MpuEntry) (t : Option Nat) : Bool :=
  if e.anyten then true else if e.trel then t.isSome else decide (t = some e.tenant)

/-- An entry matches an access to a byte. -/
def MpuEntry.matches (e : MpuEntry) (t : Option Nat) (a : Nat) : Bool :=
  e.admits t && decide (e.start t ≤ a) && decide (a < e.start t + 2 ^ e.size)

/-- An entry grants a kind of access. -/
def MpuEntry.grants (e : MpuEntry) (x : Access) : Bool :=
  (match x.kind with | .read => e.r | .write => e.w | .exec => e.x) && (x.priv || e.user)

/-- Entry `i` of MPU `m`. -/
def mpuEntry (s : State) (m i : Nat) : Option MpuEntry := oget s.mpus (16 * m + i)

/-- The entry that decides an access to a byte: the lowest-numbered that matches. -/
def mpuDecider (s : State) (m : Nat) (t : Option Nat) (a : Nat) : Option (Nat × MpuEntry) :=
  ((List.range 16).filterMap fun i => (mpuEntry s m i).map fun e => (i, e)).find? fun p => p.2.matches t a

/-- The judgement of one byte (R372): a failed MPU refuses every access (R378). -/
def mpuAllows (s : State) (m : Nat) (x : Access) (a : Nat) : Bool :=
  if stateOf s (.mpu m) = stFailed then false
  else match mpuDecider s m x.tenant a with
    | some (_, e) => e.grants x
    | none => x.priv

/-- The first forbidden byte of a range, page by page of 4 KiB: no entry boundary lies inside a page. -/
def firstForbidden (s : State) (m : Nat) (x : Access) (a n : Nat) : Option Nat :=
  if n = 0 then none
  else
    ((List.range ((a + n - 1) / 4096 - a / 4096 + 1)).map fun i => max a ((a / 4096 + i) * 4096)).find? fun b =>
      ! mpuAllows s m x b

/-- A refusal recorded (R375, R380). -/
def mpuRefuse (s : State) (m : Nat) (x : Access) (space a : Nat) : State :=
  let p := PageId.mpu m
  let s := s.bump p MPU_FAULTS
  let s := raiseErr s p 12 0xA9 (match x.tenant with | some t => BitVec.ofNat 32 t | none => 0xFFFFFFFF) (BitVec.ofNat 32 a)
  if s.flag p MPU_FAULT_INFO_VALID then s
  else
    let d := if space = 3 then mpuDecider s m x.tenant a else none
    let s := (s.setFld p MPU_FAULT_LO a).setFld p MPU_FAULT_HI (a / 2 ^ 32)
    let s := (s.setFlag p MPU_FAULT_INFO_VALID true).setFlag p MPU_FAULT_INFO_WRITE (x.kind = .write)
    let s := (s.setFlag p MPU_FAULT_INFO_PRIV x.priv).setFlag p MPU_FAULT_INFO_NOMATCH d.isNone
    let s := s.setFld p MPU_FAULT_INFO_ENTRY (match d with | some (i, _) => i | none => 0)
    let s := (s.setFld p MPU_FAULT_INFO_SPACE space).setFlag p MPU_FAULT_INFO_UNTAGGED x.tenant.isNone
    setIrq (s.setFld p MPU_FAULT_INFO_TENANT (x.tenant.getD 0)) p 16

/-- A physical range judged for a master: allowed whole, or refused whole and recorded. -/
def mpuRange (s : State) (m : Nat) (x : Access) (a n : Nat) : Bool × State :=
  match firstForbidden s m x a n with
  | none => (true, s)
  | some b => (false, mpuRefuse s m x 3 b)

/-- The first context of a range that is not a valid context of the tenant. -/
def badContext (s : State) (r : Nat) (t : Option Nat) (off n : Nat) : Option Nat :=
  if n = 0 then none
  else ((List.range ((off + n - 1) / 256 - off / 256 + 1)).map fun i => max off ((off / 256 + i) * 256)).find? fun o =>
    let c := s.ctxAt r (o / 256)
    ! (c.valid && decide (some c.tenant = t))

/-- A fabric range of a job judged by its region's MPU (R330, R374). -/
def fabricRange (s : State) (m r : Nat) (x : Access) (a n : Nat) : Bool × State :=
  let sp := a / 2 ^ 56
  let off := a % 2 ^ 56
  if n = 0 then (true, s)
  else if fabricLimit s sp < off + n then (false, s)
  else if sp ≠ 0 ∧ stateOf s (.mpu m) = stFailed then (false, mpuRefuse s m x sp (if sp = 3 then 0x1000000000 + off else off))
  else match sp with
    | 0 => (true, s)
    | 1 => if x.priv then (true, s) else (false, mpuRefuse s m x 1 off)
    | 2 =>
      match badContext s r x.tenant off n with
      | none => (true, s)
      | some o => (false, mpuRefuse s m x 2 o)
    | _ => mpuRange s m x (0x1000000000 + off) n

/-- Several ranges, all judged until one is refused. -/
def fabricRanges (s : State) (m r : Nat) (tenant : Option Nat) (priv : Bool) :
    List (AccessKind × Nat × Nat) → Bool × State
  | [] => (true, s)
  | (k, a, n) :: l =>
    match fabricRange s m r { kind := k, tenant := tenant, priv := priv } a n with
    | (true, s) => fabricRanges s m r tenant priv l
    | (false, s) => (false, s)

/-! ## Masters of the register pages (R362, R373) -/

/-- The tag of a register access (R362): tenant 0 for a privileged one, the tenant an ASID is bound to for a user
process, none for an unbound one. -/
def accessTag (s : State) (user : Option (BitVec 16)) : Option Nat :=
  match user with
  | none => some 0
  | some a => (s.tenants.find? fun e => e.2.asid = some a.toNat).map Prod.fst

/-- The MPU that guards a master. -/
def masterMpu : Master → Nat
  | .core c _ => c
  | .pair => 18
  | .debug => 19

/-- A hart in M-mode or S-mode is privileged; no other master of the register pages ever is. -/
def masterPriv : Master → Bool
  | .core _ none => true
  | _ => false

/-- An access of a master, with its tag. -/
def masterAccess (s : State) (k : AccessKind) : Master → Access
  | .core _ u => { kind := k, tenant := accessTag s u, priv := u.isNone }
  | _ => { kind := k, tenant := none, priv := false }

/-- A master can act: the control complex while it runs, the others while there is power (R25). -/
def masterRuns (s : State) : Master → Bool
  | .core _ _ => complexRuns s
  | _ => s.tmp.power

/-- What a master's access to register `off` of page `p` comes to before its effect: a vault page turns the debug master
away (R215), a PMC page every master that is not privileged (R446), and the master's MPU judges the rest (R372, R375). -/
def pageReach (s : State) (x : Master) (k : AccessKind) (p : Option PageId) (a n : Nat) : Except State State :=
  match p, x with
  | some .vlt, .debug => .error ((setIrq (accessErr s .vlt) .vlt 21).bumpSat .vlt VLT_DBG_REFUSED)
  | _, _ =>
    match p with
    | some (.pmc r) => if masterPriv x then judge else .error (if live s (.pmc r) then accessErr s (.pmc r) else s)
    | _ => judge
where
  judge : Except State State :=
    match mpuRange s (masterMpu x) (masterAccess s k x) a n with
    | (true, s) => .ok s
    | (false, s) => .error s

/-! ## Commands -/

/-- An entry from its three words. -/
def entryOf (lo hi cfg : Word) : Option MpuEntry :=
  if cfg.getLsbD 31 then
    some { base := lo.toNat / 4096 * 4096 + hi.toNat % 256 * 2 ^ 32, size := cfg.toNat / 2 ^ 24 % 64,
           trel := cfg.getLsbD 23, anyten := cfg.getLsbD 22, user := cfg.getLsbD 21, x := cfg.getLsbD 20,
           w := cfg.getLsbD 19, r := cfg.getLsbD 18, tenant := cfg.toNat % 1024 }
  else none

/-- An entry may be written: base aligned to its size, SIZE 12 to 40, not both TREL and ANYTEN (R371, R380). -/
def entryOk (e : MpuEntry) : Bool :=
  decide (12 ≤ e.size ∧ e.size ≤ 40) && decide (e.base % 2 ^ e.size = 0) && ! (e.trel && e.anyten)

/-- MPU_ENTRY_WRITE: the CFG word of entry `i` of MPU `m` written with `cfg`. -/
def execMpuEntryWrite (m i : Nat) (cfg : Word) (s : State) : Res := onComplex s <|
  let p := PageId.mpu m
  if present s p = false ∨ 16 ≤ i ∨ locked s p then .next s
  else
    let cfg := cfg &&& 0xBFFC03FF
    let e := entryOf (s.reg p (0x100 + 16 * i)) (s.reg p (0x104 + 16 * i)) cfg
    if e.all entryOk then
      .next { s.setReg p (0x108 + 16 * i) cfg with mpus := oset s.mpus (16 * m + i) e }
    else .next (raiseErr s p 12 0xAA)

/-- MPU_PARITY_ERROR of MPU `m`: it fails and refuses every later access of its master. -/
def execMpuParityError (m : Nat) (s : State) : Res :=
  if present s (.mpu m) = false ∨ stateOf s (.mpu m) = stFailed then .next s
  else .next (failPage s (.mpu m) 0xA8 true)

end Sys2Proof.Machine
end

