-- ==== Sys2Proof/Machine/Boom.lean ====
section
/-!
DEFINITION. The boom of a region: drawing words, whole or not at all (R297, R298, R299, R300).
-/
namespace Sys2Proof.Machine

/-- An expander that holds nothing. -/
def Boom.empty : Boom := { key := [], v := [], words := [], tag := [], filling := false }
/-- The expander of region `r`. -/
def State.boom (s : State) (r : Nat) : Boom := mget (fun _ => Boom.empty) s.booms r
/-- It stored. -/
def State.setBoom (s : State) (r : Nat) (b : Boom) : State :=
  { s with booms := mset (fun _ => Boom.empty) s.booms r b }

/-- Draws are granted: the expander is RUNNING, not DRAINING (R299, R300). -/
def boomServes (s : State) (r n : Nat) : Bool := running s (.rnx r) && decide (n ≤ (s.boom r).words.length)

/-- `n` words drawn, oldest first, or the refusal counted (R297, R298, R305, R445). -/
def boomDraw (s : State) (r n : Nat) (tenant : Option Nat) : Option (List Bytes) × State :=
  if boomServes s r n then
    let b := s.boom r
    let s := s.setBoom r { b with words := b.words.drop n }
    let s := if b.words.drop n = [] ∧ b.words ≠ [] then setIrq s (.rnx r) 18 else s
    (some (b.words.take n), pmcEvent s r 0x0D tenant n)
  else (none, pmcEvent (s.bump (.rnx r) RNG_UNAVAIL) r 0x0E tenant)

/-- Words that hold `n` bytes. -/
def wordsFor (n : Nat) : Nat := (n + 7) / 8

/-- `n` random bytes from region `r`'s boom. -/
def boomBytes (s : State) (r n : Nat) (tenant : Option Nat) : Option Bytes × State :=
  match boomDraw s r (wordsFor n) tenant with
  | (some ws, s) => (some (ws.flatten.take n), s)
  | (none, s) => (none, s)

end Sys2Proof.Machine
end

