-- ==== Sys2Proof/Machine/Flags.lean ====
section
/-!
DEFINITION. The flag computations of the Kreur arithmetic (R311, R312): each gives the result and the carry or
borrow and the overflow that go with it.
-/
namespace Sys2Proof.Machine

/-- The flags an instruction writes; a flag it does not list is `none` and keeps its value (R311). -/
structure FlagWrite where
  c : Option Bool
  v : Option Bool
  dz : Option Bool
  deriving DecidableEq, Repr

/-- No flag is written. -/
def noFlags : FlagWrite := { c := none, v := none, dz := none }
/-- Carry or borrow, and overflow. -/
def flagsCV (c v : Bool) : FlagWrite := { c := some c, v := some v, dz := none }

/-- A sum with carry in: result, carry out, signed overflow. -/
def addFlags {w : Nat} (a b : BitVec w) (cin : Bool) : BitVec w × FlagWrite :=
  let n := a.toNat + b.toNat + cin.toNat
  let z := a.toInt + b.toInt + cin.toNat
  (BitVec.ofNat w n, flagsCV (decide (2 ^ w ≤ n)) (decide ((BitVec.ofNat w n).toInt ≠ z)))

/-- A difference with borrow in: result, borrow, signed overflow. -/
def subFlags {w : Nat} (a b : BitVec w) (bin : Bool) : BitVec w × FlagWrite :=
  let m := b.toNat + bin.toNat
  let r := a - b - BitVec.ofNat w bin.toNat
  (r, flagsCV (decide (a.toNat < m)) (decide (r.toInt ≠ a.toInt - b.toInt - bin.toNat)))

/-- The negation: overflow only for the most negative cell. -/
def negFlags (a : Cell) : Cell × FlagWrite :=
  (0 - a, { c := none, v := some (decide (a = 0x8000)), dz := none })

/-- The absolute value: overflow only for the most negative cell. -/
def absFlags (a : Cell) : Cell × FlagWrite :=
  (if a.msb then 0 - a else a, { c := none, v := some (decide (a = 0x8000)), dz := none })

/-- Unsigned division: remainder, quotient, zero divisor (R312). -/
def divFlags (a b : Cell) : Cell × Cell × FlagWrite :=
  if b = 0 then (a, 0, { c := none, v := none, dz := some true })
  else (a.umod b, a.udiv b, { c := none, v := none, dz := some false })

/-- Signed division truncating toward zero; the remainder takes the dividend's sign (R311, R312). -/
def divsFlags (a b : Cell) : Cell × Cell × FlagWrite :=
  if b = 0 then (a, 0, { c := none, v := some false, dz := some true })
  else (a.srem b, a.sdiv b,
    { c := none, v := some (decide (a = 0x8000 ∧ b = 0xFFFF)), dz := some false })

end Sys2Proof.Machine
end

