-- ==== Sys2Proof/Machine/Operands.lean ====
section
/-!
DEFINITION. The operand forms of the Kreur instructions: the data and return stacks (R309), immediate fields
(R314), the local address space (R319 to R322), and the segments of the program space (R325).
-/
namespace Sys2Proof.Machine

/-! ## Trap codes (R336) -/

abbrev trILLEGAL : Nat := 0x01
abbrev trSTACK : Nat := 0x02
abbrev trALIGN : Nat := 0x03
abbrev trMEM : Nat := 0x04
abbrev trDZ : Nat := 0x05
abbrev trV : Nat := 0x06
abbrev trPRIV : Nat := 0x07
abbrev trSLOT : Nat := 0x08
abbrev trSUSPEND : Nat := 0x09
abbrev trPC : Nat := 0x0A
abbrev trLINK : Nat := 0x0B

/-- What an instruction does to its core: a trap code, or the core after it. -/
abbrev KRes := Except Nat Core

/-! ## Stacks -/

/-- An instruction that pops `n` cells and pushes `p`: `f` takes the popped cells and gives the pushed ones, top
first in both.  Too few cells, or no room for the net growth, is a STACK trap (R309). -/
def stackOp (n p : Nat) (f : List Cell → List Cell) (c : Core) : KRes :=
  if c.ds.length < n ∨ 32 < c.ds.length - n + p then .error trSTACK
  else .ok { c with ds := f (c.ds.take n) ++ c.ds.drop n }

/-- The flags written, and the traps that TRAPCTL asks for (R311, R312). -/
def writeFlags (w : FlagWrite) (c : Core) : KRes :=
  let c := { c with c := w.c.getD c.c, v := w.v.getD c.v, dz := w.dz.getD c.dz }
  if w.v = some true ∧ c.trapV then .error trV
  else if w.dz = some true ∧ c.trapDz then .error trDZ
  else .ok c

/-- An arithmetic instruction: as `stackOp`, with the flags its operands give. -/
def aluOp (n p : Nat) (f : Core → List Cell → List Cell × FlagWrite) (c : Core) : KRes :=
  match stackOp n p (fun l => (f c l).1) c with
  | .ok c' => writeFlags (f c (c.ds.take n)).2 c'
  | .error e => .error e

/-- Cells popped for an instruction whose effect is not on the stack alone. -/
def popN (n : Nat) (c : Core) : Except Nat (List Cell × Core) :=
  if c.ds.length < n then .error trSTACK else .ok (c.ds.take n, { c with ds := c.ds.drop n })

/-- A cell pushed. -/
def pushCell (x : Cell) (c : Core) : KRes :=
  if 32 ≤ c.ds.length then .error trSTACK else .ok { c with ds := x :: c.ds }

/-- A predicate read: P0 is 1 (R306). -/
def predGet (c : Core) (p : Nat) : Bool := p = 0 || c.preds.toNat.testBit p

/-- A predicate written; P0 ignores it (R316, R317). -/
def predSet (c : Core) (p : Nat) (b : Bool) : Core :=
  if p = 0 ∨ 8 ≤ p then c
  else { c with preds := if b then c.preds ||| BitVec.ofNat 8 (2 ^ p) else c.preds &&& ~~~ BitVec.ofNat 8 (2 ^ p) }

/-! ## Immediate words -/

/-- The position and width of a field instruction's immediate word (R314). -/
def fieldImm (w : Cell) : Option (Nat × Nat) :=
  let n := w.toNat
  let pos := n % 16
  let wd := n / 16 % 16 + 1
  if 256 ≤ n ∨ 16 < pos + wd then none else some (pos, wd)

/-! ## Local space (R319, R320, R322) -/

/-- The work item window of a task: 64 bytes, the last 32 the task's own (R320). -/
def itemWindow (i : Item) (c : Core) : Bytes :=
  beBytes 2 i.entry.toNat ++ beBytes 2 i.tenant ++ beBytes 4 i.session ++ beBytes 4 i.tag.toNat ++
  beBytes 2 i.cmd ++ [BitVec.ofNat 8 ((if i.fixed then 128 else 0) + i.level), BitVec.ofNat 8 i.port] ++
  beBytes 4 i.ctxId.toNat ++ beBytes 4 i.fbOff ++ beBytes 2 i.payLen ++ [0, 0] ++ beBytes 4 i.deadline ++
  fitR 32 c.args

/-- A completion slot's 32 bytes. -/
def slotBytes (c : Core) (n : Nat) : Bytes :=
  match c.slots.getD n .free with
  | .done w => fitR 32 w
  | _ => zeros 32

/-- One byte of the local space; none where the read traps. -/
def localByte (i : Item) (c : Core) (a : Nat) : Option Byte :=
  if a < 0x4000 then some (memGet c.mem a)
  else if a < 0x4100 then (if i.ctxId = 0 then none else some (c.ctx.getD (a - 0x4000) 0))
  else if a < 0x4140 then some ((itemWindow i c).getD (a - 0x4100) 0)
  else if 0x4200 ≤ a ∧ a < 0x4300 then some ((slotBytes c ((a - 0x4200) / 32)).getD ((a - 0x4200) % 32) 0)
  else none

/-- `n` bytes of the local space, or a MEM trap. -/
def localRead (i : Item) (c : Core) (a : Nat) : Nat → Except Nat Bytes
  | 0 => .ok []
  | n + 1 =>
    match localByte i c a, localRead i c (a + 1) n with
    | some b, .ok l => .ok (b :: l)
    | _, _ => .error trMEM

/-- One byte of the local space may be written. -/
def localWritable (i : Item) (a : Nat) : Bool :=
  decide (a < 0x4000) || (decide (0x4008 ≤ a ∧ a < 0x4100) && decide (i.ctxId ≠ 0)) ||
    decide (0x4120 ≤ a ∧ a < 0x4140)

/-- One byte written to the local space. -/
def localPut (c : Core) (a : Nat) (b : Byte) : Core :=
  if a < 0x4000 then { c with mem := memSet c.mem a b }
  else if a < 0x4100 then { c with ctx := patch (fitR 256 c.ctx) (a - 0x4000) [b], ctxDirty := true }
  else { c with args := patch (fitR 32 c.args) (a - 0x4120) [b] }

/-- A byte string written to the local space, whole or not at all. -/
def localWrite (i : Item) (c : Core) (a : Nat) (b : Bytes) : KRes :=
  if (List.range b.length).all fun k => localWritable i (a + k) then
    .ok ((List.range b.length).foldl (fun c k => localPut c (a + k) (b.getD k 0)) c)
  else .error trMEM

/-- A cell at an address: an odd one is an ALIGN trap (R319). -/
def loadCell (i : Item) (c : Core) (a : Nat) : Except Nat Cell :=
  if a % 2 = 1 then .error trALIGN
  else match localRead i c a 2 with
    | .ok b => .ok (BitVec.ofNat 16 (beNat b))
    | .error e => .error e

/-- A cell stored. -/
def storeCell (i : Item) (c : Core) (a : Nat) (x : Cell) : KRes :=
  if a % 2 = 1 then .error trALIGN else localWrite i c a (beBytes 2 x.toNat)

/-! ## Segments (R325, R335) -/

/-- The segment of a word address: 0 platform or gate, 1 owner, 2 tenant. -/
def segOf (pc : Cell) : Nat := if pc.toNat < 0x8000 then 0 else if pc.toNat < 0xC000 then 1 else 2
/-- A gate. -/
def isGate (pc : Cell) : Bool := decide (pc.toNat < 0x100)

/-- A transfer that is no call of a gate stays in the segment of the instruction at `pc`. -/
def jumpTo (pc target : Cell) (c : Core) : KRes :=
  if segOf target = segOf pc then .ok { c with pc := target } else .error trPC
/-- A call may also reach a gate. -/
def callTo (pc target : Cell) (c : Core) : KRes :=
  if 16 ≤ c.rs.length then .error trSTACK
  else if segOf target = segOf pc ∨ isGate target then .ok { c with rs := (c.pc, true) :: c.rs, pc := target }
  else .error trPC

/-- The trap a fetch meets: an uncovered tenant word, or a bundle bound to another tenant (R325). -/
def fetchTrap (s : State) (r : Nat) (i : Item) (pc : Cell) : Option Nat :=
  if segOf pc ≠ 2 then none
  else
    let p := (pc.toNat - 0xC000) / 256
    if s.flag (.sch r) (SCH_TBIND_VALID p) = false then some trILLEGAL
    else if s.fld (.sch r) (SCH_TBIND_TENANT p) ≠ i.tenant then some trPRIV
    else none

end Sys2Proof.Machine
end

