-- ==== Sys2Proof/Machine/Tasks.lean ====
section
/-!
DEFINITION. A task on a core: completions landing in slots (R328), and the commit of DONE (R332, R345, R346).
-/
namespace Sys2Proof.Machine

/-- The region of a core. -/
def coreRegion (k : Nat) : Nat := k / 32

/-- A core that can run instructions: its page RUNNING, or DRAINING with its task running on (R339). -/
def coreRuns (s : State) (k : Nat) : Bool :=
  decide (k < 128) && (decide (stateOf s (corePage k) = stRunning) || decide (stateOf s (corePage k) = stDraining))

/-! ## Commit -/

/-- The context a task holds is written back and its GEN counted; counter bytes of types 0x04 to 0x07 stay the
store's own; a delete of the own context takes effect (R332, R345, R346, R352). -/
def commitCtx (s : State) (i : Item) (c : Core) : State :=
  match ownCtx s i with
  | none => s
  | some idx =>
    let x := s.ctxAt i.region idx
    let body := if c.ctxDirty then
        (let b := (fitR 256 c.ctx).drop 8
         if 4 ≤ x.typ ∧ x.typ ≤ 7 then (fitR 248 x.body).take 9 ++ b.drop 9 else b)
      else x.body
    let x := { x with body := body, gen := x.gen + 1 }
    s.setCtx i.region idx (if c.dropCtx then { x with wipe := true } else x)

/-- The commit of DONE: what commits depends on the status kind (R332). -/
def commitDone (s : State) (k : Nat) (i : Item) (addr len status : Nat) : State :=
  let c := s.core k
  let out := memRead c.mem addr len
  if statusKind status = some .completed then
    let s := commitCtx s i c
    let s := dupCommit s.takeFresh i status (beBytes 8 (Config.doneResult s.fresh).toNat)
    endItemRaw s i status out (decide (cmdClass i.cmd = some .changing))
  else endItemRaw s i status out (decide (cmdClass i.cmd = some .changing))

/-- No slot is PENDING. -/
def noPending (c : Core) : Bool := c.slots.all fun x => x ≠ .pending

/-- What follows once a slot has changed: a WAIT on it ends, or a DONE that waits for the last slot commits. -/
def wakeCore (s : State) (k : Nat) : State :=
  let c := s.core k
  match c.wait with
  | some (.slot n) =>
    if c.slots.getD n .free = .pending then s else s.setCore k { c with wait := none }
  | some (.done a l st) =>
    if noPending c then
      match c.run.bind s.item with
      | some i => commitDone s k i a l st
      | none => s
    else s
  | none => s

/-- A completion lands in a PENDING slot (R328). -/
def completeRaw (s : State) (k n : Nat) (word : Bytes) : State :=
  let c := s.core k
  if c.slots.getD n .free = .pending then
    wakeCore (s.setCore k { c with slots := c.slots.set n (.done (fitR 32 word)) }) k
  else s

/-- The operation of region `r`'s CTX page is done (R360). -/
def ctxOpDone (s : State) (r status : Nat) : State :=
  setIrq ((s.setFld (.ctx r) CTX_OP_STATUS status).setFlag (.ctx r) CTX_OP_BUSY false) (.ctx r) 16

/-- The deletes that wait for a context that is now wiped are answered (R345, R360); each answer may let a DONE
commit.  A core has 8 slots and each waits once, so the bound is never met. -/
def settle : Nat → State → State
  | 0, s => s
  | n + 1, s =>
    match s.answers with
    | [] => s
    | (k, sl) :: l =>
      let s := { s with answers := l }
      settle n (if 128 ≤ k then ctxOpDone s (k - 128) stOK else completeRaw s k sl (beBytes 2 stOK))

/-- Enough answers for every slot of every core and every CTX page. -/
def settleBound : Nat := 1040

/-- A completion, and what follows from it. -/
def complete (s : State) (k n : Nat) (word : Bytes) : State := settle settleBound (completeRaw s k n word)

/-- An item ends with a status. -/
def endItem (s : State) (i : Item) (status : Nat) (payload : Bytes := [])
    (changing : Bool := decide (cmdClass i.cmd = some .changing)) : State :=
  settle settleBound (endItemRaw s i status payload changing)

/-- An item ends without a response. -/
def dropItem (s : State) (i : Item) : State := settle settleBound (dropItemRaw s i)

/-- The lowest FREE slot. -/
def freeSlot (c : Core) : Option Nat := (List.range 8).find? fun n => c.slots.getD n .free = .free

end Sys2Proof.Machine
end

