-- ==== Sys2Proof/Machine/Contexts.lean ====
section
/-!
DEFINITION. The context store (R350 to R354): context IDs, counter draws (R121, R143, R345, R391, R495), create,
fetch, delete and the control complex's operations on contexts (R354, R360).
-/
namespace Sys2Proof.Machine

/-- A context ID that the part can hold: FORMAT for reserved bits, NOT_FITTED for its region or index (R351). -/
def ctxIdStatus (s : State) (id : Word) : Option Nat :=
  if 2 ^ 24 ≤ id.toNat then some stFORMAT
  else if regionFitted s (ctxRegion id) = false ∨ isolated s (ctxRegion id) ∨
      s.fuse.variant.ctxPerRegion ≤ ctxIndex id then some stNOT_FITTED
  else none

/-- The context an ID names, when it is valid and of the ID's type. -/
def ctxNamed (s : State) (id : Word) : Option Ctx :=
  let c := s.ctxAt (ctxRegion id) (ctxIndex id)
  if (ctxIdStatus s id).isNone ∧ c.valid ∧ c.typ = ctxTypeOf id then some c else none

/-- Contexts of a tenant in a region. -/
def ctxCount (s : State) (r t : Nat) : Nat :=
  (s.ctxs.filter fun e => e.1 / 65536 = r ∧ e.2.valid ∧ e.2.tenant = t).length

/-- Bits set in a counter value of at most 64 bits. -/
def setBits (v : Nat) : Nat := (List.range 64).foldl (fun n i => if v.testBit i then n + 1 else n) 0
/-- The lowest set bit of a value. -/
def lowBit (v : Nat) : Nat :=
  match (List.range 64).find? fun i => v.testBit i with
  | some i => 2 ^ i
  | none => 1

/-- The last value of a counter (R119, R143). -/
def counterLast (typ scheme : Nat) : Nat :=
  match typ with
  | 4 => 0xFFFF
  | 5 => if scheme = 2 then 0xFFFF0000 else 0x1FF800
  | _ => 2 ^ 64 - 1
/-- The value after `v` (R143). -/
def counterNext (typ scheme v : Nat) : Nat :=
  if typ = 5 ∧ setBits v = (if scheme = 2 then 16 else 10) then v + lowBit v else v + 1

/-- The next value of a counter context. -/
def ctxCounter (c : Ctx) : Nat := field c.body 0 8
/-- EXHAUSTED (R495). -/
def ctxExhausted (c : Ctx) : Bool := (byteAt c.body 8).testBit 7
/-- SCHEME (R495). -/
def ctxScheme (c : Ctx) : Nat := byteAt c.body 8 % 4

/-- A counter context after a draw of `v` (R495). -/
def ctxDrawn (c : Ctx) (v : Nat) : Ctx :=
  let b := fitR 248 c.body
  let b := if v = counterLast c.typ (ctxScheme c) then patch b 8 [BitVec.ofNat 8 (128 + ctxScheme c)]
    else patch b 0 (beBytes 8 (counterNext c.typ (ctxScheme c) v))
  { c with body := b, gen := c.gen + 1 }

/-- A draw from a counter context: the value, or the status that draws nothing (R121, R345, R391). -/
def ctxDraw (s : State) (r idx : Nat) : Except Nat Nat × State :=
  let c := s.ctxAt r idx
  if c.valid = false ∨ c.typ < 4 ∨ 7 < c.typ then (.error stOPERAND_RANGE, s)
  else if ctxExhausted c then (.error stCOUNTER_EXHAUSTED, s)
  else
    let v := ctxCounter c
    if leaseAllows s (ctxKey r idx) v = false then (.error stBUSY, s)
    else
      let s := (s.setCtx r idx (ctxDrawn c v)).bump (.ctx r) CTX_DRAWS
      let s := leaseTop s (ctxKey r idx) (v + 1) (ctxBlock s c.typ)
      (.ok v, pmcEvent s r 0x0B (some c.tenant))

/-- Types that R353 assigns. -/
def ctxTypeAssigned (t : Nat) : Bool := decide (4 ≤ t ∧ t ≤ 9 ∨ 0x20 ≤ t ∧ t ≤ 0x3F)
/-- An extension context's type. -/
def ctxTypeExt (t : Nat) : Bool := decide (0x20 ≤ t ∧ t ≤ 0x3F)

/-- A context made valid with a body; its lease is granted with it (R345, R390). -/
def ctxMake (s : State) (id : Word) (t : Nat) (body : Bytes) (bound : Word) : State :=
  let r := ctxRegion id
  let idx := ctxIndex id
  let typ := ctxTypeOf id
  let old := s.ctxAt r idx
  let c : Ctx := { Ctx.free with valid := true, typ := typ, tenant := t, gen := old.gen + 1, body := fitR 248 body, bound := bound }
  let s := s.setCtx r idx c
  if 4 ≤ typ ∧ typ ≤ 7 then leaseGrant s (ctxKey r idx) (ctxCounter c) (ctxBlock s typ) else s

/-- Why a create is refused (R6, R345, R351, R363). -/
def ctxCreateStatus (s : State) (id : Word) (t : Nat) (types : Nat → Bool) : Option Nat :=
  match ctxIdStatus s id with
  | some st => some st
  | none =>
    if s.fuse.variant.tenMax < t then some stNOT_FITTED
    else if (s.ctxAt (ctxRegion id) (ctxIndex id)).valid ∨ types (ctxTypeOf id) = false then some stOPERAND_RANGE
    else if (s.tenant t).qCtx ≤ ctxCount s (ctxRegion id) t then some stQUOTA
    else none

/-- A context is wiped now, or once its lock clears (R345, R354, R360). -/
def ctxWipe (s : State) (r idx : Nat) : State :=
  let c := s.ctxAt r idx
  if c.valid = false then s
  else if c.lock then s.setCtx r idx { c with wipe := true }
  else wipeAnswer s r idx

/-- A context of a tenant wiped whatever its lock (R369). -/
def ctxWipeNow (s : State) (r idx : Nat) : State := settle settleBound (wipeAnswer s r idx)

/-! ## The context store as a SEND target (R345) -/

/-- A completion word of the context store or the delay list: status, two zero bytes, and what follows. -/
def storeWord (status : Nat) (rest : Bytes) : Bytes := beBytes 2 status ++ [0, 0] ++ rest

/-- OP 0x01: the counter of the task's own context. -/
def storeDraw (s : State) (k n : Nat) (i : Item) (desc : Bytes) : State :=
  let id := BitVec.ofNat 32 (field desc 4 4)
  if id ≠ i.ctxId ∨ ownCtx s i = none then complete s k n (storeWord stOPERAND_RANGE [])
  else
    let (v, s) := ctxDraw s i.region (ctxIndex id)
    match v with
    | .ok v => complete s k n (storeWord stOK (beBytes 8 v))
    | .error st => complete s k n (storeWord st [])

/-- OP 0x02: the committed state of another context of the tenant. -/
def storeFetch (s : State) (k n : Nat) (i : Item) (desc : Bytes) : State :=
  let id := BitVec.ofNat 32 (field desc 4 4)
  let a := field desc 8 8
  match ctxIdStatus s id with
  | some st => complete s k n (storeWord st [])
  | none =>
    match ctxNamed s id with
    | some c =>
      if c.tenant ≠ i.tenant then complete s k n (storeWord stKEY_NOT_FOUND [])
      else if 0x4000 < a + 256 then complete s k n (storeWord stNOT_AUTHORISED [])
      else
        let core := s.core k
        complete (s.setCore k { core with mem := memWrite core.mem a (ctxBytes c) }) k n (storeWord stOK [])
    | none => complete s k n (storeWord stKEY_NOT_FOUND [])

/-- OP 0x03: a context created. -/
def storeCreate (s : State) (k n seg : Nat) (i : Item) (desc : Bytes) : State :=
  let id := BitVec.ofNat 32 (field desc 4 4)
  let a := field desc 8 8
  let types := if seg = 0 then ctxTypeAssigned else ctxTypeExt
  match ctxCreateStatus s id i.tenant types with
  | some st =>
    complete (quotaCounted s i.tenant st) k n (storeWord st [])
  | none =>
    if 0x4000 < a + 248 then complete s k n (storeWord stNOT_AUTHORISED [])
    else
      let body := if a = 0 then zeros 248 else memRead (s.core k).mem a 248
      complete (ctxMake s id i.tenant body 0) k n (storeWord stOK (beBytes 4 id.toNat))

/-- OP 0x04: a context of the tenant wiped. -/
def storeDelete (s : State) (k n seg : Nat) (i : Item) (desc : Bytes) : State :=
  let id := BitVec.ofNat 32 (field desc 4 4)
  match ctxIdStatus s id with
  | some st => complete s k n (storeWord st [])
  | none =>
    if seg ≠ 0 ∧ ctxTypeExt (ctxTypeOf id) = false then complete s k n (storeWord stOPERAND_RANGE [])
    else match ctxNamed s id with
      | some c =>
        if c.tenant ≠ i.tenant then complete s k n (storeWord stKEY_NOT_FOUND [])
        else if id = i.ctxId ∧ ownCtx s i ≠ none then
          complete (s.setCore k { s.core k with dropCtx := true }) k n (storeWord stOK [])
        else if c.lock then
          s.setCtx (ctxRegion id) (ctxIndex id) { c with wipe := true, waiters := c.waiters ++ [(k, n)] }
        else complete (wipeAnswer s (ctxRegion id) (ctxIndex id)) k n (storeWord stOK [])
      | none => complete s k n (storeWord stKEY_NOT_FOUND [])

/-! ## Operations of the CTX page and window (R354, R360) -/

/-- CTX_OP.CMD 1: an extension context created with a zeroed body.  IRQST.BLOCK[16] reports the end. -/
def execCtxOpCreate (r : Nat) (s : State) : Res := onComplex s <|
  if live s (.ctx r) = false then .next s
  else
    let id := BitVec.ofNat 32 (s.fld (.ctx r) CTX_OP_ID)
    let t := s.fld (.ctx r) CTX_OP_TEN
    match ctxCreateStatus s id t ctxTypeExt with
    | some st => .next (ctxOpDone (quotaCounted s t st) r st)
    | none => .next (ctxOpDone (ctxMake s id t [] 0) r stOK)

/-- CTX_OP.CMD 2: a context deleted, once its lock clears. -/
def execCtxOpDelete (r : Nat) (s : State) : Res := onComplex s <|
  if live s (.ctx r) = false then .next s
  else
    let id := BitVec.ofNat 32 (s.fld (.ctx r) CTX_OP_ID)
    match ctxIdStatus s id with
    | some st => .next (ctxOpDone s r st)
    | none =>
      match ctxNamed s id with
      | some c =>
        if c.lock then
          .next ((s.setCtx (ctxRegion id) (ctxIndex id)
            { c with wipe := true, waiters := c.waiters ++ [(128 + r, 0)] }).setFlag (.ctx r) CTX_OP_BUSY true)
        else .next (settle settleBound (ctxOpDone (wipeAnswer s (ctxRegion id) (ctxIndex id)) r stOK))
      | none => .next (ctxOpDone s r stKEY_NOT_FOUND)

/-- A control complex write of bytes through the context window of region `r` at a store offset: whole contexts'
bodies only; a write to a header, or to a locked or free context, writes no byte and sets ERR.ACCESS. -/
def execContextWindowWrite (r off : Nat) (b : Bytes) (s : State) : Res := onComplex s <|
  if live s (.ctx r) = false ∨ 256 * s.fuse.variant.ctxPerRegion < off + b.length ∨ b = [] then .next s
  else
    let idx := off / 256
    let c := s.ctxAt r idx
    if c.valid = false ∨ c.lock ∨ off % 256 < 8 ∨ 256 < off % 256 + b.length then .next (accessErr s (.ctx r))
    else .next (s.setCtx r idx (ctxPatch c (off % 256 - 8) b))

/-- An EXPIRE timer fires: its extension context is wiped once it is unlocked, and CTX_EXPIRED counts it. -/
def ctxExpire (s : State) (id : Word) : State :=
  match ctxNamed s id with
  | some c =>
    let r := ctxRegion id
    let s := (s.setCtx r (ctxIndex id) { c with exp := false }).bump (.ctx r) CTX_EXPIRED
    settle settleBound (ctxWipe s r (ctxIndex id))
  | none => s

end Sys2Proof.Machine
end

