-- ==== Sys2Proof/Machine/Ec.lean ====
section
/-!
DEFINITION. Modular arithmetic, short Weierstrass curves (SP 800-186, SEC 1), ECDSA (FIPS 186-5), Ed25519
(RFC 8032), RSA primitives (RFC 8017) and a Miller-Rabin test.  The spec names the standards; curve parameters
and steps are PRESUMED (log 7).
-/
namespace Sys2Proof.Machine

/-- `a ^ e mod m`, the `n` low bits of `e` from the high end. -/
def powModFrom (a e m : Nat) : Nat → Nat → Nat
  | 0, acc => acc
  | n + 1, acc => powModFrom a e m n (if e.testBit n then acc * acc % m * a % m else acc * acc % m)
/-- `a ^ e mod m`. -/
def powMod (a e m : Nat) : Nat := powModFrom (a % m) e m (Nat.log2 e + 1) (1 % m)

/-- Extended Euclid on non-negative numbers: the inverse of the first modulo `m`, if coprime. -/
def invGo (m : Nat) : Nat → Nat → Nat → Nat → Nat → Option Nat
  | 0, _, _, _, _ => none
  | k + 1, r0, r1, t0, t1 =>
    if r1 = 0 then (if r0 = 1 then some (t0 % m) else none)
    else invGo m k r1 (r0 % r1) t1 ((t0 + (m - (r0 / r1) % m * t1 % m)) % m)
/-- The inverse of `a` modulo `m`. -/
def invMod (a m : Nat) : Option Nat := invGo m (2 * Nat.log2 m + 4) m (a % m) 0 1

/-- A short Weierstrass curve over a prime field: p, a, b, base point, order, cofactor, bytes of a coordinate. -/
structure Curve where
  p : Nat
  a : Nat
  b : Nat
  gx : Nat
  gy : Nat
  n : Nat
  h : Nat
  size : Nat
  deriving DecidableEq, Repr

/-- P-256. -/
def curveP256 : Curve :=
  { p := 2 ^ 256 - 2 ^ 224 + 2 ^ 192 + 2 ^ 96 - 1
    a := 2 ^ 256 - 2 ^ 224 + 2 ^ 192 + 2 ^ 96 - 4
    b := 0x5ac635d8aa3a93e7b3ebbd55769886bc651d06b0cc53b0f63bce3c3e27d2604b
    gx := 0x6b17d1f2e12c4247f8bce6e563a440f277037d812deb33a0f4a13945d898c296
    gy := 0x4fe342e2fe1a7f9b8ee7eb4a7c0f9e162bce33576b315ececbb6406837bf51f5
    n := 0xffffffff00000000ffffffffffffffffbce6faada7179e84f3b9cac2fc632551
    h := 1
    size := 32 }
/-- P-384. -/
def curveP384 : Curve :=
  { p := 2 ^ 384 - 2 ^ 128 - 2 ^ 96 + 2 ^ 32 - 1
    a := 2 ^ 384 - 2 ^ 128 - 2 ^ 96 + 2 ^ 32 - 4
    b := 0xb3312fa7e23ee7e4988e056be3f82d19181d9c6efe8141120314088f * 2 ^ 160
      + 0x5013875ac656398d8a2ed19d2a85c8edd3ec2aef
    gx := 0xaa87ca22be8b05378eb1c71ef320ad746e1d3b628ba79b9859f741e082542a38 * 2 ^ 128
      + 0x5502f25dbf55296c3a545e3872760ab7
    gy := 0x3617de4a96262c6f5d9e98bf9292dc29f8f41dbd289a147ce9da3113b5f0b8c0 * 2 ^ 128
      + 0x0a60b1ce1d7e819d7a431d7c90ea0e5f
    n := 0xffffffffffffffffffffffffffffffffffffffffffffffffc7634d81f4372ddf * 2 ^ 128
      + 0x581a0db248b0a77aecec196accc52973
    h := 1
    size := 48 }
/-- P-521. -/
def curveP521 : Curve :=
  { p := 2 ^ 521 - 1
    a := 2 ^ 521 - 4
    b := 0x51953eb9618e1c9a1f929a21a0b68540eea2da725b99b315f3b8b489918ef109e1 * 2 ^ 256
      + 0x56193951ec7e937b1652c0bd3bb1bf073573df883d2c34f1ef451fd46b503f00
    gx := 0xc6858e06b70404e9cd9e3ecb662395b4429c648139053fb521f828af606b4d3dba * 2 ^ 256
      + 0xa14b5e77efe75928fe1dc127a2ffa8de3348b3c1856a429bf97e7e31c2e5bd66
    gy := 0x11839296a789a3bc0045c8a5fb42c7d1bd998f54449579b446817afbd17273e662c * 2 ^ 256
      + 0x97ee72995ef42640c550b9013fad0761353c7086a272c24088be94769fd16650
    n := 0x1fffffffffffffffffffffffffffffffffffffffffffffffffffffffffffffffffa * 2 ^ 256
      + 0x51868783bf2f966b7fcc0148f709a5d03bb5c9b8899c47aebb6fb71e91386409
    h := 1
    size := 66 }

/-- A point in Jacobian coordinates; `z = 0` is the point at infinity. -/
abbrev Jac := Nat × Nat × Nat

/-- Subtraction modulo `p`. -/
def subMod (p a b : Nat) : Nat := (a + (p - b % p)) % p

/-- Doubling. -/
def jDouble (c : Curve) (q : Jac) : Jac :=
  let (x, y, z) := q
  if z = 0 ∨ y = 0 then (1, 1, 0)
  else
    let yy := y * y % c.p
    let s := 4 * x * yy % c.p
    let m := (3 * x * x + c.a * (z * z % c.p * (z * z % c.p) % c.p)) % c.p
    let x' := subMod c.p (m * m) (2 * s)
    (x', subMod c.p (m * subMod c.p s x') (8 * yy * yy), 2 * y * z % c.p)

/-- Addition. -/
def jAdd (c : Curve) (q r : Jac) : Jac :=
  let (x1, y1, z1) := q
  let (x2, y2, z2) := r
  if z1 = 0 then r
  else if z2 = 0 then q
  else
    let z11 := z1 * z1 % c.p
    let z22 := z2 * z2 % c.p
    let u1 := x1 * z22 % c.p
    let u2 := x2 * z11 % c.p
    let s1 := y1 * z2 % c.p * z22 % c.p
    let s2 := y2 * z1 % c.p * z11 % c.p
    if u1 = u2 then (if s1 = s2 then jDouble c q else (1, 1, 0))
    else
      let h := subMod c.p u2 u1
      let t := subMod c.p s2 s1
      let hh := h * h % c.p
      let hhh := h * hh % c.p
      let v := u1 * hh % c.p
      let x3 := subMod c.p (t * t) (hhh + 2 * v)
      (x3, subMod c.p (t * subMod c.p v x3) (s1 * hhh), h * z1 % c.p * z2 % c.p)

/-- Multiplication by the `n` low bits of `k`. -/
def jMulFrom (c : Curve) (k : Nat) (q : Jac) : Nat → Jac → Jac
  | 0, acc => acc
  | n + 1, acc =>
    let d := jDouble c acc
    jMulFrom c k q n (if k.testBit n then jAdd c d q else d)

/-- The affine form, or none at infinity. -/
def jAffine (c : Curve) (q : Jac) : Option (Nat × Nat) :=
  if q.2.2 % c.p = 0 then none
  else
    (invMod q.2.2 c.p).map fun zi =>
      let z2 := zi * zi % c.p
      (q.1 * z2 % c.p, q.2.1 * z2 % c.p * zi % c.p)

/-- `k` times an affine point. -/
def ecMul (c : Curve) (k : Nat) (q : Nat × Nat) : Option (Nat × Nat) :=
  jAffine c (jMulFrom c k (q.1, q.2, 1) (Nat.log2 k + 1) (1, 1, 0))

/-- A point lies on the curve with coordinates below p. -/
def onCurve (c : Curve) (q : Nat × Nat) : Bool :=
  decide (q.1 < c.p) && decide (q.2 < c.p) &&
    decide (q.2 * q.2 % c.p = (q.1 * q.1 * q.1 + c.a * q.1 + c.b) % c.p)

/-- Full public-key validation (SP 800-56A): on the curve and of the curve's order. -/
def ecValid (c : Curve) (q : Nat × Nat) : Bool := onCurve c q && decide (ecMul c c.n q = none)

/-- An SEC 1 uncompressed point. -/
def pointOf (c : Curve) (b : Bytes) : Option (Nat × Nat) :=
  if b.length = 2 * c.size + 1 ∧ byteAt b 0 = 4 then some (field b 1 c.size, field b (1 + c.size) c.size) else none
/-- The SEC 1 uncompressed form. -/
def pointBytes (c : Curve) (q : Nat × Nat) : Bytes := 4 :: (beBytes c.size q.1 ++ beBytes c.size q.2)

/-- An SEC 1 compressed point; the three primes are 3 modulo 4. -/
def decompress (c : Curve) (b : Bytes) : Option (Nat × Nat) :=
  let x := beNat (b.drop 1)
  let z := (x * x * x + c.a * x + c.b) % c.p
  let y := powMod z ((c.p + 1) / 4) c.p
  if b.length ≠ c.size + 1 ∨ c.p ≤ x ∨ (byteAt b 0 ≠ 2 ∧ byteAt b 0 ≠ 3) ∨ y * y % c.p ≠ z then none
  else some (x, if y % 2 = byteAt b 0 % 2 then y else (c.p - y) % c.p)

/-- The curve of a compressed public key, by its length: P-256 or P-384. -/
def curveOfPub (b : Bytes) : Curve := if b.length = 33 then curveP256 else curveP384

/-- A private scalar from random bytes. -/
def scalarOf (c : Curve) (b : Bytes) : Nat := beNat b % (c.n - 1) + 1

/-- The number ECDSA takes from a digest: its leftmost bits up to the order's length. -/
def ecHash (c : Curve) (h : Bytes) : Nat :=
  let nb := Nat.log2 c.n + 1
  if nb < 8 * h.length then beNat h / 2 ^ (8 * h.length - nb) else beNat h

/-- An ECDSA signature with the given nonce, if it yields one. -/
def ecdsaSign (c : Curve) (d k : Nat) (h : Bytes) : Option (Nat × Nat) :=
  match ecMul c k (c.gx, c.gy), invMod k c.n with
  | some q, some ki =>
    let r := q.1 % c.n
    let s := ki * ((ecHash c h + r * d) % c.n) % c.n
    if r = 0 ∨ s = 0 then none else some (r, s)
  | _, _ => none

/-- ECDSA verification. -/
def ecdsaVerify (c : Curve) (q : Nat × Nat) (h : Bytes) (r s : Nat) : Bool :=
  if r = 0 ∨ c.n ≤ r ∨ s = 0 ∨ c.n ≤ s then false
  else
    match invMod s c.n with
    | none => false
    | some w =>
      let u := ecHash c h * w % c.n
      let v := r * w % c.n
      let j := jAdd c (jMulFrom c u (c.gx, c.gy, 1) (Nat.log2 u + 1) (1, 1, 0))
        (jMulFrom c v (q.1, q.2, 1) (Nat.log2 v + 1) (1, 1, 0))
      match jAffine c j with
      | some x => decide (x.1 % c.n = r)
      | none => false

/-- An ECDSA signature as r ‖ s, empty where the nonce yields none. -/
def ecdsaBytes (c : Curve) (d k : Nat) (h : Bytes) : Bytes :=
  match ecdsaSign c d k h with
  | some (r, s) => beBytes c.size r ++ beBytes c.size s
  | none => []

/-- Verification of r ‖ s by an affine point. -/
def ecdsaCheck (c : Curve) (q : Nat × Nat) (h sig : Bytes) : Bool :=
  decide (sig.length = 2 * c.size) && ecdsaVerify c q h (field sig 0 c.size) (field sig c.size c.size)

/-! ## Ed25519 -/

/-- The field prime of Ed25519. -/
def edP : Nat := 2 ^ 255 - 19
/-- The group order of Ed25519. -/
def edL : Nat := 2 ^ 252 + 27742317777372353535851937790883648493
/-- The curve constant d. -/
def edD : Nat := 37095705934669439343138083508754565189542113879843219016388785533085940283555
/-- The base point. -/
def edB : Nat × Nat :=
  (15112221349535400772501151409588531511454012693041857206046113283949847762202,
   46316835694926478169428394003475163141307993866256225615783033603165251855960)

/-- Addition in extended coordinates (X, Y, Z, T). -/
def edAdd (p q : Nat × Nat × Nat × Nat) : Nat × Nat × Nat × Nat :=
  let (x1, y1, z1, t1) := p
  let (x2, y2, z2, t2) := q
  let a := subMod edP y1 x1 * subMod edP y2 x2 % edP
  let b := (y1 + x1) * (y2 + x2) % edP
  let c := 2 * t1 * t2 % edP * edD % edP
  let d := 2 * z1 * z2 % edP
  let e := subMod edP b a
  let f := subMod edP d c
  let g := (d + c) % edP
  let h := (b + a) % edP
  (e * f % edP, g * h % edP, f * g % edP, e * h % edP)

/-- Multiplication by the `n` low bits of `k`. -/
def edMulFrom (k : Nat) (q : Nat × Nat × Nat × Nat) : Nat → Nat × Nat × Nat × Nat → Nat × Nat × Nat × Nat
  | 0, acc => acc
  | n + 1, acc =>
    let d := edAdd acc acc
    edMulFrom k q n (if k.testBit n then edAdd d q else d)
/-- Multiplication. -/
def edMul (k : Nat) (q : Nat × Nat) : Nat × Nat × Nat × Nat :=
  edMulFrom k (q.1, q.2, 1, q.1 * q.2 % edP) (Nat.log2 k + 1) (0, 1, 1, 0)

/-- The encoding of a point. -/
def edEnc (q : Nat × Nat × Nat × Nat) : Bytes :=
  let zi := powMod q.2.2.1 (edP - 2) edP
  let x := q.1 * zi % edP
  let y := q.2.1 * zi % edP
  leBytes 32 (y + x % 2 * 2 ^ 255)

/-- A point from its encoding. -/
def edDec (b : Bytes) : Option (Nat × Nat) :=
  let n := leNat b
  let y := n % 2 ^ 255
  let sign := n / 2 ^ 255
  if edP ≤ y ∨ b.length ≠ 32 then none
  else
    let u := subMod edP (y * y) 1
    let v := (edD * (y * y % edP) + 1) % edP
    let x2 := u * powMod v (edP - 2) edP % edP
    let x := powMod x2 ((edP + 3) / 8) edP
    let x := if x * x % edP = x2 then x else x * powMod 2 ((edP - 1) / 4) edP % edP
    if x * x % edP ≠ x2 then none
    else if x = 0 ∧ sign = 1 then none
    else some (if x % 2 = sign then x else edP - x, y)

/-- The clamped scalar and the second half of the hashed seed. -/
def edSecret (seed : Bytes) : Nat × Bytes :=
  let h := sha512 seed
  let a := leNat (h.take 32)
  (a % 2 ^ 254 / 8 * 8 + 2 ^ 254, h.drop 32)
/-- The public key of a seed. -/
def edPublic (seed : Bytes) : Bytes := edEnc (edMul (edSecret seed).1 edB)
/-- A signature, its two scalars blinded by multiples of the group order. -/
def edSign (seed m : Bytes) (r1 r2 : Nat := 0) : Bytes :=
  let (a, pre) := edSecret seed
  let pub := edEnc (edMul (a + r1 * edL) edB)
  let r := leNat (sha512 (pre ++ m)) % edL
  let rb := edEnc (edMul (r + r2 * edL) edB)
  let k := leNat (sha512 (rb ++ pub ++ m)) % edL
  rb ++ leBytes 32 ((r + k * a) % edL)
/-- Verification. -/
def edVerify (pub m sig : Bytes) : Bool :=
  match edDec pub, edDec (sig.take 32) with
  | some a, some r =>
    let s := leNat (sig.drop 32)
    let k := leNat (sha512 (sig.take 32 ++ pub ++ m)) % edL
    decide (sig.length = 64) && decide (s < edL) &&
      decide (edEnc (edMul s edB) = edEnc (edAdd (r.1, r.2, 1, r.1 * r.2 % edP) (edMul k a)))
  | _, _ => false

/-! ## RSA and primes -/

/-- The mask generation function of PKCS #1 over SHA-256. -/
def mgf1 (h : Bytes → Bytes) (hl : Nat) (seed : Bytes) (n : Nat) : Bytes :=
  (((List.range ((n + hl - 1) / hl)).map fun i => h (seed ++ beBytes 4 i)).flatten).take n

/-- Squarings of a Miller-Rabin round. -/
def mrSquare (n : Nat) : Nat → Nat → Bool
  | 0, _ => false
  | k + 1, x => if x = n - 1 then true else mrSquare n k (x * x % n)
/-- The power of two in `n`, at most `k`. -/
def twos : Nat → Nat → Nat
  | 0, _ => 0
  | k + 1, n => if n % 2 = 0 then twos k (n / 2) + 1 else 0
/-- One Miller-Rabin round to base `a`. -/
def mrRound (n a : Nat) : Bool :=
  let s := twos (Nat.log2 n) (n - 1)
  let x := powMod a ((n - 1) / 2 ^ s) n
  decide (x = 1) || mrSquare n s x
/-- A Miller-Rabin test to a list of bases. -/
def mrPrime (n : Nat) (bases : List Nat) : Bool :=
  if n < 4 then decide (n = 2 ∨ n = 3) else decide (n % 2 = 1) && bases.all fun a => decide (a % n = 0) || mrRound n a

end Sys2Proof.Machine
end

