-- ==== Sys2Proof/Machine/Vault.lean ====
section
/-!
DEFINITION. The key vault: its stores (R181 to R184, R189), the hierarchy and its derivations (R185 to R188), key
handles and their resolution (R190 to R195), and placing and removing keys.
-/
namespace Sys2Proof.Machine

/-! ## Counters (R206) -/

/-- A counter that nothing has written. -/
def Ctr.zero : Ctr := { vals := [], next := 0, used := 0 }
/-- Counter `n`. -/
def State.ctr (s : State) (n : Nat) : Ctr := mget (fun _ => Ctr.zero) s.ctrs n
/-- It stored. -/
def State.setCtr (s : State) (n : Nat) (c : Ctr) : State := { s with ctrs := mset (fun _ => Ctr.zero) s.ctrs n c }
/-- Its value: the highest of its positions. -/
def ctrValue (s : State) (n : Nat) : Nat := (s.ctr n).vals.foldl max 0
/-- It accepts a write: bursts of 64. -/
def ctrReady (s : State) (n : Nat) : Bool := decide ((s.ctr n).used < 64)
/-- A write: into the next of the eight positions. -/
def ctrWrite (s : State) (n v : Nat) : State :=
  let c := s.ctr n
  s.setCtr n {
    vals := (List.range 8).map fun k => if k = c.next then v else c.vals.getD k 0
    next := (c.next + 1) % 8, used := c.used + 1 }
/-- A counter taken by value (R210, R426). -/
def ctrTake (s : State) (n v : Nat) : State := s.setCtr n { s.ctr n with vals := if v = 0 then [] else [v], next := 1 }
/-- The counter of TMK `i` of tenant `t`. -/
def genCtr (t i : Nat) : Nat := 1024 + 4 * t + i
/-- The lock counter. -/
abbrev lockCtr : Nat := 5120
/-- The firmware version floor. -/
abbrev floorCtr : Nat := 5121
/-- The JSEQ block counter of tenant `t` (R173). -/
def jseqCtr (t : Nat) : Nat := 5122 + t

/-! ## The root and what it derives (R182, R186, R187) -/

/-- The 2,048 stored bytes of the root. -/
def rootData (s : State) : Bytes := xorB s.root.a s.root.b
/-- The root secret. -/
def rootSecret (s : State) : Bytes := slice (rootData s) 0 64
/-- RCHK agrees with RS and UDS. -/
def rootValid (s : State) : Bool :=
  decide (slice (rootData s) 64 16 = (sha384 (rootSecret s ++ s.fuse.uds)).take 16)

/-- The bytes of a register word, byte 0 in [7:0] (R216). -/
def wordLe (w : Word) : Bytes := leBytes 4 w.toNat
/-- MEAS_n as sealed. -/
def measOf (s : State) (n : Nat) : Bytes := ((List.range 12).map fun w => wordLe (s.reg .vlt (0x100 + 48 * n + 4 * w))).flatten
/-- MEAS_n stored. -/
def setMeas (s : State) (n : Nat) (d : Bytes) : State :=
  (List.range 12).foldl (fun s w => s.setReg .vlt (0x100 + 48 * n + 4 * w) (BitVec.ofNat 32 (leNat (slice d (4 * w) 4)))) s
/-- MEAS_0 to MEAS_4 as sealed. -/
def measSet (s : State) : Bytes := ((List.range 5).map (measOf s)).flatten

/-- DR for a measurement set. -/
def deviceRoot (s : State) (meas : Bytes) : Bytes :=
  kdf108 (rootSecret s ++ s.fuse.uds) "ADETRA-ROOT".toList meas 48
/-- W(t, i). -/
def tmkWrapKey (dr : Bytes) (t i : Nat) : Bytes :=
  kdf108 dr "ADETRA-TMK-WRAP".toList (beBytes 2 t ++ beBytes 1 i) 32
/-- A P-384 private key from 384 derived bits. -/
def privScalar (b : Bytes) : Nat := beNat b % curveP384.n + 1
/-- The vault transport private key. -/
def vtkPriv (dr : Bytes) : Nat := privScalar (kdf108 dr "ADETRA-VTK".toList [] 48)
/-- K_REC. -/
def recKey (s : State) : Bytes := kdf108 (rootSecret s ++ s.fuse.uds) "ADETRA-REC-MAC".toList [] 48
/-- K_PUB. -/
def pubKey (s : State) : Bytes := kdf108 s.fuse.uds "ADETRA-PUB-MAC".toList [] 48
/-- The identity private key. -/
def identPriv (s : State) : Nat := privScalar (kdf108 s.fuse.uds "ADETRA-IDENT".toList [] 48)
/-- KW2(t, i, s). -/
def level2Wrap (tmk : Bytes) (t slot : Nat) : Bytes :=
  kdf108 tmk "ADETRA-L2-WRAP".toList (beBytes 2 t ++ beBytes 4 slot) 32
/-- KX(t, i). -/
def extKey (tmk : Bytes) (t : Nat) : Bytes := kdf108 tmk "ADETRA-EXT".toList (beBytes 2 t) 64

/-! ## Masks (R202) -/

/-- `n` bytes of a mask generator. -/
def MaskGen.draw (g : MaskGen) (n : Nat) : Bytes × MaskGen :=
  let k := (n + 15) / 16
  let e := aesEncK (aesKeys (fitR 32 g.key))
  (((List.range k).map fun i => e (beBytes 16 (g.ctr + i))).flatten.take n, { g with ctr := g.ctr + k })
/-- `n` bytes of the vault's generator. -/
def maskBytes (s : State) (n : Nat) : Bytes × State :=
  let (b, g) := s.maskGen.draw n
  (b, { s with maskGen := g })
/-- `n` bytes for a mask of BBRAM: on the cell, of the battery domain's generator. -/
def rootMask (s : State) (n : Nat) : Bytes × State :=
  if s.tmp.power then maskBytes s n
  else
    let (b, g) := s.cellGen.draw n
    (b, { s with cellGen := g })

/-! ## Records (R189) -/

/-- The 112 bytes that a record's tag covers, with its STATE. -/
def recBodyAs (st : Byte) (x : Rec) : Bytes :=
  [BitVec.ofNat 8 x.typ, st] ++ beBytes 2 x.tenant ++ beBytes 4 x.index ++ beBytes 4 x.gen ++
  [BitVec.ofNat 8 x.parent, 0, 0, 0] ++ beBytes 4 x.parentGen ++ fitR 8 x.attr ++ beBytes 4 x.wseq ++
  (if x.pub = [] then fitR 40 x.wrap0 ++ fitR 40 x.wrap1 else fitR 80 x.pub)
/-- The 112 bytes that a record's tag covers. -/
def recBody (x : Rec) : Bytes := recBodyAs (if x.felled then 2 else 1) x
/-- A record is public: its point takes the place of the wraps. -/
def recPublic (x : Rec) : Bool := decide (x.typ = 2 ∨ x.typ = 3 ∨ x.typ = 4)
/-- The tag over 112 bytes of a record. -/
def tagOver (s : State) (pub : Bool) (b : Bytes) : Bytes := (hmac384 (if pub then pubKey s else recKey s) b).take 16
/-- Its tag. -/
def recTag (s : State) (x : Rec) : Bytes := tagOver s (recPublic x) (recBody x)
/-- A logical record. -/
def State.record (s : State) (n : Nat) : Option Rec := oget s.recs n
/-- The mask stream of bank `b` at position `p`, under a seed (R181). -/
def bankMask (seed : Bytes) (p : Nat) : Bytes := beBytes 128 (Config.bankMask seed p).toNat
/-- SEED_b (R182). -/
def bankSeed (s : State) (b : Nat) : Bytes := slice (rootData s) (80 + 32 * b) 32
/-- A stored image with its 128 bytes masked or unmasked. -/
def maskImage (seed : Bytes) (p : Nat) (img : Bytes) : Bytes := xorB (img.take 128) (bankMask seed p) ++ img.drop 128
/-- A record as stored: 128 bytes, and what the vault keeps of a working key beside them (log 59). -/
def recImage (st : Byte) (x : Rec) : Bytes :=
  recBodyAs st x ++ fitR 16 x.tag ++ beBytes 2 x.len ++ beBytes 4 x.bound.toNat ++ x.opt

/-- The lowest position that no write has reached, from the written ones in rising order. -/
def firstUnwritten : SMap Nat → Nat → Nat
  | [], n => n
  | (k, _) :: m, n => if k = n then firstUnwritten m (n + 1) else n
/-- The free record position least written, the lowest of several (R203). -/
def freePos (s : State) : Nat :=
  let p := firstUnwritten s.nvm.writes 0
  if p < 12800 then p
  else
    let used := (opresent s.nvm.pos).map Prod.snd
    ((s.nvm.writes.filter fun e => ! used.contains e.1).foldl (fun (acc : Option (Nat × Nat)) e =>
      match acc with
      | some a => if e.2 < a.2 then some e else acc
      | none => some e) none).elim 0 Prod.fst
/-- An image put at a position of all four banks, each under its own seed. -/
def putCells (s : State) (p : Nat) (img : Bytes) : State :=
  { s with nvm := { s.nvm with
    cells := (List.range 4).foldl (fun m b => oset m (12800 * b + p) (some (maskImage (bankSeed s b) p img))) s.nvm.cells } }
/-- The image of logical record `n` written at a free position; the superseded one is free, unwritten (R203). -/
def putImage (s : State) (n wseq : Nat) (img : Bytes) (keep : Bool) : State :=
  let p := freePos s
  putCells { s with nvm := { s.nvm with
    pos := oset s.nvm.pos n (if keep then some p else none)
    seq := mset (fun _ => 0) s.nvm.seq n wseq
    writes := mset (fun _ => 0) s.nvm.writes p (mget (fun _ => 0) s.nvm.writes p + 1) } } p img
/-- The WSEQ of the next write of a logical record. -/
def nextWseq (s : State) (n : Nat) : Nat := mget (fun _ => 0) s.nvm.seq n + 1
/-- A record freed: its free state is written. -/
def freeRec (s : State) (n : Nat) : State :=
  match s.record n with
  | none => s
  | some x =>
    let x := { x with wseq := nextWseq s n, wrap0 := [], wrap1 := [], pub := [], len := 0, opt := [], bound := 0 }
    let x := { x with tag := tagOver s (recPublic x) (recBodyAs 0 x) }
    putImage { s with recs := oset s.recs n none } n x.wseq (recImage 0 x) false
/-- A record written, with the next WSEQ and its tag. -/
def writeRec (s : State) (n : Nat) (x : Rec) : State :=
  let x := { x with wseq := nextWseq s n }
  let x := { x with tag := recTag s x }
  putImage { s with recs := oset s.recs n (some x) } n x.wseq (recImage (if x.felled then 2 else 1) x) true
/-- Records dropped without a write, with their places (R387, R431). -/
def keepRecs (s : State) (keep : Rec → Bool) : State :=
  { s with
    recs := mfilter (fun _ r => r.any keep) s.recs
    nvm := { s.nvm with pos := mfilter (fun n _ => (oget s.recs n).any keep) s.nvm.pos } }
/-- Records in use (R203). -/
def recsUsed (s : State) : Nat := (opresent s.recs).length
/-- Records of a tenant. -/
def recsOf (s : State) (t : Nat) : Nat := ((opresent s.recs).filter fun e => e.2.tenant = t).length
/-- The record of a type, tenant and index. -/
def findRec (s : State) (typ t index : Nat) : Option (Nat × Rec) :=
  (opresent s.recs).find? fun e => decide (e.2.typ = typ) && decide (e.2.tenant = t) && decide (e.2.index = index)
/-- The first record of a type and tenant. -/
def findAuth (s : State) (t : Nat) : Option (Nat × Rec) :=
  (opresent s.recs).find? fun e => decide (e.2.typ = 2) && decide (e.2.tenant = t)
/-- Room for `n` more logical records of a tenant (R203, R363). -/
def recRoom (s : State) (t n : Nat) : Option Nat :=
  if (s.tenant t).qVlt < recsOf s t + n then some stQUOTA
  else if 12672 < recsUsed s + n then some stBUSY
  else none
/-- The lowest run of free vault indices. -/
def freeRecs (s : State) (n : Nat) : Option Nat := freeRun n 12800 0 ((opresent s.recs).map fun e => (e.1, 1))

/-- The write allowance (R205). -/
def allowance (s : State) : Nat := s.fld .vlt VLT_NVM_ALLOW
/-- `n` writes taken from it. -/
def takeAllowance (s : State) (n : Nat) : State := s.setFld .vlt VLT_NVM_ALLOW (allowance s - n)

/-! ## Tenant master keys -/

/-- TMK `i` of tenant `t`, unwrapped under the sealed measurements (R188). -/
def tmkOf (s : State) (t i : Nat) : Option Bytes :=
  match s.dr, findRec s 1 t i with
  | some dr, some (_, x) =>
    if x.felled ∨ x.tag ≠ recTag s x then none
    else
      let other := decide (s.sys.mig = 3)
      let w := if (s.sys.curWrap = 0) != other then x.wrap0 else x.wrap1
      kwUnwrap (aesDecK (aesKeys (tmkWrapKey dr t i))) w
  | _, _ => none
/-- A trial under measurements that are not the target set: no TMK unwraps, and the vault serves only keys without a
parent (R201). -/
def trialOff (s : State) : Bool := decide (s.sys.mig = 3) && decide (measSet s ≠ s.sys.target)
/-- The generation of TMK `i` of tenant `t`. -/
def tmkGen (s : State) (t i : Nat) : Nat := ctrValue s (genCtr t i)
/-- The TMK a tenant's new keys take as parent: its active one, when valid (R194). -/
def activeTmk (s : State) (t : Nat) : Option Nat :=
  if trialOff s then none
  else match mget (fun _ => none) s.activeTmks t with
  | some i => match findRec s 1 t i with
    | some (_, x) => if x.felled then none else some i
    | none => none
  | none => none

/-! ## Resolution (R190, R191, R207, R212) -/

/-- A resolved key. -/
structure KeyVal where
  handle : Word
  attr : Bytes
  bits : Bytes
  parent : Nat
  parentGen : Nat
  opt : Bytes
  bound : Word
  deriving DecidableEq, Repr

/-- The usage of a key, two characters. -/
def KeyVal.usage (k : KeyVal) : Nat := field k.attr 0 2
/-- Its algorithm. -/
def KeyVal.alg (k : KeyVal) : Nat := byteAt k.attr 2
/-- Its mode of use. -/
def KeyVal.mode (k : KeyVal) : Nat := byteAt k.attr 3
/-- Its exportability. -/
def KeyVal.expo (k : KeyVal) : Nat := byteAt k.attr 4
/-- An ASCII character's code. -/
def chr (c : Char) : Nat := c.toNat
/-- A two-character usage. -/
def usage (a b : Char) : Nat := a.toNat * 256 + b.toNat

/-- CLASS of a handle. -/
def handleClass (h : Word) : Nat := h.toNat / 2 ^ 30
/-- TENANT of a handle. -/
def handleTenant (h : Word) : Nat := h.toNat / 2 ^ 20 % 1024
/-- SLOT of a handle. -/
def handleSlot (h : Word) : Nat := h.toNat % 2 ^ 18
/-- A handle. -/
def mkHandle (cls t slot : Nat) : Word := BitVec.ofNat 32 (cls * 2 ^ 30 + t * 2 ^ 20 + slot)

/-- A parent's generation is current, or the key has no parent. -/
def parentCurrent (s : State) (t parent gen : Nat) : Bool := parent = 255 || decide (tmkGen s t parent = gen)

/-- A key cache handle. -/
def resolveCache (s : State) (h : Word) : Except Nat KeyVal :=
  if s.fuse.variant.keySlots ≤ handleSlot h then .error stKEY_NOT_FOUND
  else match oget s.keys (handleSlot h) with
    | none => .error stKEY_NOT_FOUND
    | some k =>
      if k.tenant ≠ handleTenant h then .error stKEY_NOT_FOUND
      else if k.felled ∨ parentCurrent s k.tenant k.parent k.parentGen = false then .error stKEY_ORPHANED
      else if trialOff s ∧ k.parent ≠ 255 then .error stKEY_INVALID
      else .ok { handle := h, attr := k.attr, bits := k.key, parent := k.parent, parentGen := k.parentGen, opt := k.opt, bound := k.bound }

/-- The records that hold a vault-class key of `len` bytes, unwrapped in order. -/
def vaultBits (s : State) (tmk : Bytes) (t slot : Nat) (n : Nat) : Option Bytes :=
  (List.range n).foldl (fun acc i =>
    match acc, s.record (slot + i) with
    | some b, some x =>
      if x.tag ≠ recTag s x then none
      else (kwUnwrap (aesDecK (aesKeys (level2Wrap tmk t (slot + i)))) x.wrap0).map (b ++ ·)
    | _, _ => none) (some [])

/-- Records a key of `len` bytes occupies. -/
def recsFor (len : Nat) : Nat := max 1 ((len + 31) / 32)

/-- A vault handle: a working key, a session credential, or 0x3_FFFF for the update authority. -/
def resolveVault (s : State) (h : Word) : Except Nat KeyVal :=
  let t := handleTenant h
  let slot := handleSlot h
  let pubVal := fun (x : Rec) (attr : Bytes) => (.ok ({ handle := h, attr := attr, bits := x.pub, parent := 255, parentGen := 0, opt := [], bound := 0 } : KeyVal) : Except Nat KeyVal)
  if slot = 0x3FFFF then
    match findAuth s t with
    | some (_, x) => if x.tag = recTag s x then pubVal x x.attr else .error stKEY_INVALID
    | none => .error stKEY_NOT_FOUND
  else if 12800 ≤ slot then .error stKEY_NOT_FOUND
  else match s.record slot with
    | none => .error stKEY_NOT_FOUND
    | some x =>
      if x.tenant ≠ t then .error stKEY_NOT_FOUND
      else if x.typ = 4 then (if x.tag = recTag s x then pubVal x x.attr else .error stKEY_INVALID)
      else if x.typ ≠ 5 ∨ x.index ≠ slot then .error stKEY_NOT_FOUND
      else if x.felled ∨ parentCurrent s t x.parent x.parentGen = false then .error stKEY_ORPHANED
      else match (tmkOf s t x.parent).bind fun k => vaultBits s k t slot (recsFor x.len) with
        | some b => .ok { handle := h, attr := x.attr, bits := b.take x.len, parent := x.parent, parentGen := x.parentGen, opt := x.opt, bound := x.bound }
        | none => .error stKEY_INVALID

/-- Bytes that a key of `n` bytes fills before its AES key wrap. -/
def extLen (n : Nat) : Nat := max 16 (8 * ((n + 7) / 8))

/-- An external block (R193): the entry is read from the tenant's table in HBM. -/
def resolveExt (s : State) (h : Word) : Except Nat KeyVal :=
  let t := handleTenant h
  let slot := handleSlot h
  let ten := s.tenant t
  if ten.extCount ≤ slot then .error stKEY_NOT_FOUND
  else
    let b := memRead s.hbm (ten.extBase * 4096 + 128 * slot) 128
    if byteAt b 1 = 0 then .error stKEY_NOT_FOUND
    else
      let parent := byteAt b 12
      if byteAt b 0 ≠ 5 ∨ field b 2 2 ≠ t ∨ byteAt b 1 ≠ 1 ∨ 4 ≤ parent then .error stKEY_INVALID
      else if tmkGen s t parent ≠ field b 16 4 then .error stKEY_ORPHANED
      else match tmkOf s t parent with
        | none => .error stKEY_INVALID
        | some tmk =>
          let kx := extKey tmk t
          if (hmac384 (slice kx 32 32) (slice b 0 112)).take 16 ≠ slice b 112 16 then .error stKEY_INVALID
          else match kwUnwrap (aesDecK (aesKeys (slice kx 0 32))) (slice b 32 (extLen (byteAt b 25) + 8)) with
            | some k => .ok { handle := h, attr := slice b 20 8, bits := k.take (byteAt b 25), parent := parent, parentGen := field b 16 4, opt := [], bound := 0 }
            | none => .error stKEY_INVALID

/-- The address in HBM of curve table entry `n`: 16 for each tenant, of 1 KiB, from ODM_CURVE_BASE, which has one value on
every region's page (R262, R275). -/
def curveAddr (s : State) (n : Nat) : Nat := 4096 * s.fld (.odm 0) ODM_CURVE_BASE + 1024 * n

/-- A curve table entry as it lies in HBM (R262, log 107): Lf, h and the state byte, the hash, and the parameters
right-justified in 80 bytes each. -/
def curveImage (e : Option CurveEntry) : Bytes :=
  match e with
  | some e =>
    fitR 1024 (beBytes 2 e.lf ++ beBytes 1 e.h ++ [1] ++ fitR 32 e.hash ++
      ([e.p, e.a, e.b, e.gx, e.gy, e.n].map (beBytes 80)).flatten)
  | none => zeros 1024

/-- The entry that an image holds; none for a free one. -/
def curveOfImage (b : Bytes) : Option CurveEntry :=
  let f := fun (k : Nat) => field b (36 + 80 * k) 80
  if byteAt b 3 = 1 then
    some { lf := field b 0 2, hash := slice b 4 32, p := f 0, a := f 1, b := f 2, gx := f 3, gy := f 4, n := f 5, h := byteAt b 2 }
  else none

/-- Entry `n` of the curve table written, in the table that ODM holds and in its HBM area. -/
def putCurve (s : State) (n : Nat) (e : Option CurveEntry) : State :=
  { s with curves := oset s.curves n e, hbm := memWrite s.hbm (curveAddr s n) (curveImage e) }

/-- The whole table zeroised (R262). -/
def clearCurves (s : State) : State :=
  { (opresent s.curves).foldl (fun s e => putCurve s e.1 none) s with curves := [] }

/-- ODM takes the table that lies at its base, after a write of ODM_CURVE_BASE. -/
def rebaseCurves (s : State) : State :=
  { s with curves := (List.range 16384).foldl (fun m n => oset m n (curveOfImage (memRead s.hbm (curveAddr s n) 1024))) [] }

/-- The curve ID that an EC private key records in its last two attribute bytes. -/
def KeyVal.curve (k : KeyVal) : Nat := if k.alg = chr 'E' then field k.attr 6 2 else 0
/-- A key on a loaded curve whose entry is free or holds other parameters (R262): it records their hash. -/
def curveStale (s : State) (k : KeyVal) : Bool :=
  if 0x100 ≤ k.curve ∧ k.curve ≤ 0x10F then
    match oget s.curves (16 * handleTenant k.handle + (k.curve - 0x100)) with
    | some e => decide (e.hash ≠ k.opt)
    | none => true
  else false

/-- What a handle resolves to, the lock and the vault's state aside. -/
def resolveRaw (s : State) (h : Word) : Except Nat KeyVal :=
  if (h.toNat / 2 ^ 18) % 4 ≠ 0 then .error stKEY_NOT_FOUND
  else
    let r := match handleClass h with
      | 0 => resolveCache s h
      | 1 => resolveVault s h
      | 2 => resolveExt s h
      | _ => .error stKEY_NOT_FOUND
    match r with
    | .ok k => if curveStale s k then .error stKEY_INVALID else .ok k
    | .error st => .error st

/-- The algorithm and parent generation that the slot, record or table entry of a handle gives, whether or not its key
resolves: what the length checks and the state area of R220 need before the key is resolved. -/
def handleInfo (s : State) (h : Word) : Option (Nat × Nat) :=
  let t := handleTenant h
  let slot := handleSlot h
  if (h.toNat / 2 ^ 18) % 4 ≠ 0 then none
  else match handleClass h with
    | 0 => ((oget s.keys slot).filter fun k => decide (k.tenant = t)).map fun k => (byteAt k.attr 2, k.parentGen)
    | 1 =>
      if slot = 0x3FFFF then (findAuth s t).map fun x => (byteAt x.2.attr 2, 0)
      else ((s.record slot).filter fun x => decide (x.tenant = t ∧ (x.typ = 4 ∨ (x.typ = 5 ∧ x.index = slot)))).map
        fun x => (byteAt x.attr 2, if x.typ = 5 then x.parentGen else 0)
    | 2 =>
      let b := memRead s.hbm ((s.tenant t).extBase * 4096 + 128 * slot) 128
      if slot < (s.tenant t).extCount ∧ byteAt b 0 = 5 ∧ byteAt b 1 ≠ 0 then some (byteAt b 22, field b 16 4) else none
    | _ => none

/-- The vault answers: RUNNING and not closed; BUSY while it starts, DEVICE_LOCKED while the device is locked. -/
def vaultStatus (s : State) : Option Nat :=
  if s.devLocked then some stDEVICE_LOCKED
  else if s.shut ∨ stateOf s .vlt ≠ stRunning then some stBUSY
  else none

/-- A resolution is counted (R216). -/
def countResolve (s : State) (r : Except Nat KeyVal) : State :=
  let s := s.bump .vlt VLT_RESOLVES
  match r with
  | .error st => if st = stKEY_ORPHANED then s.bump .vlt VLT_ORPHANS else s
  | .ok _ => s

/-- A key handle resolved for a lane, an engine or a command. -/
def resolveKey (s : State) (h : Word) : Except Nat KeyVal × State :=
  let r := match vaultStatus s with
    | some st => .error st
    | none => resolveRaw s h
  (r, countResolve s r)

/-- A handle names a public record of usage 51 or 53 of its tenant: what a locked device still resolves (R207). -/
def lockedServes (s : State) (h : Word) : Bool :=
  decide (handleClass h = 1) && decide ((h.toNat / 2 ^ 18) % 4 = 0) &&
    (if handleSlot h = 0x3FFFF then (findAuth s (handleTenant h)).isSome
     else (s.record (handleSlot h)).any fun x =>
       decide (x.typ = 4 ∧ x.tenant = handleTenant h ∧ (field x.attr 0 2 = usage '5' '1' ∨ field x.attr 0 2 = usage '5' '3')))

/-- A key resolved for a session; while the device is locked, a public record of usage 51 or 53 alone (R207). -/
def resolveCred (s : State) (h : Word) : Except Nat KeyVal × State :=
  let r := if s.shut ∨ stateOf s .vlt ≠ stRunning then .error stBUSY
    else if s.devLocked ∧ lockedServes s h = false then .error stDEVICE_LOCKED
    else resolveRaw s h
  (r, countResolve s r)

/-! ## Placing and removing keys (R184, R150, R205) -/

/-- Cache slots in use, and those of a tenant under its quota. -/
def slotsUsed (s : State) : Nat := (opresent s.keys).foldl (fun n e => n + e.2.slots) 0
/-- Cache slots that count against a tenant's quota. -/
def slotsOf (s : State) (t : Nat) : Nat :=
  (opresent s.keys).foldl (fun n e => if e.2.tenant = t ∧ e.2.session = false then n + e.2.slots else n) 0
/-- The lowest run of free cache slots. -/
def freeSlots (s : State) (n : Nat) : Option Nat :=
  freeRun n s.fuse.variant.keySlots 0 ((opresent s.keys).map fun e => (e.1, e.2.slots))

/-- Why a key of `len` bytes cannot be placed in a class for a tenant (R150, R203, R205, R363). -/
def placeStatus (s : State) (cls t len : Nat) : Option Nat :=
  let n := recsFor len
  if cls = 0 then
    (if (s.tenant t).qKeys < slotsOf s t + n then some stQUOTA
     else if (freeSlots s n).isNone then some stBUSY else none)
  else
    match recRoom s t n with
    | some st => some st
    | none => if allowance s < n ∨ (freeRecs s n).isNone then some stBUSY else none

/-- A key placed in the key cache at a slot. -/
def putCache (s : State) (slot t : Nat) (attr bits : Bytes) (parent parentGen : Nat) (opt : Bytes) (bound : Word)
    (session : Bool) : State :=
  let (m, s) := maskBytes s bits.length
  { s with keys := oset s.keys slot (some { tenant := t, attr := attr, parent := parent, parentGen := parentGen, felled := false, masked := xorB bits m, mask := m, slots := recsFor bits.length, opt := opt, bound := bound, session := session }) }

/-- A working key's records written from a vault index, each wrapped under its own key. -/
def putVault (s : State) (slot t : Nat) (attr bits tmk : Bytes) (parent parentGen : Nat) (opt : Bytes) (bound : Word) :
    State :=
  let parts := if bits = [] then [[]] else chunks 32 bits
  let pad := fun (b : Bytes) => fitR (extLen b.length) b
  let s := (List.range parts.length).foldl (fun s i =>
    writeRec s (slot + i)
      { typ := 5, felled := false, tenant := t, index := slot, gen := 0, parent := parent, parentGen := parentGen
        attr := attr, wseq := 0, wrap0 := kwWrap (aesEncK (aesKeys (level2Wrap tmk t (slot + i)))) (pad (parts.getD i []))
        wrap1 := [], pub := [], tag := [], len := bits.length, opt := opt, bound := bound }) s
  takeAllowance s parts.length

/-- A new working key of a tenant placed in a class under its active TMK: its handle. -/
def placeKey (s : State) (cls t : Nat) (attr bits opt : Bytes) (bound : Word) : Option (Word × State) :=
  let n := recsFor bits.length
  match activeTmk s t with
  | none => none
  | some i =>
    if cls = 0 then
      (freeSlots s n).map fun slot => (mkHandle 0 t slot, putCache s slot t attr bits i (tmkGen s t i) opt bound false)
    else match freeRecs s n, tmkOf s t i with
      | some slot, some tmk => some (mkHandle 1 t slot, putVault s slot t attr bits tmk i (tmkGen s t i) opt bound)
      | _, _ => none

/-- A handle's key zeroised and its slots or records freed (R150); a vault-class key takes from the allowance. -/
def removeKey (s : State) (h : Word) : State :=
  let slot := handleSlot h
  if handleClass h = 0 then { s with keys := oset s.keys slot none }
  else
    let n := match s.record slot with
      | some x => recsFor x.len
      | none => 1
    takeAllowance ((List.range n).foldl (fun s i => freeRec s (slot + i)) s) n

/-- A session key placed in one cache slot (R94): no parent, outside the quota. -/
def placeSession (s : State) (t : Nat) (key : Bytes) : Option (Nat × State) :=
  (freeSlots s 1).map fun slot => (slot, putCache s slot t (zeros 8) key 255 0 [] 0 true)
/-- A cache slot freed. -/
def freeKeySlot (s : State) (slot : Nat) : State := { s with keys := oset s.keys slot none }

end Sys2Proof.Machine
end

