-- ==== Sys2Proof/Machine/Lanes.lean ====
section
/-!
DEFINITION. Cipher and hash lanes: the queues and grants (R230, R364), the checks of R220 to R222, running a job
(R223 to R228, R234, R235), zeroising (R227), and the start-up vectors and tests (R232, R240, R241).
-/
namespace Sys2Proof.Machine

/-! ## Grants (R364) -/

/-- The tag at which a tenant of a queue would be granted. -/
def grantTag (s : State) (q t : Nat) : Nat :=
  max (mget (fun _ => 0) s.grants (2 ^ 20 + q)) (mget (fun _ => 0) s.grants (1024 * q + t))

/-- The job a queue grants next among those that may be taken: the tenant with the least tag, its oldest job. -/
def pickJob (s : State) (r : Nat) (u : UnitKind) (may : Job → Bool) : Option Job :=
  let q := queueKey r u
  let l := (s.queue r u).filter may
  l.foldl (fun best j =>
    match best with
    | none => some j
    | some b => if grantTag s q j.tenant < grantTag s q b.tenant then some j else best) none

/-- The job leaves its queue and its grant is counted. -/
def grantJob (s : State) (r : Nat) (u : UnitKind) (j : Job) : State :=
  let q := queueKey r u
  let tag := grantTag s q j.tenant
  let s := s.setQueue r u ((s.queue r u).erase j)
  let g := mset (fun _ => 0) s.grants (2 ^ 20 + q) tag
  { s with grants := mset (fun _ => 0) g (1024 * q + j.tenant) (tag + 2 ^ 32 / (max 1 (s.tenant j.tenant).share)) }

/-- The prefetch slot of a unit filled from its queue (R230). -/
def fillUnit (s : State) (p : PageId) (may : Job → Bool) : State :=
  match unitOf p with
  | some (r, u) =>
    if (s.lane p).pre.isSome then s
    else match pickJob s r u may with
      | some j => (grantJob s r u j).setLane p { s.lane p with pre := some j }
      | none => s
  | none => s

/-- The job a free unit binds: its own prefetched one, another unit's, or the next of the queue. -/
def takeJob (s : State) (p : PageId) (may : Job → Bool) : Option (Job × State) :=
  match unitOf p with
  | none => none
  | some (r, u) =>
    match (s.lane p).pre with
    | some j => some (j, s.setLane p { s.lane p with pre := none })
    | none =>
      match (unitPages r u).find? fun q => ((s.lane q).pre).isSome with
      | some q => (s.lane q).pre.map fun j => (j, s.setLane q { s.lane q with pre := none })
      | none => (pickJob s r u may).map fun j => (j, grantJob s r u j)

/-! ## Descriptors (R219) -/

/-- OP[7:4] of a descriptor. -/
def dOp (d : Bytes) : Nat := byteAt d 0 / 16
/-- OP[3:0]. -/
def dMode (d : Bytes) : Nat := byteAt d 0 % 16
/-- FLAGS.FIRST. -/
def dFirst (d : Bytes) : Bool := (byteAt d 1).testBit 0
/-- FLAGS.LAST. -/
def dLast (d : Bytes) : Bool := (byteAt d 1).testBit 1
/-- FLAGS.IV_RANDOM. -/
def dRandom (d : Bytes) : Bool := (byteAt d 1).testBit 2
/-- FLAGS padding. -/
def dPad (d : Bytes) : Nat := byteAt d 1 / 16 % 4
/-- CW. -/
def dCw (d : Bytes) : Nat := byteAt d 2
/-- TAGLEN. -/
def dTag (d : Bytes) : Nat := byteAt d 3
/-- KEY. -/
def dKey (d : Bytes) : Word := BitVec.ofNat 32 (field d 4 4)
/-- SRC. -/
def dSrc (d : Bytes) : Nat := field d 8 8
/-- DST. -/
def dDst (d : Bytes) : Nat := field d 16 8
/-- LEN. -/
def dLen (d : Bytes) : Nat := field d 24 4
/-- AADLEN. -/
def dAad (d : Bytes) : Nat := field d 28 4
/-- IV. -/
def dIv (d : Bytes) : Bytes := slice d 32 16
/-- STATE. -/
def dState (d : Bytes) : Nat := field d 48 8
/-- CMP. -/
def dCmp (d : Bytes) : Nat := field d 56 8

/-- A completion word of R223. -/
def laneWord (status blocks outLen : Nat) (out16 : Bytes) : Bytes :=
  beBytes 2 status ++ [0, 0] ++ beBytes 4 blocks ++ beBytes 4 outLen ++ zeros 4 ++ fitR 16 out16

/-- What a state area is bound to (R228). -/
def areaAad (j : Job) (parentGen : Nat) : Bytes :=
  beBytes 2 j.tenant ++ slice j.desc 4 4 ++ beBytes 4 parentGen ++ slice j.desc 0 1 ++
    [(match j.unit with | .hash => 1 | _ => 0 : Byte)]
/-- The state area of a job read from memory. -/
def readArea (s : State) (r : Nat) (j : Job) : Bytes := fabricRead s r j.core (dState j.desc) 128
/-- A hash job names a keyed hash. -/
def hashKeyed (d : Bytes) : Bool := decide (4 ≤ dMode d)
/-- The parent generation of a job's key; 0 for a plain hash, which has no key, and for a handle that names none. -/
def jobParentGen (s : State) (j : Job) : Nat :=
  if j.unit = .hash ∧ hashKeyed j.desc = false then 0 else ((handleInfo s (dKey j.desc)).map Prod.snd).getD 0
/-- The chain of a job that continues, when its area verifies under a parent generation. -/
def jobChain (s : State) (r : Nat) (j : Job) (gen : Nat) : Option Chain :=
  (openArea (mget (fun _ => []) s.stateKeys r) (areaAad j gen) (readArea s r j)).map
    (chainOf (decide (j.unit = .hash)))

/-! ## Checks (R218, R220, R221, R222, R234, R235) -/

/-- Step 1 of a cipher job: encodings. -/
def cipherEncodings (d : Bytes) : Bool :=
  let op := dOp d
  let m := dMode d
  decide (op ≤ 3 ∧ m ≤ 9) &&
  (if m ≤ 6 then decide (op ≤ 1) else decide (2 ≤ op) || decide (op = 0 ∧ m = 7)) &&
  decide (byteAt d 1 / 64 = 0 ∧ (byteAt d 1).testBit 3 = false ∧ dPad d ≤ 2) &&
  (if m = 5 then decide (1 ≤ dCw d ∧ dCw d ≤ 16) else if m = 6 then true else decide (dCw d = 0))

/-- Step 2 of a cipher job: lengths and modes, by the algorithm its handle gives.  Where the handle names no key, what no
algorithm admits is refused and the rest is left to step 5 (log 108). -/
def cipherLengths (d : Bytes) (alg : Option Nat) : Option Nat :=
  let m := dMode d
  let tdes := decide (alg = some 'T'.toNat)
  let aes := decide (alg = some 'A'.toNat)
  let n := if tdes then 8 else 16
  let whole := decide (dLen d % (if aes then 16 else 8) = 0)
  if (tdes && decide (m = 6 ∨ m = 7)) || (aes && decide (m = 8 ∨ m = 9)) || (alg.isSome && ! tdes && ! aes) then
    some stOPERAND_RANGE
  else if m = 5 ∧ n < dCw d then some stFORMAT
  else if m = 6 ∧ slice d 44 4 ≠ zeros 4 then some stOPERAND_RANGE
  else if m = 6 ∧ (dTag d < 12 ∨ 16 < dTag d) then some stOPERAND_RANGE
  else if 7 ≤ m ∧ (dTag d < 4 ∨ n < dTag d) then some stOPERAND_RANGE
  else if tdes ∧ 8 * 2 ^ 20 < dLen d then some stOPERAND_RANGE
  else if 2 ^ 24 < dLen d then some stLENGTH
  else if (m = 0 ∨ m = 1 ∨ ((m = 8 ∨ m = 9) ∧ dPad d = 0)) ∧ whole = false then some stLENGTH
  else if dLast d = false ∧ whole = false then some stLENGTH
  else if m = 6 ∧ dFirst d = false ∧ dAad d ≠ 0 then some stLENGTH
  else none

/-- The ranges a job touches (step 3). -/
def jobRanges (d : Bytes) (writes : Bool) (cmp : Nat) (cmpKind : AccessKind) : List (AccessKind × Nat × Nat) :=
  [(.read, dSrc d, dAad d + dLen d)] ++
  (if writes then [(.write, dDst d, dLen d)] else []) ++
  (if dFirst d then [] else [(.read, dState d, 128)]) ++
  (if dLast d then [] else [(.write, dState d, 128)]) ++
  (if cmp = 0 then [] else [(cmpKind, dCmp d, cmp)])

/-- Step 5, mode of use: R221 and R222. -/
def modeOfUse (d : Bytes) (seg mode : Nat) : Bool :=
  let op := dOp d
  let m := dMode d
  let is := fun (c : Char) => decide (mode = c.toNat)
  if m = 0 ∧ seg ≠ 0 then false
  else if is 'X' then
    decide (seg = 0 ∧ op = 0 ∧ (m = 0 ∨ m = 1 ∨ m = 7))
  else match op with
    | 0 => is 'B' || is 'E'
    | 1 => is 'B' || is 'D'
    | 2 => is 'C' || is 'G'
    | _ => is 'C' || is 'V'

/-- A resolved key serves a cipher lane: KEY_USAGE, or KEY_INVALID for equal TDES parts (R114, R218). -/
def cipherKeyStatus (d : Bytes) (seg : Nat) (k : KeyVal) : Option Nat :=
  let n := k.bits.length
  if modeOfUse d seg k.mode = false then some stKEY_USAGE
  else if k.alg = 'A'.toNat then (if n = 16 ∨ n = 24 ∨ n = 32 then none else some stKEY_INVALID)
  else if k.alg = 'T'.toNat then
    (if n = 8 then some stKEY_USAGE
     else if n ≠ 16 ∧ n ≠ 24 then some stKEY_INVALID
     else if slice k.bits 0 8 = slice k.bits 8 8 ∨ (n = 24 ∧ slice k.bits 8 8 = slice k.bits 16 8) then some stKEY_INVALID
     else none)
  else some stOPERAND_RANGE

/-- Random words of a job: from the reservation it was sent with, or the boom (R297, R331). -/
def jobWords (s : State) (r : Nat) (j : Job) (n : Nat) : Option (List Bytes) × State :=
  if j.resv then
    let c := s.core j.core
    if n ≤ c.words.length then (some (c.words.take n), s.setCore j.core { c with words := c.words.drop n })
    else (none, s)
  else boomDraw s r n (some j.tenant)

/-- A job accepted, with its key and random bytes, or the status that refuses it. -/
abbrev BindRes := Except Nat Job × State

/-- The algorithm of a job's key, where its handle names one. -/
def jobAlg (s : State) (d : Bytes) : Option Nat := (handleInfo s (dKey d)).map Prod.fst

/-- A TDES job passes 2^20 blocks with this segment (R218). -/
def tdesSpent (s : State) (r : Nat) (j : Job) : Bool :=
  decide (jobAlg s j.desc = some 'T'.toNat) &&
    (match jobChain s r j (jobParentGen s j) with
     | some c => decide (8 * 2 ^ 20 < c.data + dLen j.desc)
     | none => false)

/-- The key of the session whose frame a dispatcher's decrypt job opens (R92). -/
def sessionKey (s : State) (id : Nat) : Option Bytes :=
  (s.item id).bind fun i => (s.session i.session).map fun se => fitR 32 (cacheKey s se.slotIn)

/-- Steps 1 to 6 of R220 for a cipher job of region `r`.  A dispatcher's decrypt job names its session's key.  Step 6 asks
for random words wherever IV_RANDOM is set; a job draws them where it takes an IV, on FIRST in modes 1 to 6. -/
def cipherCheck (s : State) (r : Nat) (j : Job) : BindRes :=
  let d := j.desc
  let known := jobAlg s d
  if j.slot = noSlot then (.ok { j with key := sessionKey s j.item, alg := 'A'.toNat }, s)
  else if cipherEncodings d = false then (.error stFORMAT, s)
  else match cipherLengths d known with
    | some st => (.error st, s)
    | none =>
      let writes := decide (dMode d ≤ 6)
      let cmp := if dOp d = 3 ∨ (dOp d = 1 ∧ dMode d = 6 ∧ dLast d) then dTag d else 0
      let (ok, s) := fabricRanges s (10 + r) r (some j.tenant) (j.seg = 0) (jobRanges d writes cmp .read)
      if ok = false ∨ handleTenant (dKey d) ≠ j.tenant then (.error stNOT_AUTHORISED, s)
      else if dFirst d = false ∧ (jobChain s r j (jobParentGen s j)).isNone then (.error stFORMAT, s)
      else if dFirst d = false ∧ tdesSpent s r j then (.error stOPERAND_RANGE, s)
      else
        let (k, s) := resolveKey s (dKey d)
        match k with
        | .error st => (.error st, s)
        | .ok k =>
          match cipherKeyStatus d j.seg k with
          | some st => (.error st, s)
          | none =>
            if dRandom d ∧ dFirst d ∧ dMode d ≠ 0 ∧ dMode d ≤ 6 then
              let (w, s) := jobWords s r j (if k.alg = 'T'.toNat then 1 else 2)
              match w with
              | some ws => (.ok { j with key := some k.bits, alg := k.alg, parentGen := k.parentGen, words := ws }, s)
              | none => (.error stRNG_UNAVAILABLE, s)
            else if dRandom d ∧ (jobWords s r j (if k.alg = 'T'.toNat then 1 else 2)).1 = none then
              (.error stRNG_UNAVAILABLE, s)
            else (.ok { j with key := some k.bits, alg := k.alg, parentGen := k.parentGen }, s)

/-- Step 1 of a hash job: its codes, and the fields that must be zero (R234). -/
def hashEncodings (d : Bytes) : Bool :=
  decide (dOp d = 2 ∨ (dOp d = 3 ∧ hashKeyed d)) && decide (dMode d ≠ 3 ∧ dMode d ≤ 6) && decide (byteAt d 1 < 4) &&
    decide (dIv d = zeros 16 ∧ dCw d = 0 ∧ dAad d = 0 ∧ dDst d = 0) && (hashKeyed d || decide (dKey d = 0))

/-- Steps 1 to 5 for a hash job (R234, R235). -/
def hashCheck (s : State) (r : Nat) (j : Job) : BindRes :=
  let d := j.desc
  let keyed := hashKeyed d
  let (k, _, len) := hashOf (dMode d)
  if hashEncodings d = false then (.error stFORMAT, s)
  else if (keyed ∧ (dTag d < 16 ∨ len < dTag d)) ∨ (keyed = false ∧ dTag d ≠ 0 ∧ dTag d ≠ len) then
    (.error stOPERAND_RANGE, s)
  else if 2 ^ 24 < dLen d ∨ (dLast d = false ∧ dLen d % k.blk ≠ 0) then (.error stLENGTH, s)
  else
    let cmp := if dLast d = false then 0 else if dOp d = 3 then dTag d
      else if 16 < (if dTag d = 0 then len else dTag d) then 64 else 0
    let kind := if dOp d = 3 then AccessKind.read else .write
    let (ok, s) := fabricRanges s (10 + r) r (some j.tenant) (j.seg = 0) (jobRanges d false cmp kind)
    if ok = false ∨ (keyed ∧ handleTenant (dKey d) ≠ j.tenant) then (.error stNOT_AUTHORISED, s)
    else if dFirst d = false ∧ (jobChain s r j (jobParentGen s j)).isNone then (.error stFORMAT, s)
    else if keyed then
      let (k, s) := resolveKey s (dKey d)
      match k with
      | .error st => (.error st, s)
      | .ok k =>
        let use := if dOp d = 2 then [chr 'C', chr 'G'] else [chr 'C', chr 'V']
        if k.usage ≠ usage 'M' '7' ∨ k.alg ≠ chr 'H' ∨ ¬ k.mode ∈ use then (.error stKEY_USAGE, s)
        else (.ok { j with key := some k.bits, alg := k.alg, parentGen := k.parentGen }, s)
    else (.ok j, s)

/-! ## Binding and running -/

/-- The counters of a lane's page: jobs, refused, verify failures (R240, R241). -/
def laneFld (p : PageId) (c h : Fld) : Fld := match p with | .hsh _ _ => h | _ => c

/-- The item of a job stamped when its first job is bound and its last one completes (R447). -/
def stampItem (s : State) (id : Nat) (f : Option Nat × Option Nat × Option Nat → Option Nat × Option Nat × Option Nat) : State :=
  match s.item id with
  | some i => s.setItem id (some { i with stamps := i.stamps.map fun t => (t.1, f t.2) })
  | none => s

/-- FORMAT came from the state area, the encodings being good (R220, step 4). -/
def areaRefused (s : State) (j : Job) (st : Nat) : Bool :=
  decide (st = stFORMAT ∧ dFirst j.desc = false) &&
    (match j.unit with
     | .hash => hashEncodings j.desc
     | _ => cipherEncodings j.desc && decide (cipherLengths j.desc (jobAlg s j.desc) = none))

/-- A job refused at its checks posts its completion; a refused state area raises IRQST.BLOCK[18] (R220, R240). -/
def refuseJob (s : State) (p : PageId) (j : Job) (st : Nat) : State :=
  let s := s.bump p (laneFld p CPH_REFUSED HSH_REFUSED)
  let s := if areaRefused s j st then setIrq s p 18 else s
  complete s j.core j.slot (laneWord st 0 0 [])

/-- A lane that can take work. -/
def laneReady (s : State) (p : PageId) : Bool :=
  running s p && ! isSparePage p && (s.lane p).cur.isNone && (s.lane p).sealing.isNone

/-- The next job bound to a free unit and checked. -/
def bindJob (s : State) (p : PageId) (r : Nat) (check : State → Nat → Job → BindRes) : State :=
  match takeJob s p fun _ => true with
  | some (j, s) =>
    let (res, s) := check s r j
    match res with
    | .ok j => stampItem (s.setLane p { s.lane p with cur := some { j with bound := s.time.ns } }) j.item
        fun t => (t.1, some (t.2.1.getD s.time.ns), t.2.2)
    | .error st => refuseJob s p j st
  | none => s

/-- A free unit takes its work: a cipher lane an egress seal job ahead of every job of the lane queue (R230).  The lane's
prefetch slot is filled. -/
def bindLane (s : State) (p : PageId) (check : State → Nat → Job → BindRes) : State :=
  match unitOf p with
  | none => s
  | some (r, u) =>
    let s := if laneReady s p then
        (match u, s.seals r with
         | .cipher, x :: l => (s.setSeals r l).setLane p { s.lane p with sealing := some x }
         | _, _ => bindJob s p r check)
      else s
    if running s p && ! isSparePage p then fillUnit s p fun _ => true else s

/-- CIPHER_JOB_BIND on the lane at position `k` of region `r`. -/
def execCipherJobBind (r k : Nat) (s : State) : Res := .next (bindLane s (.cph r k) cipherCheck)
/-- HASH_JOB_BIND. -/
def execHashJobBind (r k : Nat) (s : State) : Res := .next (bindLane s (.hsh r k) hashCheck)

/-- A unit's write to memory; local data only while the core still runs the job's task. -/
def jobWrite (s : State) (r : Nat) (j : Job) (a : Nat) (b : Bytes) : State :=
  if b = [] then s
  else if a / 2 ^ 56 = 0 ∧ (s.core j.core).run ≠ some j.item then s
  else fabricWrite s r j.core a b

/-- What a cipher segment computes from memory. -/
def cipherRun (s : State) (r : Nat) (j : Job) : SegOut :=
  let d := j.desc
  let key := j.key.getD []
  let c := cipherOf j.alg key
  let iv := if j.words = [] then (dIv d).take (if dMode d = 6 then 12 else c.n)
    else (j.words.flatten).take (if dMode d = 6 then 12 else c.n)
  let ch := if dFirst d then Chain.start iv else (jobChain s r j j.parentGen).getD (Chain.start iv)
  let src := fabricRead s r j.core (dSrc d) (dAad d + dLen d)
  let m := src.drop (dAad d)
  let dec := decide (dOp d = 1)
  match dMode d with
  | 5 => ctrSeg c (dCw d) ch m
  | 6 => gcmSeg c dec (dFirst d) (dLast d) ch (src.take (dAad d)) m (dTag d)
  | 7 | 8 | 9 => macSeg c key (dMode d) (dPad d) (dLast d) ch m (dTag d)
  | k => cipherSeg c k dec ch m

/-- The state area written where LAST is clear (R228). -/
def writeArea (s : State) (r : Nat) (j : Job) (ch : Chain) : State :=
  if dLast j.desc then s
  else
    let a := sealArea (mget (fun _ => []) s.stateKeys r) s.sealed (areaAad j j.parentGen)
      (chainBytes (decide (j.unit = .hash)) ch)
    jobWrite { s with sealed := s.sealed + 1 } r j (dState j.desc) a

/-- A job that ended counted on its lane's page, with its blocks. -/
def countJob (s : State) (p : PageId) (blocks : Nat) : State :=
  let s := s.bump p (laneFld p CPH_JOBS HSH_JOBS)
  let b := s.fld p (laneFld p CPH_BLOCKS_LO HSH_BLOCKS_LO) + s.fld p (laneFld p CPH_BLOCKS_HI HSH_BLOCKS_HI) * 2 ^ 32 + blocks
  (s.setFld p (laneFld p CPH_BLOCKS_LO HSH_BLOCKS_LO) b).setFld p (laneFld p CPH_BLOCKS_HI HSH_BLOCKS_HI) (b / 2 ^ 32)

/-- Blocks of 16 bytes. -/
def gcmBlocks (n : Nat) : Nat := (n + 15) / 16

/-- A lane ends an egress seal job, and the response goes on its way (R230). -/
def endSeal (s : State) (p : PageId) (r : Nat) (x : SealJob) : State :=
  let n := gcmBlocks x.payload.length
  let s := countJob (s.setLane p { s.lane p with sealing := none }) p n
  let s := pmcEvent (pmcEvent s r 0x07 (some x.item.tenant)) r 0x08 (some x.item.tenant) n
  sendSealed s x

/-- The end of a job: its unit free, counted, and its completion posted. -/
def endJob (s : State) (p : PageId) (r : Nat) (j : Job) (st blocks outLen : Nat) (out16 : Bytes) (ev evB : Nat) : State :=
  let s := countJob (s.setLane p { s.lane p with cur := none }) p blocks
  let s := if st = stVERIFY_FAIL then s.bump p (laneFld p CPH_VFAIL HSH_VFAIL) else s
  let s := if st = stCOUNTER_EXHAUSTED then setIrq (s.bump p CPH_CTREXH) p 17 else s
  let s := pmcEvent s r ev (some j.tenant)
  let s := if evB = 0 then s else pmcEvent s r evB (some j.tenant) blocks
  let s := stampItem s j.item fun t => (t.1, t.2.1, some s.time.ns)
  complete s j.core j.slot (laneWord st blocks outLen out16)

/-! ## Vectors and tests (R232, R240, R241) -/

/-- A spare position holds a healthy spare (R44). -/
def healthySpare (s : State) (p : PageId) : Bool := present s p && decide (s.fld p STAT_STATE = stStopped)
/-- The healthy spares a page can draw on. -/
def sparesFor (s : State) (p : PageId) : List PageId := (sparesOf p).filter (healthySpare s)
/-- The logical pages of a spare's pool. -/
def poolOf : PageId → List PageId
  | .ccr _ => (List.range 8).map PageId.ccr
  | .kcr r _ => (List.range 32).map (PageId.kcr r)
  | .cph r _ => (List.range 16).map (PageId.cph r)
  | .hsh r _ => (List.range 4).map (PageId.hsh r)
  | .pke r _ => (List.range 4).map (PageId.pke r)
  | _ => []

/-- SPARE.LEFT on every page of a pool. -/
def refreshSpares (s : State) (p : PageId) : State :=
  let n := (sparesFor s p).length
  (poolOf p ++ sparesOf p).foldl (fun s q => if present s q then s.setFld q SPARE_LEFT n else s) s

/-- The result of a vector run on a page's site: none passes, else the first failing vector. -/
def katResult (s : State) (p : PageId) (pass vec fail : Fld) (code : Nat) (res : Option Nat) : State :=
  match res with
  | none => (s.bump p pass).setFlag p fail false
  | some v =>
    let s := (s.setFld p vec v).setFlag p fail true
    refreshSpares (setIrq (failPage s p code false) p 16) p

/-- A test of a site is taken: the page stopped, or the write is refused (R54), and TEST_EN set. -/
def testTaken (s : State) (p : PageId) : Except State Unit :=
  if live s p = false then .error s
  else if stateOf s p ≠ stOff ∧ stateOf s p ≠ stStopped then .error (accessErr s p)
  else if s.flag p CTRL_TEST_EN = false then .error s
  else .ok ()

/-- CPH_TEST_RUN on the site behind a page, with the run's result. -/
def execCphTestRun (r k : Nat) (res : Option Byte) (s : State) : Res := onComplex s <|
  match testTaken s (.cph r k) with
  | .error s => .next s
  | .ok _ => .next (katResult s (.cph r k) CPH_KAT_PASS CPH_KAT_VECTOR CPH_KAT_FAIL 0x53 (res.map BitVec.toNat))
/-- HSH_TEST_RUN. -/
def execHshTestRun (r k : Nat) (res : Option Byte) (s : State) : Res := onComplex s <|
  match testTaken s (.hsh r k) with
  | .error s => .next s
  | .ok _ => .next (katResult s (.hsh r k) HSH_KAT_PASS HSH_KAT_VECTOR HSH_KAT_FAIL 0x5B (res.map BitVec.toNat))

/-- A vector run over all the sites of a pool, in site order: passing sites fill the logical instances and then the
spare positions, failing ones the places that are left, marked FAILED (R232).  SPARE and STAT.SPARE_IN_USE follow (R46). -/
def poolVectors (s : State) (logical spares : List PageId) (fails : List (Nat × Byte)) (pass vec fail : Fld)
    (code : Nat) : State :=
  let pages := logical ++ spares
  let n := pages.length
  let sites := pages.map unitPos
  let good := sites.filter fun x => ! fails.any fun f => f.1 = x
  let bad := sites.filter fun x => fails.any fun f => f.1 = x
  let s := (List.range n).foldl (fun s i =>
    match pages[i]?, (good ++ bad)[i]? with
    | some p, some site =>
      let s := (s.setFld p SPARE_SITE site).setFlag p STAT_SPARE_IN_USE (! isSparePage p && decide (site ≠ unitPos p))
      if i < good.length then
        let s := katResult s p pass vec fail code none
        if isSparePage p then setState s p stStopped else s
      else katResult s p pass vec fail code (some (((fails.find? fun f => f.1 = site).map fun f => f.2.toNat).getD 0))
    | _, _ => s) s
  match pages with
  | p :: _ => refreshSpares s p
  | [] => s

/-- The logical pages of a unit kind that a part has in a region. -/
def logicalPages (s : State) (r : Nat) (u : UnitKind) : List PageId := (unitPages r u).filter fun p => present s p

/-- LANE_STARTUP_VECTORS_DONE in region `r`: the sites that fail, with their first failing vectors. -/
def execLaneStartupVectorsDone (r : Nat) (cphFails hshFails : List (Nat × Byte)) (s : State) : Res :=
  if live s (.cls r) = false then .next s
  else
    let s := poolVectors s (logicalPages s r .cipher) [.cph r 16, .cph r 17] cphFails CPH_KAT_PASS CPH_KAT_VECTOR CPH_KAT_FAIL 0x53
    .next (poolVectors s (logicalPages s r .hash) [.hsh r 4] hshFails HSH_KAT_PASS HSH_KAT_VECTOR HSH_KAT_FAIL 0x5B)

end Sys2Proof.Machine
end

