-- ==== Sys2Proof/Machine/PairBase.lean ====
section
/-!
DEFINITION. Fencing of the host ports and the role changes of the pair that need no partner's state (R75, R383,
R391, R393, R395, R396, R400).
-/
namespace Sys2Proof.Machine

/-- The fitted host ports. -/
def hostPorts (s : State) : List Nat := (List.range 128).filter fun p => portFitted s p

/-- The responses queued at a port discarded and counted; one in transmission is sent whole where `keep` is set
(R58, R59, R75). -/
def discardTx (keep : Bool) (s : State) (p : Nat) : State :=
  let q := s.port p
  let n := if keep && q.sending then 1 else 0
  countDisc (s.setPort p { q with tx := q.tx.take n, sending := decide (n = 1) && q.sending }) p (q.tx.length - n)

/-- The host ports are braked: transmission stops at the frame boundary (R75). -/
def brakePorts (s : State) : State := (hostPorts s).foldl (discardTx true) s

/-- Replies that wait for an acknowledgement are discarded and counted; so are those that wait for a sequence number
(R395). -/
def discardHeld (s : State) : State :=
  { s.bump .par PAIR_DISC (s.held.filter fun h => h.epoch.isSome).length with held := [] }

/-- Replies that wait leave, oldest first, while their sequence numbers are acknowledged and their epoch is at or
below `e` (R391, R396). -/
def releaseHeld (s : State) (e : Option Nat) : State :=
  s.held.foldl (fun (acc : State) (h : HeldReply) =>
    let ready := match h.epoch with
      | some n => (match e with | some m => decide (n ≤ m) | none => true)
      | none => true
    if ready && seqAllows acc h.item then settleClose (respondSend acc h.item h.status h.payload h.dup) h.item.session
    else { acc with held := acc.held ++ [h] }) { s with held := [] }

/-- The role changes (R383, R401, R439): the host ports are braked on entry to a fenced role. -/
def setRole (s : State) (role cause : Nat) : State :=
  let old := s.role
  if old = role then s
  else
    let s := (s.setFld .par PAIR_STATUS_ROLE role).setFld .par PAIR_LASTROLE cause
    let s := postEvent (setIrq s .par 16) .par 0x7001 (BitVec.ofNat 32 old) (BitVec.ofNat 32 role) (BitVec.ofNat 32 cause)
    if fencedRole role then brakePorts s else s

/-- The cause of a role change that R401 does not list (log 26). -/
def openCause (s : State) : Nat := (Config.roleCause s.fresh).toNat

/-- Every held item of the unit ends: with a status, or without a response (R395). -/
def endAllItems (s : State) (st : Option Nat) : State :=
  (opresent s.items).foldl (fun s e =>
    match s.item e.1 with
    | some i => (match st with | some st => endItem s i st | none => dropItem s i)
    | none => s) s

/-- PAIR_STATUS.UNACKED follows the deltas that are not acknowledged, and PAIR_BACKLOG the bytes that wait to be sent,
which are never more than theirs (R389, R401). -/
def refreshBacklog (s : State) (waiting : Nat) : State :=
  let s := s.setFld .par PAIR_STATUS_UNACKED (min 255 s.pair.unacked.length)
  let bytes := min (min waiting (s.pair.unacked.foldl (fun n e => n + e.bytes) 0)) 0xFFFFFF
  let beyond := decide (s.fld .par PAIR_BACKLOG_MAX * 1024 < bytes)
  let was := decide (s.fld .par PAIR_BACKLOG_MAX * 1024 < s.fld .par PAIR_BACKLOG)
  let s := s.setFld .par PAIR_BACKLOG bytes
  if beyond && ! was then setIrq s .par 20 else s

/-- The unit stops leasing: every lease is dropped (R390). -/
def unpair (s : State) : State :=
  refreshBacklog
    { s with leases := [], pair := { s.pair with paired := false, silent := 0, heard := false, unacked := [], switching := false } } 0

/-- An ACTIVE unit goes on without a partner (R393, R400): held replies leave at once. -/
def becomeAlone (s : State) (cause : Nat) : State :=
  releaseHeld (unpair (setRole s roALONE cause)) none

/-- An ACTIVE unit is fenced: work in flight receives no response (R393, R395). -/
def becomeFenced (s : State) (cause : Nat) : State :=
  discardHeld (endAllItems (unpair (setRole s roFENCED cause)) none)

/-- The unit serves nobody and follows nobody (R384, R400). -/
def becomeNone (s : State) (cause : Nat) : State := unpair (setRole s roNONE cause)

/-- The backlog exceeds its limit: state-changing and counter-consuming work is refused (R389). -/
def backlogOver (s : State) : Bool :=
  decide (s.role = roACTIVE) && decide (s.fld .par PAIR_BACKLOG_MAX * 1024 < s.fld .par PAIR_BACKLOG)

/-- The pair link session closes (R381, R400). -/
def linkClosed (s : State) : State :=
  let s := s.setFlag .par PAIR_STATUS_LINK_UP false
  { s with pair := { s.pair with partner := roNONE } }

/-- PAIR_HB_OUT toggles while PAR is RUNNING and the unit has not stopped (R386). -/
def heartbeatOut (s : State) : State :=
  { s with balls := { s.balls with hbOut := running s .par && s.chipFault.isNone } }

/-- The unit goes on without PAR: in ALONE if it was ACTIVE, otherwise in NONE (R400). -/
def pairLeaves (s : State) (cause : Nat) : State :=
  let s := linkClosed { s with pair := { s.pair with joining := false } }
  if s.role = roACTIVE then becomeAlone s cause else becomeNone s cause

/-- CTRL.EN cleared on PAR (R400). -/
def pairDisable (s : State) : State := pairLeaves s 5

/-- An uncorrectable error in PAR's delta buffers or link logic (R400): no chip-level fault. -/
def parFail (s : State) (code : Nat) (parity : Bool) : State :=
  heartbeatOut (pairLeaves (failPage s .par code parity).takeFresh (openCause s))

end Sys2Proof.Machine
end

