-- ==== Sys2Proof/Machine/LifeState.lean ====
section
/-!
DEFINITION. The life-cycle state as the OTP slots give it (R422 to R426).
-/
namespace Sys2Proof.Machine

/-- Life-cycle codes of R422. -/
abbrev lcBLANK : Nat := 0x00
abbrev lcFACTORY : Nat := 0x20
abbrev lcSHIPPED : Nat := 0x30
abbrev lcOWNED : Nat := 0x40
abbrev lcDEBUG : Nat := 0x50
abbrev lcSCRAP : Nat := 0x60
abbrev lcINVALID : Nat := 0xFF
/-- TEST_UNLOCKED_n. -/
def lcTest (c : Nat) : Bool := decide (0x10 ≤ c ∧ c ≤ 0x1F)

/-- A code of R422 that a slot may hold. -/
def lcCode (c : Nat) : Bool := lcTest c || decide (c ∈ [lcFACTORY, lcSHIPPED, lcOWNED, lcDEBUG, lcSCRAP])

/-- The code word of a state (R423). -/
def codeWord (c : Nat) : Word := BitVec.ofNat 32 (c * 0x0101 * 65536 + (65535 - c * 0x0101))

/-- The state a slot holds; none for a word that is no code word. -/
def slotState (w : Word) : Option Nat :=
  let c := w.toNat / 2 ^ 24
  if lcCode c ∧ codeWord c = w then some c else none

/-- A test token is consumed when a slot holds its state (R425). -/
def tokenConsumed (slots : List Word) (m : Nat) : Bool := slots.any fun w => slotState w = some (0x10 + m)

/-- A permitted successor (R426), given the slots written so far. -/
def successor (written : List Word) (a b : Nat) : Bool :=
  if lcTest a then decide (b = lcFACTORY ∨ b = lcSCRAP)
  else if a = lcBLANK then decide (b = 0x10 ∨ b = lcSCRAP)
  else if a = lcFACTORY then
    (lcTest b && (List.range 16).all fun m => ! tokenConsumed written m || decide (0x10 + m < b)) ||
      decide (b = lcSHIPPED ∨ b = lcSCRAP)
  else if a = lcSHIPPED then decide (b = lcOWNED ∨ b = lcSCRAP)
  else if a = lcOWNED then decide (b = lcDEBUG ∨ b = lcSCRAP)
  else if a = lcDEBUG then decide (b = lcSCRAP)
  else false

/-- The state after a run of slots, INVALID where one breaks R424. -/
def decodeFrom : Nat → List Word → List Word → Nat
  | cur, _, [] => cur
  | cur, written, w :: l =>
    match slotState w with
    | some c => if successor written cur c then decodeFrom c (written ++ [w]) l else lcINVALID
    | none => lcINVALID

/-- The decoded state; `slots` holds the written slots in order. -/
def lcDecode (slots : List Word) : Nat := if 40 < slots.length then lcINVALID else decodeFrom lcBLANK [] slots

/-- The life-cycle state of the part. -/
def lifeState (s : State) : Nat := lcDecode s.fuse.slots

/-- Unsigned code runs, and the debug master is on (R422). -/
def lifeOpen (s : State) : Bool := lcTest (lifeState s) || decide (lifeState s = lcDEBUG)

end Sys2Proof.Machine
end

