-- ==== Sys2Proof/Machine/Rng.lean ====
section
/-!
DEFINITION. The entropy source (R291 to R294, R299, R302) and the random expanders (R295 to R297, R299).
-/
namespace Sys2Proof.Machine

/-- A set of oscillator sites, 0 to 39, held in two registers. -/
def siteSet (s : State) (lo hi : Fld) : Nat := s.fld .rng lo + s.fld .rng hi * 2 ^ 32
/-- It stored. -/
def setSites (s : State) (lo hi : Fld) (m : Nat) : State := (s.setFld .rng lo m).setFld .rng hi (m / 2 ^ 32)
/-- Sites failed. -/
def oscFail (s : State) : Nat := siteSet s RNG_OSC_FAIL_LO RNG_OSC_FAIL_HI
/-- Sites in use. -/
def oscUse (s : State) : Nat := siteSet s RNG_OSC_USE_LO RNG_OSC_USE_HI
/-- The members of a site set. -/
def sitesOf (m : Nat) : List Nat := (List.range 40).filter fun i => m.testBit i
/-- A site set from its members. -/
def siteMask (l : List Nat) : Nat := (l.eraseDups).foldl (fun n i => n + 2 ^ i) 0
/-- Healthy sites. -/
def healthySites (s : State) : Nat := 40 - (sitesOf (oscFail s)).length

/-- The healthy sites that are not in use: the spares. -/
def oscSpares (s : State) : List Nat :=
  (List.range 40).filter fun i => ! (oscUse s).testBit i && ! (oscFail s).testBit i

/-- HEALTHY, BELOW_MIN and SPARE.LEFT follow the failed sites and those in use (R46, R293). -/
def refreshSource (s : State) : State :=
  let s := (s.setFld .rng RNG_SRC_STATUS_HEALTHY (healthySites s)).setFld .rng SPARE_LEFT (oscSpares s).length
  let below := decide (healthySites s < s.fld .rng RNG_CFG_MIN_OSC)
  let was := s.flag .rng RNG_SRC_STATUS_BELOW_MIN
  let s := s.setFlag .rng RNG_SRC_STATUS_BELOW_MIN below
  if below && ! was then setIrq s .rng 17 else s

/-- The seed queue stored, with its count. -/
def setSeedQ (s : State) (q : List Bytes) : State :=
  { s.setFld .rng RNG_SRC_STATUS_SEEDQ q.length with seedQ := q }

/-- Raw sample mode is on. -/
def rawMode (s : State) : Bool := s.flag .rng RNG_RAW_CTRL_EN

/-- SOURCE_STARTUP_DONE: the start-up tests end with the sites that fail them; passing sites fill the 32 positions in
site order (R299). -/
def execSourceStartupDone (fails : List Nat) (s : State) : Res :=
  if stateOf s .rng ≠ stStarting then .next s
  else
    let bad := fails.filter (· < 40)
    let good := (List.range 40).filter fun i => ! bad.contains i
    let s := setSites s RNG_OSC_FAIL_LO RNG_OSC_FAIL_HI (siteMask bad)
    let s := setSites s RNG_OSC_USE_LO RNG_OSC_USE_HI (siteMask (good.take 32))
    let s := s.setFlag .rng RNG_SRC_STATUS_STARTUP_DONE true
    let s := (s.setAux .rng { s.auxOf .rng with waiting := [] }).setFlag .rng STAT_SPARE_IN_USE false
    .next (setState (refreshSource s) .rng stRunning)

/-- A site in use waits to be replaced by a spare, where SPARE_ALLOW is set and one is left (R17, R19, R293). -/
def oscAwait (s : State) (site : Nat) : State :=
  let w := (s.auxOf .rng).waiting
  if s.flag .rng CTRL_SPARE_ALLOW ∧ w.length < (oscSpares s).length ∧ w.contains site = false then
    s.setAux .rng { s.auxOf .rng with waiting := w ++ [site] }
  else s

/-- OSCILLATOR_HEALTH_FAIL of a site in use, with the conditioned blocks then held (R293); in raw mode nothing is discarded
(R302). -/
def execOscillatorHealthFail (site held : Nat) (s : State) : Res :=
  if running s .rng = false ∨ (oscUse s).testBit site = false ∨ 40 ≤ site then .next s
  else
    let held := if rawMode s then 0 else held
    let s := s.bump .rng RNG_HT_FAILS
    let s := setSites s RNG_OSC_FAIL_LO RNG_OSC_FAIL_HI (siteMask (site :: sitesOf (oscFail s)))
    let s := setSites s RNG_OSC_USE_LO RNG_OSC_USE_HI (siteMask ((sitesOf (oscUse s)).filter (· ≠ site)))
    let s := raiseErrs (s.bumpSat .rng HEALTH_UNCORR) .rng [9] 0x70
    let s := setIrq (s.bump .rng RNG_DISCARDS (min held 32)) .rng 16
    .next (refreshSource (oscAwait (postEvent s .rng 0xB001 (BitVec.ofNat 32 site)) site))

/-- A spare oscillator is marked failed. -/
def oscFailed (s : State) (site : Nat) : State :=
  setSites s RNG_OSC_FAIL_LO RNG_OSC_FAIL_HI (siteMask (site :: sitesOf (oscFail s)))

/-- A spare oscillator's start-up tests end: it takes the place of the site that has waited longest, which counts as a
coppicing into the source, or is marked failed and the next spare is tried (R17, R18, R293). -/
def oscAdmission (s : State) (ok : Bool) : State :=
  match (s.auxOf .rng).waiting, oscSpares s with
  | old :: rest, i :: _ =>
    if running s .rng = false then s
    else if ok then
      let s := s.setAux .rng { s.auxOf .rng with waiting := rest }
      let s := setSites s RNG_OSC_USE_LO RNG_OSC_USE_HI (siteMask (i :: (sitesOf (oscUse s)).filter (· ≠ old)))
      let s := refreshSource (s.setFlag .rng STAT_SPARE_IN_USE true)
      postEvent (setIrq s .rng 2) .rng 0x2001 (BitVec.ofNat 32 old) (BitVec.ofNat 32 i) (BitVec.ofNat 32 (oscSpares s).length)
    else refreshSource (postEvent (oscFailed s i) .rng 0xB001 (BitVec.ofNat 32 i))
  | _, _ => s

/-- The cruise at a ring oscillator (R31, R301): a spare is tested where it stands; one in use first changes places with
a spare, and is tested once released.  A failing one is marked failed and recorded (R33). -/
def oscCruise (s : State) (site : Nat) (ok : Option Bool) : State :=
  if running s .rng = false ∨ 40 ≤ site ∨ (oscFail s).testBit site then s
  else match ok with
    | none =>
      if (oscUse s).testBit site then oscAwait s site else s
    | some ok =>
      if (oscUse s).testBit site then s
      else
        let s := s.bump .rng HEALTH_CRUISE
        if ok then s else refreshSource (postEvent (oscFailed s site) .rng 0x2002 (BitVec.ofNat 32 site))

/-- The source delivers a seed: the oldest block of its queue. -/
def takeSeed (s : State) : Option (Bytes × State) :=
  if running s .rng = false ∨ s.flag .rng RNG_SRC_STATUS_BELOW_MIN ∨ rawMode s then none
  else match s.seedQ with
    | b :: q => some (b, (setSeedQ s q).bump .rng RNG_SEEDS)
    | [] => none

/-! ## Expanders -/

/-- The request count returns to 0 with a seed (R296). -/
def freshSeed (s : State) (r : Nat) : State :=
  let p := PageId.rnx r
  ((s.setFld p RNG_DRBG_STATUS_REQS 0).setFlag p RNG_DRBG_STATUS_STRETCH false).setFlag p RNG_DRBG_STATUS_LIMIT false

/-- The instantiation of region `r`'s DRBG from a conditioned block (R295). -/
def drbgStart (s : State) (r : Nat) (block : Bytes) : Bytes × Bytes :=
  let id := s.fuse.devid
  drbgInit (block ++ (beBytes 8 s.time.ns ++ slice id 8 8) ++ (id ++ beBytes 1 r))

/-- EXPANDER_INSTANTIATED in region `r`: known-answer tests passed, the DRBG takes a seed; the first 32 bytes ever
generated become the region's state key (R298, R299). -/
def execExpanderInstantiated (r : Nat) (s : State) : Res :=
  let p := PageId.rnx r
  if live s p = false ∨ stateOf s p ≠ stStarting ∨ s.flag .rng RNG_SRC_STATUS_STARTUP_DONE = false then .next s
  else match takeSeed s with
    | none => .next s
    | some (b, s) =>
      let (k, v) := drbgStart s r b
      let s := freshSeed (s.bump p RNG_KAT_PASS) r
      let s := s.setFlag p RNG_DRBG_STATUS_SEEDED true
      let need := decide (mget (fun _ => []) s.stateKeys r = [])
      let (out, k, v) := if need then drbgGen k v 32 else ([], k, v)
      let s := if need then { s with stateKeys := mset (fun _ => []) s.stateKeys r out } else s
      .next (setState (s.setBoom r { key := k, v := v, words := [], tag := [], filling := true }) p stRunning)

/-- Words reserved by the tasks of a region. -/
def wordsReserved (s : State) (r : Nat) : Nat :=
  (List.range 32).foldl (fun n k => n + (s.core (32 * r + k)).words.length) 0

/-- The boom is being filled, or its free words have fallen below RNG_REFILL (R297). -/
def boomFills (s : State) (r : Nat) : Bool :=
  (s.boom r).filling || decide ((s.boom r).words.length < s.fld (.rnx r) RNG_REFILL)

/-- DRBG_RESEED in region `r`: after 4,096 requests the expander asks for a seed and applies the one that arrives. -/
def execDrbgReseed (r : Nat) (s : State) : Res :=
  let p := PageId.rnx r
  if running s p = false ∨ s.flag p RNG_DRBG_STATUS_SEEDED = false ∨ s.fld p RNG_DRBG_STATUS_REQS < 4096 then .next s
  else match takeSeed s with
    | none => .next s
    | some (b, s) =>
      let x := s.boom r
      let (k, v) := drbgReseed x.key x.v b
      .next (freshSeed ((s.setBoom r { x with key := k, v := v }).bump p RNG_RESEEDS) r)

/-- An expander that stops or fails: its DRBG state and boom are zeroised (R300, R301). -/
def clearExpander (s : State) (r : Nat) : State :=
  let p := PageId.rnx r
  let s := (freshSeed s r).setFlag p RNG_DRBG_STATUS_SEEDED false
  s.setBoom r Boom.empty

/-! ## Raw sample mode (R302) -/

/-- Every expander is OFF or STOPPED. -/
def expandersIdle (s : State) : Bool :=
  (List.range 4).all fun r => ! live s (.rnx r) || decide (stateOf s (.rnx r) = stOff ∨ stateOf s (.rnx r) = stStopped)

/-- RNG_RAW_ENABLE: a write of RNG_RAW_CTRL.EN. -/
def execRngRawEnable (en : Bool) (s : State) : Res := onComplex s <|
  if en then
    if rawMode s then .next s
    else if (lifeOpen s || s.flag .rng RNG_RAW_PERMIT) && expandersIdle s then
      .next ((s.setFlag .rng RNG_RAW_CTRL_EN true).setFlag .rng RNG_SRC_STATUS_RAW true)
    else .next (accessErr s .rng)
  else if rawMode s = false then .next s
  else
    let s := (s.setFlag .rng RNG_RAW_CTRL_EN false).setFlag .rng RNG_SRC_STATUS_RAW false
    let s := (s.setFlag .rng RNG_RAW_CTRL_ARM false).setFlag .rng RNG_RAW_STATUS_FULL false
    let s := setSeedQ { s.setFld .rng RNG_RAW_STATUS_WORDS 0 with rawWin := [] } []
    let s := s.setFlag .rng RNG_SRC_STATUS_STARTUP_DONE false
    .next (if running s .rng then setState s .rng stStarting else s)

/-- RNG_RAW_ARM: RNG_RAW_CTRL.ARM written with a SEL. -/
def execRngRawArm (sel : BitVec 6) (s : State) : Res := onComplex s <|
  let s := s.setFld .rng RNG_RAW_CTRL_SEL sel.toNat
  if rawMode s ∧ (sel.toNat < 40 ∨ sel.toNat = 63) then
    .next ((s.setFlag .rng RNG_RAW_CTRL_ARM true).setFlag .rng RNG_RAW_STATUS_FULL false)
  else .next s

/-- RNG_RAW_FULL: the capture is complete; the samples are free values. -/
def execRngRawFull (s : State) : Res :=
  if rawMode s ∧ s.flag .rng RNG_RAW_CTRL_ARM then
    let s := { s.takeFresh with rawWin := beBytes 4096 (Config.rawSamples s.fresh).toNat }
    let s := (s.setFlag .rng RNG_RAW_CTRL_ARM false).setFlag .rng RNG_RAW_STATUS_FULL true
    .next (setIrq (s.setFld .rng RNG_RAW_STATUS_WORDS 1024) .rng 18)
  else .next s

/-- RNG_RAW_PERMIT: set by the boot stage, before MEAS_5 is sealed; it stays until chip reset. -/
def execRngRawPermit (s : State) : Res := onComplex s <|
  if (s.fld .vlt VLT_MEAS_SEAL).testBit 5 then .next (accessErr s .rng)
  else .next (s.setFlag .rng RNG_RAW_PERMIT true)

end Sys2Proof.Machine
end

