-- ==== Sys2Proof/Machine/Admit.lean ====
section
/-!
DEFINITION. Admission of a work item into a region: tenant state, quota and capacity (R20, R340, R356, R361, R369),
tagging (R447), and joining a ready list (R341, R343).
-/
namespace Sys2Proof.Machine

/-- A tenant as the one that acts: NOT_FITTED, NOT_AUTHORISED or TENANT_RESETTING (R361, R369). -/
def actingTenant (s : State) (t : Nat) : Option Nat :=
  if s.fuse.variant.tenMax < t then some stNOT_FITTED
  else match (s.tenant t).state with
    | 1 => none
    | 2 => some stTENANT_RESETTING
    | _ => some stNOT_AUTHORISED

/-- A tenant as the target that an element of a command of tenant `own` names (R361, R369); work that a tenant in reset
already holds runs on. -/
def targetTenant (s : State) (own t : Nat) : Option Nat :=
  if s.fuse.variant.tenMax < t then some stNOT_FITTED
  else match (s.tenant t).state with
    | 0 => some stOPERAND_RANGE
    | 2 => if t = own then none else some stTENANT_RESETTING
    | _ => none

/-- The refusal of a new item by quota or capacity (R20, R340). -/
def admitStatus (s : State) (r t : Nat) : Option Nat :=
  if (s.tenant t).qWork ≤ tenantHeld s r t then some stQUOTA
  else if 8192 ≤ heldCount s r then some stBUSY
  else none

/-- A refusal BUSY or QUOTA is counted (R358, R379, R445). -/
def countAdmitRefusal (s : State) (r t st : Nat) : State :=
  let s := quotaCounted s t st
  if st = stBUSY ∨ st = stQUOTA then pmcEvent (s.bump (.sch r) SCH_REFUSED) r 0x06 (some t) else s

/-- A 16-bit draw for tagging: a quarter of a boom word, while the expander serves draws (R300, R447). -/
def tagDraw (s : State) (r : Nat) : Option Nat × State :=
  if running s (.rnx r) = false then (none, s)
  else
    match (s.boom r).tag with
    | x :: l => (some x, s.setBoom r { s.boom r with tag := l })
    | [] =>
      if boomServes s r 1 then
        let (w, s) := boomDraw s r 1 none
        let q := (chunks 2 (fitR 8 (w.getD []).flatten)).map beNat
        (q.head?, s.setBoom r { s.boom r with tag := q.tail })
      else (none, s)

/-- An admitted item is tagged, 1 in 2^K, by the ingress region (R447). -/
def tagItem (s : State) (i : Item) : Item × State :=
  let p := PageId.pmc i.ingress
  if stateOf s p ≠ stRunning ∨ s.flag p PMC_TAG_EN = false then (i, s)
  else
    let (d, s) := tagDraw s i.ingress
    match d with
    | none => (i, s.bump p PMC_TAG_SKIP)
    | some x =>
      if x % 2 ^ s.fld p PMC_TAG_K = 0 then
        ({ i with stamps := some (s.time.ns, none, none, none) }, s.bump p PMC_TAG_COUNT)
      else (i, s)

/-- An item enters a region: named by the next stamp, tagged, stored, and at the tail of its ready list. -/
def admitItem (s : State) (i : Item) : State :=
  let i := { i with stamp := s.nextItem, place := .ready }
  let (i, s) := tagItem s i
  let s := { s with nextItem := s.nextItem + 1 }
  let s := s.setItem i.stamp (some i)
  let s := s.setReady i.region i.level (s.readyList i.region i.level ++ [i.stamp])
  pmcEvent s i.region 0x03 (some i.tenant)

/-- The region whose units run an item: the Context field's home region, else the ingress region (R37). -/
def homeRegion (s : State) (ingress : Nat) (ctx : Word) : Nat :=
  if ctx = 0 then ingress
  else if regionFitted s (ctxRegion ctx) ∧ isolated s (ctxRegion ctx) = false then ctxRegion ctx else ingress

/-- The scheduler of a region takes new work (R356). -/
def schTakes (s : State) (r : Nat) : Bool := running s (.sch r)

/-- The deadline of an item that runs from now: 0 selects the tenant's default (R111, R355). -/
def deadlineFrom (s : State) (t us : Nat) : Nat :=
  s.time.tick + (if us = 0 then 1000 * (s.tenant t).deadlineMs else us)

end Sys2Proof.Machine
end

