-- ==== Sys2Proof/Machine/Timers.lean ====
section
/-!
DEFINITION. The delay list (R348, R349): setting, cancelling and firing timers.
-/
namespace Sys2Proof.Machine

/-- Timers of a region's delay list, earliest first. -/
def State.timerList (s : State) (r : Nat) : List Timer := lget s.timers r
/-- It stored. -/
def State.setTimers (s : State) (r : Nat) (l : List Timer) : State := { s with timers := lset s.timers r l }

/-- A timer placed behind those that expire no later. -/
def insertTimer (x : Timer) : List Timer → List Timer
  | [] => [x]
  | y :: l => if x.due < y.due then x :: y :: l else y :: insertTimer x l

/-- The lowest timer ID not in use, while the list has room for 4,096. -/
def freeTimer (l : List Timer) : Option Nat :=
  if 4096 ≤ l.length then none else (List.range 4096).find? fun n => ! l.any fun t => t.id = n

/-- A timer set to fire `delay` ticks from now; its ID, or none when the list is full. -/
def setTimer (s : State) (r delay : Nat) (k : TimerKind) : Option (Nat × State) :=
  let l := s.timerList r
  match freeTimer l with
  | some n => some (n, s.setTimers r (insertTimer { id := n, due := s.time.tick + delay, kind := k } l))
  | none => none

/-- Every timer of a kind removed. -/
def dropTimers (s : State) (r : Nat) (p : TimerKind → Bool) : State :=
  s.setTimers r ((s.timerList r).filter fun t => ! p t.kind)

/-- A timer leaves the list as it fires; a late one is counted (R348). -/
def fireTimer (s : State) (r : Nat) (t : Timer) : State :=
  let s := s.setTimers r ((s.timerList r).filter fun x => x.id ≠ t.id)
  if t.due < s.time.tick then s.bumpSat (.sch r) SCH_DLY_LATE else s

/-- Timers of a region fire: its scheduler is RUNNING or DRAINING (R356). -/
def timersFire (s : State) (r : Nat) : Bool :=
  decide (stateOf s (.sch r) = stRunning) || decide (stateOf s (.sch r) = stDraining)

/-- The first timer due that meets a condition. -/
def dueTimer (s : State) (r : Nat) (p : TimerKind → Bool) : Option Timer :=
  (s.timerList r).find? fun t => decide (t.due ≤ s.time.tick) && p t.kind

/-- The delay of a descriptor lies in its range. -/
def delayOk (d : Nat) : Bool := decide (1 ≤ d ∧ d < 2 ^ 28)

/-- The completion of a timer descriptor: its ID, or BUSY when the list is full. -/
def timerSet (s : State) (r k n delay : Nat) (kind : TimerKind) : State :=
  match setTimer s r delay kind with
  | some (id, s) => complete s k n (storeWord stOK (beBytes 2 id))
  | none => complete s k n (storeWord stBUSY [])

/-- ACTION 0x01 SUBMIT; a context ID is refused as R351 gives. -/
def timerSubmit (s : State) (k n : Nat) (i : Item) (desc : Bytes) : State :=
  let level := byteAt desc 1
  let delay := field desc 4 4
  if level = 0 ∨ 7 < level ∨ delayOk delay = false then complete s k n (storeWord stOPERAND_RANGE [])
  else
    let id := BitVec.ofNat 32 (field desc 8 4)
    match if id = 0 then none else ctxIdStatus s id with
    | some st => complete s k n (storeWord st [])
    | none =>
      timerSet s i.region k n delay (.submit level (BitVec.ofNat 16 (field desc 2 2)) id (slice desc 12 4) i.tenant)

/-- ACTION 0x02 EXPIRE: an extension context alone; EXP of its header is set (R352, R353). -/
def timerExpire (s : State) (k n : Nat) (i : Item) (desc : Bytes) : State :=
  let id := BitVec.ofNat 32 (field desc 8 4)
  let delay := field desc 4 4
  if delayOk delay = false ∨ ctxTypeExt (ctxTypeOf id) = false then complete s k n (storeWord stOPERAND_RANGE [])
  else match ctxIdStatus s id with
    | some st => complete s k n (storeWord st [])
    | none =>
      match ctxNamed s id with
      | some c =>
        if c.tenant ≠ i.tenant then complete s k n (storeWord stKEY_NOT_FOUND [])
        else match setTimer s i.region delay (.expire id) with
          | some (tid, s) =>
            complete (s.setCtx (ctxRegion id) (ctxIndex id) { c with exp := true }) k n
              (storeWord stOK (beBytes 2 tid))
          | none => complete s k n (storeWord stBUSY [])
      | none => complete s k n (storeWord stKEY_NOT_FOUND [])

/-- ACTION 0x03 HEARTBEAT: the timer of a tenant, in place of one already set; a tenant beyond the part is NOT_FITTED (R6). -/
def timerHeartbeat (s : State) (k n : Nat) (i : Item) (desc : Bytes) : State :=
  let t := field desc 8 4
  let delay := field desc 4 4
  if delayOk delay = false then complete s k n (storeWord stOPERAND_RANGE [])
  else if s.fuse.variant.tenMax < t then complete s k n (storeWord stNOT_FITTED [])
  else timerSet (dropTimers s i.region fun x => x = .heartbeat t) i.region k n delay (.heartbeat t)

/-- ACTION 0x04 CANCEL: a timer that is not set returns OPERAND_RANGE. -/
def timerCancel (s : State) (k n : Nat) (i : Item) (desc : Bytes) : State :=
  let id := field desc 8 4
  let l := s.timerList i.region
  if l.any fun t => t.id = id then
    let s := match (l.find? fun t => t.id = id).map Timer.kind with
      | some (.expire c) =>
        s.setCtx (ctxRegion c) (ctxIndex c) { s.ctxAt (ctxRegion c) (ctxIndex c) with exp := false }
      | _ => s
    complete (s.setTimers i.region (l.filter fun t => t.id ≠ id)) k n (storeWord stOK (beBytes 2 id))
  else complete s k n (storeWord stOPERAND_RANGE [])

end Sys2Proof.Machine
end

