-- ==== Sys2Proof/Machine/Sched.lean ====
section
/-!
DEFINITION. The scheduler's commands: dispatch (R341 to R344), deadlines (R347), the delay list (R348, R349, R354),
work from the control complex (R355) and program loading (R337, R358).
-/
namespace Sys2Proof.Machine

/-! ## Dispatch -/

/-- The held items of a region that name a context. -/
def namers (s : State) (r : Nat) (id : Word) : List Item :=
  ((opresent s.items).map Prod.snd).filter fun i => i.region = r ∧ i.ctxId = id

/-- An item is eligible: it names no context of its region, or its task holds the lock already, or it is the oldest
held item that names the context and the lock is clear (R37, R344). -/
def eligible (s : State) (i : Item) : Bool :=
  decide (i.ctxId = 0 ∨ ctxRegion i.ctxId ≠ i.region) || (s.savedTask i.stamp).isSome ||
    (((namers s i.region i.ctxId).all fun j => decide (i.stamp ≤ j.stamp)) &&
      ! (s.ctxAt i.region (ctxIndex i.ctxId)).lock)

/-- The item a prefetch slot takes: the oldest eligible item of the highest level that has one (R341). -/
def nextReady (s : State) (r : Nat) : Option Item :=
  ((List.range 8).flatMap fun l => (s.readyList r l).filterMap s.item).find? fun i => eligible s i

/-- Items ahead of the one taken that only a lock holds back (R445). -/
def deferred (s : State) (r : Nat) (i : Item) : Nat :=
  (((List.range (i.level + 1)).flatMap fun l => (s.readyList r l).filterMap s.item).filter fun j =>
    ! eligible s j && (decide (j.level < i.level) || decide (j.stamp < i.stamp))).length

/-- An item taken into a core's prefetch slot. -/
def prefetchItem (s : State) (k : Nat) (i : Item) : State :=
  let s := pmcEvent s i.region 0x0C (some i.tenant) (deferred s i.region i)
  let s := unready s i
  let s := s.setItem i.stamp (some { i with place := .prefetch k })
  s.setCore k { s.core k with prefetch := some i.stamp }

/-- The item in a prefetch slot goes back to the head of its ready list (R18, R342). -/
def unprefetch (s : State) (k : Nat) : State :=
  match (s.core k).prefetch.bind s.item with
  | some i =>
    let s := s.setCore k { s.core k with prefetch := none }
    let s := s.setItem i.stamp (some { i with place := if (s.savedTask i.stamp).isSome then .suspended else .ready })
    s.setReady i.region i.level (i.stamp :: s.readyList i.region i.level)
  | none => s.setCore k { s.core k with prefetch := none }

/-- The prefetch slot filled, or its item displaced by an eligible item of a higher level. -/
def fillPrefetch (s : State) (k : Nat) : State :=
  let r := coreRegion k
  match (s.core k).prefetch.bind s.item, nextReady s r with
  | none, some i => prefetchItem s k i
  | some j, some i => if i.level < j.level then prefetchItem (unprefetch s k) k i else s
  | _, none => s

/-- The working copy of an item's context (R322); an ID that names no context of the item's shows a free one. -/
def ctxCopy (s : State) (i : Item) : Bytes :=
  if i.ctxId = 0 then []
  else match ownCtx s i with
    | some idx => ctxBytes (s.ctxAt i.region idx)
    | none => ctxBytes Ctx.free

/-- The core at a dispatch (R306), or as a suspended task left it (R333). -/
def startCore (s : State) (k : Nat) (i : Item) : Core :=
  let ctx := ctxCopy s i
  let base := { Core.empty with run := some i.stamp, busy := (s.core k).busy, ctx := ctx }
  match s.savedTask i.stamp with
  | some x =>
    { base with ds := x.ds, pc := x.pc, preds := x.preds, c := x.c, v := x.v, dz := x.dz, trapV := x.trapV,
                trapDz := x.trapDz, args := x.args, cycles := x.cycles }
  | none => { base with pc := i.entry, args := fitR 32 i.args }

/-- The task leaves its core and keeps what R333 keeps. -/
def saveTask (s : State) (k : Nat) (i : Item) (c : Core) (asleep : Bool) : State :=
  let x : Saved :=
    { item := i.stamp, ds := c.ds, pc := c.pc, preds := c.preds, c := c.c, v := c.v, dz := c.dz, trapV := c.trapV,
      trapDz := c.trapDz, args := c.args, cycles := c.cycles, asleep := asleep }
  let s := { s with saved := s.saved ++ [x] }
  (s.setCore k (coreAfter c)).setItem i.stamp (some { i with place := .suspended })

/-- The item joins the tail of its ready level. -/
def joinReady (s : State) (i : Item) : State :=
  s.setReady i.region i.level (s.readyList i.region i.level ++ [i.stamp])

/-- An item whose frame the dispatcher still has to open (R92). -/
def awaitsTag (i : Item) : Bool := ! i.verified && decide (i.port ≠ 0xFF) && ! isPlain i

/-- The dispatcher's GCM decrypt job on core `k`: encipherment 1, mode 6, of the payload in the frame buffer into its
place (R92, R219). -/
def decryptJob (s : State) (k : Nat) (i : Item) : Job :=
  let a := beBytes 8 (2 ^ 56 + i.fbOff)
  let key := beBytes 4 (((s.session i.session).map fun se => se.tenant * 2 ^ 20 + se.slotIn).getD 0)
  { unit := .cipher, core := k, slot := noSlot, item := i.stamp, tenant := i.tenant, seg := 0
    desc := [0x16, 3, 0, 16] ++ key ++ a ++ a ++ beBytes 4 i.payLen ++ beBytes 4 40 ++ zeros 32
    key := none, alg := 0, parentGen := 0, resv := false, words := [] }

/-- The dispatcher sends its decrypt job; where the lane queue is full it yields, and sends it again when it runs next
(R92). -/
def sendDecrypt (s : State) (k : Nat) (i : Item) : State :=
  let q := s.queue i.region .cipher
  if awaitsTag i = false then s
  else if queueCap .cipher ≤ q.length then joinReady (saveTask s k i (s.core k) false) i
  else s.setQueue i.region .cipher (q ++ [decryptJob s k i])

/-- The prefetched item starts: LOCK set on its context, its task on the core (R306, R342, R344).  An item whose
deadline passes as it starts ends TIMEOUT (R347).  A frame's first step is the dispatcher's decrypt job (R92). -/
def startItem (s : State) (k : Nat) (i : Item) : State :=
  if i.deadline ≤ s.time.tick then endItem s i stTIMEOUT
  else
    let c := startCore s k i
    let s := match ownCtx s i with
      | some idx => s.setCtx i.region idx { s.ctxAt i.region idx with lock := true }
      | none => s
    let c := { c with ctx := ctxCopy s i }
    let i' := { i with
      place := .running k
      stamps := i.stamps.map fun t => (t.1, some (t.2.1.getD s.time.ns), t.2.2) }
    let s := (s.setCore k c).setItem i.stamp (some i')
    let s := { s with saved := s.saved.filter fun y => y.item ≠ i.stamp }
    let s := releaseBuffer s i'
    sendDecrypt (pmcEvent (s.bump (.sch i.region) SCH_DISPATCHED) i.region 0x04 (some i.tenant)) k { i' with held := 0 }

/-- The scheduler dispatches while RUNNING or DRAINING (R356). -/
def schDispatches (s : State) (r : Nat) : Bool :=
  decide (stateOf s (.sch r) = stRunning) || decide (stateOf s (.sch r) = stDraining)

/-! ## Deadlines -/

/-- DEADLINE_EXPIRY of a held item: time passes to its deadline and it ends with TIMEOUT. -/
def execDeadlineExpiry (item : Nat) (s : State) : Res :=
  match s.item item with
  | some i => .next (endItem (advanceTo s i.deadline) i stTIMEOUT)
  | none => .next s

/-! ## The delay list -/

/-- The timer at the head of a region's list, when it is of a kind. -/
def headTimer (s : State) (r : Nat) (p : TimerKind → Bool) : Option Timer :=
  if timersFire s r then
    match s.timerList r with
    | t :: _ => if p t.kind then some t else none
    | [] => none
  else none

/-- SLEEP_WAKE in region `r`. -/
def execSleepWake (r : Nat) (s : State) : Res :=
  match headTimer s r fun k => match k with | .wake _ => true | _ => false with
  | some t =>
    let s := advanceTo s t.due
    let s := fireTimer s r t
    match t.kind with
    | .wake id =>
      match s.item id with
      | some i =>
        let s := { s with saved := s.saved.map fun (x : Saved) => if x.item = id then { x with asleep := false } else x }
        .next (s.setReady i.region i.level (s.readyList i.region i.level ++ [id]))
      | none => .next s
    | _ => .next s
  | none => .next s

/-- An item with nothing but what its maker gives it. -/
def Item.blank : Item :=
  { stamp := 0, region := 0, ingress := 0, entry := 0, tenant := 0, session := 0, tag := 0, cmd := 0,
    fixed := false, level := 1, port := 0xFF, ctxId := 0, fbOff := 0, payLen := 0, deadline := 0, args := [],
    seq := 0, cls := 0, tmo := 0, header := [], payload := [], gtag := [], verified := true, place := .ready,
    source := { mac := [], ip := none }, vlan := none, pool := .shared, held := 0, sqIndex := none, early := none,
    stamps := none, window := none, late := false }

/-- DELAY_TIMER_FIRE in region `r`: a SUBMIT timer readies its item, or fires again at the next tick when the region
is full (R349). -/
def execDelayTimerFire (r : Nat) (s : State) : Res :=
  match headTimer s r fun k => match k with | .submit .. => true | _ => false with
  | some t =>
    let s := advanceTo s t.due
    match t.kind with
    | .submit level entry ctxId arg tenant =>
      let home := homeRegion s r ctxId
      if 8192 ≤ heldCount s home then
        let s := s.setTimers r ((s.timerList r).filter fun x => x.id ≠ t.id)
        .next (s.setTimers r (insertTimer { t with due := s.time.tick + 1 } (s.timerList r)))
      else
        let s := fireTimer s r t
        .next (admitItem s { Item.blank with
          region := home, ingress := r, entry := entry, tenant := tenant, level := level, ctxId := ctxId,
          args := fitR 32 arg, deadline := deadlineFrom s tenant 0 })
    | _ => .next s
  | none => .next s

/-- CONTEXT_EXPIRY in region `r`. -/
def execContextExpiry (r : Nat) (s : State) : Res :=
  match headTimer s r fun k => match k with | .expire _ => true | _ => false with
  | some t =>
    let s := fireTimer (advanceTo s t.due) r t
    match t.kind with
    | .expire id => .next (ctxExpire s id)
    | _ => .next s
  | none => .next s

/-! ## Submission rings -/

/-- SUBMISSION_DOORBELL: SCH_SQ_TAIL of region `r` written. -/
def execSubmissionDoorbell (r : Nat) (tail : BitVec 10) (s : State) : Res := onComplex s <|
  if live s (.sch r) = false then .next s else .next (s.setFld (.sch r) SCH_SQ_TAIL tail.toNat)

/-- The completion ring has room for every entry accepted and not completed, and one more; one entry of the ring
stays free, since equal indices mean an empty ring. -/
def ringRoom (s : State) (r : Nat) : Bool :=
  let n := ringSize s r
  let used := (s.fld (.sch r) SCH_CQ_TAIL + n - s.fld (.sch r) SCH_CQ_HEAD % n) % n
  decide (used + (lget s.rings r).length + 1 < n)

/-- The item of a 64-byte submission entry (R320, R355). -/
def submitItem (s : State) (r idx : Nat) (e : Bytes) : Item :=
  let t := field e 2 2 % 1024
  let id := BitVec.ofNat 32 (field e 16 4)
  { Item.blank with
    region := homeRegion s r id
    ingress := r, entry := BitVec.ofNat 16 (field e 0 2), tenant := t, tag := BitVec.ofNat 32 (field e 8 4)
    cmd := field e 12 2, level := max 1 (byteAt e 14 % 8), fixed := (byteAt e 14).testBit 7, ctxId := id, fbOff := field e 20 4
    payLen := field e 24 2, deadline := deadlineFrom s t (field e 28 4), args := slice e 32 32
    sqIndex := some idx }

/-- Why a submission is refused (R340, R351, R356, R361, R369). -/
def submitStatus (s : State) (i : Item) : Option Nat :=
  match actingTenant s i.tenant with
  | some st => some st
  | none =>
    match if i.ctxId = 0 then none else ctxIdStatus s i.ctxId with
    | some st => some st
    | none => if schTakes s i.region then admitStatus s i.region i.tenant else some stBUSY

/-- SUBMISSION_ACCEPT: the next entry of region `r`'s ring; a refused entry completes at once. -/
def execSubmissionAccept (r : Nat) (s : State) : Res :=
  let head := s.fld (.sch r) SCH_SQ_HEAD
  let n := ringSize s r
  if schTakes s r = false ∨ head = s.fld (.sch r) SCH_SQ_TAIL % n ∨ ringRoom s r = false then .next s
  else
    let e := physRead s (addr40 s (.sch r) SCH_SQ_LO SCH_SQ_HI + head * 64) 64
    let i := submitItem s r head e
    let s := s.setFld (.sch r) SCH_SQ_HEAD ((head + 1) % n)
    let s := { s with rings := lset s.rings r (lget s.rings r ++ [({ index := head, tag := i.tag } : RingEntry)]) }
    match submitStatus s i with
    | some st => .next (postCompletion (countAdmitRefusal s i.region i.tenant st) r (some head) i.tag st [])
    | none => .next (admitItem s i)

/-! ## Program loading -/

/-- The first word and the size of a segment (R325). -/
def segRange (seg : Nat) : Nat × Nat :=
  match seg with
  | 0 => (0, 0x8000)
  | 1 => (0x8000, 0x4000)
  | _ => (0xC000, 0x4000)

/-- The words of a segment as bytes. -/
def segBytes (m : SMap Cell) (seg : Nat) : Bytes :=
  ((List.range (segRange seg).2).map fun j => beBytes 2 (mget (fun _ => 0) m ((segRange seg).1 + j)).toNat).flatten

/-- Words stored from a word address. -/
def putWords (m : SMap Cell) (a : Nat) : List Cell → SMap Cell
  | [] => m
  | w :: l => putWords (mset (fun _ => 0) m a w) (a + 1) l

/-- A segment is sealed: segment 0 with MEAS_3, the others with MEAS_6 (R358). -/
def segSealed (s : State) (seg : Nat) : Bool :=
  (s.fld .vlt VLT_MEAS_SEAL).testBit (if seg = 0 then 3 else 6)

/-- PROGRAM_LOAD in region `r`: the words go to every active region, or the load is refused; after the seal only a
repair of a whole segment that gives the recorded digest is taken (R337, R358). -/
def execProgramLoad (r : Nat) (s : State) : Res := onComplex s <|
  let p := PageId.sch r
  if live s p = false then .next s
  else
    let seg := s.fld p SCH_PRG_SEG
    let base := s.fld p SCH_PRG_BASE
    let n := s.fld p SCH_PRG_WORDS
    let (lo, size) := segRange seg
    let b := physRead s (addr40 s p SCH_PRG_SRC_LO SCH_PRG_SRC_HI) (2 * n)
    let m := putWords s.prog base ((chunks 2 b).map fun w => BitVec.ofNat 16 (beNat w))
    let inside := decide (seg < 3 ∧ lo ≤ base ∧ base + n ≤ lo + size)
    let repair := decide (base = lo ∧ n = size) &&
      decide (sha384 (segBytes m seg) = mget (fun _ => []) s.progHash seg)
    let s := ((s.setFlag p SCH_PRG_GO true).setFlag p SCH_PRG_DONE false).setFlag p SCH_PRG_REFUSED false
    if inside && (! segSealed s seg || repair) then .next { s with prog := m }
    else
      let s := (s.setFlag p SCH_PRG_GO false).setFlag p SCH_PRG_REFUSED true
      .next (setIrq (raiseErr s p 12 0x93) p 17)

/-- PROGRAM_LOAD_DONE in region `r`. -/
def execProgramLoadDone (r : Nat) (s : State) : Res :=
  let p := PageId.sch r
  if s.flag p SCH_PRG_GO then
    .next (setIrq ((s.setFlag p SCH_PRG_GO false).setFlag p SCH_PRG_DONE true) p 16)
  else .next s

end Sys2Proof.Machine
end

