-- ==== Sys2Proof/Machine/Faults.lean ====
section
/-!
DEFINITION. Faults and how they are contained (R11 to R34): the work a block holds, spares and coppicing, the failure of
a block, a region and the chip, what each page does with an error, and the errors that software injects (R48).
-/
namespace Sys2Proof.Machine

/-! ## Held work -/

/-- The items whose tasks hold reserved boom words in a region (R298, R300). -/
def reservers (s : State) (r : Nat) : List Nat :=
  (List.range 32).filterMap fun k => if (s.core (32 * r + k)).words = [] then none else (s.core (32 * r + k)).run

/-- STAT.INFLIGHT: the jobs, items or frames a block holds (R46, R59, R81, R300). -/
def inflight (s : State) : PageId → Nat
  | .kcr r k =>
    if k < 32 then
      (if (s.core (32 * r + k)).run.isSome then 1 else 0) + (if (s.core (32 * r + k)).prefetch.isSome then 1 else 0)
    else 0
  | .cph r k =>
    let l := s.lane (.cph r k)
    (if l.cur.isSome then 1 else 0) + (if l.sealing.isSome then 1 else 0) + (if l.pre.isSome then 1 else 0) + l.discard.length
  | .hsh r k =>
    let l := s.lane (.hsh r k)
    (if l.cur.isSome then 1 else 0) + (if l.pre.isSome then 1 else 0) + l.discard.length
  | .pke r k =>
    let l := s.lane (.pke r k)
    (if l.cur.isSome then 1 else 0) + (if l.pre.isSome then 1 else 0) + l.discard.length
  | .sch r => heldCount s r
  | .lnk p => (s.port p).tx.length
  | .mgt => (s.port 128).tx.length
  | .cls r => (lget s.brakeQ r).length
  | .odm r => (s.queue r .engine).length
  | .rnx r => (reservers s r).length
  | .tri => s.lookups.length
  | .ctx r => if s.flag (.ctx r) CTX_OP_BUSY then 1 else 0
  | .bfl => if s.flag .bfl BFL_XFER_GO then 1 else 0
  | _ => 0

/-- Items, named by their stamps, end with a status. -/
def endItems (s : State) (ids : List Nat) (st : Nat) : State :=
  ids.foldl (fun s id =>
    match s.item id with
    | some i => endItem s i st
    | none => s) s

/-- The held items of a region. -/
def regionItems (s : State) (r : Nat) : List Nat :=
  ((opresent s.items).filter fun e => e.2.region = r).map Prod.fst

/-- The link state of a port whose transmitter is idle: nothing is locked, up, trained or paused (R57, R59, R80, R88). -/
def portDown (s : State) : PageId → State
  | .lnk n =>
    let p := PageId.lnk n
    let s := s.setPort n { s.port n with paused := 0, link := [] }
    let s := (s.setFlag p LNK_STATUS_PAUSED_RX false).setFlag p LNK_STATUS_XOFF false
    ((s.setFlag p LNK_STATUS_TRAINED false).setFlag p LNK_STATUS_LINK_UP false).setFlag p LNK_STATUS_BLOCK_LOCK false
  | .mgt =>
    let s := s.setPort 128 { s.port 128 with paused := 0, link := [] }
    ((s.setFlag .mgt MGT_STATUS_PAUSED_RX false).setFlag .mgt MGT_STATUS_LINK_UP false).setFlag .mgt MGT_STATUS_SYNC false
  | _ => s

/-- A boot flash transfer is abandoned and its digest reads zero (R468). -/
def abortTransfer (s : State) : State :=
  let s := s.setFlag .bfl BFL_XFER_GO false
  (List.range 12).foldl (fun s w => s.setReg .bfl (0x070 + 4 * w) 0) s

/-- The work a block itself holds ends with a status: ABORTED_DRAIN at a squash, ABORTED_FAULT at a fault (R16, R51).
Prefetched work goes back to its list or queue (R18). -/
def endHeld (s : State) (p : PageId) (st : Nat) : State :=
  match p with
  | .kcr r k => if k < 32 then unprefetch (endItems s ((s.core (32 * r + k)).run.toList) st) (32 * r + k) else s
  | .cph _ _ | .hsh _ _ | .pke _ _ => discardCurrent (returnPrefetch (returnSeal s p) p) p (some st)
  | .sch r => endItems s (regionItems s r) st
  | .lnk n => discardTx true s n
  | .mgt => discardTx true s 128
  | .cls r =>
    let q := lget s.brakeQ r
    { s with brakeQ := lset s.brakeQ r [], early := s.early ++ q.map fun i => { i with early := some st, held := 0 } }
  | .odm r =>
    if st = stABORTED_DRAIN then
      (s.queue r .engine).foldl (fun s j => complete s j.core j.slot (laneWord st 0 0 [])) (s.setQueue r .engine [])
    else s
  | .rnx r => clearExpander (endItems s (reservers s r) st) r
  | .tri =>
    s.lookups.foldl (fun s x => complete s x.core x.slot (beBytes 2 st)) { s with lookups := [] }
  | .bfl => abortTransfer s
  | _ => s

/-! ## Spares (R17, R19, R29) -/

/-- The page whose site after reset is `site`, in the pool of page `p`. -/
def sitePage (p : PageId) (site : Nat) : PageId := ((poolOf p ++ sparesOf p).find? fun q => unitPos q = site).getD p

/-- A spare site and a logical instance change places, with what is applied to their macros: the logical page takes the
spare's site, and the released site lies behind the spare position, in a state of its own. -/
def swapSites (s : State) (p q : PageId) (released : Nat) : State :=
  let a := s.fld p SPARE_SITE
  let b := s.fld q SPARE_SITE
  let x := s.auxOf p
  let y := s.auxOf q
  let s := (s.setAux p { x with repairs := y.repairs, applied := y.applied }).setAux q
    { y with repairs := x.repairs, applied := x.applied }
  let s := (s.setFld p SPARE_SITE b).setFld q SPARE_SITE a
  let s := s.setFlag p STAT_SPARE_IN_USE (b ≠ unitPos p)
  let s := refreshSpares (setState s q released) p
  postEvent (setIrq s p 2) p 0x2001 (BitVec.ofNat 32 a) (BitVec.ofNat 32 b) (BitVec.ofNat 32 (s.fld p SPARE_LEFT))

/-- The spares an instance can be given: those that have passed their checks, then those the cruise is testing. -/
def offered (s : State) (p : PageId) : List PageId :=
  sparesFor s p ++ (sparesOf p).filter fun q =>
    present s q && decide (s.fld q STAT_STATE = stStarting) && (s.auxOf q).cruise

/-- A spare is put to its admission check for a page, where SPARE_ALLOW is set and one is left (R17). -/
def coppice (s : State) (p : PageId) : State :=
  if s.flag p CTRL_SPARE_ALLOW = false ∨ isSparePage p then s
  else match offered s p with
    | q :: _ =>
      let s := s.setAux q { s.auxOf q with cruise := false }
      let s := s.setAux p { s.auxOf p with admitted := some (unitPos q) }
      refreshSpares (s.setFld q STAT_STATE stStarting) p
    | [] => s

/-- A spare of a page's pool is neither failed nor in its admission check for another page. -/
def spareRemains (s : State) (p : PageId) : Bool :=
  (sparesOf p).any fun q => present s q && decide (s.fld q STAT_STATE ≠ stFailed) &&
    ! (poolOf q).any fun x => decide (x ≠ p ∧ (s.auxOf x).admitted = some (unitPos q))

/-! ## Chip-level faults (R25) -/

/-- The unit stops: FAULT_N asserted, READY deasserted, the vault closed, every port braked and the heartbeat
stopped.  The first cause is kept. -/
def chipLevelFault (s : State) (cause : Nat) : State :=
  if s.chipFault.isSome then s
  else
    let s := postEvent s .top 0x3002 (BitVec.ofNat 32 cause)
    let s := { s with chipFault := some cause, shut := true, balls := { s.balls with fault := true, ready := false } }
    let s := discardTx true (brakePorts s) 128
    let s := linkClosed s
    heartbeatOut { s with held := [] }

/-! ## Region isolation (R21 to R23) -/

/-- The work of an isolated region: what came in by another region is answered ABORTED_FAULT there, the rest gets no
response (R21, R22). -/
def loseItems (s : State) (r : Nat) : State :=
  (regionItems s r).foldl (fun s id =>
    match s.item id with
    | some i => if i.ingress = r ∧ i.port ≠ 0x80 then dropItem s i else endItem s i stABORTED_FAULT
    | none => s) s

/-- A region is isolated: its work, contexts, timers, boom and queued responses are lost (R21). -/
def isolateRegion (s : State) (r : Nat) (cause : Word) : State :=
  if isolated s r ∨ regionFitted s r = false then s
  else
    let s := loseItems s r
    let s := { s with
      ctxs := mfilter (fun k _ => decide (k / 65536 ≠ r)) s.ctxs
      leases := mfilter (fun k _ => decide (k / 65536 ≠ r ∨ 2 ^ 18 ≤ k)) s.leases
      timers := lset s.timers r []
      booms := mfilter (fun k _ => decide (k ≠ r)) s.booms
      brakeQ := lset s.brakeQ r []
      early := s.early.filter fun i => i.ingress ≠ r
      ports := mfilter (fun k _ => decide (k / 32 ≠ r)) s.ports
      rings := lset s.rings r [] }
    let s := { s with laneQ := mfilter (fun k _ => decide (k / 3 ≠ r)) s.laneQ, sealQ := lset s.sealQ r [], mirrorBad := s.mirrorBad.filter (· ≠ r) }
    let s := (regionPorts s r).foldl (fun s n => portDown s (.lnk n)) s
    let m := s.fld .top TOP_RGN_STATUS_ISOLATED
    let s := s.setFld .top TOP_RGN_STATUS_ISOLATED (m ||| 2 ^ r)
    postEvent s .top 0x3001 (BitVec.ofNat 32 r) cause

/-! ## The failure of a block -/

/-- The job of a lane that an uncorrectable error discards is named on its page (R240, R274). -/
def noteErrJob (s : State) (p : PageId) : State :=
  match p, (s.lane p).cur with
  | .cph _ _, some j => (s.setFld p CPH_ERRJOB_TENANT j.tenant).setFld p CPH_ERRJOB_OP (byteAt j.desc 0)
  | .pke _ _, some j => (s.setFld p PKE_ERRJOB_TENANT j.tenant).setFld p PKE_ERRJOB_FUNC (byteAt j.desc 0)
  | _, _ => s

/-- The tenant of the work a block holds, as its error record names it (R439). -/
def heldTenant (s : State) (p : PageId) : Word :=
  let t := match p with
    | .kcr r k => ((s.core (32 * r + k)).run.bind s.item).map Item.tenant
    | .cph _ _ | .hsh _ _ | .pke _ _ => (s.lane p).cur.map Job.tenant
    | _ => none
  match t with
  | some t => BitVec.ofNat 32 t
  | none => 0xFFFFFFFF

/-- The page's own register of the address of its last uncorrectable error (R180, R275, R473). -/
def noteErrAddr (s : State) (p : PageId) (code : Nat) (addr : BitVec 40) : State :=
  match p with
  | .tri => if code = 0x30 then s.setFld .tri TRI_ERRADDR addr.toNat else s
  | .odm _ => if code = 0x68 then (s.setFld p ODM_ERRADDR_LO addr.toNat).setFld p ODM_ERRADDR_HI (addr.toNat / 2 ^ 32) else s
  | .hbc => if code = 0xF6 then (s.setFld p HBC_ERRADDR_LO addr.toNat).setFld p HBC_ERRADDR_HI (addr.toNat / 2 ^ 32) else s
  | _ => s

/-- A failed known-answer run on a page's site: its vector, KAT.FAIL and IRQST.BLOCK[16] (R240, R241, R274, R305). -/
def noteVector (s : State) (p : PageId) (vec : Option Nat) : State :=
  let put := fun (s : State) (v f : Fld) =>
    setIrq ((match vec with | some n => s.setFld p v n | none => s).setFlag p f true) p 16
  match p with
  | .cph _ _ => put s CPH_KAT_VECTOR CPH_KAT_FAIL
  | .hsh _ _ => put s HSH_KAT_VECTOR HSH_KAT_FAIL
  | .pke _ _ => put s PKE_KAT_VECTOR PKE_KAT_FAIL
  | .rnx _ => s.setFlag p RNG_KAT_FAIL true
  | _ => s

/-- The ERR.CODE of a vector or known-answer mismatch; 0 where the chapter gives none. -/
def vectorCode : PageId → Nat
  | .cph _ _ => 0x53
  | .hsh _ _ => 0x5B
  | .pke _ _ => 0x65
  | .rnx _ => 0x7A
  | _ => 0

/-- A result check that fails is counted on the engine's page (R258, R274); a vector mismatch shows on its page, the fault
address naming the vector. -/
def noteMismatch (s : State) (p : PageId) (code : Nat) (addr : Word) : State :=
  let s := match p with
    | .pke _ _ => if code = 0x64 then setIrq (s.bumpSat p PKE_RESCHK) p 17 else s
    | _ => s
  if code = vectorCode p ∧ code ≠ 0 then noteVector s p (some (addr.toNat % 256)) else s

/-- A control core that stays without a spare stops the chip (R25). -/
def coreLost (s : State) : PageId → State
  | .ccr c =>
    if (s.auxOf (.ccr c)).admitted.isNone ∧ isSparePage (.ccr c) = false ∧ spareRemains s (.ccr c) = false then
      chipLevelFault s 5
    else s
  | _ => s

/-- What failing does beside the page's own flags: its work ends ABORTED_FAULT, queued work moves (R16, R18), and a spare
is sought (R17). -/
def afterFailure (s : State) (p : PageId) : State :=
  let s := match p with
    | .lnk n => portDown (discardTx false s n) p
    | .mgt => portDown (discardTx false s 128) p
    | _ => endHeld s p stABORTED_FAULT
  coreLost (heartbeatOut (coppice s p)) p

/-- A block fails (R16, R17). -/
def failBlock (s : State) (p : PageId) (code : Nat) (parity : Bool) (addr : Word := 0) : State :=
  let t := heldTenant s p
  afterFailure (refreshSpares (failPage (noteMismatch (noteErrJob s p) p code addr) p code parity t addr) p) p

/-! ## Errors (R13 to R16) -/

/-- The access that met an uncorrectable error fails: a frame's work, a unit's job or a lookup ends ABORTED_FAULT, and a
transfer stops (R14, R179, R180, R472). -/
def failAccess (s : State) : Victim → State
  | .none => s
  | .frame stamp => endItems s [stamp] stABORTED_FAULT
  | .unit p => discardCurrent s p (some stABORTED_FAULT)
  | .lookup core slot =>
    { s with lookups := s.lookups.map fun x =>
        if x.core = core ∧ x.slot = slot then { x with word := beBytes 2 stABORTED_FAULT, counted := false, fault := none } else x }
  | .dma => if s.flag .tri TRI_DMA_GO then setIrq (s.setFlag .tri TRI_DMA_GO false) .tri 17 else s

/-- A frame of the control path is dropped. -/
def controlDrop (s : State) (i : Item) : State := settle settleBound (settleClose (releaseBuffer s i) i.session)

/-- A frame hit in the frame buffer is dropped wherever it waits: a work item, a BRAKE frame, or one that ended early
(R23, R81). -/
def dropFrame (s : State) (stamp : Nat) : State :=
  match s.item stamp with
  | some i => dropItem s i
  | none =>
    match ((s.brakeQ.map Prod.snd).flatten ++ s.early).find? fun i => i.stamp = stamp with
    | some i =>
      controlDrop { s with
        brakeQ := mmap (fun _ => []) (fun q => q.filter fun j => j.stamp ≠ stamp) s.brakeQ
        early := s.early.filter fun j => j.stamp ≠ stamp } i
    | none => s

/-- A parity error of a classifier's control path: the frame being checked against the filters' mirror, which is then
reloaded, or the oldest BRAKE frame is dropped (R81). -/
def controlParity (s : State) (r : Nat) (mirror : Bool) : State :=
  let p := PageId.cls r
  let s := clsDrop (raiseErrs (s.bumpSat p HEALTH_UNCORR) p [9, 10] 0x21) r CLS_DROP_BRAKE
  if mirror then { s with mirrorBad := if s.mirrorBad.contains r then s.mirrorBad else s.mirrorBad ++ [r] }
  else match lget s.brakeQ r with
    | i :: q => controlDrop { s with brakeQ := lset s.brakeQ r q } i
    | [] => s

/-- A page meets an uncorrectable error with an ERR.CODE; `victim` is what the error hits and `addr` the fault address, 0
where the error has none.  A unit whose own chapter handles the error otherwise follows it: SCH and CTX isolate the
region (R357), the vault, the tenant slices and the HBM controller stop the chip (R25, R214, R378, R472), a classifier and
the management port drop the frames hit (R81, R87), an HBM read, a table slot and engine operand data fail their access
alone (R14, R179, R247), a seed block is discarded (R301), recorder memory marks its record (R441) and the tamper domain
goes on (R420). -/
def meetError (s : State) (p : PageId) (code : Nat) (parity : Bool) (victim : Victim) (addr : BitVec 40) : State :=
  if live s p = false ∨ stateOf s p = stOff ∨ stateOf s p = stFailed then s
  else
    let a : Word := addr.setWidth 32
    let s := noteErrAddr s p code addr
    match p with
    | .sch r | .ctx r =>
      let s := failPage s p code parity 0xFFFFFFFF a
      isolateRegion s r (s.reg p 0x010)
    | .vlt | .ten => chipLevelFault (failPage s p code parity 0xFFFFFFFF a) 2
    | .hbc =>
      if code = 0xF6 then failAccess (setIrq ((reportUncorrected s p 0xF6 a).bump p HBC_UNCORR) p 18) victim
      else chipLevelFault (failPage s p code parity 0xFFFFFFFF a) 2
    | .cls r =>
      if parity then controlParity s r (victim = .none)
      else
        let s := reportUncorrected s p code a
        (match victim with
         | .frame stamp => dropFrame s stamp
         | _ => s)
    | .tri =>
      if parity then failAccess (raiseErrs (s.bumpSat p HEALTH_UNCORR) p [9, 10] code 0xFFFFFFFF a) victim
      else
        let s := reportUncorrected s p code a
        failAccess { s with tri := { s.tri with bad := if s.tri.bad.contains addr.toNat then s.tri.bad else s.tri.bad ++ [addr.toNat] } } victim
    | .odm _ => if code = 0x68 then failAccess (reportUncorrected s p 0x68 a) victim else failBlock s p code parity a
    | .rng =>
      if code = 0x72 then
        setSeedQ ((reportUncorrected s p 0x72 a).bump p RNG_DISCARDS (min 1 s.seedQ.length)) s.seedQ.tail
      else failBlock s p code parity a
    | .mgt =>
      if code = 0x14 then { reportUncorrected s p 0x14 a with romQ := [] } else failBlock s p code parity a
    | .evr => if code = 0xE0 then reportUncorrected s p 0xE0 a else failBlock s p code parity a
    | .par => parFail s code parity
    | .tmp => reportUncorrected s p code a
    | _ => failBlock s p code parity a

/-- A page meets a single-bit error: corrected and counted (R13, R445, R472); the context store keeps its index (R360). -/
def meetCorrected (s : State) (p : PageId) (code : Nat) (addr : BitVec 40) : State :=
  if live s p = false then s
  else
    let s := raiseErr (s.bumpSat p HEALTH_CORR) p 8 code 0xFFFFFFFF (addr.setWidth 32)
    let s := match p with
      | .hbc => s.bump .hbc HBC_CORR
      | .ctx _ => s.setFld p CTX_ERRIDX addr.toNat
      | .pke _ _ => if code = 0x62 then setIrq s p 18 else s
      | _ => s
    match pageRegion p with
    | some r => pmcEvent s r 0x11 none
    | none => s

/-! ## Injected errors (R48) -/

/-- The codes of a page for an uncorrectable memory error and for a parity error; 0 where its chapter gives none. -/
def faultCodes : PageId → Nat × Nat
  | .lnk _ => (0x10, 0x10)
  | .mgt => (0x14, 0x17)
  | .cls _ => (0x20, 0x21)
  | .tri => (0x30, 0x31)
  | .vlt => (0x40, 0x40)
  | .cph _ _ => (0x51, 0x50)
  | .hsh _ _ => (0x59, 0x58)
  | .pke _ _ => (0x61, 0x60)
  | .odm _ => (0x68, 0x69)
  | .rng => (0x72, 0x71)
  | .rnx _ => (0x79, 0x78)
  | .kcr _ _ => (0x82, 0x81)
  | .ctx _ => (0x88, 0x88)
  | .sch _ => (0x90, 0x90)
  | .mpu _ => (0xA8, 0xA8)
  | .par => (0xB1, 0xB1)
  | .tmp => (0xC3, 0xC3)
  | .evr => (0xE0, 0xE1)
  | .pmc _ => (0xE8, 0xE8)
  | .hbc => (0xF6, 0xF5)
  | .bfl => (0xFC, 0xFC)
  | _ => (0, 0)

/-- A page's next access to a protected cell: the error armed on it is met there as a real one is (R48; log 94). -/
def touch (s : State) (p : PageId) (victim : Victim := .none) : State :=
  match (s.auxOf p).inject with
  | none => s
  | some k =>
    let s := s.setAux p { s.auxOf p with inject := none }
    match k with
    | .corr => meetCorrected s p (Config.correctedCode (pageBase p)).toNat 0
    | .uncorr => meetError s p (faultCodes p).1 false victim 0
    | .parity => meetError s p (faultCodes p).2 true victim 0

/-- A page's cells are accessed where its unit has work. -/
def touchIf (s : State) (work : Bool) (p : PageId) (victim : Victim := .none) : State := if work then touch s p victim else s

/-! ## Commands -/

/-- REGION_FATAL_ERROR in the fabric, scheduler or context store of region `r`. -/
def execRegionFatalError (r : Nat) (p1 : Word) (s : State) : Res := .next (isolateRegion s r p1)

/-- CHIP_LEVEL_FAULT with a cause of R25. -/
def execChipLevelFault (cause : Nat) (s : State) : Res := .next (chipLevelFault s cause)

/-- SINGLE_BIT_ERROR on a page; `addr` is the address of the cell. -/
def execSingleBitError (p : PageId) (code : Byte) (addr : BitVec 40) (s : State) : Res := .next (meetCorrected s p code.toNat addr)

/-- BLOCK_UNCORRECTABLE_ERROR of page `p`. -/
def execBlockUncorrectableError (p : PageId) (code : Byte) (parity : Bool) (victim : Victim) (addr : BitVec 40) (s : State) : Res :=
  .next (meetError s p code.toNat parity victim addr)

end Sys2Proof.Machine
end

