-- ==== Sys2Proof/Machine/Blocks.lean ====
section
/-!
DEFINITION. The state machine of a block and the service of its units (R17, R31 to R34, R44, R50 to R53): admission
checks, the cruise and its repairs, enable, drain and squash.
-/
namespace Sys2Proof.Machine

/-! ## Stopping -/

/-- A port's response in transmission is sent whole before the port stops (R59, R87). -/
def transmits (s : State) : PageId → Bool
  | .lnk n => (s.port n).sending
  | .mgt => (s.port 128).sending
  | _ => false

/-- STOPPED is entered; a block with EN set and DRAIN_REQ clear then starts again (R50, R52).  An expander's state and
boom are zeroised (R300), and a port transmits electrical idle (R59, R87). -/
def enterStopped (s : State) (p : PageId) : State :=
  let s := match p with
    | .rnx r => clearExpander s r
    | _ => portDown s p
  let s := heartbeatOut (setState s p stStopped)
  if s.flag p CTRL_EN ∧ s.flag p CTRL_DRAIN_REQ = false then s.setFld p STAT_STATE stStarting else s

/-- All held work of a block is squashed, and it stops. -/
def squashBlock (s : State) (p : PageId) : State :=
  let s := endHeld s p stABORTED_DRAIN
  if transmits s p then s.setFld p STAT_STATE stDraining else enterStopped s p

/-! ## Admission checks (R17 to R19) -/

/-- A spare enters its pool: STOPPED, and counted. -/
def sparePasses (s : State) (q : PageId) : State := refreshSpares (setState s q stStopped) q

/-- A unit fails its vectors or its check at vector `v`: marked FAILED, with its chapter's error where it has one. -/
def unitFails (s : State) (q : PageId) (v : Nat) : State :=
  let s := noteVector s q (some v)
  refreshSpares (if vectorCode q = 0 then setState s q stFailed else failPage s q (vectorCode q) false) q

/-- A page of the pool that failed while its spares were still starting is given one (R17). -/
def offerSpare (s : State) (q : PageId) : State :=
  match (poolOf q).find? fun p => live s p && decide (stateOf s p = stFailed) && (s.auxOf p).admitted.isNone with
  | some p => coppice s p
  | none => s

/-- The store of an engine's site holds the microcode that ODM loaded (R255). -/
def ucodeMatches (s : State) : PageId → Bool
  | .pke r k => decide (s.fld (.pke r k) PKE_UC_CRC = s.fld (.odm r) ODM_UC_CRC)
  | _ => true

/-- SPARE_ADMISSION_DONE for page `p`: the spare under check takes the failed instance, which starts or holds STOPPED, or
relieves one that the cruise is to test, once it is idle; one that fails, an engine with other microcode among them, is
marked failed and the next one is tried (R17, R18, R19, R31, R50, R255).  On the source's page it ends the start-up tests of a spare oscillator (R293). -/
def execSpareAdmissionDone (p : PageId) (res : Option Byte) (s : State) : Res :=
  if p = .rng then .next (oscAdmission s res.isNone)
  else match (s.auxOf p).admitted with
    | none => .next s
    | some k =>
      let s := s.setAux p { s.auxOf p with admitted := none }
      match (sparesOf p).find? fun q => unitPos q = k with
      | none => .next s
      | some q =>
        if live s p = false then .next s
        else match (if ucodeMatches s q then res else some 0) with
          | some v => .next (coreLost (coppice (unitFails s q v.toNat) p) p)
          | none =>
            if stateOf s p = stFailed then
              let s := swapSites s p q stFailed
              .next (if s.flag p CTRL_EN ∧ s.flag p CTRL_DRAIN_REQ = false then s.setFld p STAT_STATE stStarting
                else setState s p stStopped)
            else if inflight s p = 0 then
              let s := swapSites s p q stStarting
              .next (s.setAux q { s.auxOf q with cruise := true })
            else .next (sparePasses s q)

/-! ## The cruise and repairs (R31 to R34) -/

/-- A unit that fails its cruise test is recorded and marked FAILED (R33); what its failure costs follows its level: the
region of a scheduler or context store (R21), the chip for the vault, the tenant slices and the HBM controller (R25), the
block itself otherwise. -/
def cruiseFail (s : State) (p : PageId) (v : Nat) : State :=
  let s := postEvent s p 0x2002 (BitVec.ofNat 32 (s.fld p SPARE_SITE)) (BitVec.ofNat 32 v)
  let s := unitFails s p v
  match p with
  | .sch r | .ctx r => isolateRegion s r (s.reg p 0x010)
  | .vlt | .ten | .hbc => chipLevelFault s 2
  | .par => pairLeaves s.takeFresh (openCause s)
  | _ => if isSparePage p then s else afterFailure s p

/-- A completed test is counted (R46), and the known-answer run it holds on the page of its unit (R240, R241, R274, R305). -/
def cruiseCount (s : State) (p : PageId) (ok : Bool) : State :=
  let s := s.bump p HEALTH_CRUISE
  if ok then
    (match p with
     | .cph _ _ => (s.bump p CPH_KAT_PASS).setFlag p CPH_KAT_FAIL false
     | .hsh _ _ => (s.bump p HSH_KAT_PASS).setFlag p HSH_KAT_FAIL false
     | .pke _ _ => (s.bump p PKE_KAT_PASS).setFlag p PKE_KAT_FAIL false
     | .rnx _ => (s.bump p RNG_KAT_PASS).setFlag p RNG_KAT_FAIL false
     | _ => s)
  else s

/-- A test begins: a spare is taken from its pool, an active unit first gets a healthy spare, and one without a spare is
tested only while it is idle (R31).  An expander's known-answer tests need no idle unit (R301). -/
def cruiseStart (s : State) (p : PageId) : State :=
  let x := s.auxOf p
  if stateOf s p = stFailed ∨ x.cruise ∨ x.admitted.isSome then s
  else if isSparePage p then
    (if stateOf s p = stStopped then refreshSpares ((s.setAux p { x with cruise := true }).setFld p STAT_STATE stStarting) p
     else s)
  else if stateOf s p = stStarting ∨ stateOf s p = stDraining then s
  else if s.flag p CTRL_SPARE_ALLOW ∧ sparesFor s p ≠ [] then coppice s p
  else if inflight s p = 0 ∨ pageBtype p = 0x0205 then s.setAux p { x with cruise := true }
  else s

/-- A test ends with its result; that of an active unit is abandoned where work has arrived (R31). -/
def cruiseEnd (s : State) (p : PageId) (res : CruiseResult) : State :=
  let s := s.setAux p { s.auxOf p with cruise := false }
  let spare := isSparePage p
  if spare = false ∧ inflight s p ≠ 0 ∧ pageBtype p ≠ 0x0205 then s
  else
    let ready := fun (s : State) => if spare then sparePasses s p else s
    match res with
    | .pass => ready (cruiseCount s p true)
    | .fail v => cruiseFail (cruiseCount s p false) p v
    | .repair bank line =>
      let x : Repair := { bank := bank, line := line }
      let home := pageBase (sitePage p (s.fld p SPARE_SITE))
      let s := cruiseCount s p true
      let s := { s with repairMap := s.repairMap ++ [(home, x)] }
      let s := s.setAux p { s.auxOf p with repairs := (s.auxOf p).repairs ++ [x] }
      ready (postEvent s p 0x2003 (BitVec.ofNat 32 bank) (BitVec.ofNat 32 line))
    | .uncoverable bank _ =>
      let s := cruiseCount s p false
      let s := postEvent s p 0x2002 (BitVec.ofNat 32 (s.fld p SPARE_SITE)) (BitVec.ofNat 32 bank)
      meetError s p (faultCodes p).1 false .none 0
    | .start | .osc _ _ => s

/-- CRUISE_TEST of page `p`: a test of the site behind it begins or ends (R31 to R34).  The source's page takes the tests
of its oscillators beside that of its logic (R301). -/
def execCruiseTest (p : PageId) (res : CruiseResult) (s : State) : Res := onComplex s <|
  if live s p = false then .next s
  else match res with
    | .osc site ok => .next (if p = .rng then oscCruise s site ok else s)
    | .start => .next (cruiseStart s p)
    | r => .next (if (s.auxOf p).cruise then cruiseEnd s p r else s)

/-- SRAM_REPAIR_APPLY at a block's idle point: the oldest repair that waits is applied to its macro (R34). -/
def execSramRepairApply (p : PageId) (s : State) : Res :=
  if inflight s p ≠ 0 then .next s
  else
    let x := s.auxOf p
    .next (s.setAux p { x with repairs := x.repairs.drop 1, applied := x.applied ++ x.repairs.take 1 })

/-! ## The state machine (R50 to R53) -/

/-- Pages whose EN, DRAIN_REQ and SQUASH_REQ writes are ignored: R53, R377, R436, R449, spare positions (R44), the
vault (R212) and a RUNNING HBM controller (R471). -/
def ignoresCtrl (s : State) (p : PageId) : Bool :=
  undrained p || isSparePage p || decide (p = .vlt) || (decide (p = .hbc) && running s .hbc)

/-- The fields of a CTRL write without behaviour are stored, unless the page is locked (R49). -/
def storeCtrl (s : State) (p : PageId) (c : CtrlPlain) : State :=
  if locked s p then s
  else
    let s := (s.setFld p CTRL_DRAIN_TO c.drainTo.toNat).setFlag p CTRL_TEST_EN c.testEn
    if coppiced p then s.setFlag p CTRL_SPARE_ALLOW c.spareAllow else s

/-- EN and DRAIN_REQ stored.  EN = 1 is ignored on a FAILED page that no spare is on its way to (R52), and on an expander
in raw sample mode, with ERR.ACCESS (R302). -/
def storeEn (s : State) (p : PageId) (en drain : Bool) : State :=
  let s := s.setFlag p CTRL_DRAIN_REQ drain
  if en = false then s.setFlag p CTRL_EN false
  else if pageBtype p = 0x0205 ∧ rawMode s then accessErr s p
  else if stateOf s p = stFailed ∧ (s.auxOf p).admitted.isNone then s
  else s.setFlag p CTRL_EN true

/-- What starting does beside the state (R299, R302, R356, R384). -/
def startHook (s : State) : PageId → State
  | .sch r =>
    let s := endItems s (regionItems s r) stABORTED_DRAIN
    (List.range 8).foldl (fun s l => s.setReady r l []) { s with timers := lset s.timers r [] }
  | .rng => s.setFlag .rng RNG_SRC_STATUS_STARTUP_DONE false
  | .par =>
    if s.role = roNONE then
      (if s.pair.roleHigh then setRole s.takeFresh roALONE (openCause s) else { s with pair := { s.pair with joining := true } })
    else s
  | _ => s

/-- BLOCK_ENABLE: CTRL written with EN = 1 and DRAIN_REQ = 0. -/
def execBlockEnable (p : PageId) (c : CtrlPlain) (s : State) : Res := onComplex s <|
  if live s p = false then .next s
  else
    let s := storeCtrl s p c
    if ignoresCtrl s p then .next s
    else
      let s := storeEn s p true false
      if s.flag p CTRL_EN ∧ (stateOf s p = stOff ∨ stateOf s p = stStopped) ∧ ¬ (pageBtype p = 0x0205 ∧ rawMode s) then
        .next (startHook (s.setFld p STAT_STATE stStarting) p)
      else .next s

/-- A write that would drain or squash a CTX page is refused while its scheduler works (R496). -/
def ctxRefuses (s : State) : PageId → Bool
  | .ctx r => decide (stateOf s (.sch r) ≠ stStopped) && decide (stateOf s (.sch r) ≠ stOff)
  | _ => false

/-- What entering DRAINING does beside the state (R18, R237, R300). -/
def drainHook (s : State) : PageId → State
  | .cph r k => returnPrefetch s (.cph r k)
  | .hsh r k => returnPrefetch s (.hsh r k)
  | .pke r k => returnPrefetch s (.pke r k)
  | .kcr r k => if k < 32 then unprefetch s (32 * r + k) else s
  | .rng => setSeedQ s []
  | _ => s

/-- DRAINING is entered from STARTING or RUNNING; DRAIN_TO is latched, and 0 squashes at once (R46, R50). -/
def enterDraining (s : State) (p : PageId) : State :=
  if stateOf s p = stStarting ∨ stateOf s p = stRunning then
    let t := s.fld p CTRL_DRAIN_TO
    let s := s.setAux p { s.auxOf p with drainTo := t, drainAt := s.time.tick }
    let s := heartbeatOut (drainHook (s.setFld p STAT_STATE stDraining) p)
    if t = 0 then squashBlock s p else s
  else s

/-- Clearing EN on PAR changes the role (R400). -/
def disableHook (s : State) : PageId → State
  | .par => pairDisable s
  | _ => s

/-- BLOCK_DISABLE: CTRL written with EN = 0, without SQUASH_REQ. -/
def execBlockDisable (p : PageId) (c : CtrlPlain) (s : State) : Res := onComplex s <|
  if live s p = false then .next s
  else if ctxRefuses s p then .next (accessErr s p)
  else
    let s := storeCtrl s p c
    if ignoresCtrl s p then .next s
    else .next (disableHook (enterDraining (storeEn s p false false) p) p)

/-- DRAIN_REQ: CTRL written with DRAIN_REQ = 1. -/
def execDrainReq (p : PageId) (c : CtrlPlain) (en : Bool) (s : State) : Res := onComplex s <|
  if live s p = false then .next s
  else if ctxRefuses s p then .next (accessErr s p)
  else
    let s := storeCtrl s p c
    if ignoresCtrl s p then .next s else .next (enterDraining (storeEn s p en true) p)

/-- SQUASH_REQ: CTRL written with SQUASH_REQ = 1 and EN = 0. -/
def execSquashReq (p : PageId) (c : CtrlPlain) (drainReq : Bool) (s : State) : Res := onComplex s <|
  if live s p = false then .next s
  else if ctxRefuses s p then .next (accessErr s p)
  else
    let s := storeCtrl s p c
    if ignoresCtrl s p then .next s
    else
      let s := storeEn s p false drainReq
      if stateOf s p = stStarting ∨ stateOf s p = stRunning ∨ stateOf s p = stDraining then
        .next (disableHook (squashBlock (drainHook s p) p) p)
      else .next s

/-- The count of vector runs that pass on a lane's page. -/
def settleHook (s : State) : PageId → State
  | .cph r k => katResult s (.cph r k) CPH_KAT_PASS CPH_KAT_VECTOR CPH_KAT_FAIL 0x53 none
  | .hsh r k => katResult s (.hsh r k) HSH_KAT_PASS HSH_KAT_VECTOR HSH_KAT_FAIL 0x5B none
  | .pke r k => katResult s (.pke r k) PKE_KAT_PASS PKE_KAT_VECTOR PKE_KAT_FAIL 0x65 none
  | _ => s

/-- A spare's site is in its admission check for some page. -/
def underAdmission (s : State) (q : PageId) : Bool := (poolOf q).any fun p => decide ((s.auxOf p).admitted = some (unitPos q))

/-- STARTUP_SETTLED: the start-up checks of a STARTING block are done (R50), or those of a spare, which then stands
STOPPED in its pool (R44); an engine whose microcode is not what ODM loaded fails (R255).  The source, the expanders, the vault and the HBM controller settle by events of their own. -/
def execStartupSettled (p : PageId) (s : State) : Res :=
  if live s p = false ∨ stateOf s p ≠ stStarting then .next s
  else if ucodeMatches s p = false then
    .next (let s := unitFails s p 0
      if isSparePage p then s else afterFailure s p)
  else if isSparePage p then
    .next (if (s.auxOf p).cruise ∨ underAdmission s p then s else offerSpare (sparePasses s p) p)
  else match p with
    | .rng | .rnx _ | .vlt | .hbc => .next s
    | _ => .next (heartbeatOut ((settleHook s p).setFld p STAT_STATE stRunning))

/-- DRAIN_COMPLETE: a draining block is empty (R50). -/
def execDrainComplete (p : PageId) (s : State) : Res :=
  if live s p = false ∨ stateOf s p ≠ stDraining ∨ inflight s p ≠ 0 then .next s else .next (enterStopped s p)

/-- DRAIN_TIMEOUT: time passes to the end of the latched DRAIN_TO, and what is left is squashed (R50, R51). -/
def execDrainTimeout (p : PageId) (s : State) : Res :=
  if live s p = false ∨ stateOf s p ≠ stDraining then .next s
  else .next (squashBlock (advanceTo s ((s.auxOf p).drainAt + (s.auxOf p).drainTo)) p)

end Sys2Proof.Machine
end

