-- ==== Sys2Proof/Machine/HostCmd.lean ====
section
/-!
DEFINITION. What every host command shares: the element form of payloads (R100, R104), the Context field (R89), the
command a core's verified item carries, and its answer (R103 to R107).
-/
namespace Sys2Proof.Machine

/-- An element: type and value. -/
abbrev Elem := Nat × Bytes

/-- The elements of a payload, when they fill it exactly.  The first argument bounds their number. -/
def elemsAux : Nat → Bytes → Option (List Elem)
  | _, [] => some []
  | 0, _ => none
  | n + 1, b =>
    let len := field b 2 2
    if b.length < 4 + len then none
    else (elemsAux n (b.drop (4 + len))).map fun l => (field b 0 2, slice b 4 len) :: l

/-- The elements of a payload. -/
def elems (b : Bytes) : Option (List Elem) := elemsAux b.length b

/-- An element's bytes. -/
def elemBytes (t : Nat) (v : Bytes) : Bytes := beBytes 2 t ++ beBytes 2 v.length ++ v

/-- What a command's entry says of one element type. -/
structure ElemDef where
  typ : Nat
  mandatory : Bool
  repeats : Bool
  /-- Allowed lengths. -/
  len : Nat → Bool

/-- A mandatory element. -/
def must (t : Nat) (len : Nat → Bool) : ElemDef := { typ := t, mandatory := true, repeats := false, len := len }
/-- An optional element. -/
def may (t : Nat) (len : Nat → Bool) : ElemDef := { typ := t, mandatory := false, repeats := false, len := len }
/-- A length of exactly `n`. -/
def lenIs (n : Nat) (l : Nat) : Bool := decide (l = n)
/-- A length from `a` to `b`. -/
def lenIn (a b : Nat) (l : Nat) : Bool := decide (a ≤ l ∧ l ≤ b)

/-- The first element of a type. -/
def elem? (l : List Elem) (t : Nat) : Option Bytes := (l.find? fun e => e.1 = t).map Prod.snd
/-- Its value, empty where it is absent. -/
def elemD (l : List Elem) (t : Nat) : Bytes := (elem? l t).getD []
/-- It is present. -/
def hasElem (l : List Elem) (t : Nat) : Bool := (elem? l t).isSome
/-- Its value as a number. -/
def elemNat (l : List Elem) (t : Nat) : Nat := beNat (elemD l t)

/-- Checks 1 to 4 of R100, in order. -/
def elemShape (defs : List ElemDef) (b : Bytes) : Except Nat (List Elem) :=
  match elems b with
  | none => .error stLENGTH
  | some l =>
    if l.any fun e => ! defs.any fun d => d.typ = e.1 then .error stFORMAT
    else if defs.any fun d => ! d.repeats && decide (1 < (l.filter fun e => e.1 = d.typ).length) then .error stFORMAT
    else if defs.any fun d => d.mandatory && ! hasElem l d.typ then .error stFORMAT
    else .ok l

/-- Check 5 of R100. -/
def elemLens (defs : List ElemDef) (l : List Elem) : Option Nat :=
  if l.any fun e => defs.any fun d => decide (d.typ = e.1) && ! d.len e.2.length then some stLENGTH else none

/-- The element types CTX and BIND_CTX (R89, R115). -/
abbrev elCTX : Nat := 0x1003
abbrev elBIND_CTX : Nat := 0x1004

/-- The Context field holds what R89 requires of it. -/
def contextField (i : Item) (l : List Elem) : Bool :=
  let want := match elem? l elCTX with
    | some v => beNat v
    | none => match elem? l elBIND_CTX with
      | some v => beNat v
      | none => 0
  decide (i.ctxId.toNat = want)

/-- All five checks and the Context field, for commands outside R116. -/
def elemsOf (defs : List ElemDef) (i : Item) : Except Nat (List Elem) :=
  if i.fixed then .error stFORMAT
  else match elemShape defs i.payload with
    | .error st => .error st
    | .ok l =>
      if contextField i l = false then .error stFORMAT
      else match elemLens defs l with
        | some st => .error st
        | none => .ok l

/-! ## Running and answering -/

/-- Commands that a locked device still serves (R95). -/
def servedLocked (c : Nat) : Bool := decide (c ∈ [0x0E01, 0x0E02, 0x0E03, 0x0F01, 0x0F02, 0x0F06])

/-- The verified item that core `k` runs, when it carries command `code`.  SESSION_HELLO travels in clear. -/
def hostItem (s : State) (k code : Nat) : Option Item :=
  if coreRuns s k = false then none
  else match (s.core k).run.bind s.item with
    | some i => if i.cmd = code ∧ (i.verified ∨ isPlain i) ∧ i.port ≠ 0xFF then some i else none
    | none => none

/-- A host command runs on core `k`: without such an item the command does not occur; a locked device refuses it
unless R95 lists it. -/
def hostRun (s : State) (k code : Nat) (f : State → Item → State) : Res :=
  match hostItem s k code with
  | none => .next s
  | some i => if s.devLocked && ! servedLocked code then .next (endItem s i stDEVICE_LOCKED) else .next (f s i)

/-- An item refused or answered with no elements. -/
def answerStatus (s : State) (i : Item) (st : Nat) : State := endItem s i st

/-- An item answered with elements. -/
def answer (s : State) (i : Item) (st : Nat) (l : List Elem) : State :=
  endItem s i st ((l.map fun e => elemBytes e.1 e.2).flatten)

/-- A state-changing command commits: its window entry takes its status and result word, and it is answered. -/
def answerCommit (s : State) (i : Item) (result : Bytes) (l : List Elem) : State :=
  answer (dupCommit s i stOK (fitR 8 result)) i stOK l

/-- An answer in fixed-field form or any other payload. -/
def answerRaw (s : State) (i : Item) (st : Nat) (payload : Bytes) : State := endItem s i st payload

end Sys2Proof.Machine
end

