-- ==== Sys2Proof/Machine/NetParse.lean ====
section
/-!
DEFINITION. What a port reads of a received frame: the Ethernet and VLAN headers, ARP and Neighbour Solicitations
for its own address, IP and UDP, and the Adetra header (R60, R61, R63, R84, R89 to R91).  Frames are held without
their FCS.  Field places of Ethernet, 802.1Q, ARP, IPv4, IPv6, ICMPv6 and UDP are those of their standards (log 17).
-/
namespace Sys2Proof.Machine

/-- What a port's checks 1 to 5 find. -/
inductive Parsed where
  /-- Checks 1 to 3 fail. -/
  | bad
  /-- An answered ARP request or Neighbour Solicitation: the answer. -/
  | neighbour (answer : Bytes)
  /-- Check 4 or 5 fails. -/
  | noMatch
  /-- An Adetra frame: where it comes from, its VLAN tag, its bytes, whether Ethernet padding may follow it there, and
  that nothing else lies outside it (R91). -/
  | adetra (source : Addr) (vlan : Option Nat) (body : Bytes) (pad clean : Bool)
  deriving DecidableEq, Repr

/-- A flag of the port's mode register: bit 6 EtherType, 7 IPv4, 8 IPv6. -/
def modeBit (s : State) (p bit : Nat) : Bool :=
  if p = 128 then s.flag .mgt ⟨0x040, bit, 1⟩ else s.flag (.lnk p) ⟨0x040, bit, 1⟩

/-- The largest frame a port takes. -/
def maxFrame (s : State) (p : Nat) : Nat := if p = 128 then s.fld .mgt MGT_MAXFRM else s.fld (.lnk p) LNK_MAXFRM

/-- A group address. -/
def isGroup (mac : Bytes) : Bool := (byteAt mac 0).testBit 0

/-- An ARP request's target and the answer of a station (m: the ARP packet). -/
def arpAnswer (s : State) (p : Nat) (vlan : Option Nat) (m : Bytes) : Option (Bytes × Bytes) :=
  if slice m 0 8 = [0, 1, 8, 0, 6, 4, 0, 1] ∧ 28 ≤ m.length then
    let mac := stationMac s p
    some (slice m 24 4, etherBytes (slice m 8 6) mac vlan 0x0806
      ([0, 1, 8, 0, 6, 4, 0, 2] ++ mac ++ stationIp4 s p ++ slice m 8 10))
  else none

/-- A Neighbour Solicitation's target and the Neighbour Advertisement of a station (m: the IPv6 packet). -/
def nsAnswer (s : State) (p : Nat) (vlan : Option Nat) (src m : Bytes) : Option (Bytes × Bytes) :=
  let len := field m 4 2
  let c := slice m 40 len
  if byteAt m 0 / 16 = 6 ∧ byteAt m 6 = 58 ∧ byteAt m 7 = 255 ∧ byteAt c 0 = 135 ∧ byteAt c 1 = 0 ∧ 24 ≤ c.length ∧
      onesSum (slice m 8 32 ++ beBytes 4 len ++ [0, 0, 0, 58] ++ c) = 65535 then
    let mac := stationMac s p
    let ip := stationIp6 s p
    let anon := decide (slice m 8 16 = zeros 16)
    let dst := if anon then [0xFF, 2] ++ zeros 13 ++ [1] else slice m 8 16
    let dmac := if anon then [0x33, 0x33, 0, 0, 0, 1] else src
    let adv := fun (sum : Bytes) => [136, 0] ++ sum ++ [if anon then 0x20 else 0x60, 0, 0, 0] ++ ip ++ [2, 1] ++ mac
    let pseudo := ip ++ dst ++ beBytes 4 32 ++ [0, 0, 0, 58]
    let body := adv (beBytes 2 (inetSum (pseudo ++ adv [0, 0])))
    some (slice c 8 16, etherBytes dmac mac vlan 0x86DD ([0x60, 0, 0, 0, 0, 32, 58, 255] ++ ip ++ dst ++ body))
  else none

/-- A UDP datagram to the port: its source port and payload, where the length and checksum hold. -/
def udpParse (s : State) (p : Nat) (v6 : Bool) (pseudo u : Bytes) : Option (Nat × Bytes) :=
  let len := field u 4 2
  let sum := field u 6 2
  if u.length < 8 ∨ len < 8 ∨ u.length < len ∨ field u 2 2 ≠ stationUdp s p then none
  else if sum = 0 then (if v6 then none else some (field u 0 2, slice u 8 (len - 8)))
  else if onesSum (pseudo ++ beBytes 2 len ++ u.take len) = 65535 then some (field u 0 2, slice u 8 (len - 8))
  else none

/-- Checks 4 and 5 on an IPv4 packet. -/
def ipv4Parse (s : State) (p : Nat) (short : Bool) (mac : Bytes) (vlan : Option Nat) (m : Bytes) : Parsed :=
  let len := field m 2 2
  if byteAt m 0 ≠ 0x45 ∨ byteAt m 9 ≠ 17 ∨ slice m 16 4 ≠ stationIp4 s p ∨ field m 6 2 % 0x4000 ≠ 0 ∨ len < 28 ∨
      m.length < len then .noMatch
  else match udpParse s p false (slice m 12 8 ++ [0, 17]) (slice m 20 (len - 20)) with
    | some (port, b) =>
      .adetra { mac := mac, ip := some (slice m 12 4, port) } vlan b false
        ((short || decide (m.length = len)) && decide (len = 28 + b.length))
    | none => .noMatch

/-- Checks 4 and 5 on an IPv6 packet. -/
def ipv6Parse (s : State) (p : Nat) (short : Bool) (mac : Bytes) (vlan : Option Nat) (m : Bytes) : Parsed :=
  let len := field m 4 2
  if byteAt m 0 / 16 ≠ 6 ∨ byteAt m 6 ≠ 17 ∨ slice m 24 16 ≠ stationIp6 s p ∨ m.length < 40 + len then .noMatch
  else match udpParse s p true (slice m 8 32 ++ [0, 0, 0, 17, 0, 0]) (slice m 40 len) with
    | some (port, b) =>
      .adetra { mac := mac, ip := some (slice m 8 16, port) } vlan b false
        ((short || decide (m.length = 40 + len)) && decide (len = 8 + b.length))
    | none => .noMatch

/-- Checks 1 to 5 of R60 on a frame at port `p`. -/
def parseFrame (s : State) (p : Nat) (fcsOk : Bool) (f : Bytes) : Parsed :=
  let len := f.length + 4
  let dst := slice f 0 6
  let src := slice f 6 6
  let tagged := decide (field f 12 2 = 0x8100)
  let vlan := if tagged then some (field f 14 2) else none
  let et := if tagged then field f 16 2 else field f 12 2
  let m := f.drop (if tagged then 18 else 14)
  let own := decide (dst = stationMac s p)
  let short := decide (len = 64)
  if fcsOk = false ∨ len < 64 ∨ maxFrame s p < len ∨ et = 0x8100 ∨ et = 0x88A8 then .bad
  else
    let near := if et = 0x0806 then (arpAnswer s p vlan m).map fun x => (x, decide (x.1 = stationIp4 s p), modeBit s p 7)
      else if et = 0x86DD then (nsAnswer s p vlan src m).map fun x => (x, decide (x.1 = stationIp6 s p), modeBit s p 8)
      else none
    match near with
    | some ((_, ans), forUs, en) =>
      if forUs = false ∨ (own = false ∧ isGroup dst = false) then .bad
      else if en then .neighbour ans else .noMatch
    | none =>
      if own = false then .bad
      else if et = stationEtype s p ∧ modeBit s p 6 then
        .adetra { mac := src, ip := none } vlan m short true
      else if et = 0x0800 ∧ modeBit s p 7 then ipv4Parse s p short src vlan m
      else if et = 0x86DD ∧ modeBit s p 8 then ipv6Parse s p short src vlan m
      else .noMatch

/-! ## The Adetra header (R89 to R91) -/

abbrev hFlags (h : Bytes) : Nat := byteAt h 1
abbrev hTenant (h : Bytes) : Nat := field h 4 2
abbrev hSession (h : Bytes) : Nat := field h 6 4
abbrev hSeq (h : Bytes) : Nat := field h 10 8
abbrev hTag (h : Bytes) : Word := BitVec.ofNat 32 (field h 18 4)
abbrev hCmd (h : Bytes) : Nat := field h 22 2
abbrev hStatus (h : Bytes) : Nat := field h 24 2
abbrev hPayLen (h : Bytes) : Nat := field h 26 2
abbrev hTmo (h : Bytes) : Nat := byteAt h 28
abbrev hClass (h : Bytes) : Nat := byteAt h 29
abbrev hContext (h : Bytes) : Word := BitVec.ofNat 32 (field h 30 4)

/-- The PLAIN flag. -/
def hPlain (h : Bytes) : Bool := (hFlags h).testBit 5

/-- The class of a frame: its PCP when tagged on a host port, else the header's (R63, R84). -/
def frameClass (p : Nat) (vlan : Option Nat) (h : Bytes) : Nat :=
  match vlan with
  | some v => if p = 128 then hClass h % 8 else v / 8192
  | none => hClass h % 8

/-- Check 6: the header of R91, the flags of R90, the classes of R63 and the sequence number of a HELLO (R93). -/
def headerOk (p : Nat) (vlan : Option Nat) (b : Bytes) (pad clean : Bool) (frameLen : Nat) : Bool :=
  let c := frameClass p vlan b
  let hello := decide (hCmd b = 0x0E01)
  let total := 40 + hPayLen b + (if hPlain b then 0 else 16)
  decide (40 ≤ b.length) && decide (byteAt b 0 = 1) && decide (field b 2 2 = 40) && decide (slice b 34 6 = zeros 6) &&
  decide (hTenant b < 1024) && decide (hTmo b < 32) && decide (hClass b < 8) && decide (hStatus b = 0) &&
  decide (hFlags b / 16 % 2 = 0 ∧ hFlags b / 128 = 0 ∧ hFlags b % 16 = 0) &&
  clean && (decide (b.length = total) || (pad && decide (total < b.length))) &&
  decide (c = hClass b) &&
  (decide (c ≠ 7) || (decide (hCmd b / 256 = 0x0E) && decide (frameLen ≤ 512))) &&
  (decide (hCmd b ≠ 0x0E10) || decide (c = 7)) &&
  (hPlain b == hello) && (! hello || (decide (hSeq b = 0) && decide (hSession b = 0)))

end Sys2Proof.Machine
end

