-- ==== Sys2Proof/Machine/SessionBase.lean ====
section
/-!
DEFINITION. What a frame on an open session goes through: the sequence window (R96), the tag (R92), the host's move
(R77, R78), and the checks of a verified request before its command runs (R93, R98, R107, R109, R111).
-/
namespace Sys2Proof.Machine

/-! ## Sequence numbers (R93, R96) -/

/-- A session accepts a sequence number: 1 alone until its FINISH, then above the highest or among the 1,024 below it and
not yet accepted. -/
def seqFresh (se : Session) (n : Nat) : Bool :=
  if se.stage = .hello ∧ n ≠ 1 then false
  else decide (se.highest < n) || (decide (n < se.highest ∧ se.highest - n ≤ 1024) && ! se.accepted.contains n)

/-- A number marked accepted. -/
def acceptSeq (se : Session) (n : Nat) : Session :=
  let hi := max se.highest n
  { se with highest := hi, accepted := (n :: se.highest :: se.accepted).eraseDups.filter fun x => decide (x < hi ∧ hi - x ≤ 1024) }

/-- The session a frame names, open to frames of its tenant that arrive on its kind of port (R60, R85, R91). -/
def frameSession (s : State) (mgmt : Bool) (id tenant : Nat) : Option Session :=
  match s.session id with
  | some se => if se.tenant = tenant ∧ se.mgmt = mgmt then some se else none
  | none => none

/-- The plaintext of an item's frame, when its tag verifies. -/
def openItem (s : State) (se : Session) (i : Item) : Option Bytes :=
  gcmOpen (aesEncK (aesKeys (fitR 32 (cacheKey s se.slotIn)))) (frameNonce se.saltIn i.seq) i.header i.payload i.gtag

/-! ## The host table (R76 to R78) -/

/-- Responses queued on a port for a host are discarded and counted; one in transmission goes on (R77). -/
def dropQueuedFor (s : State) (p h : Nat) : State :=
  let q := s.port p
  let n := if q.sending then 1 else 0
  let keep := q.tx.take n ++ (q.tx.drop n).filter fun x => x.host ≠ some h
  countDisc (s.setPort p { q with tx := keep }) p (q.tx.length - keep.length)

/-- A verified frame at port `p`: its host's entry is refreshed, and moves unless it is static or damped.  The model's
choice where R77 is silent: an entry that is reserved and not yet valid is no known host and does not move (log 98). -/
def hostSeen (s : State) (t p : Nat) (a : Addr) : State :=
  if 128 ≤ p then s
  else match findHost s t a with
    | none => s
    | some (h, e) =>
      let e := { e with lastFrame := s.time.tick, key := if e.isStatic then e.key else { e.key with mac := a.mac } }
      if e.isStatic ∨ e.valid = false ∨ e.port = p then s.setHost h (some e)
      else if (match e.lastMove with | some m => decide (s.time.tick < m + s.fld .htb HTB_CFG_DAMP) | none => false) then
        (s.setHost h (some e)).bump .htb HTB_DAMPED
      else
        let s := s.setHost h (some { e with port := p, lastMove := some s.time.tick })
        let s := dropQueuedFor (s.bump .htb HTB_MOVES) e.port h
        postEvent s .htb 0x4001 (BitVec.ofNat 32 t) (BitVec.ofNat 32 e.port) (BitVec.ofNat 32 p) (BitVec.ofNat 32 h)

/-! ## Verification -/

/-- A frame dropped for its session, sequence number or tag (R60, R91, R92). -/
def countAuth (s : State) (r t : Nat) : State := pmcEvent (s.bump (.cls r) CLS_DROP_AUTH) r 0x02 (some t)

/-- An item's tag is checked against its session: the item in plaintext with its duplicate-tag window, the sequence
number accepted and the host seen; or nothing, for a bad tag, a closed session or a replay. -/
def verifyItem (s : State) (i : Item) : Option (Item × State) :=
  match frameSession s (decide (i.port = 0x80)) i.session i.tenant with
  | none => none
  | some se =>
    match openItem s se i with
    | none => none
    | some m =>
      if seqFresh se i.seq = false then none
      else
        let se := acceptSeq se i.seq
        let se := { se with seen := some (se.seen.getD s.time.tick) }
        some ({ i with payload := m, verified := true, window := some se.window }, hostSeen (s.setSession i.session (some se)) i.tenant i.port i.source)

/-- Why a verified request is refused before its command: the sequence limits (R98; admission is the moment at which a
session takes no new work, log 99), the session's stage (R93), TMO (R111),
the command code and its unit (R109), and the lock (R95). -/
def requestRefused (s : State) (i : Item) : Option Nat :=
  match s.session i.session with
  | none => none
  | some se =>
    if 2 ^ 36 ≤ i.seq ∨ i.late then some stCOUNTER_EXHAUSTED
    else if se.stage = .hello ∧ i.cmd ≠ 0x0E02 then some stNOT_AUTHORISED
    else if 28 ≤ i.tmo then some stFORMAT
    else if (cmdClass i.cmd).isNone ∨ romOnly i.cmd then some stUNKNOWN_COMMAND
    else if cmdFitted s.fuse.variant i.cmd = false then some stNOT_FITTED
    else if s.devLocked && ! servedLocked i.cmd then some stDEVICE_LOCKED
    else none

/-- What the duplicate-tag window answers a state-changing request with (R107): status and payload. -/
def dupAnswer (s : State) (i : Item) : Option (Nat × Bytes × Bool) :=
  (dupFind s i).map fun e =>
    if e.cmd ≠ i.cmd then (stFORMAT, [], false)
    else match e.status with
      | some st => (st, elemBytes 0xFFF0 (fitR 8 e.result), true)
      | none => (stBUSY, [], true)

/-- An item answered from the window: the original's entry stays. -/
def answerDup (s : State) (i : Item) (st : Nat) (payload : Bytes) (dup : Bool) : State :=
  let s := releaseItem s i
  settle settleBound (settleClose (tagEgress (respondOn s i st payload dup false) i st) i.session)

end Sys2Proof.Machine
end

