-- ==== Sys2Proof/Machine/Ports.lean ====
section
/-!
DEFINITION. The host ports: link state (R57, R58), received frames and their admission (R60 to R66, R37, R356, R389,
R398), flow control (R66, R70), fencing (R75) and the host table's ageing and operations (R76, R82).
-/
namespace Sys2Proof.Machine

/-! ## Admission (R60, R63 to R65, R37) -/

/-- A link frame sent ahead of the queued responses. -/
def sendLink (s : State) (p : Nat) (f : Bytes) : State :=
  s.setPort p { s.port p with link := (s.port p).link ++ [f] }

/-- A filter in force: it has reached every port (R73). -/
def brakeActive (s : State) (f : Nat) : Bool := (oget s.brakes f).any Brake.active

/-- A filter matches a frame or item of a tenant and session at a port (R71). -/
def Brake.hits (b : Brake) (tenant session port : Nat) : Bool :=
  match b.kind with
  | 1 => decide (b.value = tenant)
  | 2 => decide (b.value = session)
  | _ => decide (b.value = port)

/-- The filters in force that match. -/
def brakeHits (s : State) (tenant session port : Nat) : List Nat :=
  (List.range 64).filter fun f => brakeActive s f &&
    (match oget s.brakes f with | some b => b.hits tenant session port | none => false)

/-- Where a frame of `n` bytes is stored: the part of the buffer, or nothing where it does not fit (R64, R85). -/
def poolFor (s : State) (r p c n : Nat) : Option Pool :=
  if p = 128 then (if mgmtBytes s r + n ≤ 65536 then some .management else none)
  else if c = 7 then (if (s.port p).control + n ≤ 8192 then some .control else none)
  else if s.flag (.lnk p) LNK_STATUS_XOFF then
    (if (s.port p).runout + n ≤ runoutBytes s p then some .runout else none)
  else if sharedUsed s r + n ≤ sharedPool s r then some .shared
  else none

/-- Space taken in a port's part of the buffer; a management frame's is counted once its item is held. -/
def takeBuffer (s : State) (p : Nat) (pool : Pool) (n : Nat) : State :=
  let q := s.port p
  match pool with
  | .shared => spaceTaken (s.setPort p { q with shared := q.shared + n }) (p / 32) p
  | .control => s.setPort p { q with control := q.control + n }
  | .runout => s.setPort p { q with runout := q.runout + n }
  | .management => s

/-- A stretch inserted in a list sorted by its start. -/
def insertRun (x : Nat × Nat) : List (Nat × Nat) → List (Nat × Nat)
  | [] => [x]
  | y :: l => if x.1 ≤ y.1 then x :: y :: l else y :: insertRun x l

/-- The frame buffer offset of an item's payload: the lowest free run of the region (log 19). -/
def fbPlace (s : State) (r n : Nat) : Nat :=
  let used := (opresent s.items).foldl (fun l e =>
    if e.2.region = r ∧ e.2.port ≠ 0xFF then insertRun (e.2.fbOff, e.2.payload.length) l else l) []
  (freeRun n fbSize 0 used).getD 0

/-- The ready level of a frame's work (R65, R85). -/
def frameLevel (s : State) (p r c cmd : Nat) : Nat :=
  if p = 128 then (if cmd / 256 = 0x0E then 0 else 1)
  else if c = 7 then 0
  else max 1 (s.fld (.cls r) CLS_LVLMAP / 2 ^ (3 * c) % 8)

/-- The work item of a frame. -/
def frameItem (s : State) (p r c : Nat) (src : Addr) (vlan : Option Nat) (b : Bytes) (pool : Pool) (n : Nat) : Item :=
  let h := b.take 40
  let tmo := hTmo h
  let home := homeRegion s r (hContext h)
  { Item.blank with
    stamp := s.nextItem, region := home, ingress := r, entry := Config.dispatcherEntry, tenant := hTenant h
    session := hSession h, tag := hTag h, cmd := hCmd h, fixed := (hFlags h).testBit 6
    level := frameLevel s p r c (hCmd h), port := p, ctxId := hContext h
    fbOff := fbPlace s home (hPayLen h), payLen := hPayLen h
    deadline := deadlineFrom s (hTenant h) (if tmo = 0 ∨ 28 ≤ tmo then 0 else 2 ^ tmo)
    seq := hSeq h, cls := hClass h, tmo := tmo, header := h
    payload := slice b 40 (hPayLen h), gtag := if hPlain h then [] else slice b (40 + hPayLen h) 16
    late := (s.session (hSession h)).any fun se => decide (2 ^ 36 - 2 ^ 16 ≤ se.devSeq)
    verified := false, source := src, vlan := vlan, pool := pool, held := n }

/-- Why an item is refused at admission (R369, R398, R356, R389, R20, R340). -/
def admissionRefusal (s : State) (i : Item) : Option Nat :=
  if (s.tenant i.tenant).state = 2 then some stTENANT_RESETTING
  else if s.pair.switching then some stDISCARDED_FAILOVER
  else if schTakes s i.region = false then some stBUSY
  else if backlogOver s ∧ (cmdClass i.cmd = some .changing ∨ cmdClass i.cmd = some .counter) then some stBUSY
  else admitStatus s i.region i.tenant

/-- A new item joins its region, or ends at once: a SESSION_HELLO is answered in clear, any other frame waits for its
tag to be verified (R493). -/
def admitFrame (s : State) (i : Item) : State :=
  let s := if i.region ≠ i.ingress then s.bump (.cls i.ingress) CLS_FWD else s
  match admissionRefusal s i with
  | none =>
    let s := admitItem s i
    if i.pool = .management then spaceTaken s i.ingress i.port else s
  | some st =>
    let s := countAdmitRefusal s i.region i.tenant st
    let s := releaseBuffer { s with nextItem := s.nextItem + 1 } i
    if isPlain i then respondPlain s i 0 0 st []
    else { s with early := s.early ++ [{ i with early := some st, held := 0 }] }

/-- Session and sequence checks after check 8; a HELLO has neither. -/
def sessionAdmits (s : State) (p : Nat) (b : Bytes) : Bool :=
  hPlain b ||
    match frameSession s (decide (p = 128)) (hSession b) (hTenant b) with
    | some se => decide (se.stage ≠ .closing) && seqFresh se (hSeq b)
    | none => false

/-- A frame that passes check 6 in region `r`: checks 7 and 8, the session, and its place in the buffer. -/
def classify (s : State) (p r c n : Nat) (src : Addr) (vlan : Option Nat) (b : Bytes) : State :=
  let t := hTenant b
  let hits := if c = 7 ∨ p = 128 then [] else brakeHits s t (hSession b) p
  if c ≠ 7 ∧ p ≠ 128 ∧ s.mirrorBad.contains r then clsDrop s r CLS_DROP_BRAKE (some t)
  else if hits ≠ [] then
    hits.foldl (fun s f => s.bump (.cls r) (BRK_COUNT f)) (clsDrop s r CLS_DROP_BRAKE (some t))
  else match poolFor s r p c n with
    | none =>
      if p = 128 then s.bump .mgt MGT_CNT_DROP
      else if c = 7 then pmcEvent (setIrq (s.bump (.lnk p) LNK_CNT_CTLDROP) (.lnk p) 18) r 0x02 (some t)
      else pmcEvent (setIrq (s.bump (.lnk p) LNK_CNT_RUNOUT) (.lnk p) 17) r 0x02 (some t)
    | some pool =>
      if sessionAdmits s p b = false then clsDrop s r CLS_DROP_AUTH (some t)
      else
        let s := if p = 128 then s.bump .mgt MGT_CNT_RXFRM else pmcEvent (s.bump (.lnk p) LNK_CNT_RXFRM) r 0x01 (some t)
        let i := frameItem s p r c src vlan b pool n
        let s := takeBuffer s p pool n
        if hCmd b = 0x0E10 then
          let s := { s with nextItem := s.nextItem + 1, brakeQ := lset s.brakeQ r (lget s.brakeQ r ++ [i]) }
          if pool = .management then spaceTaken s r p else s
        else admitFrame s i

/-- A frame meets the error armed on its region's classifier (R48): one being checked against the filters is dropped by a
parity error, and one in the frame buffer by an uncorrectable one (R81). -/
def classifyTouched (s : State) (p r c n : Nat) (src : Addr) (vlan : Option Nat) (b : Bytes) : State :=
  match (s.auxOf (.cls r)).inject with
  | some .parity => touch s (.cls r)
  | some .uncorr => touch (classify s p r c n src vlan b) (.cls r) (.frame s.nextItem)
  | _ => classify (touch s (.cls r)) p r c n src vlan b

/-- FRAME_RECEIVED at host port `p`: the frame without its FCS, and whether the FCS was correct.  LNK_MODE.PHY 2, near-end
loopback, is no more than a value to the model, where R80 gives it no effect on frames (log 103). -/
def execFrameReceived (p : Nat) (frame : Bytes) (fcsOk : Bool) (s : State) : Res :=
  let r := p / 32
  let s := touchIf s (decide (p < 128) && running s (.lnk p) && s.flag (.lnk p) LNK_STATUS_LINK_UP) (.lnk p)
  if 128 ≤ p ∨ running s (.lnk p) = false ∨ s.flag (.lnk p) LNK_STATUS_LINK_UP = false then .next s
  else if fenced s then .next (s.bump (.cls r) CLS_DROP_BRAKE)
  else if running s (.cls r) = false then .next (clsDrop s r CLS_DROP_STOPPED)
  else match parseFrame s p fcsOk frame with
    | .bad => .next (pmcEvent (s.bump (.lnk p) LNK_CNT_BADFRM) r 0x02 none)
    | .neighbour a => .next (sendLink s p a)
    | .noMatch => .next (clsDrop s r CLS_DROP_NOMATCH)
    | .adetra src vlan b pad clean =>
      if headerOk p vlan b pad clean (frame.length + 4) = false then .next (clsDrop s r CLS_DROP_FORMAT)
      else .next (classifyTouched s p r (frameClass p vlan b) (frame.length + 4) src vlan b)

/-! ## Link state -/

/-- BLOCK_LOCK_ACQUIRED on port `p` (R57, R58). -/
def execBlockLockAcquired (p : Nat) (s : State) : Res :=
  if 128 ≤ p ∨ portAlive s p = false then .next s
  else
    let s := (s.setFlag (.lnk p) LNK_STATUS_BLOCK_LOCK true).setFlag (.lnk p) LNK_STATUS_LINK_UP true
    .next (if s.flag (.lnk p) LNK_MODE_TRAIN_EN ∧ s.fld (.lnk p) LNK_MODE_PHY = 0 then
      s.setFlag (.lnk p) LNK_STATUS_TRAINED true else s)

/-- LINK_DOWN on port `p`: the queue is discarded, a response in transmission cut short (R58). -/
def execLinkDown (p : Nat) (s : State) : Res :=
  if 128 ≤ p ∨ portAlive s p = false then .next s
  else
    let was := s.flag (.lnk p) LNK_STATUS_LINK_UP
    let s := (s.setFlag (.lnk p) LNK_STATUS_BLOCK_LOCK false).setFlag (.lnk p) LNK_STATUS_LINK_UP false
    let s := discardTx false s p
    .next (if was then postEvent (setIrq s (.lnk p) 16) (.lnk p) 0x4003 (BitVec.ofNat 32 p) else s)

/-- TRAINING_TIMEOUT on port `p`: a training run failed; the port retries (R57, R80).  SFI has no training (R56). -/
def execTrainingTimeout (p : Nat) (s : State) : Res :=
  if 128 ≤ p ∨ running s (.lnk p) = false ∨ s.flag (.lnk p) LNK_MODE_TRAIN_EN = false ∨ s.fld (.lnk p) LNK_MODE_PHY ≠ 0 then .next s
  else .next (raiseErrs (setIrq (s.setFlag (.lnk p) LNK_STATUS_TRAINED false) (.lnk p) 19) (.lnk p) [11] 0x11)

/-- RESPONSE_TRANSMIT_DONE on port `p`, the management port being 128: the response is counted and the next one begins
(R58). -/
def execResponseTransmitDone (p : Nat) (s : State) : Res :=
  let s := touchIf s (s.port p).sending (portPage p)
  let q := s.port p
  if q.sending = false then .next s
  else
    let s := s.setPort p { q with tx := q.tx.drop 1, sending := false, link := [] }
    let s := if p = 128 then s.bump .mgt MGT_CNT_TXFRM else s.bump (.lnk p) LNK_CNT_TXFRM
    .next (startTx s p)

/-! ## Flow control (R66, R70) -/

/-- XOFF_REPEAT on port `p`, each 1 ms: XOFF is sent when its condition has come, sent again while it holds, and
ended by quanta 0 when the space is back. -/
def execXoffRepeat (p : Nat) (s : State) : Res :=
  if 128 ≤ p ∨ running s (.lnk p) = false then .next s
  else if s.flag (.lnk p) LNK_STATUS_XOFF = false then .next (xoffCheck s p)
  else .next (if xoffWanted s p then sendPause s p 0xFFFF else xonCheck s p)

/-- The classes held back on a port replaced, and PAUSED_RX with them. -/
def setPaused (s : State) (p : Nat) (m : Byte) : State :=
  let s := s.setPort p { s.port p with paused := m }
  if p = 128 then s.setFlag .mgt MGT_STATUS_PAUSED_RX (m ≠ 0) else s.setFlag (.lnk p) LNK_STATUS_PAUSED_RX (m ≠ 0)

/-- PAUSE_RECEIVED on port `p`, the management port being 128: classes it holds back and classes it lets go.  A PAUSE
names all eight alike, the one kind the management port honours (R70, R84). -/
def execPauseReceived (p : Nat) (hold resume : Byte) (s : State) : Res :=
  if 128 < p ∨ portAlive s p = false then .next s
  else if p = 128 ∧ hold ≠ 0xFF ∧ resume ≠ 0xFF then .next s
  else .next (startTx (setPaused s p (((s.port p).paused ||| hold) &&& ~~~ resume)) p)

/-- PAUSE_QUANTA_EXPIRY on port `p` for some classes. -/
def execPauseQuantaExpiry (p : Nat) (classes : Byte) (s : State) : Res :=
  if 128 < p ∨ portAlive s p = false then .next s
  else .next (startTx (setPaused s p ((s.port p).paused &&& ~~~ classes)) p)

/-- TXHOLD_TIMEOUT on port `p`: the oldest response that flow control holds back is discarded. -/
def execTxholdTimeout (p : Nat) (s : State) : Res :=
  if 128 ≤ p then .next s
  else
    let q := s.port p
    let n := if q.sending then 1 else 0
    match (q.tx.drop n).find? fun x => held s p x.cls with
    | some x => .next (countDisc (s.setPort p { q with tx := q.tx.take n ++ (q.tx.drop n).erase x }) p)
    | none => .next s

/-! ## Fencing (R75) -/

/-- FENCE_ASSERT. -/
def execFenceAssert (s : State) : Res := .next (brakePorts { s with balls := { s.balls with fence := true } })

/-- FENCE_DEASSERT. -/
def execFenceDeassert (s : State) : Res := .next { s with balls := { s.balls with fence := false } }

/-! ## The host table (R76, R78, R82) -/

/-- Open sessions of a host table entry. -/
def hostSessions (s : State) (h : Nat) : Nat := ((opresent s.sessions).filter fun e => e.2.host = some h).length

/-- HOST_ENTRY_AGE_OUT of entry `h`: time passes to the end of its age (R76). -/
def execHostEntryAgeOut (h : Nat) (s : State) : Res :=
  match s.host h with
  | some e =>
    let age := s.fld .htb HTB_CFG_AGE
    if e.isStatic ∨ age = 0 ∨ hostSessions s h ≠ 0 ∨ e.valid = false ∨ running s .htb = false then .next s
    else .next ((advanceTo s (e.lastFrame + 1000000 * age)).setHost h none)
  | none => .next s

/-- The outcome of an HTB_OP operation: its status, and ERR.ACCESS with a refusal. -/
def htbDone (s : State) (st : Nat) : State :=
  let s := (s.setFld .htb HTB_OP_STATUS st).setFlag .htb HTB_OP_BUSY false
  if st = stOK then s else accessErr s .htb

/-- HTB_READ_ENTRY: the entry in the window. -/
def execHtbReadEntry (s : State) : Res := onComplex s <|
  let h := s.fld .htb HTB_IDX
  match s.host h with
  | none =>
    let s := (s.setReg .htb 0x05C 0).setReg .htb 0x060 0
    .next (htbDone ((List.range 6).foldl (fun s w => s.setReg .htb (0x064 + 4 * w) 0) s) stOK)
  | some e =>
    let v6 := match e.key.ip with | some (a, _) => decide (a.length = 16) | none => false
    let s := (s.setFlag .htb HTB_ENT_0_VALID e.valid).setFlag .htb HTB_ENT_0_STATIC e.isStatic
    let s := (s.setFlag .htb HTB_ENT_0_IP e.key.ip.isSome).setFlag .htb HTB_ENT_0_V6 v6
    let s := (s.setFld .htb HTB_ENT_0_TENANT e.tenant).setFld .htb HTB_ENT_0_PORT e.port
    let s := s.setFld .htb HTB_ENT_1 ((s.time.tick - e.lastFrame) / 1000000)
    let s := (s.setFld .htb HTB_ENT_2 (hostSessions s h)).setFld .htb HTB_ENT_3_MAC_HI (field e.key.mac 0 2)
    let s := s.setFld .htb HTB_ENT_3_UDP (match e.key.ip with | some (_, q) => q | none => 0)
    let ws := match e.key.ip with
      | some (a, _) => if a.length = 16 then [3, 2, 1, 0].map fun w => field a (4 * w) 4 else [field a 0 4, 0, 0, 0]
      | none => [field e.key.mac 2 4, 0, 0, 0]
    .next (htbDone ((List.range 4).foldl (fun s w => s.setFld .htb (HTB_ENT w) (ws.getD w 0)) s) stOK)

/-- The key in the window.  The model's choice where R82 is silent: the window has MAC_HI alone beside an IP address, and
the rest of that MAC is zero (log 100). -/
def windowKey (s : State) : Addr :=
  let w := fun n => beBytes 4 (s.fld .htb (HTB_ENT n))
  let mac := beBytes 2 (s.fld .htb HTB_ENT_3_MAC_HI)
  if s.flag .htb HTB_ENT_0_IP then
    { mac := mac ++ zeros 4, ip := some (if s.flag .htb HTB_ENT_0_V6 then w 3 ++ w 2 ++ w 1 ++ w 0 else w 0, s.fld .htb HTB_ENT_3_UDP) }
  else { mac := mac ++ w 0, ip := none }

/-- The sessions of an entry lose it: their responses find their host anew (R62). -/
def unbindHost (s : State) (h : Nat) : State :=
  { s with
    sessions := mmap (fun _ => none) (fun x : Option Session => x.map fun (y : Session) =>
      { y with host := if y.host = some h then none else y.host }) s.sessions }

/-- HTB_WRITE_STATIC: a static entry from the window; one whose key is in the table is replaced in place. -/
def execHtbWriteStatic (s : State) : Res := onComplex s <|
  let t := s.fld .htb HTB_ENT_0_TENANT
  let p := s.fld .htb HTB_ENT_0_PORT
  if portFitted s p = false ∨ isolated s (p / 32) ∨ s.fuse.variant.tenMax < t then .next (htbDone s stNOT_FITTED)
  else if (s.tenant t).state = 0 then .next (htbDone s stOPERAND_RANGE)
  else
    let key := windowKey s
    let h := match findHost s t key with
      | some (h, _) => h
      | none => s.fld .htb HTB_IDX
    let s := if (s.host h).any fun e => decide (e.tenant = t) && sameHost e.key key then s else unbindHost s h
    .next (htbDone (s.setHost h (some { tenant := t, key := key, port := p, isStatic := true, valid := true, lastFrame := s.time.tick, lastMove := none })) stOK)

/-- HTB_DELETE_ENTRY. -/
def execHtbDeleteEntry (s : State) : Res := onComplex s <|
  let h := s.fld .htb HTB_IDX
  if (s.host h).isNone then .next (htbDone s stOPERAND_RANGE)
  else
    .next (htbDone ((unbindHost s h).setHost h none) stOK)

end Sys2Proof.Machine
end

