-- ==== Sys2Proof/Machine/Brake.lean ====
section
/-!
DEFINITION. The control path of a classifier: BRAKE (R71 to R74), its parity errors (R81), and the frames that ended
before their tag was verified (R493).
-/
namespace Sys2Proof.Machine

/-! ## Answers of the control path -/

/-- A frame of the control path is answered on its session. -/
def controlAnswer (s : State) (i : Item) (st : Nat) (payload : Bytes) (dup changing : Bool) : State :=
  let s := releaseBuffer s i
  settle settleBound (settleClose (tagEgress (respondOn s i st payload dup changing) i st) i.session)

/-! ## BRAKE -/

/-- A well-formed BRAKE request: set with a kind and value, or release of a filter. -/
inductive BrakeReq where
  | set (kind value : Nat)
  | release (filter : Nat)
  deriving DecidableEq, Repr

/-- The elements of R71. -/
def brakeDefs : List ElemDef := [must 1 (lenIs 1), may 2 (lenIs 1), may 3 (lenIs 4), may 4 (lenIs 2)]

/-- A BRAKE request as its payload spells it; none is malformed (R72, step 1). -/
def brakeReq (i : Item) : Option BrakeReq :=
  match elemsOf brakeDefs i with
  | .error _ => none
  | .ok l =>
    let kind := elemNat l 2
    if elemNat l 1 = 1 then
      (if hasElem l 2 ∧ hasElem l 3 ∧ hasElem l 4 = false ∧ 1 ≤ kind ∧ kind ≤ 3 then some (.set kind (elemNat l 3)) else none)
    else if elemNat l 1 = 2 then
      (if hasElem l 4 ∧ hasElem l 2 = false ∧ hasElem l 3 = false ∧ elemNat l 4 < 64 then some (.release (elemNat l 4)) else none)
    else none

/-- A filter of a kind, owner and value. -/
def Brake.isOf (b : Brake) (kind owner value : Nat) : Bool := decide (b.kind = kind ∧ b.owner = owner ∧ b.value = value)

/-- Steps 2 to 6 of R72, with the refusal of a tenant in reset (R369). -/
def brakeRefused (s : State) (t : Nat) : BrakeReq → Option Nat
  | .set kind value =>
    let own := match kind with
      | 1 => decide (value = t)
      | 2 => (match s.session value with | some se => decide (se.tenant = t) | none => false)
      | _ => false
    if t ≠ 0 ∧ own = false then some stNOT_AUTHORISED
    else if kind = 3 ∧ portFitted s value = false ∨ kind = 1 ∧ s.fuse.variant.tenMax < value then some stNOT_FITTED
    else if kind = 1 ∧ (s.tenant value).state = 0 then some stOPERAND_RANGE
    else if kind = 1 ∧ (s.tenant value).state = 2 then some stTENANT_RESETTING
    else if (List.range 64).all (fun f => (oget s.brakes f).isSome) ∧
        ! (opresent s.brakes).any fun e => e.2.isOf kind t value then some stBUSY
    else none
  | .release f =>
    match oget s.brakes f with
    | some b => if t ≠ 0 ∧ b.owner ≠ t then some stNOT_AUTHORISED else none
    | none => if t ≠ 0 then some stNOT_AUTHORISED else some stFORMAT

/-- The FILTER element. -/
def filterElem (f : Nat) : Bytes := elemBytes 4 (beBytes 2 f)

/-- A verified and authorised BRAKE request begins (R72, R73). -/
def brakeStart (s : State) (i : Item) (q : BrakeReq) : State :=
  match q with
  | .set kind value =>
    match (opresent s.brakes).find? fun e => e.2.isOf kind i.tenant value with
    | some (f, b) =>
      if b.active then controlAnswer s i stOK (filterElem f) false false
      else { s with brakeOps := s.brakeOps ++ [{ filter := f, set := true, item := i }] }
    | none =>
      match ofree s.brakes 0 64 with
      | some f =>
        let b : Brake := { kind := kind, owner := i.tenant, value := value, active := false }
        { s with brakes := oset s.brakes f (some b), brakeOps := s.brakeOps ++ [{ filter := f, set := true, item := i }] }
      | none => controlAnswer s i stBUSY [] false false
  | .release f =>
    let s := dupEnter s i
    { s with brakeOps := s.brakeOps ++ [{ filter := f, set := false, item := i }] }

/-- A BRAKE frame whose tag has verified. -/
def brakeRun (s : State) (i : Item) : State :=
  match requestRefused s i with
  | some st => controlAnswer s i st [] false false
  | none =>
    match brakeReq i with
    | none => controlAnswer s i stFORMAT [] false false
    | some q =>
      let release := match q with | .release _ => true | .set _ _ => false
      if (s.tenant i.tenant).state = 2 ∧ release = false then controlAnswer s i stTENANT_RESETTING [] false false
      else match if release then dupAnswer s i else none with
        | some (st, p, d) => controlAnswer s i st p d false
        | none =>
          match brakeRefused s i.tenant q with
          | some st => controlAnswer s i st [] false false
          | none => brakeStart s i q

/-- The control path of region `r` takes its oldest BRAKE frame, when its verified request is of the kind `release`; a
frame whose tag fails, or a malformed one, is taken by either. -/
def brakeTake (s : State) (r : Nat) (release : Bool) : State :=
  match lget s.brakeQ r with
  | [] => s
  | i :: q =>
    let t := { s with brakeQ := lset s.brakeQ r q }
    match verifyItem t i with
    | none => controlDrop (countAuth t r i.tenant) i
    | some (j, u) =>
      match brakeReq j with
      | some (.release _) => if release then brakeRun u j else s
      | some (.set _ _) => if release then s else brakeRun u j
      | none => brakeRun u j

/-- BRAKE_SET in region `r`. -/
def execBrakeSet (r : Nat) (s : State) : Res :=
  if live s (.cls r) = false ∨ stateOf s (.cls r) = stStopped then .next s else .next (brakeTake s r false)

/-- BRAKE_RELEASE in region `r`. -/
def execBrakeRelease (r : Nat) (s : State) : Res :=
  if live s (.cls r) = false ∨ stateOf s (.cls r) = stStopped then .next s else .next (brakeTake s r true)

/-- A filter written to every classifier's registers. -/
def mirrorBrake (s : State) (f : Nat) (b : Option Brake) : State :=
  (List.range s.fuse.variant.regions).foldl (fun s r =>
    let p := PageId.cls r
    match b with
    | some b =>
      let s := ((s.setFlag p (BRK_VALID f) true).setFld p (BRK_KIND f) b.kind).setFld p (BRK_OWNER f) b.owner
      (s.setFld p (BRK_VALUE f) b.value).setFld p (BRK_COUNT f) 0
    | none => ((s.setReg p (0x100 + 16 * f) 0).setFld p (BRK_VALUE f) 0).setFld p (BRK_COUNT f) 0) s

/-- Frames a filter has dropped on the chip. -/
def brakeCount (s : State) (f : Nat) : Nat :=
  (List.range s.fuse.variant.regions).foldl (fun n r => n + s.fld (.cls r) (BRK_COUNT f)) 0

/-- Frames that match a new filter, in the buffer and not yet dispatched, are discarded without response (R73).  The model's
choice where R73 is silent: such a frame was not dropped at check 7, so neither CLS_DROP_BRAKE nor the filter's COUNT counts
it (log 101). -/
def brakeDiscard (s : State) (b : Brake) : State :=
  (opresent s.items).foldl (fun s e =>
    let i := e.2
    let waits : Bool := match i.place with | .ready => true | .prefetch _ => true | _ => false
    if i.port < 128 ∧ i.cls ≠ 7 ∧ waits ∧ b.hits i.tenant i.session i.port then dropItem s i else s) s

/-- BRAKE_FILTER_PROPAGATED: the oldest set or release has reached every port, and is answered; a second set of the same
filter finds it active and changes nothing.  The model's choice where R72 is silent: a second release of a filter that the
first one has meanwhile removed is answered FORMAT, as one that names a free filter (log 102). -/
def execBrakeFilterPropagated (s : State) : Res :=
  match s.brakeOps with
  | [] => .next s
  | o :: l =>
    let s := { s with brakeOps := l }
    match oget s.brakes o.filter with
    | none => .next (controlAnswer (dupRemove s o.item) o.item stFORMAT [] false false)
    | some b =>
      if o.set ∧ b.active then .next (controlAnswer s o.item stOK (filterElem o.filter) false false)
      else
      let s' := postEvent s (.cls o.item.ingress) 0x4002 (BitVec.ofNat 32 o.filter) (BitVec.ofNat 32 b.kind)
        (BitVec.ofNat 32 b.value) (BitVec.ofNat 32 o.item.tenant)
      if o.set then
        let u := { s' with brakes := oset s'.brakes o.filter (some { b with active := true }) }
        .next (controlAnswer (brakeDiscard (mirrorBrake u o.filter (some b)) b) o.item stOK (filterElem o.filter) false false)
      else
        let n := brakeCount s o.filter
        let u := mirrorBrake { s' with brakes := oset s'.brakes o.filter none } o.filter none
        let u := dupCommit u o.item stOK (beBytes 2 o.filter ++ beBytes 6 n)
        .next (controlAnswer u o.item stOK (filterElem o.filter ++ elemBytes 5 (beBytes 8 n)) false true)

/-! ## Parity (R81) -/

/-- CLS_CONTROL_PARITY in region `r`: the frame hit is the oldest BRAKE frame, or one being checked against the mirror of
the filters, which is then reloaded. -/
def execClsControlParity (r : Nat) (mirror : Bool) (s : State) : Res :=
  if live s (.cls r) = false ∨ stateOf s (.cls r) = stOff then .next s
  else
    .next (controlParity s r mirror)

/-- BRAKE_MIRROR_RELOADED in region `r`. -/
def execBrakeMirrorReloaded (r : Nat) (s : State) : Res := .next { s with mirrorBad := s.mirrorBad.filter (· ≠ r) }

/-! ## Items that ended before their tag was verified (R493) -/

/-- EARLY_END_TAG_VERIFY of the item stamped `stamp`, once no BRAKE frame waits in its region. -/
def execEarlyEndTagVerify (stamp : Nat) (s : State) : Res :=
  match s.early.find? fun i => i.stamp = stamp with
  | none => .next s
  | some i =>
    if lget s.brakeQ i.ingress ≠ [] then .next s
    else
      let s := { s with early := s.early.filter fun j => j.stamp ≠ stamp }
      match verifyItem s i with
      | none => .next (controlDrop (countAuth s i.ingress i.tenant) i)
      | some (_, u) => .next (controlAnswer u i (i.early.getD stABORTED_FAULT) [] false false)

/-- EARLY_END_VERIFY_TIMEOUT of the item stamped `stamp`: 1 ms has passed since its end. -/
def execEarlyEndVerifyTimeout (stamp : Nat) (s : State) : Res :=
  match s.early.find? fun i => i.stamp = stamp with
  | none => .next s
  | some i =>
    let s := { s with early := s.early.filter fun j => j.stamp ≠ stamp }
    .next (controlDrop (countAuth s i.ingress i.tenant) i)

end Sys2Proof.Machine
end

