-- ==== Sys2Proof/Machine/Decimal.lean ====
section
/-!
DEFINITION. Packed decimal (R277, R278), exact results and their one rounding (R279, R280), and the engine's decimal
functions (R281, R282, R287).
-/
namespace Sys2Proof.Machine

/-- The digits and the sign nibble of a packed field. -/
def decNibbles (b : Bytes) : List Nat := (b.map fun x => [x.toNat / 16, x.toNat % 16]).flatten
/-- A field holds decimal digits and a sign (R278). -/
def decValid (b : Bytes) : Bool :=
  let l := decNibbles b
  l.dropLast.all (fun d => decide (d ≤ 9)) && decide (l.getLastD 0 = 0xC ∨ l.getLastD 0 = 0xD ∨ l.getLastD 0 = 0xF)
/-- The number a valid field denotes; another field's is free (log 28). -/
def decInt (b : Bytes) : Int :=
  if decValid b then
    let l := decNibbles b
    let v : Int := (l.dropLast.foldl (fun a d => a * 10 + d) 0 : Nat)
    if l.getLastD 0 = 0xD then -v else v
  else ((Config.decOperand (beNat b)).toNat : Int)

/-- The nibbles of `n` decimal digits. -/
def decDigits (n v : Nat) : List Nat := (List.range n).reverse.map fun i => v / 10 ^ i % 10
/-- A number as a field of `n` bytes, a zero positive (R277). -/
def decPack (n : Nat) (v : Int) : Bytes :=
  let l := decDigits (2 * n - 1) v.natAbs ++ [if v < 0 then 0xD else 0xC]
  (List.range n).map fun i => BitVec.ofNat 8 (l.getD (2 * i) 0 * 16 + l.getD (2 * i + 1) 0)

/-- An exact result: numerator and positive denominator. -/
structure Exact where
  num : Int
  den : Nat
  deriving DecidableEq, Repr

/-- The magnitude of an exact result at a scale, rounded once (R279). -/
def roundMag (x : Exact) (sr mode : Nat) : Nat :=
  let n := x.num.natAbs * 10 ^ sr
  let q := n / x.den
  let f := 2 * (n % x.den)
  match mode with
  | 0 => if x.den < f ∨ (f = x.den ∧ q % 2 = 1) then q + 1 else q
  | 1 => if x.den ≤ f then q + 1 else q
  | _ => q

/-- An exact result rounded, where it fits a number of digits (R279, R280). -/
def roundTo (x : Exact) (sr mode digits : Nat) : Option Int :=
  let m := roundMag x sr mode
  if 10 ^ digits ≤ m then none else some (if x.num < 0 then -(m : Int) else m)

/-- The control block of a ledger job (R287). -/
structure LdgCtl where
  sa : Nat
  sb : Nat
  sr : Nat
  round : Nat
  digits : Nat
  basis : Nat
  days : Nat
  deriving DecidableEq, Repr

/-- The control block in eight bytes. -/
def ctlOf (b : Bytes) : LdgCtl :=
  { sa := byteAt b 0, sb := byteAt b 1, sr := byteAt b 2, round := byteAt b 3, digits := byteAt b 4, basis := byteAt b 5
    days := field b 6 2 }

/-- Days of the year of a basis. -/
def basisDays (b : Nat) : Nat := if b = 1 then 360 else if b = 2 then 365 else 366

/-- The exact result of a function; none for a zero divisor. -/
def ldgExact (func : Nat) (a b : Int) (c : LdgCtl) : Option Exact :=
  let pa : Nat := 10 ^ c.sa
  let pb : Nat := 10 ^ c.sb
  match func with
  | 0x40 => some { num := a * pb + b * pa, den := pa * pb }
  | 0x41 => some { num := a * pb - b * pa, den := pa * pb }
  | 0x42 => some { num := a * b, den := pa * pb }
  | 0x43 => if b = 0 then none else some { num := (if b < 0 then -a else a) * pb, den := b.natAbs * pa }
  | 0x45 => some { num := a, den := pa }
  | 0x46 => some { num := a * b * c.days, den := pa * pb * basisDays c.basis }
  | _ => none

/-- CMP_R of a comparison. -/
def ldgCmp (a b : Int) (c : LdgCtl) : Nat :=
  let x := a * 10 ^ c.sb
  let y := b * 10 ^ c.sa
  if x = y then 0 else if y < x then 1 else 0xFF

/-- A control block holds scales, a rounding mode, a width and a basis that the functions take (R278, R279, R282). -/
def ctlOk (func : Nat) (c : LdgCtl) : Bool :=
  decide (c.sa ≤ 62 ∧ c.sb ≤ 62 ∧ c.sr ≤ 62 ∧ c.round ≤ 2 ∧ c.digits ≤ 63) &&
    (decide (func ≠ 0x46) || decide (1 ≤ c.basis ∧ c.basis ≤ 3 ∧ c.days ≤ 36600))

/-- A decimal function on numbers: its result, none for OPERAND_RANGE. -/
def ldgRun (func : Nat) (a b : Int) (c : LdgCtl) : Option Int :=
  if ctlOk func c = false then none
  else if func = 0x44 then some (ldgCmp a b c)
  else (ldgExact func a b c).bind fun x => roundTo x c.sr c.round c.digits

end Sys2Proof.Machine
end

