-- ==== Sys2Proof/Machine/EngineFn.lean ====
section
/-!
DEFINITION. The functions of the engine microcode on numbers (R250, R256 to R263): modular arithmetic, RSA, elliptic
curves, Ed25519 and prime generation.  The algorithms the spec names by their standards are PRESUMED (log 7).
-/
namespace Sys2Proof.Machine

/-! ## Curves (R260 to R262) -/

/-- The curve of a loaded entry. -/
def curveOfEntry (e : CurveEntry) : Curve :=
  { p := e.p, a := e.a, b := e.b, gx := e.gx, gy := e.gy, n := e.n, h := e.h, size := e.lf }
/-- Curve ID of Ed25519. -/
abbrev idED : Nat := 4
/-- A short Weierstrass curve named by an ID for a tenant. -/
def curveFor (s : State) (t id : Nat) : Option Curve :=
  match id with
  | 1 => some curveP256
  | 2 => some curveP384
  | 3 => some curveP521
  | _ => if 0x100 ≤ id ∧ id ≤ 0x10F then (oget s.curves (16 * t + (id - 0x100))).map curveOfEntry else none
/-- The parameter hash of a loaded curve; empty for a named one. -/
def curveHash (s : State) (t id : Nat) : Bytes :=
  if id < 0x100 then [] else ((oget s.curves (16 * t + (id - 0x100))).map CurveEntry.hash).getD []
/-- An ID names a curve, Ed25519 included. -/
def curveNamed (s : State) (t id : Nat) : Bool := decide (id = idED) || (curveFor s t id).isSome
/-- Bytes of a scalar of a curve. -/
def scalarLen (c : Curve) : Nat := (Nat.log2 c.n + 8) / 8
/-- Bits of a number. -/
def bitLen (n : Nat) : Nat := if n = 0 then 0 else Nat.log2 n + 1

/-- A point takes part in a function: on the curve, and of the order where the cofactor is above 1 (R263). -/
def pointOk (c : Curve) (q : Nat × Nat) : Bool := onCurve c q && (decide (c.h = 1) || decide (ecMul c c.n q = none))

/-- Tonelli and Shanks: `k` rounds, then the root if found. -/
def tonelli (p : Nat) : Nat → Nat → Nat → Nat → Nat → Option Nat
  | 0, _, _, _, _ => none
  | k + 1, m, c, t, r =>
    if t = 1 then some r
    else match (List.range m).find? fun i => decide (powMod t (2 ^ i) p = 1) with
      | none => none
      | some i =>
        let b := powMod c (2 ^ (m - i - 1)) p
        let c' := b * b % p
        tonelli p k i c' (t * c' % p) (r * b % p)
/-- A square root modulo a prime. -/
def sqrtMod (p a : Nat) : Option Nat :=
  let a := a % p
  if a = 0 then some 0
  else if powMod a ((p - 1) / 2) p ≠ 1 then none
  else if p % 4 = 3 then some (powMod a ((p + 1) / 4) p)
  else
    let s := twos (Nat.log2 p) (p - 1)
    let q := (p - 1) / 2 ^ s
    ((List.range 500).find? fun z => decide (1 < z ∧ powMod z ((p - 1) / 2) p = p - 1)).bind fun z =>
      tonelli p (s + 1) s (powMod z q p) (powMod a q p) (powMod a ((q + 1) / 2) p)

/-- The form of a SEC 1 point on a curve of some coordinate length: LENGTH or FORMAT where it fails. -/
def pointForm (size : Nat) (b : Bytes) : Option Nat :=
  let lead := byteAt b 0
  if b.length ≠ size + 1 ∧ b.length ≠ 2 * size + 1 then some stLENGTH
  else if (b.length = size + 1 ∧ (lead = 2 ∨ lead = 3)) ∨ (b.length = 2 * size + 1 ∧ lead = 4) then none
  else some stFORMAT
/-- The coordinates of a SEC 1 point; none for an x without a root. -/
def sec1Point (c : Curve) (b : Bytes) : Option (Nat × Nat) :=
  if byteAt b 0 = 4 then some (field b 1 c.size, field b (1 + c.size) c.size)
  else
    let x := beNat (b.drop 1)
    if c.p ≤ x then none
    else (sqrtMod c.p (x * x * x + c.a * x + c.b)).map fun y => (x, if y % 2 = byteAt b 0 % 2 then y else (c.p - y) % c.p)
/-- A point as the device returns it (log 30). -/
def sec1Bytes (c : Curve) (q : Nat × Nat) : Bytes :=
  if Config.compressedPoints then BitVec.ofNat 8 (2 + q.2 % 2) :: beBytes c.size q.1 else pointBytes c q

/-! ## Private keys -/

/-- The parts of an RSA private key: p, q, d_p, d_q and q⁻¹ mod p, each half the modulus (log 31). -/
structure RsaKey where
  p : Nat
  q : Nat
  dp : Nat
  dq : Nat
  qi : Nat
  deriving DecidableEq, Repr

/-- An RSA private key from its stored bytes. -/
def rsaOf (b : Bytes) : RsaKey :=
  let h := b.length / 5
  { p := field b 0 h, q := field b h h, dp := field b (2 * h) h, dq := field b (3 * h) h, qi := field b (4 * h) h }
/-- Its modulus. -/
def RsaKey.n (k : RsaKey) : Nat := k.p * k.q
/-- Its public exponent as its first part gives it, for a key that arrives without one (log 31). -/
def RsaKey.e (k : RsaKey) : Nat := (invMod k.dp (k.p - 1)).getD 0
/-- The private operation by the two halves, each exponent blinded by a multiple of its order (R257). -/
def RsaKey.priv (k : RsaKey) (r1 r2 m : Nat) : Nat :=
  let sp := powMod (m % k.p) (k.dp + r1 * (k.p - 1)) k.p
  let sq := powMod (m % k.q) (k.dq + r2 * (k.q - 1)) k.q
  sq + k.q * (k.qi * ((sp + k.p * k.q - sq) % k.p) % k.p)
/-- The stored bytes of a key of `half` bytes a part. -/
def rsaBytes (half : Nat) (k : RsaKey) : Bytes :=
  beBytes half k.p ++ beBytes half k.q ++ beBytes half k.dp ++ beBytes half k.dq ++ beBytes half k.qi
/-- Modulus bits of a stored RSA key. -/
def rsaBits (b : Bytes) : Nat := bitLen (rsaOf b).n

/-- The public half of an EC key pair. -/
def ecPublic (c : Curve) (d : Nat) : Option (Nat × Nat) := ecMul c d (c.gx, c.gy)

/-! ## Draws of a job (R257) -/

/-- The generator of a job: the function, and the 8 boom words that instantiate it. -/
structure JobGen where
  func : Nat
  seed : Bytes
  deriving DecidableEq, Repr

/-- Its key and V at the start: AES-256 CTR_DRBG without derivation function, 48 bytes of entropy and 16 of
personalisation. -/
def JobGen.start (g : JobGen) : Bytes × Bytes :=
  drbgUpdate (zeros 32) (zeros 16) (xorB (fitR 48 g.seed) (fitR 48 (slice g.seed 48 16)))

/-- Draw `n` of a job's generator: the leading `bits` bits of a Generate call, after those that come before it (log 29). -/
def engDraw (g : JobGen) (n bits : Nat) : Nat :=
  let st := (Config.drawsBefore g.func g.seed n).foldl (fun st k => (drbgGen st.1 st.2 k).2) g.start
  let len := (bits + 7) / 8
  beNat (drbgGen st.1 st.2 len).1 / 2 ^ (8 * len - bits)
/-- A blinding value of 64 bits. -/
def blindDraw (g : JobGen) (n : Nat) : Nat := engDraw g n 64
/-- `k` Miller-Rabin bases for `m`, from draw `n` on. -/
def mrBases (g : JobGen) (n k m : Nat) : List Nat := (List.range k).map fun i => engDraw g (n + i) (bitLen m + 64) % (m - 3) + 2
/-- A prime to `k` rounds of random bases. -/
def mrRandom (g : JobGen) (n k m : Nat) : Bool := decide (4 ≤ m) && mrPrime m (mrBases g n k m) || decide (m = 2 ∨ m = 3)

/-- A scalar from 1 to n - 1 by extra random bits (R259, R269). -/
def drawScalar (c : Curve) (g : JobGen) (n : Nat) : Nat := engDraw g n (bitLen c.n + 64) % (c.n - 1) + 1

/-- The first candidate prime of some bits among the draws from number `base`, 5 x bits candidates at most. -/
def findPrime (g : JobGen) (base bits rounds : Nat) (ok : Nat → Bool) : Option Nat :=
  ((List.range (5 * bits)).map fun i => (100 * i + base, engDraw g (100 * i + base) bits ||| 1)).findSome? fun x =>
    if ok x.2 && mrRandom g (x.1 + 1) rounds x.2 then some x.2 else none

/-- One pair of primes of FIPS 186-5 A.1.3, with draws numbered from `base`, and the key they give; none inside where the
private exponent comes out at 2^(bits/2) or below, none outside where the candidates run out. -/
def rsaTry (g : JobGen) (base bits e : Nat) : Option (Option RsaKey) :=
  let h := bits / 2
  let low := fun (x : Nat) => decide (2 ^ (bits - 1) ≤ x * x) && decide (Nat.gcd (x - 1) e = 1)
  (findPrime g base h 5 low).bind fun p =>
    (findPrime g (base + 1000 * bits) h 5 fun x => low x && decide (2 ^ (h - 100) < (if p < x then x - p else p - x))).map fun q =>
      let l := (p - 1) * (q - 1) / Nat.gcd (p - 1) (q - 1)
      match invMod e l, invMod q p with
      | some d, some qi => if d ≤ 2 ^ h then none else some { p := p, q := q, dp := d % (p - 1), dq := d % (q - 1), qi := qi }
      | _, _ => none

/-- An RSA key of FIPS 186-5 A.1: new primes are drawn while the private exponent is too small (R269), `k` pairs at
most. -/
def rsaGenerate (g : JobGen) (bits e : Nat) : Nat → Option RsaKey
  | 0 => none
  | k + 1 =>
    match rsaTry g (2000 * bits * k) bits e with
    | some (some x) => some x
    | some none => rsaGenerate g bits e k
    | none => none

/-! ## Functions -/

/-- What a function gives: its outputs by slot and the private key it creates. -/
structure EngOut where
  outs : List (Nat × Nat)
  key : Option (Bytes × Bytes)
  deriving DecidableEq, Repr

/-- How a function ends without outputs: with a status, or with a result check that fails (R258). -/
inductive EngFail where
  | status (st : Nat)
  | mismatch
  deriving DecidableEq, Repr

/-- A function's outcome. -/
abbrev EngRes := Except EngFail EngOut
/-- The outcome of a function that ends with a status. -/
abbrev EngRes.ends (st : Nat) : EngRes := .error (.status st)

/-- Numbers in output slots. -/
def outs (l : List (Nat × Nat)) : EngRes := .ok { outs := l, key := none }

/-- A modulus that the modular functions take. -/
def modulusOk (m : Nat) : Bool := decide (3 ≤ m ∧ m % 2 = 1)

/-- MOD_ADD to MOD_RED (R263); `a` is double width for MOD_RED. -/
def modFn (func a b m param : Nat) : EngRes :=
  if modulusOk m = false then .ends stMODULUS_INVALID
  else if func ≠ 0x06 ∧ m ≤ a then .ends stOPERAND_RANGE
  else match func with
    | 0x01 => if m ≤ b then .ends stOPERAND_RANGE else outs [(3, (a + b) % m)]
    | 0x02 => if m ≤ b then .ends stOPERAND_RANGE else outs [(3, subMod m a b)]
    | 0x03 => if m ≤ b then .ends stOPERAND_RANGE else outs [(3, a * b % m)]
    | 0x04 => outs [(3, if b % 2 ^ param = 0 then 1 else powMod a (b % 2 ^ param) m)]
    | 0x05 =>
      match (if a = 0 then none else invMod a m) with
      | some v => outs [(3, v)]
      | none => .ends stOPERAND_RANGE
    | _ => outs [(3, a % m)]

/-- PRIME_TEST. -/
def primeTest (g : JobGen) (x rounds : Nat) : EngRes := outs [(3, if mrRandom g 0 rounds x then 1 else 0)]

/-- RSA_PRIV of a representative, for signing or deciphering (R263): exponents and base blinded (R257), and the result
checked against the public exponent stored with the key (R258). -/
def rsaPriv (g : JobGen) (key : Bytes) (e : Nat) (sign : Bool) (m : Nat) : EngRes :=
  let k := rsaOf key
  let n := k.n
  if m ≤ 1 ∨ n ≤ m ∨ (sign = false ∧ n ≤ m + 1) then .ends stOPERAND_RANGE
  else
    let u := engDraw g 2 (bitLen n + 64) % (n - 3) + 2
    let t := k.priv (blindDraw g 0) (blindDraw g 1) (m * powMod u e n % n)
    let r := t * (invMod u n).getD 0 % n
    if powMod r e n = m then outs [(3, r)] else .error .mismatch

/-- RSA_PUB. -/
def rsaPub (m e n : Nat) : EngRes := if n % 2 = 0 then .ends stMODULUS_INVALID else outs [(3, powMod m e n)]

/-- RSA_KEYGEN, the public exponent kept with the key; no candidate within the bound of A.1.3, or an exponent beyond that
of FIPS 186-5, ends the job with ABORTED_FAULT (log 32). -/
def rsaKeygen (g : JobGen) (bits e : Nat) : EngRes :=
  match (if e < 2 ^ 256 then rsaGenerate g bits e 64 else none) with
  | some k => .ok { outs := [(2, k.n)], key := some (rsaBytes ((bits + 15) / 16) k, beBytes 32 e) }
  | none => .ends stABORTED_FAULT

/-- PRIME_GEN. -/
def primeGen (g : JobGen) (bits : Nat) : EngRes :=
  match findPrime g 0 bits 64 fun x => decide (2 ^ (bits - 1) ≤ x) with
  | some p => outs [(3, p)]
  | none => .ends stABORTED_FAULT

/-- A point computed with a blinded scalar k + r·n (R257); a mismatch where it is off the curve (R258).  None is the point
at infinity. -/
def blindMul (c : Curve) (g : JobGen) (n k : Nat) (q : Nat × Nat) : Except EngFail (Option (Nat × Nat)) :=
  match ecMul c (k + blindDraw g n * c.n) q with
  | some z => if onCurve c z then .ok (some z) else .error .mismatch
  | none => .ok none

/-- One attempt of ECDSA with draws from number `n` on: the nonce, its blinding, and the random factor of its inverse
(R257, R259). -/
def ecAttempt (c : Curve) (g : JobGen) (n d : Nat) (digest : Bytes) : Except EngFail (Option (Nat × Nat)) :=
  let k := drawScalar c g n
  let b := drawScalar c g (n + 2)
  (blindMul c g (n + 1) k (c.gx, c.gy)).map fun q =>
    match q, invMod (k * b % c.n) c.n with
    | some q, some i =>
      let r := q.1 % c.n
      let s := i * b % c.n * ((ecHash c digest + r * d) % c.n) % c.n
      if r = 0 ∨ s = 0 then none else some (r, s)
    | _, _ => none

/-- EC_SIGN: a second nonce is drawn where the first yields no signature (R259). -/
def ecSign (c : Curve) (g : JobGen) (d : Nat) (digest : Bytes) : EngRes :=
  match ecAttempt c g 0 d digest with
  | .error x => .error x
  | .ok (some (r, s)) => outs [(3, r), (4, s)]
  | .ok none =>
    match ecAttempt c g 3 d digest with
    | .error x => .error x
    | .ok (some (r, s)) => outs [(3, r), (4, s)]
    | .ok none => .ends stABORTED_FAULT

/-- EC_VERIFY. -/
def ecVerify (c : Curve) (q : Nat × Nat) (digest : Bytes) (r s : Nat) : EngRes :=
  if pointOk c q = false then .ends stPOINT_INVALID
  else if ecdsaVerify c q digest r s then outs [] else .ends stVERIFY_FAIL

/-- EC_DH, in cofactor form where the cofactor is above 1 (R268). -/
def ecDh (c : Curve) (g : JobGen) (d : Nat) (q : Nat × Nat) : EngRes :=
  if pointOk c q = false then .ends stPOINT_INVALID
  else match blindMul c g 0 (c.h * d) q with
    | .ok (some z) => outs [(3, z.1)]
    | .ok none => .ends stPOINT_INVALID
    | .error x => .error x

/-- EC_KEYGEN; on a loaded curve the key keeps the parameter hash (log 31). -/
def ecKeygen (c : Curve) (g : JobGen) (hash : Bytes) : EngRes :=
  let d := drawScalar c g 0
  match blindMul c g 1 d (c.gx, c.gy) with
  | .ok (some q) => .ok { outs := [(3, q.1), (4, q.2)], key := some (beBytes (scalarLen c) d, hash) }
  | .ok none => .ends stABORTED_FAULT
  | .error x => .error x

/-- The checks of R261 in order. -/
def curveCheck (c : Curve) (g : JobGen) : EngRes :=
  let hn := c.h * c.n
  let t := if c.p + 1 ≤ hn then hn - (c.p + 1) else c.p + 1 - hn
  let ok : Bool := decide (c.p % 2 = 1) && mrRandom g 0 64 c.p &&
    decide ((4 * (c.a * c.a * c.a) + 27 * (c.b * c.b)) % c.p ≠ 0) &&
    onCurve c (c.gx, c.gy) &&
    (mrRandom g 64 64 c.n && decide (t * t ≤ 4 * c.p)) &&
    decide (ecMul c c.n (c.gx, c.gy) = none) &&
    decide (c.n ≠ c.p) &&
    (List.range 20).all fun k => decide (powMod c.p (k + 1) c.n ≠ 1)
  if ok then outs [] else .ends stMODULUS_INVALID

/-- ED_SIGN: its point is on the curve where its encoding decodes (R258). -/
def edSignFn (g : JobGen) (seed m : Bytes) : EngRes :=
  let x := edSign seed m (blindDraw g 0) (blindDraw g 1)
  if (edDec (x.take 32)).isNone then .error .mismatch else outs [(3, beNat (x.take 32)), (4, beNat (x.drop 32))]
/-- ED_VERIFY. -/
def edVerifyFn (pub m sig : Bytes) : EngRes :=
  if (edDec pub).isNone then .ends stPOINT_INVALID else if edVerify pub m sig then outs [] else .ends stVERIFY_FAIL
/-- ED_KEYGEN. -/
def edKeygen (g : JobGen) : EngRes :=
  let k := beBytes 32 (engDraw g 0 256)
  if (edDec (edPublic k)).isNone then .error .mismatch
  else .ok { outs := [(3, beNat (edPublic k))], key := some (k, []) }

end Sys2Proof.Machine
end

