-- ==== Sys2Proof/Machine/Engine.lean ====
section
/-!
DEFINITION. Public-key engines and their operand DMA: job descriptors (R249 to R252), the engine queue and its limits on
long jobs (R248), running a job (R245 to R247, R263, R287), the microcode (R253, R255) and the tests (R274).
-/
namespace Sys2Proof.Machine

/-! ## Descriptors (R246, R249) -/

/-- FUNC. -/
def eFunc (d : Bytes) : Nat := byteAt d 0
/-- The slot length that the SLOT_LEN code selects. -/
def eSlotLen (d : Bytes) : Nat := 32 * 2 ^ (byteAt d 1 % 8)
/-- NOPS. -/
def eNops (d : Bytes) : Nat := byteAt d 2
/-- CURVE. -/
def eCurve (d : Bytes) : Nat := field d 8 2
/-- BITS. -/
def eBits (d : Bytes) : Nat := field d 10 2
/-- PARAM. -/
def eParam (d : Bytes) : Nat := field d 12 2
/-- OPLIST. -/
def eOplist (d : Bytes) : Nat := field d 16 8
/-- SPEC. -/
def eSpec (d : Bytes) : Bytes := slice d 24 8

/-- An entry from its 16 bytes. -/
def opOf (b : Bytes) : OpEntry :=
  { addr := field b 0 8, len := field b 8 4, slot := byteAt b 12, dir := byteAt b 13, zero := slice b 14 2 = [0, 0] }
/-- The operand list that a descriptor names. -/
def opsOf (s : State) (r : Nat) (j : Job) : List OpEntry :=
  (chunks 16 (fabricRead s r j.core (eOplist j.desc) (16 * eNops j.desc))).map opOf
/-- The message stream's slot number. -/
abbrev slotMsg : Nat := 0xFF

/-- Functions of the microcode, the ledger functions included (R250, R281). -/
def engFuncs : List Nat :=
  [1, 2, 3, 4, 5, 6, 7, 0x10, 0x11, 0x12, 0x13, 0x20, 0x21, 0x22, 0x23, 0x24, 0x25, 0x30, 0x31, 0x32,
   0x40, 0x41, 0x42, 0x43, 0x44, 0x45, 0x46]
/-- A ledger function code. -/
def isLedgerFn (f : Nat) : Bool := decide (0x40 ≤ f ∧ f ≤ 0x4F)
/-- Generate functions. -/
def isGenerate (f : Nat) : Bool := decide (f = 0x12 ∨ f = 0x23 ∨ f = 0x32)
/-- Functions marked Random. -/
def isRandomFn (f : Nat) : Bool :=
  decide (f ∈ [0x07, 0x10, 0x12, 0x13, 0x20, 0x22, 0x23, 0x25, 0x30, 0x32])

/-- Slots a function reads and writes, and those it may also be given; `keyed` when KEY is not 0. -/
def ioSlots (f : Nat) (keyed : Bool) : List Nat × List Nat × List Nat :=
  match f with
  | 0x01 | 0x02 | 0x03 | 0x04 | 0x11 => ([0, 1, 2], [3], [])
  | 0x05 | 0x06 => ([0, 2], [3], [])
  | 0x07 | 0x10 => ([0], [3], [])
  | 0x12 => ([1], [2], [])
  | 0x13 => ([], [3], [])
  | 0x20 => ([0], [3, 4], [])
  | 0x21 => (if keyed then [0, 4, 5] else [0, 1, 2, 4, 5], [], [])
  | 0x22 => ([1, 2], [3], [])
  | 0x23 => ([], [3, 4], [])
  | 0x24 => ([1, 2], [], [])
  | 0x25 => ([0, 1, 2, 3, 4, 5, 6], [], [])
  | 0x30 => ([slotMsg], [3, 4], [])
  | 0x31 => (if keyed then [slotMsg, 4, 5] else [slotMsg, 1, 4, 5], [], [])
  | 0x32 => ([], [3], [])
  | 0x45 => ([0, 2], [3], [1])
  | _ => ([0, 1, 2], [3], [])

/-- The inputs of an operand list, by I/O slot, as ODM loads them into operand memory (R242, R247). -/
def loadSlots (s : State) (r : Nat) (j : Job) (l : List OpEntry) : List (Nat × Bytes) :=
  (l.filter fun o => o.dir = 0).map fun o => (o.slot, fabricRead s r j.core o.addr o.len)
/-- The bytes of an input slot. -/
def opBytes (m : List (Nat × Bytes)) (slot : Nat) : Bytes := ((m.find? fun x => x.1 = slot).map Prod.snd).getD []
/-- Its value: a shorter input is zero-extended on the left (R246). -/
def opNat (m : List (Nat × Bytes)) (slot : Nat) : Nat := beNat (opBytes m slot)

/-! ## Sizes (R243, R263) -/

/-- The key a descriptor names, as far as its public sizes go. -/
def peekKey (s : State) (h : Word) : Option KeyVal :=
  match resolveRaw s h with
  | .ok k => some k
  | .error _ => none

/-- Operand width in bytes, where it is known. -/
def engWidth (s : State) (j : Job) : Option Nat :=
  let d := j.desc
  match eFunc d with
  | 0x10 => (peekKey s (dKey d)).map fun k => (rsaBits k.bits + 7) / 8
  | 0x12 | 0x13 => some ((eParam d + 7) / 8)
  | 0x20 | 0x21 | 0x22 | 0x23 | 0x24 => (curveFor s j.tenant (eCurve d)).map Curve.size
  | 0x30 | 0x31 | 0x32 => some 32
  | f => if isLedgerFn f then some 1 else some ((eBits d + 7) / 8)

/-- BITS, PARAM, key sizes and public exponents in range. -/
def engSizes (s : State) (r : Nat) (j : Job) (l : List OpEntry) : Bool :=
  let d := j.desc
  let m := loadSlots s r j l
  let expOk := fun (e : Nat) => decide (3 ≤ e ∧ e % 2 = 1)
  match eFunc d with
  | 0x10 => (peekKey s (dKey d)).all fun k => decide (2048 ≤ rsaBits k.bits ∧ rsaBits k.bits ≤ 8192)
  | 0x11 => decide (1024 ≤ eBits d ∧ eBits d ≤ 8192) && expOk (opNat m 1)
  | 0x12 => decide (2048 ≤ eParam d ∧ eParam d ≤ 8192) && expOk (opNat m 1)
  | 0x13 => decide (64 ≤ eParam d ∧ eParam d ≤ 8192)
  | 0x25 => decide (160 ≤ eBits d ∧ eBits d ≤ 640)
  | 0x04 => decide (64 ≤ eBits d ∧ eBits d ≤ 8192 ∧ eParam d ≤ 8 * eSlotLen d)
  | 0x07 => decide (64 ≤ eBits d ∧ eBits d ≤ 8192 ∧ 8 ≤ eParam d ∧ eParam d ≤ 64)
  | f => decide (7 < f) || decide (64 ≤ eBits d ∧ eBits d ≤ 8192)

/-- Bytes that an output can take. -/
def engOutLen (s : State) (j : Job) : Nat :=
  match eFunc j.desc with
  | 0x07 => 1
  | 0x20 => ((curveFor s j.tenant (eCurve j.desc)).map scalarLen).getD 0
  | f => if isLedgerFn f then 0 else (engWidth s j).getD 0

/-- Step 2 of R252: the operand list and the sizes. -/
def engShape (s : State) (r : Nat) (j : Job) (l : List OpEntry) : Option Nat :=
  let d := j.desc
  let (ins, outs, may) := ioSlots (eFunc d) (decide (dKey d ≠ 0))
  let sl := eSlotLen d
  let lim := fun (o : OpEntry) =>
    if o.slot = slotMsg then 8192 else if eFunc d = 0x06 ∧ o.slot = 0 then 2 * sl else sl
  if eNops d < 1 ∨ 16 < eNops d then some stLENGTH
  else if l.any fun o => ! (decide (o.dir = 0 ∧ (o.slot ∈ ins ∨ o.slot ∈ may)) || decide (o.dir = 1 ∧ o.slot ∈ outs)) then some stLENGTH
  else if ¬ (l.map OpEntry.slot).Nodup ∨ (ins ++ outs).any fun n => ! l.any fun o => o.slot = n then some stLENGTH
  else if l.any fun o => decide (lim o < o.len) then some stLENGTH
  else if (engWidth s j).any fun w => decide (sl < w) then some stLENGTH
  else if l.any fun o => decide (o.dir = 1 ∧ o.len < engOutLen s j) then some stLENGTH
  else if engSizes s r j l = false then some stOPERAND_RANGE
  else none

/-- Step 1 of R252. -/
def engForm (s : State) (r : Nat) (d : Bytes) (l : List OpEntry) : Option Nat :=
  let f := eFunc d
  if isLedgerFn f ∧ s.fuse.variant.ledger = false then some stNOT_FITTED
  else if engFuncs.contains f = false ∨ ((oget s.ucode r).any fun u => u.funcs.testBit f) = false then some stFORMAT
  else if 5 < byteAt d 1 ∨ byteAt d 3 ≠ 0 ∨ slice d 14 2 ≠ [0, 0] ∨ slice d 32 32 ≠ zeros 32 ∨ (l.any fun o => ! o.zero) then some stFORMAT
  else if (isGenerate f = false ∧ eSpec d ≠ zeros 8) ∨ (isGenerate f ∧ slice d 29 3 ≠ [0, 0, 0]) then some stFORMAT
  else if isLedgerFn f ∧ (dKey d ≠ 0 ∨ eCurve d ≠ 0 ∨ eBits d ≠ 0) then some stFORMAT
  else none

/-- Step 4 of R252. -/
def engCurveOk (s : State) (j : Job) : Bool :=
  let c := eCurve j.desc
  match eFunc j.desc with
  | 0x20 | 0x21 | 0x22 | 0x23 | 0x24 => (curveFor s j.tenant c).isSome
  | 0x30 | 0x31 | 0x32 => decide (c = 0 ∨ c = idED)
  | _ => decide (c = 0) || curveNamed s j.tenant c

/-! ## Keys of the engines (R250, R266) -/

/-- A usage, algorithm and mode of use. -/
def keyIs (k : KeyVal) (u : Nat) (a m : Char) : Bool := decide (k.usage = u ∧ k.alg = chr a ∧ k.mode = chr m)
/-- Usages of a key that verifies. -/
def verifyUsages : List Nat := [usage 'S' '0', usage '5' '1', usage '5' '3', usage '5' '4']
/-- A key that verifies, of an algorithm. -/
def verifies (k : KeyVal) (a : Char) : Bool :=
  verifyUsages.contains k.usage && decide (k.alg = chr a ∧ (k.mode = chr 'S' ∨ k.mode = chr 'V'))

/-- Curve ID, curve and point of the public half of an EC key: a pair, or a public record. -/
def keyPoint (s : State) (k : KeyVal) : Option (Nat × Curve × (Nat × Nat)) :=
  if k.mode = chr 'V' then
    let c := curveOfPub k.bits
    (decompress c k.bits).map fun q => (if k.bits.length = 33 then 1 else 2, c, q)
  else
    (curveFor s (handleTenant k.handle) k.curve).bind fun c => (ecPublic c (beNat k.bits)).map fun q => (k.curve, c, q)

/-- The attributes a generate function may be given (R266). -/
def genSpecOk (f : Nat) (a : Bytes) : Bool :=
  let is := fun (u : Nat) (x m : Char) => decide (field a 0 2 = u ∧ byteAt a 2 = chr x ∧ byteAt a 3 = chr m)
  [chr 'E', chr 'N', chr 'S'].contains (byteAt a 4) &&
    (match f with
     | 0x12 => is (usage 'S' '0') 'R' 'S' || is (usage 'D' '1') 'R' 'D'
     | 0x23 => is (usage 'S' '0') 'E' 'S' || is (usage 'K' '3') 'E' 'X'
     | _ => is (usage 'S' '0') 'E' 'S')

/-- Step 5 for a resolved key: what the job keeps of it, or KEY_USAGE. -/
def engKey (s : State) (d : Bytes) (k : KeyVal) : Except Nat Bytes :=
  let sizeOk := decide (eBits d = 0 ∨ eBits d = rsaBits k.bits)
  match eFunc d with
  | 0x10 => if (keyIs k (usage 'S' '0') 'R' 'S' ∨ keyIs k (usage 'D' '1') 'R' 'D') ∧ sizeOk then .ok k.bits else .error stKEY_USAGE
  | 0x20 => if keyIs k (usage 'S' '0') 'E' 'S' ∧ k.curve = eCurve d then .ok k.bits else .error stKEY_USAGE
  | 0x22 => if keyIs k (usage 'K' '3') 'E' 'X' ∧ k.curve = eCurve d then .ok k.bits else .error stKEY_USAGE
  | 0x30 => if keyIs k (usage 'S' '0') 'E' 'S' ∧ k.curve = idED then .ok k.bits else .error stKEY_USAGE
  | 0x31 => if verifies k 'E' ∧ k.mode = chr 'S' ∧ k.curve = idED then .ok (edPublic k.bits) else .error stKEY_USAGE
  | _ =>
    match keyPoint s k with
    | some (id, c, q) => if verifies k 'E' ∧ id = eCurve d then .ok (pointBytes c q) else .error stKEY_USAGE
    | none => .error stKEY_USAGE

/-- The function works with the key that KEY names. -/
def usesKey (d : Bytes) : Bool :=
  let f := eFunc d
  decide (f = 0x10 ∨ f = 0x20 ∨ f = 0x22 ∨ f = 0x30) || (decide (f = 0x21 ∨ f = 0x31) && decide (dKey d ≠ 0))

/-- Ranges of a job (step 3). -/
def engRanges (d : Bytes) (l : List OpEntry) : List (AccessKind × Nat × Nat) :=
  (.read, eOplist d, 16 * eNops d) :: l.map fun o => (if o.dir = 1 then AccessKind.write else .read, o.addr, o.len)

/-- A long job: key and prime generation, the curve check, and RSA above 4,096 bits. -/
def isLong (s : State) (j : Job) : Bool :=
  let f := eFunc j.desc
  decide (f = 0x12 ∨ f = 0x13 ∨ f = 0x25) ||
    (decide (f = 0x10) && (peekKey s (dKey j.desc)).any fun k => decide (4096 < rsaBits k.bits))

/-- A job that passed its checks, bound: its operand list, its inputs in operand memory, and whether it is long stay with
it (R242, R247, R248). -/
def engineBound (s : State) (r : Nat) (j : Job) (l : List OpEntry) : Job :=
  { j with ops := l, slots := loadSlots s r j l, long := isLong s j, bound := s.time.ns }

/-- Steps 1 to 6 of R252. -/
def engineCheck (s : State) (r : Nat) (j : Job) : BindRes :=
  let d := j.desc
  let l := opsOf s r j
  match engForm s r d l with
  | some st => (.error st, s)
  | none =>
    match engShape s r j l with
    | some st => (.error st, s)
    | none =>
      let (ok, s) := fabricRanges s (14 + r) r (some j.tenant) (j.seg = 0) (engRanges d l)
      if ok = false ∨ (usesKey d ∧ handleTenant (dKey d) ≠ j.tenant) then (.error stNOT_AUTHORISED, s)
      else if engCurveOk s j = false then (.error stOPERAND_RANGE, s)
      else
        let (k, s) : Except Nat Job × State :=
          if usesKey d then
            let (k, s) := resolveKey s (dKey d)
            (k.bind fun k => (engKey s d k).map fun b =>
              { j with key := some b, alg := k.alg, parentGen := k.parentGen, mode := k.mode, exponent := field k.opt 0 32 }, s)
          else if isGenerate (eFunc d) ∧ (activeTmk s j.tenant).isNone then (.error stKEY_NOT_FOUND, s)
          else if isGenerate (eFunc d) ∧ genSpecOk (eFunc d) (eSpec d) = false then (.error stKEY_USAGE, s)
          else (.ok j, s)
        match k with
        | .error st => (.error st, s)
        | .ok j =>
          if isRandomFn (eFunc d) then
            let (w, s) := jobWords s r j 8
            match w with
            | some ws => (.ok (engineBound s r { j with words := ws } l), s)
            | none => (.error stRNG_UNAVAILABLE, s)
          else (.ok (engineBound s r j l), s)

/-! ## The queue (R248) -/

/-- The engines of a region that run. -/
def enginesRunning (s : State) (r : Nat) : List PageId := (unitPages r .engine).filter (running s)
/-- An engine holds a long job. -/
def longOn (s : State) (p : PageId) : Bool := (s.lane p).cur.any Job.long

/-- A job may be bound under the limits on long jobs. -/
def mayBind (s : State) (r : Nat) (j : Job) : Bool :=
  let held := ((unitPages r .engine).filter (longOn s)).length
  let run := enginesRunning s r
  ! isLong s j ||
    (decide (held < s.fld (.odm r) ODM_CFG_LONG_MAX) &&
      (if run.length = 1 then (s.queue r .engine).all (isLong s) else decide ((run.filter (longOn s)).length + 1 < run.length)))

/-- ODM grants jobs (R272). -/
def odmGrants (s : State) (r : Nat) : Bool :=
  decide (stateOf s (.odm r) = stRunning) || decide (stateOf s (.odm r) = stDraining)

/-- A completion word of R251. -/
def engWord (status : Nat) (h : Word) (outLen : Nat) : Bytes :=
  beBytes 2 status ++ [0, 0] ++ beBytes 4 h.toNat ++ beBytes 4 outLen ++ zeros 20

/-- Operand bytes of a direction. -/
def opTotal (l : List OpEntry) (dir : Nat) : Nat := l.foldl (fun n o => if o.dir = dir then n + o.len else n) 0

/-- ENGINE_JOB_BIND on the engine at position `k` of region `r`: ODM loads the inputs of a job that passes its checks, and
an error in what it reads fails that job alone (R247). -/
def execEngineJobBind (r k : Nat) (s : State) : Res :=
  let p := PageId.pke r k
  if laneReady s p = false ∨ odmGrants s r = false then .next s
  else match pickJob s r .engine (mayBind s r) with
    | none => .next (if (pickJob s r .engine fun _ => true).isSome then s.bump (.odm r) ODM_PASSED else s)
    | some j =>
      let s := if pickJob s r .engine (fun _ => true) = some j then s else s.bump (.odm r) ODM_PASSED
      let (res, s) := engineCheck (grantJob s r .engine j) r j
      match res with
      | .error st => .next (complete (s.bump p PKE_REFUSED) j.core j.slot (engWord st 0 0))
      | .ok j =>
        let s := s.bump (.odm r) ODM_BYTES_IN (opTotal j.ops 0)
        .next (touch (stampItem (s.setLane p { s.lane p with cur := some j }) j.item
          fun t => (t.1, some (t.2.1.getD s.time.ns), t.2.2)) (.odm r) (.unit p))

/-! ## Running a job -/

/-- What a job's function gives on the operands loaded for it. -/
def engineRun (s : State) (j : Job) : EngRes :=
  let d := j.desc
  let x := opNat j.slots
  let b := opBytes j.slots
  let g : JobGen := { func := eFunc d, seed := j.words.flatten }
  let key := j.key.getD []
  let curve := (curveFor s j.tenant (eCurve d)).getD curveP256
  match eFunc d with
  | 0x07 => primeTest g (x 0) (eParam d)
  | 0x10 => rsaPriv g key j.exponent (decide (j.mode = chr 'S')) (x 0)
  | 0x11 => rsaPub (x 0) (x 1) (x 2)
  | 0x12 => rsaKeygen g (eParam d) (x 1)
  | 0x13 => primeGen g (eParam d)
  | 0x20 => ecSign curve g (beNat key) (b 0)
  | 0x21 =>
    ecVerify curve (if key = [] then (x 1, x 2) else (field key 1 curve.size, field key (1 + curve.size) curve.size)) (b 0) (x 4) (x 5)
  | 0x22 => ecDh curve g (beNat key) (x 1, x 2)
  | 0x23 => ecKeygen curve g (curveHash s j.tenant (eCurve d))
  | 0x24 => if pointOk curve (x 1, x 2) then outs [] else .ends stPOINT_INVALID
  | 0x25 => curveCheck { p := x 0, a := x 1, b := x 2, gx := x 3, gy := x 4, n := x 5, h := x 6, size := (eBits d + 7) / 8 } g
  | 0x30 => edSignFn g key (b slotMsg)
  | 0x31 => edVerifyFn (if key = [] then beBytes 32 (x 1) else key) (b slotMsg) (beBytes 32 (x 4) ++ beBytes 32 (x 5))
  | 0x32 => edKeygen g
  | f =>
    if isLedgerFn f then
      let c := ctlOf (beBytes 8 (x 2))
      let a := beBytes 32 (x 0)
      let y := if j.slots.any fun o => o.1 = 1 then beBytes 32 (x 1) else decPack 32 0
      match ldgRun f (decInt a) (decInt y) c with
      | some v => outs [(3, if f = 0x44 then v.toNat else beNat (decPack 32 v))]
      | none => .ends stOPERAND_RANGE
    else modFn f (x 0) (x 1) (x 2) (eParam d)

/-- The curve ID a generated key records. -/
def genCurve (d : Bytes) : Nat := if eFunc d = 0x23 then eCurve d else if eFunc d = 0x32 then idED else 0

/-- A generated private key placed in the tenant's key cache (R250). -/
def placeGenerated (s : State) (cls t : Nat) (spec : Bytes) (curve : Nat) (bits opt : Bytes) : Except Nat (Word × State) :=
  match vaultStatus s with
  | some st => .error st
  | none =>
    match placeStatus s cls t bits.length with
    | some st => .error st
    | none =>
      match placeKey s cls t (spec.take 6 ++ beBytes 2 curve) bits opt 0 with
      | some x => .ok x
      | none => .error stKEY_NOT_FOUND

/-- The end of an engine job: counted, and its completion posted. -/
def endEngine (s : State) (p : PageId) (r : Nat) (j : Job) (st : Nat) (h : Word) (outLen : Nat) : State :=
  let s := (s.setLane p { s.lane p with cur := none }).bump p PKE_JOBS
  let s := if st = stVERIFY_FAIL ∨ st = stPOINT_INVALID then s.bump p PKE_VFAIL else s
  let s := pmcEvent (s.bump (.odm r) ODM_BYTES_OUT outLen) r 0x0A (some j.tenant)
  let s := stampItem s j.item fun t => (t.1, t.2.1, some s.time.ns)
  complete s j.core j.slot (engWord st h outLen)

/-- Outputs copied out. -/
def copyOut (s : State) (r : Nat) (j : Job) (o : List (Nat × Nat)) : State :=
  (j.ops.filter fun e => e.dir = 1).foldl (fun s e =>
    jobWrite s r j e.addr (beBytes e.len (((o.find? fun x => x.1 = e.slot).map Prod.snd).getD 0))) s

/-- A result check that fails: an uncorrectable error of the engine, which ends its job with ABORTED_FAULT and no output
(R258). -/
def resultMismatch (s : State) (p : PageId) : State := failBlock s p 0x64 false

/-- The job of an engine ends: its outputs are copied out, or its key goes to the vault.  Without ODM nothing is copied and
the job waits for its deadline (R272). -/
def engineJobDone (r k : Nat) (s : State) : Res :=
  let p := PageId.pke r k
  match (s.lane p).cur with
  | none => .next s
  | some j =>
    if live s p && odmGrants s r then
      match engineRun s j with
      | .error .mismatch => .next (resultMismatch s p)
      | .error (.status st) => .next (endEngine s p r j st 0 0)
      | .ok o =>
        match o.key with
        | none => .next (endEngine (copyOut s r j o.outs) p r j stOK 0 (opTotal j.ops 1))
        | some (bits, opt) =>
          match placeGenerated s 0 j.tenant (eSpec j.desc) (genCurve j.desc) bits opt with
          | .error st => .next (endEngine (quotaCounted s j.tenant st) p r j st 0 0)
          | .ok (h, s) => .next (endEngine (copyOut s r j o.outs) p r j stOK h (opTotal j.ops 1))
    else .next s

/-- ENGINE_JOB_DONE: the job of the engine at position `k` of region `r` ends. -/
def execEngineJobDone (r k : Nat) (s : State) : Res :=
  engineJobDone r k (touchIf s (s.lane (.pke r k)).cur.isSome (.pke r k))

/-- The first `n` output bytes of an engine job zeroised (R247). -/
def zeroOutputs (s : State) (r : Nat) (j : Job) (n : Nat) : State :=
  ((j.ops.filter fun e => e.dir = 1).foldl (fun (x : State × Nat) e =>
    (jobWrite x.1 r j e.addr (zeros (min x.2 e.len)), x.2 - e.len)) (s, n)).1

/-- DISCARD_ZEROISE_DONE of a unit page: the `written` bytes that a discarded job wrote to DST are zeroised, and its
completion, where one is owed, is posted (R227, R245, R247). -/
def execDiscardZeroiseDone (p : PageId) (written : Nat) (s : State) : Res :=
  match unitOf p, (s.lane p).discard with
  | some (r, u), (j, st) :: l =>
    let s := s.setLane p { s.lane p with discard := l }
    let s := if u = .engine then zeroOutputs s r j written else if u = .cipher ∧ dMode j.desc ≤ 6 then jobWrite s r j (dDst j.desc) (zeros (min written (dLen j.desc))) else s
    match st with
    | some st => .next (if j.slot = noSlot then endItems s [j.item] st else complete s j.core j.slot (laneWord st 0 0 []))
    | none => .next s
  | _, _ => .next s

/-! ## Microcode and vectors (R253, R255, R274) -/

/-- One bit of the CRC-32 of IEEE 802.3, reflected. -/
def crcBit (c : Nat) : Nat := if c % 2 = 1 then Nat.xor (c / 2) 0xEDB88320 else c / 2
/-- CRC-32 of bytes. -/
def crc32 (b : Bytes) : Nat :=
  Nat.xor (b.foldl (fun c x => (List.range 8).foldl (fun c _ => crcBit c) (Nat.xor c x.toNat)) 0xFFFFFFFF) 0xFFFFFFFF

/-- The engine pages of the sites a region fits. -/
def enginePages (s : State) (r : Nat) : List PageId := ((List.range 5).map (PageId.pke r)).filter (Machine.present s)

/-- MICROCODE_LOAD: ODM_UC written with GO and a word count.  Refused once MEAS_4 is sealed. -/
def execMicrocodeLoad (r : Nat) (words : BitVec 15) (s : State) : Res := onComplex s <|
  let p := PageId.odm r
  if live s p = false then .next s
  else if s.fld .vlt VLT_MEAS_SEAL / 16 % 2 = 1 ∨ words = 0 ∨ 16384 < words.toNat then
    .next (setIrq (raiseErr (s.setFlag p ODM_UC_REFUSED true) p 12 0x6B) p 17)
  else
    let s := (s.setFld p ODM_UC_WORDS words.toNat).setFlag p ODM_UC_REFUSED false
    .next ((s.setFlag p ODM_UC_GO true).setFlag p ODM_UC_DONE false)

/-- MICROCODE_LOAD_DONE in region `r`: the bundle at ODM_UC_SRC is in every fitted site. -/
def execMicrocodeLoadDone (r : Nat) (s : State) : Res :=
  let p := PageId.odm r
  if live s p = false ∨ s.flag p ODM_UC_GO = false then .next s
  else
    let a := s.fld p ODM_UC_SRC_LO + s.fld p ODM_UC_SRC_HI * 2 ^ 32
    let n := s.fld p ODM_UC_WORDS
    let head := physRead s a 64
    let code := physRead s (a + 64) (8 * n)
    let u : Ucode := { code := code, funcs := beNat (slice head 16 16), version := field head 8 4 }
    let s := { s with ucode := oset s.ucode r (some u) }
    let s := ((s.setFlag p ODM_UC_GO false).setFlag p ODM_UC_DONE true).setFld p ODM_UC_CRC (crc32 code)
    let s := (enginePages s r).foldl (fun s q => (s.setFld q PKE_UC_VER u.version).setFld q PKE_UC_CRC (crc32 code)) s
    .next (setIrq s p 16)

/-- ENGINE_STARTUP_VECTORS_DONE in region `r`: the sites that fail, with their first failing vectors. -/
def execEngineStartupVectorsDone (r : Nat) (fails : List (Nat × Byte)) (s : State) : Res :=
  if live s (.odm r) = false then .next s
  else .next (poolVectors s (logicalPages s r .engine) [.pke r 4] fails PKE_KAT_PASS PKE_KAT_VECTOR PKE_KAT_FAIL 0x65)

/-- PKE_TEST_RUN on the site behind a page, with the run's result. -/
def execPkeTestRun (r k : Nat) (res : Option Byte) (s : State) : Res := onComplex s <|
  match testTaken s (.pke r k) with
  | .error s => .next s
  | .ok _ => .next (katResult s (.pke r k) PKE_KAT_PASS PKE_KAT_VECTOR PKE_KAT_FAIL 0x65 (res.map BitVec.toNat))

end Sys2Proof.Machine
end

