-- ==== Sys2Proof/Machine/KreurRun.lean ====
section
/-!
DEFINITION. Running one Kreur instruction under its guard (R307, R308) and taking a trap (R336).
-/
namespace Sys2Proof.Machine

/-! ## Instructions -/

/-- A trap ends the task with ABORTED_FAULT and is recorded (R336, R359, R439, R445). -/
def trapTask (s : State) (k : Nat) (i : Item) (code : Nat) : State :=
  let pc := (s.core k).pc
  let p := corePage k
  let s := ((s.bump p KCR_TRAPS).setFld p KCR_LASTTRAP_CODE code).setFld p KCR_LASTTRAP_PC pc.toNat
  let s := postEvent s p (0x5000 + code) (BitVec.ofNat 32 pc.toNat) (BitVec.ofNat 32 i.tenant)
    (BitVec.ofNat 32 k) (BitVec.ofNat 32 i.cmd)
  endItem (pmcEvent s (coreRegion k) 0x10 (some i.tenant)) i stABORTED_FAULT

/-- One instruction of `len` words and `cyc` cycles on core `k`, whose cells hold no injected error: it runs when P[g]
differs from `sense`; an ILLEGAL trap is taken whatever the guard (R307, R308).  A core without a running task, or one that
waits in WAIT or DONE, runs no instruction. -/
def kStep (s : State) (k g : Nat) (sense : Bool) (len cyc : Nat) (illegal : Bool)
    (f : State → Item → Core → Except Nat State) : Res :=
  let c := s.core k
  match c.run.bind s.item with
  | none => .next s
  | some i =>
    if coreRuns s k = false ∨ c.wait.isSome then .next s
    else
      match fetchTrap s (coreRegion k) i c.pc with
      | some t => .next (trapTask s k i t)
      | none =>
        if illegal ∨ (g = 0 ∧ sense) then .next (trapTask s k i trILLEGAL)
        else
          let c' := { c with
            pc := c.pc + BitVec.ofNat 16 len, cycles := (c.cycles + cyc) % 65536, busy := c.busy + cyc }
          let s' := s.setCore k c'
          if predGet c g = sense then .next s'
          else match f s' i c' with
            | .ok s'' => .next s''
            | .error t => .next (trapTask s k i t)

/-- One instruction on core `k`: its cells are accessed where a task runs there, so an injected error is met first (R48). -/
def kRun (s : State) (k g : Nat) (sense : Bool) (len cyc : Nat) (illegal : Bool)
    (f : State → Item → Core → Except Nat State) : Res :=
  kStep (if (s.core k).run.isSome ∧ (s.core k).wait.isNone ∧ coreRuns s k then touch s (corePage k) else s)
    k g sense len cyc illegal f

/-- An instruction that changes its core alone. -/
def kPure (s : State) (k g : Nat) (sense : Bool) (len cyc : Nat) (illegal : Bool) (f : Item → Core → KRes) :
    Res :=
  kRun s k g sense len cyc illegal fun s i c =>
    match f i c with
    | .ok c' => .ok (s.setCore k c')
    | .error t => .error t

end Sys2Proof.Machine
end

