-- ==== Sys2Proof/Machine/KreurAlu.lean ====
section
/-!
DEFINITION. Kreur class 0x1, arithmetic (R311, R312), and class 0x2, shifts (R313).
-/
namespace Sys2Proof.Machine

/-- A one-word arithmetic instruction. -/
def kAlu (s : State) (k g : Nat) (sense : Bool) (cyc n p : Nat)
    (f : Core → List Cell → List Cell × FlagWrite) : Res :=
  kPure s k g sense 1 cyc false fun _ c => aluOp n p f c

/-- Two cells to one, no flags. -/
def kBin (s : State) (k g : Nat) (sense : Bool) (f : Cell → Cell → Cell) : Res :=
  kAlu s k g sense 1 2 1 fun _ l => match l with
    | [b, a] => ([f a b], noFlags)
    | l => (l, noFlags)
/-- Two cells to one with flags; the core gives the carry. -/
def kBinF (s : State) (k g : Nat) (sense : Bool) (f : Core → Cell → Cell → Cell × FlagWrite) : Res :=
  kAlu s k g sense 1 2 1 fun c l => match l with
    | [b, a] => ([(f c a b).1], (f c a b).2)
    | l => (l, noFlags)
/-- One cell to one with flags. -/
def kUnF (s : State) (k g : Nat) (sense : Bool) (f : Cell → Cell × FlagWrite) : Res :=
  kAlu s k g sense 1 1 1 fun _ l => match l with
    | [a] => ([(f a).1], (f a).2)
    | l => (l, noFlags)
/-- Two double cells to one with flags. -/
def kBin32 (s : State) (k g : Nat) (sense : Bool) (f : Word → Word → Word × FlagWrite) : Res :=
  kAlu s k g sense 1 4 2 fun _ l => match l with
    | [bh, bl, ah, al] =>
      let r := f (ah ++ al) (bh ++ bl)
      ([r.1.extractLsb' 16 16, r.1.extractLsb' 0 16], r.2)
    | l => (l, noFlags)

/-- ADD. -/
def execAdd (core g : Nat) (sense : Bool) (s : State) : Res := kBinF s core g sense fun _ a b => addFlags a b false
/-- SUB. -/
def execSub (core g : Nat) (sense : Bool) (s : State) : Res := kBinF s core g sense fun _ a b => subFlags a b false
/-- ADC. -/
def execAdc (core g : Nat) (sense : Bool) (s : State) : Res := kBinF s core g sense fun c a b => addFlags a b c.c
/-- SBC. -/
def execSbc (core g : Nat) (sense : Bool) (s : State) : Res := kBinF s core g sense fun c a b => subFlags a b c.c
/-- AND. -/
def execAnd (core g : Nat) (sense : Bool) (s : State) : Res := kBin s core g sense fun a b => a &&& b
/-- OR. -/
def execOr (core g : Nat) (sense : Bool) (s : State) : Res := kBin s core g sense fun a b => a ||| b
/-- XOR. -/
def execXor (core g : Nat) (sense : Bool) (s : State) : Res := kBin s core g sense fun a b => a ^^^ b
/-- NOT. -/
def execNot (core g : Nat) (sense : Bool) (s : State) : Res := kUnF s core g sense fun a => (~~~ a, noFlags)
/-- NEG. -/
def execNeg (core g : Nat) (sense : Bool) (s : State) : Res := kUnF s core g sense negFlags
/-- ABS. -/
def execAbs (core g : Nat) (sense : Bool) (s : State) : Res := kUnF s core g sense absFlags

/-- The two cells of a double cell, top first. -/
def cells32 (x : Word) : List Cell := [x.extractLsb' 16 16, x.extractLsb' 0 16]

/-- MUL ( a b -- lo hi ), unsigned. -/
def execMul (core g : Nat) (sense : Bool) (s : State) : Res :=
  kAlu s core g sense 2 2 2 fun _ l => match l with
    | [b, a] => (cells32 (BitVec.ofNat 32 (a.toNat * b.toNat)), noFlags)
    | l => (l, noFlags)
/-- MULS ( a b -- lo hi ), signed. -/
def execMuls (core g : Nat) (sense : Bool) (s : State) : Res :=
  kAlu s core g sense 2 2 2 fun _ l => match l with
    | [b, a] => (cells32 (BitVec.ofInt 32 (a.toInt * b.toInt)), noFlags)
    | l => (l, noFlags)
/-- DIV ( a b -- r q ), unsigned. -/
def execDiv (core g : Nat) (sense : Bool) (s : State) : Res :=
  kAlu s core g sense 17 2 2 fun _ l => match l with
    | [b, a] => ([(divFlags a b).2.1, (divFlags a b).1], (divFlags a b).2.2)
    | l => (l, noFlags)
/-- DIVS ( a b -- r q ), signed. -/
def execDivs (core g : Nat) (sense : Bool) (s : State) : Res :=
  kAlu s core g sense 17 2 2 fun _ l => match l with
    | [b, a] => ([(divsFlags a b).2.1, (divsFlags a b).1], (divsFlags a b).2.2)
    | l => (l, noFlags)
/-- ADD32. -/
def execAdd32 (core g : Nat) (sense : Bool) (s : State) : Res := kBin32 s core g sense fun a b => addFlags a b false
/-- SUB32. -/
def execSub32 (core g : Nat) (sense : Bool) (s : State) : Res := kBin32 s core g sense fun a b => subFlags a b false
/-- INC. -/
def execInc (core g : Nat) (sense : Bool) (s : State) : Res := kUnF s core g sense fun a => addFlags a 1 false
/-- DEC. -/
def execDec (core g : Nat) (sense : Bool) (s : State) : Res := kUnF s core g sense fun a => subFlags a 1 false
/-- ADDI n, n signed in 7 bits. -/
def execAddi (core g : Nat) (sense : Bool) (n : BitVec 7) (s : State) : Res :=
  kUnF s core g sense fun a => addFlags a (n.signExtend 16) false

/-! ## Shifts -/

/-- SHL: a count of 16 or more gives zero. -/
def execShl (core g : Nat) (sense : Bool) (s : State) : Res := kBin s core g sense fun a n => a <<< n.toNat
/-- SHR, logical. -/
def execShr (core g : Nat) (sense : Bool) (s : State) : Res := kBin s core g sense fun a n => a >>> n.toNat
/-- SAR, arithmetic. -/
def execSar (core g : Nat) (sense : Bool) (s : State) : Res := kBin s core g sense fun a n => a.sshiftRight n.toNat
/-- ROL, count mod 16. -/
def execRol (core g : Nat) (sense : Bool) (s : State) : Res :=
  kBin s core g sense fun a n => a.rotateLeft (n.toNat % 16)
/-- ROR, count mod 16. -/
def execRor (core g : Nat) (sense : Bool) (s : State) : Res :=
  kBin s core g sense fun a n => a.rotateRight (n.toNat % 16)
/-- A shift of a double cell by a popped count. -/
def kShift32 (s : State) (k g : Nat) (sense : Bool) (f : Word → Nat → Word) : Res :=
  kAlu s k g sense 1 3 2 fun _ l => match l with
    | [n, hi, lo] => (cells32 (f (hi ++ lo) n.toNat), noFlags)
    | l => (l, noFlags)
/-- SHL32. -/
def execShl32 (core g : Nat) (sense : Bool) (s : State) : Res := kShift32 s core g sense fun x n => x <<< n
/-- SHR32, logical. -/
def execShr32 (core g : Nat) (sense : Bool) (s : State) : Res := kShift32 s core g sense fun x n => x >>> n
/-- SHLI k. -/
def execShli (core g : Nat) (sense : Bool) (n : BitVec 4) (s : State) : Res :=
  kUnF s core g sense fun a => (a <<< n.toNat, noFlags)
/-- SHRI k. -/
def execShri (core g : Nat) (sense : Bool) (n : BitVec 4) (s : State) : Res :=
  kUnF s core g sense fun a => (a >>> n.toNat, noFlags)
/-- SARI k. -/
def execSari (core g : Nat) (sense : Bool) (n : BitVec 4) (s : State) : Res :=
  kUnF s core g sense fun a => (a.sshiftRight n.toNat, noFlags)
/-- ROLI k. -/
def execRoli (core g : Nat) (sense : Bool) (n : BitVec 4) (s : State) : Res :=
  kUnF s core g sense fun a => (a.rotateLeft n.toNat, noFlags)

end Sys2Proof.Machine
end

