-- ==== Sys2Proof/Machine/KreurBits.lean ====
section
/-!
DEFINITION. Kreur class 0x3, bit fields (R314, R315), class 0x4, compares (R316), class 0x5, predicates (R317),
and class 0x6, literals (R318).
-/
namespace Sys2Proof.Machine

/-- A field instruction with its immediate word: ILLEGAL where the word breaks R314, whatever the guard. -/
def kField (s : State) (k g : Nat) (sense : Bool) (n : Nat) (imm : Cell) (f : Nat → Nat → List Cell → List Cell) :
    Res :=
  kPure s k g sense 2 2 (fieldImm imm).isNone fun _ c =>
    match fieldImm imm with
    | some (pos, w) => stackOp n 1 (f pos w) c
    | none => .error trILLEGAL

/-- BFX: the field, zero-extended. -/
def execBfx (core g : Nat) (sense : Bool) (imm : Cell) (s : State) : Res :=
  kField s core g sense 1 imm fun pos w l => match l with
    | [a] => [BitVec.ofNat 16 (a.toNat / 2 ^ pos % 2 ^ w)]
    | l => l
/-- BFXS: the field, sign-extended from its top bit. -/
def execBfxs (core g : Nat) (sense : Bool) (imm : Cell) (s : State) : Res :=
  kField s core g sense 1 imm fun pos w l => match l with
    | [a] =>
      let x := a.toNat / 2 ^ pos % 2 ^ w
      [if x.testBit (w - 1) then BitVec.ofNat 16 (x + (65536 - 2 ^ w)) else BitVec.ofNat 16 x]
    | l => l
/-- BFI ( a b -- r ): the field of a replaced by the low bits of b. -/
def execBfi (core g : Nat) (sense : Bool) (imm : Cell) (s : State) : Res :=
  kField s core g sense 2 imm fun pos w l => match l with
    | [b, a] =>
      let old := a.toNat / 2 ^ pos % 2 ^ w
      [BitVec.ofNat 16 (a.toNat - old * 2 ^ pos + b.toNat % 2 ^ w * 2 ^ pos)]
    | l => l

/-- Leading zero bits among the low `n` bits. -/
def leadingZeros (x : Nat) : Nat → Nat
  | 0 => 0
  | n + 1 => if x.testBit n then 0 else leadingZeros x n + 1
/-- Trailing zero bits from bit `i`, at most `n`. -/
def trailingZeros (x : Nat) : Nat → Nat → Nat
  | 0, _ => 0
  | n + 1, i => if x.testBit i then 0 else trailingZeros x n (i + 1) + 1
/-- Bits set among the low `n`. -/
def bitsSet (x : Nat) : Nat → Nat
  | 0 => 0
  | n + 1 => (if x.testBit n then 1 else 0) + bitsSet x n

/-- CLZ. -/
def execClz (core g : Nat) (sense : Bool) (s : State) : Res :=
  kUnF s core g sense fun a => (BitVec.ofNat 16 (leadingZeros a.toNat 16), noFlags)
/-- CTZ. -/
def execCtz (core g : Nat) (sense : Bool) (s : State) : Res :=
  kUnF s core g sense fun a => (BitVec.ofNat 16 (trailingZeros a.toNat 16 0), noFlags)
/-- POPC. -/
def execPopc (core g : Nat) (sense : Bool) (s : State) : Res :=
  kUnF s core g sense fun a => (BitVec.ofNat 16 (bitsSet a.toNat 16), noFlags)

/-- The byte permutation of a double cell (R315). -/
def bytePerm (imm : Cell) (x : Word) : Word :=
  BitVec.ofNat 32 ((List.range 4).foldl (fun n i =>
    n + x.toNat / 2 ^ (8 * (imm.toNat / 4 ^ i % 4)) % 256 * 2 ^ (8 * i)) 0)
/-- BPERM ( lo hi -- lo' hi' ). -/
def execBperm (core g : Nat) (sense : Bool) (imm : Cell) (s : State) : Res :=
  kPure s core g sense 2 2 (decide (256 ≤ imm.toNat)) fun _ c => stackOp 2 2 (fun l => match l with
    | [hi, lo] => cells32 (bytePerm imm (hi ++ lo))
    | l => l) c

/-! ## Compares -/

/-- A compare of two cells into a predicate. -/
def kCmp2 (s : State) (k g : Nat) (sense : Bool) (pd : Nat) (f : Cell → Cell → Bool) : Res :=
  kPure s k g sense 1 1 false fun _ c =>
    match c.ds with
    | b :: a :: l => .ok (predSet { c with ds := l } pd (f a b))
    | _ => .error trSTACK
/-- A compare of one cell into a predicate. -/
def kCmp1 (s : State) (k g : Nat) (sense : Bool) (pd : Nat) (f : Cell → Bool) : Res :=
  kPure s k g sense 1 1 false fun _ c =>
    match c.ds with
    | a :: l => .ok (predSet { c with ds := l } pd (f a))
    | [] => .error trSTACK
/-- A flag or predicate copied into a predicate. -/
def kPred (s : State) (k g : Nat) (sense : Bool) (pd : Nat) (f : Core → Bool) : Res :=
  kPure s k g sense 1 1 false fun _ c => .ok (predSet c pd (f c))

/-- EQ. -/
def execEq (core g : Nat) (sense : Bool) (pd : Nat) (s : State) : Res := kCmp2 s core g sense pd fun a b => a == b
/-- NE. -/
def execNe (core g : Nat) (sense : Bool) (pd : Nat) (s : State) : Res := kCmp2 s core g sense pd fun a b => a != b
/-- LTU. -/
def execLtu (core g : Nat) (sense : Bool) (pd : Nat) (s : State) : Res := kCmp2 s core g sense pd fun a b => a.ult b
/-- GEU. -/
def execGeu (core g : Nat) (sense : Bool) (pd : Nat) (s : State) : Res := kCmp2 s core g sense pd fun a b => ! a.ult b
/-- GTU. -/
def execGtu (core g : Nat) (sense : Bool) (pd : Nat) (s : State) : Res := kCmp2 s core g sense pd fun a b => b.ult a
/-- LEU. -/
def execLeu (core g : Nat) (sense : Bool) (pd : Nat) (s : State) : Res := kCmp2 s core g sense pd fun a b => ! b.ult a
/-- LT. -/
def execLt (core g : Nat) (sense : Bool) (pd : Nat) (s : State) : Res := kCmp2 s core g sense pd fun a b => a.slt b
/-- GE. -/
def execGe (core g : Nat) (sense : Bool) (pd : Nat) (s : State) : Res := kCmp2 s core g sense pd fun a b => ! a.slt b
/-- GT. -/
def execGt (core g : Nat) (sense : Bool) (pd : Nat) (s : State) : Res := kCmp2 s core g sense pd fun a b => b.slt a
/-- LE. -/
def execLe (core g : Nat) (sense : Bool) (pd : Nat) (s : State) : Res := kCmp2 s core g sense pd fun a b => ! b.slt a
/-- EQZ. -/
def execEqz (core g : Nat) (sense : Bool) (pd : Nat) (s : State) : Res := kCmp1 s core g sense pd fun a => a == 0
/-- NEZ. -/
def execNez (core g : Nat) (sense : Bool) (pd : Nat) (s : State) : Res := kCmp1 s core g sense pd fun a => a != 0
/-- LTZ. -/
def execLtz (core g : Nat) (sense : Bool) (pd : Nat) (s : State) : Res := kCmp1 s core g sense pd fun a => a.msb
/-- GEZ. -/
def execGez (core g : Nat) (sense : Bool) (pd : Nat) (s : State) : Res := kCmp1 s core g sense pd fun a => ! a.msb
/-- BIT ( a n -- ): bit n mod 16 of a. -/
def execBit (core g : Nat) (sense : Bool) (pd : Nat) (s : State) : Res :=
  kCmp2 s core g sense pd fun a n => a.toNat.testBit (n.toNat % 16)
/-- PC: flag C. -/
def execPc (core g : Nat) (sense : Bool) (pd : Nat) (s : State) : Res := kPred s core g sense pd fun c => c.c
/-- PV: flag V. -/
def execPv (core g : Nat) (sense : Bool) (pd : Nat) (s : State) : Res := kPred s core g sense pd fun c => c.v
/-- PDZ: flag DZ. -/
def execPdz (core g : Nat) (sense : Bool) (pd : Nat) (s : State) : Res := kPred s core g sense pd fun c => c.dz

/-! ## Predicates -/

/-- Pd = Pd and Ps. -/
def execPredAnd (core g : Nat) (sense : Bool) (ps pd : Nat) (s : State) : Res :=
  kPred s core g sense pd fun c => predGet c pd && predGet c ps
/-- Pd = Pd or Ps. -/
def execPredOr (core g : Nat) (sense : Bool) (ps pd : Nat) (s : State) : Res :=
  kPred s core g sense pd fun c => predGet c pd || predGet c ps
/-- Pd = Pd xor Ps. -/
def execPredXor (core g : Nat) (sense : Bool) (ps pd : Nat) (s : State) : Res :=
  kPred s core g sense pd fun c => predGet c pd != predGet c ps
/-- Pd = Ps. -/
def execPredMov (core g : Nat) (sense : Bool) (ps pd : Nat) (s : State) : Res :=
  kPred s core g sense pd fun c => predGet c ps

/-! ## Literals -/

/-- LIT8: OP 0x00 to 0xFE, zero-extended.  OP 0xFF is LIT16, whose word is the one after it in the program (R318). -/
def execLit8 (core g : Nat) (sense : Bool) (n : Byte) (s : State) : Res :=
  if n = 0xFF then
    kPure s core g sense 2 2 false fun _ c => pushCell (mget (fun _ => 0) s.prog (c.pc - 1).toNat) c
  else kPure s core g sense 1 1 false fun _ c => pushCell (n.zeroExtend 16) c
/-- LIT16: the following word. -/
def execLit16 (core g : Nat) (sense : Bool) (n : Cell) (s : State) : Res :=
  kPure s core g sense 2 2 false fun _ c => pushCell n c

end Sys2Proof.Machine
end

