-- ==== Sys2Proof/Machine/Trie.lean ====
section
/-!
DEFINITION. The BIN prefix table (R176 to R180) and its lookups (R177, R329).
-/
namespace Sys2Proof.Machine

/-! ## Slots and lookups -/

/-- An active slot, and a shadow slot. -/
def triSlot (s : State) (b n : Nat) : BitVec 64 := mget (fun _ => 0) s.tri.active (128 * b + n)
def triShadow (s : State) (b n : Nat) : BitVec 64 := mget (fun _ => 0) s.tri.shadow (128 * b + n)

/-- KIND, CHILD and ROUTE of a slot. -/
def slotKind (v : BitVec 64) : Nat := v.toNat / 2 ^ 62
def slotChild (v : BitVec 64) : Nat := v.toNat / 2 ^ 32 % 2 ^ 13
def slotRoute (v : BitVec 64) : Word := BitVec.ofNat 32 v.toNat

/-- What a lookup finds: the deepest route with its depth, and the slots it treated as empty. -/
structure Found where
  route : Option (Word × Nat)
  bad : Nat
  /-- The slot whose bits were uncorrectable, which ends it (R179). -/
  fault : Option Nat
  deriving DecidableEq, Repr

/-- The descent of digit pairs from a block; `depth` pairs have been descended. -/
def triWalk (s : State) : List Nat → Nat → Nat → Found → Found
  | [], _, _, f => f
  | p :: ps, b, depth, f =>
    let v := triSlot s b p
    let k := slotKind v
    if s.tri.bad.contains (128 * b + p) then { f with route := none, fault := some (128 * b + p) }
    else if (k = 2 ∨ k = 3) ∧ s.fuse.variant.triBlocks ≤ slotChild v then { f with bad := f.bad + 1 }
    else
      let f := if (k = 1 ∨ k = 3) ∧ (slotRoute v).toNat.testBit 3 = false then { f with route := some (slotRoute v, depth + 1) } else f
      if k = 2 ∨ k = 3 then triWalk s ps (slotChild v) (depth + 1) f else f

/-- The complete pairs of a digit string, each as 10 d1 + d2. -/
def digitPairs : List Nat → List Nat
  | a :: b :: l => (10 * a + b) :: digitPairs l
  | _ => []

/-- A lookup of some digits; every lookup misses while TRI is not RUNNING. -/
def triFind (s : State) (ds : List Nat) : Found :=
  if running s .tri = false then { route := none, bad := 0, fault := none }
  else triWalk s (digitPairs ds) 0 0 { route := none, bad := 0, fault := none }

/-- A lookup that meets an uncorrectable slot: the error reported with its address, and the table not failed (R179). -/
def triFault (s : State) (slot : Nat) : State :=
  reportUncorrected (s.setFld .tri TRI_ERRADDR slot) .tri 0x30 (BitVec.ofNat 32 slot)

/-- A lookup counted (R180). -/
def triCount (s : State) (miss : Bool) (bad : Nat) : State :=
  let s := s.bump .tri TRI_LOOKUPS
  let s := if miss then s.bump .tri TRI_MISSES else s
  if bad = 0 then s else setIrq (s.bump .tri TRI_BADPTR bad) .tri 18

/-- A route found for a PAN by a command, counted; the status ABORTED_FAULT where the lookup met an uncorrectable slot. -/
def triRoute (s : State) (ds : List Nat) : Except Nat (Option Word) × State :=
  let f := triFind s ds
  match f.fault with
  | some slot => (.error stABORTED_FAULT, triFault s slot)
  | none => (.ok (f.route.map Prod.fst), triCount s f.route.isNone f.bad)

/-- The lookup that a descriptor asks for (R329). -/
def lookupOf (s : State) (core slot : Nat) (d : Bytes) : Lookup :=
  let n := byteAt d 10
  let ds := ((List.range n).map fun k => byteAt d (k / 2) / (if k % 2 = 0 then 16 else 1) % 16)
  if n < 12 ∨ 19 < n ∨ (ds.any fun v => decide (9 < v)) then
    { core := core, slot := slot, word := beBytes 2 0x0101, counted := false, miss := false, bad := 0, fault := none }
  else
    let f := triFind s ds
    let word := match f.fault, f.route with
      | some _, _ => beBytes 2 stABORTED_FAULT
      | none, some (r, depth) => zeros 4 ++ beBytes 4 r.toNat ++ [BitVec.ofNat 8 depth]
      | none, none => zeros 9
    { core := core, slot := slot, word := word, counted := f.fault.isNone, miss := f.route.isNone, bad := f.bad
      fault := f.fault }

/-! ## Locks and swaps (R178) -/

/-- The lock count shown in TRI_STATUS. -/
def markLocks (s : State) : State := s.setFld .tri TRI_STATUS_LOCKED s.tri.locks.length

/-- A block's lock set, and its active copy copied into its shadow. -/
def lockBlock (s : State) (b : Nat) : State :=
  let sh := (List.range 128).foldl (fun m n => mset (fun _ => 0) m (128 * b + n) (triSlot s b n)) s.tri.shadow
  let s := { s with tri := { s.tri with shadow := sh, locks := if s.tri.locks.contains b then s.tri.locks else s.tri.locks ++ [b] } }
  (markLocks s).setFlag .tri TRI_STATUS_COPYING true

/-- A block's copies swapped; the rewritten one has no uncorrectable slot (R179). -/
def swapBlock (s : State) (b : Nat) : State :=
  let s := { s with tri := { s.tri with bad := s.tri.bad.filter fun x => decide (x / 128 ≠ b) } }
  (List.range 128).foldl (fun s n =>
    let a := triSlot s b n
    let h := triShadow s b n
    { s with tri := { s.tri with
      active := mset (fun _ => 0) s.tri.active (128 * b + n) h, shadow := mset (fun _ => 0) s.tri.shadow (128 * b + n) a } }) s

/-- TRI_LOCK_SET; `recent`: the block was swapped in the last 16 FCLK cycles, so the lock is held. -/
def execTriLockSet (b : Nat) (recent : Bool) (s : State) : Res := onComplex s <|
  if s.fuse.variant.triBlocks ≤ b then .next (accessErr s .tri)
  else if recent then .next ({ s with tri := { s.tri with hold := s.tri.hold ++ [b] } }.setFlag .tri TRI_STATUS_HOLD true)
  else .next (lockBlock s b)

/-- TRI_LOCK_HOLD_RELEASE: the lock held longest proceeds. -/
def execTriLockHoldRelease (s : State) : Res :=
  match s.tri.hold with
  | [] => .next s
  | b :: l => .next (lockBlock ({ s with tri := { s.tri with hold := l } }.setFlag .tri TRI_STATUS_HOLD (l ≠ [])) b)

/-- TRI_LOCK_COPY_DONE. -/
def execTriLockCopyDone (s : State) : Res := .next (s.setFlag .tri TRI_STATUS_COPYING false)

/-- TRI_LOCK_CLR: one locked block is swapped. -/
def execTriLockClr (b : Nat) (s : State) : Res := onComplex s <|
  if s.tri.locks.contains b then
    let s := swapBlock s b
    .next (markLocks { s with tri := { s.tri with locks := s.tri.locks.filter fun x => x ≠ b } })
  else .next s

/-- TRI_COMMIT: every locked block is swapped in one cycle. -/
def execTriCommit (s : State) : Res := onComplex s <|
  let s := s.tri.locks.foldl swapBlock s
  .next (markLocks { s with tri := { s.tri with locks := [] } })

/-- TRI_NODE_WRITE: a slot of a locked block's shadow. -/
def execTriNodeWrite (b n : Nat) (v : BitVec 64) (s : State) : Res := onComplex s <|
  if s.fuse.variant.triBlocks ≤ b ∨ 128 ≤ n then .next s
  else if s.tri.locks.contains b then
    .next { s with tri := { s.tri with shadow := mset (fun _ => 0) s.tri.shadow (128 * b + n) v } }
  else .next (accessErr s .tri)

/-! ## DMA (R180) -/

/-- TRI_DMA_GO: a transfer starts, with FIRST and COUNT written beside GO. -/
def execTriDmaGo (first count : BitVec 13) (s : State) : Res := onComplex s <|
  if s.flag .tri TRI_DMA_GO then .next s
  else .next (((s.setFld .tri TRI_DMA_FIRST first.toNat).setFld .tri TRI_DMA_COUNT count.toNat).setFlag .tri TRI_DMA_GO true)

/-- A block's shadow loaded from HBM, its slots big-endian. -/
def dmaBlock (s : State) (b src : Nat) : State :=
  let m := (List.range 128).foldl (fun m n =>
    mset (fun _ => 0) m (128 * b + n) (BitVec.ofNat 64 (beNat (memRead s.hbm (src + 8 * n) 8)))) s.tri.shadow
  { s with tri := { s.tri with shadow := m } }

/-- Blocks in turn; a target that is not locked stops the transfer with IRQST.BLOCK[17] and ERR.ACCESS (R178, R180). -/
def dmaBlocks (src first : Nat) : Nat → Nat → State → State
  | 0, _, s => setIrq s .tri 16
  | n + 1, k, s =>
    if s.tri.locks.contains (first + k) then dmaBlocks src first n (k + 1) (dmaBlock s (first + k) (src + 1024 * k))
    else setIrq (accessErr s .tri) .tri 17

/-- TRI_DMA_DONE. -/
def execTriDmaDone (s : State) : Res :=
  if s.flag .tri TRI_DMA_GO = false then .next s
  else
    let src := (s.fld .tri TRI_DMA_SRC_LO + s.fld .tri TRI_DMA_SRC_HI * 2 ^ 32) / 1024 * 1024
    .next ((dmaBlocks src (s.fld .tri TRI_DMA_FIRST) (s.fld .tri TRI_DMA_COUNT) 0 s).setFlag .tri TRI_DMA_GO false)

end Sys2Proof.Machine
end

