-- ==== Sys2Proof/Machine/KreurEngine.lean ====
section
/-!
DEFINITION. Kreur class 0xA, engines and queues (R326 to R333, R345, R349).
-/
namespace Sys2Proof.Machine

/-- The segment of an instruction of one word that has advanced the PC. -/
def instrSeg (c : Core) : Nat := segOf (c.pc - 1)

/-- SEND: `seg` says which segments may use the target, `full` whether its queue is full, `len` how long its
descriptor is, and `act` what the target does with the slot, segment and descriptor (R327). -/
def kSend (s : State) (k g : Nat) (sense : Bool) (seg : Nat → Bool) (full : State → Bool) (len : Nat)
    (act : State → Nat → Nat → Item → Bytes → State) : Res :=
  kRun s k g sense 1 2 false fun s i c =>
    match c.ds with
    | [] => .error trSTACK
    | a :: l =>
      let sg := instrSeg c
      if seg sg = false then .error trPRIV
      else match freeSlot c with
        | none => .ok (s.setCore k { c with ds := 0x0402 :: l, c := true })
        | some n =>
          if full s then .ok (s.setCore k { c with ds := 0x0402 :: l, c := true })
          else match localRead i c a.toNat len with
            | .error t => .error t
            | .ok d =>
              let c := { c with ds := BitVec.ofNat 16 n :: l, c := false, slots := c.slots.set n .pending }
              .ok (act (s.setCore k c) n sg i d)

/-- A job for a queue of the core's region. -/
def sendJob (u : UnitKind) (k : Nat) (s : State) (n sg : Nat) (i : Item) (d : Bytes) : State :=
  let r := coreRegion k
  let j : Job :=
    { unit := u, core := k, slot := n, item := i.stamp, tenant := i.tenant, seg := sg, desc := d, key := none,
      alg := 0, parentGen := 0, resv := (s.core k).words ≠ [], words := [] }
  s.setQueue r u (s.queue r u ++ [j])

/-- A queue is full (R230, R248). -/
def queueFull (u : UnitKind) (k : Nat) (s : State) : Bool := decide (queueCap u ≤ (s.queue (coreRegion k) u).length)

/-- A job for the engine queue; ODM reports the queue full (R275). -/
def sendEngine (k : Nat) (s : State) (n sg : Nat) (i : Item) (d : Bytes) : State :=
  let s := sendJob .engine k s n sg i d
  if queueFull .engine k s then setIrq s (.odm (coreRegion k)) 18 else s

/-- SEND to target 0. -/
def execSendCipher (core g : Nat) (sense : Bool) (s : State) : Res :=
  kSend s core g sense (fun _ => true) (queueFull .cipher core) 64 (sendJob .cipher core)
/-- SEND to target 1. -/
def execSendHash (core g : Nat) (sense : Bool) (s : State) : Res :=
  kSend s core g sense (fun _ => true) (queueFull .hash core) 64 (sendJob .hash core)
/-- SEND to target 2. -/
def execSendEngine (core g : Nat) (sense : Bool) (s : State) : Res :=
  kSend s core g sense (fun _ => true) (queueFull .engine core) 64 (sendEngine core)
/-- SEND to target 4: the lookup enters the pipeline, and PREFIX_LOOKUP_DONE completes it (R177, R329). -/
def execSendLookup (core g : Nat) (sense : Bool) (s : State) : Res :=
  kSend s core g sense (fun _ => true) (fun _ => false) 16 fun s n _ _ d =>
    { s with lookups := s.lookups ++ [lookupOf s core n d] }
/-- SEND to target 5: platform segment alone; its descriptor and completion are internal to the platform bundle
(log 15). -/
def execSendVault (core g : Nat) (sense : Bool) (s : State) : Res :=
  kSend s core g sense (fun sg => sg = 0) (fun _ => false) 0 fun s n _ _ _ =>
    complete s.takeFresh core n (beBytes 32 (Config.vaultReply s.fresh).toNat)

/-- A SEND to target 3 or 6 is the row whose operation its descriptor names; another descriptor is another row. -/
def descIs (s : State) (k g : Nat) (sense : Bool) (op : Nat) : Bool :=
  let c := s.core k
  match c.run.bind s.item, c.ds with
  | some i, a :: _ =>
    if predGet c g = sense then true
    else match localByte i c a.toNat with
      | some b => decide (b.toNat = op)
      | none => true
  | _, _ => true

/-- CTX_DRAW. -/
def execCtxDraw (core g : Nat) (sense : Bool) (s : State) : Res :=
  if descIs s core g sense 1 = false then .next s
  else kSend s core g sense (fun _ => true) (fun _ => false) 16 fun s n _ i d => storeDraw s core n i d
/-- CTX_FETCH. -/
def execCtxFetch (core g : Nat) (sense : Bool) (s : State) : Res :=
  if descIs s core g sense 2 = false then .next s
  else kSend s core g sense (fun _ => true) (fun _ => false) 16 fun s n _ i d => storeFetch s core n i d
/-- CTX_CREATE. -/
def execCtxCreate (core g : Nat) (sense : Bool) (s : State) : Res :=
  if descIs s core g sense 3 = false then .next s
  else kSend s core g sense (fun _ => true) (fun _ => false) 16 fun s n sg i d => storeCreate s core n sg i d
/-- CTX_DELETE. -/
def execCtxDelete (core g : Nat) (sense : Bool) (s : State) : Res :=
  if descIs s core g sense 4 = false then .next s
  else kSend s core g sense (fun _ => true) (fun _ => false) 16 fun s n sg i d => storeDelete s core n sg i d

/-- Platform and owner segments (R327). -/
def notTenant (sg : Nat) : Bool := decide (sg ≤ 1)

/-- TIMER_SUBMIT. -/
def execTimerSubmit (core g : Nat) (sense : Bool) (s : State) : Res :=
  if descIs s core g sense 1 = false then .next s
  else kSend s core g sense notTenant (fun _ => false) 16 fun s n _ i d => timerSubmit s core n i d
/-- TIMER_EXPIRE. -/
def execTimerExpire (core g : Nat) (sense : Bool) (s : State) : Res :=
  if descIs s core g sense 2 = false then .next s
  else kSend s core g sense notTenant (fun _ => false) 16 fun s n _ i d => timerExpire s core n i d
/-- TIMER_HEARTBEAT: platform segment alone. -/
def execTimerHeartbeat (core g : Nat) (sense : Bool) (s : State) : Res :=
  if descIs s core g sense 3 = false then .next s
  else kSend s core g sense (fun sg => sg = 0) (fun _ => false) 16 fun s n _ i d => timerHeartbeat s core n i d
/-- TIMER_CANCEL. -/
def execTimerCancel (core g : Nat) (sense : Bool) (s : State) : Res :=
  if descIs s core g sense 4 = false then .next s
  else kSend s core g sense notTenant (fun _ => false) 16 fun s n _ i d => timerCancel s core n i d

/-! ## Slots -/

/-- The slot a cell names; a number above 7 names a slot that is never taken. -/
def slotAt (c : Core) (x : Cell) : Slot := c.slots.getD x.toNat .free

/-- WAIT ( s -- ). -/
def execWait (core g : Nat) (sense : Bool) (s : State) : Res :=
  kPure s core g sense 1 1 false fun _ c =>
    match c.ds with
    | [] => .error trSTACK
    | x :: l =>
      match slotAt c x with
      | .free => .error trSLOT
      | .pending => .ok { c with ds := l, wait := some (.slot x.toNat) }
      | .done _ => .ok { c with ds := l }
/-- GETW ( s w -- x ).  A cell number above 15 gives a free value (log 16). -/
def execGetw (core g : Nat) (sense : Bool) (s : State) : Res :=
  kRun s core g sense 1 1 false fun s _ c =>
    match c.ds with
    | w :: x :: l =>
      match slotAt c x with
      | .done d =>
        if w.toNat < 16 then
          .ok (s.setCore core { c with ds := BitVec.ofNat 16 (field d (2 * w.toNat) 2) :: l })
        else .ok (s.takeFresh.setCore core { c with ds := Config.getwBeyond s.fresh :: l })
      | _ => .error trSLOT
    | _ => .error trSTACK
/-- RELS ( s -- ). -/
def execRels (core g : Nat) (sense : Bool) (s : State) : Res :=
  kPure s core g sense 1 1 false fun _ c =>
    match c.ds with
    | [] => .error trSTACK
    | x :: l =>
      match slotAt c x with
      | .done _ => .ok { c with ds := l, slots := c.slots.set x.toNat .free }
      | _ => .error trSLOT

/-! ## Random words -/

/-- RESV ( n -- ): n words whole, C clear; otherwise nothing, C set. -/
def execResv (core g : Nat) (sense : Bool) (s : State) : Res :=
  kRun s core g sense 1 2 false fun s i c =>
    match c.ds with
    | [] => .error trSTACK
    | x :: l =>
      let n := x.toNat
      if n = 0 ∨ 64 < n then .ok (s.setCore core { c with ds := l, c := true })
      else
        let (w, s) := boomDraw s (coreRegion core) n (some i.tenant)
        match w with
        | some ws => .ok (s.setCore core { c with ds := l, c := false, words := c.words ++ ws })
        | none => .ok (s.setCore core { c with ds := l, c := true })
/-- RAND ( addr -- ): one reserved word to local data. -/
def execRand (core g : Nat) (sense : Bool) (s : State) : Res :=
  kPure s core g sense 1 2 false fun i c =>
    match c.ds with
    | [] => .error trSTACK
    | a :: l =>
      match c.words with
      | [] => .error trSLOT
      | w :: ws => localWrite i { c with ds := l, words := ws } a.toNat (fitR 8 w)

/-! ## The end of a task -/

/-- DONE ( addr len status -- ): a status that is not of the refused or completed kind is a PRIV trap, a range outside
local data a MEM trap; the commit waits until no slot is PENDING. -/
def execDone (core g : Nat) (sense : Bool) (s : State) : Res :=
  kRun s core g sense 1 4 false fun s i c =>
    match c.ds with
    | st :: n :: a :: l =>
      let kind := statusKind st.toNat
      if kind = none ∨ kind = some .discarded then .error trPRIV
      else if 12288 < n.toNat ∨ 0x4000 < a.toNat + n.toNat then .error trMEM
      else
        let c := { c with ds := l }
        let s := s.setCore core c
        if noPending c then .ok (settle settleBound (commitDone s core i a.toNat n.toNat st.toNat))
        else .ok (s.setCore core { c with wait := some (.done a.toNat n.toNat st.toNat) })
    | _ => .error trSTACK

/-- A task may be suspended (R333). -/
def maySuspend (c : Core) : Bool :=
  decide (c.rs = []) && decide (c.ds.length ≤ 16) && (c.slots.all fun x => x = .free) && decide (c.words = []) &&
    ! c.ctxDirty

/-- YIELD as an effect. -/
def yieldTask (s : State) (k : Nat) (i : Item) (c : Core) : Except Nat State :=
  if maySuspend c then .ok (joinReady (saveTask s k i c false) i) else .error trSUSPEND

/-- YIELD. -/
def execYield (core g : Nat) (sense : Bool) (s : State) : Res :=
  kRun s core g sense 1 4 false fun s i c => yieldTask s core i c

/-- SLEEP ( ticks -- ): 0 acts as YIELD, and so does a full delay list, which is counted. -/
def execSleep (core g : Nat) (sense : Bool) (s : State) : Res :=
  kRun s core g sense 1 4 false fun s i c =>
    match c.ds with
    | [] => .error trSTACK
    | x :: l =>
      let c := { c with ds := l }
      if x = 0 then yieldTask s core i c
      else if maySuspend c = false then .error trSUSPEND
      else match setTimer s i.region x.toNat (.wake i.stamp) with
        | some (_, s) => .ok (saveTask s core i c true)
        | none => yieldTask (s.bumpSat (.sch i.region) SCH_DLY_FULL) core i c

/-! ## System class (R335) -/

/-- TRAP n. -/
def execTrap (core g : Nat) (sense : Bool) (n : BitVec 6) (s : State) : Res :=
  kPure s core g sense 1 1 false fun _ _ => .error (0x40 + n.toNat)

/-- A flag as a bit. -/
def bitOf (b : Bool) (n : Nat) : Nat := if b then 2 ^ n else 0

/-- What a CSR reads. -/
def csrRead (s : State) (k : Nat) (i : Item) (c : Core) (n : Nat) : Nat :=
  match n with
  | 0x00 => bitOf c.dz 2 + bitOf c.v 1 + bitOf c.c 0
  | 0x01 => (c.preds ||| 1).toNat
  | 0x02 => bitOf c.trapV 1 + bitOf c.trapDz 0
  | 0x03 => c.ds.length
  | 0x04 => c.rs.length
  | 0x05 => k
  | 0x06 => i.tenant
  | 0x07 => instrSeg c
  | 0x08 => s.time.tick % 65536
  | 0x09 => c.tickHi.toNat
  | 0x0A => min (i.deadline - s.time.tick) 0xFFFF
  | 0x0B => (List.range 8).foldl (fun x j => x + (match c.slots.getD j .free with
      | .free => 0
      | .pending => 2 ^ j
      | .done _ => 2 ^ (8 + j))) 0
  | 0x0C => c.words.length
  | _ => c.cycles

/-- CSRGET c ( -- x ); TICK_LO latches TICK_HI. -/
def execCsrget (core g : Nat) (sense : Bool) (n : BitVec 6) (s : State) : Res :=
  kRun s core g sense 1 1 (decide (0x0E ≤ n.toNat)) fun s i c =>
    match pushCell (BitVec.ofNat 16 (csrRead s core i c n.toNat)) c with
    | .error t => .error t
    | .ok c =>
      .ok (s.setCore core (if n = 0x08 then { c with tickHi := BitVec.ofNat 16 (s.time.tick / 65536) } else c))

/-- CSRPUT c ( x -- ): a read-only CSR is a PRIV trap. -/
def execCsrput (core g : Nat) (sense : Bool) (n : BitVec 6) (s : State) : Res :=
  kPure s core g sense 1 1 (decide (0x0E ≤ n.toNat)) fun _ c =>
    match c.ds with
    | [] => .error trSTACK
    | x :: l =>
      let c := { c with ds := l }
      match n.toNat with
      | 0x00 => .ok { c with dz := x.getLsbD 2, v := x.getLsbD 1, c := x.getLsbD 0 }
      | 0x01 => .ok { c with preds := x.extractLsb' 0 8 ||| 1 }
      | 0x02 => .ok { c with trapV := x.getLsbD 1, trapDz := x.getLsbD 0 }
      | _ => .error trPRIV

/-- A word of a reserved class or OP, or GUARD 0 with SENSE 1, or a reserved SEND target: an ILLEGAL trap. -/
def execIllegalInstruction (core : Nat) (s : State) : Res :=
  kPure s core 0 false 1 1 true fun _ _ => .error trILLEGAL

end Sys2Proof.Machine
end

