-- ==== Sys2Proof/Machine/KreurMem.lean ====
section
/-!
DEFINITION. Kreur class 0x7, memory (R319 to R322), and class 0x8, control flow (R323 to R325).
-/
namespace Sys2Proof.Machine

/-! ## Memory -/

/-- A one-word memory instruction: `n` cells popped, top first, then the effect on the item's local space. -/
def kMem (s : State) (k g : Nat) (sense : Bool) (cyc n : Nat) (f : Item → List Cell → Core → KRes) : Res :=
  kPure s k g sense 1 cyc false fun i c =>
    match popN n c with
    | .ok (l, c) => f i l c
    | .error t => .error t

/-- A cell loaded and pushed. -/
def kLoad (i : Item) (a : Nat) (c : Core) : KRes :=
  match loadCell i c a with
  | .ok x => pushCell x c
  | .error t => .error t

/-- LD ( addr -- x ). -/
def execLd (core g : Nat) (sense : Bool) (s : State) : Res :=
  kMem s core g sense 1 1 fun i l c => kLoad i (l.getD 0 0).toNat c
/-- ST ( x addr -- ). -/
def execSt (core g : Nat) (sense : Bool) (s : State) : Res :=
  kMem s core g sense 1 2 fun i l c => storeCell i c (l.getD 0 0).toNat (l.getD 1 0)
/-- LDB ( addr -- b ). -/
def execLdb (core g : Nat) (sense : Bool) (s : State) : Res :=
  kMem s core g sense 1 1 fun i l c =>
    match localByte i c (l.getD 0 0).toNat with
    | some b => pushCell (b.zeroExtend 16) c
    | none => .error trMEM
/-- STB ( b addr -- ). -/
def execStb (core g : Nat) (sense : Bool) (s : State) : Res :=
  kMem s core g sense 1 2 fun i l c => localWrite i c (l.getD 0 0).toNat [(l.getD 1 0).extractLsb' 0 8]
/-- LD32 ( addr -- lo hi ): hi at addr, lo at addr + 2. -/
def execLd32 (core g : Nat) (sense : Bool) (s : State) : Res :=
  kMem s core g sense 2 1 fun i l c =>
    let a := (l.getD 0 0).toNat
    if 31 ≤ c.ds.length then .error trSTACK
    else match loadCell i c a, loadCell i c (a + 2) with
      | .ok hi, .ok lo => .ok { c with ds := hi :: lo :: c.ds }
      | .error t, _ => .error t
      | _, .error t => .error t
/-- ST32 ( lo hi addr -- ). -/
def execSt32 (core g : Nat) (sense : Bool) (s : State) : Res :=
  kMem s core g sense 2 3 fun i l c =>
    let a := (l.getD 0 0).toNat
    if a % 2 = 1 then .error trALIGN
    else localWrite i c a (beBytes 2 (l.getD 1 0).toNat ++ beBytes 2 (l.getD 2 0).toNat)
/-- LDP ( addr -- x addr+2 ). -/
def execLdp (core g : Nat) (sense : Bool) (s : State) : Res :=
  kMem s core g sense 1 1 fun i l c =>
    let a := l.getD 0 0
    if 31 ≤ c.ds.length then .error trSTACK
    else match loadCell i c a.toNat with
      | .ok x => .ok { c with ds := (a + 2) :: x :: c.ds }
      | .error t => .error t
/-- STP ( x addr -- addr+2 ). -/
def execStp (core g : Nat) (sense : Bool) (s : State) : Res :=
  kMem s core g sense 1 2 fun i l c =>
    let a := l.getD 0 0
    match storeCell i c a.toNat (l.getD 1 0) with
    | .ok c => pushCell (a + 2) c
    | .error t => .error t

/-- The cycles of COPY and ZERO, by the count on top of the stack: the same when the guard is false (R308). -/
def blockCycles (s : State) (k : Nat) : Nat := 1 + (((s.core k).ds.headD 0).toNat + 1) / 2

/-- COPY ( src dst n -- ). -/
def execCopy (core g : Nat) (sense : Bool) (s : State) : Res :=
  kMem s core g sense (blockCycles s core) 3 fun i l c =>
    let n := (l.getD 0 0).toNat
    if 4096 < n then .error trMEM
    else match localRead i c (l.getD 2 0).toNat n with
      | .ok b => localWrite i c (l.getD 1 0).toNat b
      | .error t => .error t
/-- ZERO ( addr n -- ). -/
def execZero (core g : Nat) (sense : Bool) (s : State) : Res :=
  kMem s core g sense (blockCycles s core) 2 fun i l c =>
    let n := (l.getD 0 0).toNat
    if 4096 < n then .error trMEM else localWrite i c (l.getD 1 0).toNat (zeros n)
/-- LDW w ( -- x ): work item cell w. -/
def execLdw (core g : Nat) (sense : Bool) (w : BitVec 5) (s : State) : Res :=
  kMem s core g sense 1 0 fun i _ c => kLoad i (0x4100 + 2 * w.toNat) c
/-- STW w ( x -- ): w below 16 is a MEM trap. -/
def execStw (core g : Nat) (sense : Bool) (w : BitVec 5) (s : State) : Res :=
  kMem s core g sense 1 1 fun i l c => storeCell i c (0x4100 + 2 * w.toNat) (l.getD 0 0)
/-- LDC w ( -- x ): context cell w. -/
def execLdc (core g : Nat) (sense : Bool) (w : BitVec 7) (s : State) : Res :=
  kMem s core g sense 1 0 fun i _ c => kLoad i (0x4000 + 2 * w.toNat) c

/-! ## Control flow -/

/-- The displacement of BR: OP as a signed byte, but not the OPs of the other instructions. -/
def brOk (d : BitVec 8) : Bool := decide (d.toNat < 0x80 ∨ 0x88 ≤ d.toNat)

/-- BR d: from the next word, within the segment of the branch.  A displacement that no BR word has is no
command of this row. -/
def execBr (core g : Nat) (sense : Bool) (d : BitVec 8) (s : State) : Res :=
  if brOk d = false then .next s
  else kPure s core g sense 1 2 false fun _ c => jumpTo (c.pc - 1) (c.pc + d.signExtend 16) c
/-- CALL. -/
def execCall (core g : Nat) (sense : Bool) (target : Cell) (s : State) : Res :=
  kPure s core g sense 2 2 false fun _ c => callTo (c.pc - 2) target c
/-- JMP. -/
def execJmp (core g : Nat) (sense : Bool) (target : Cell) (s : State) : Res :=
  kPure s core g sense 2 2 false fun _ c => jumpTo (c.pc - 2) target c
/-- LOOP: the count must lie on top of the return stack with its link bit clear. -/
def execLoop (core g : Nat) (sense : Bool) (target : Cell) (s : State) : Res :=
  kPure s core g sense 2 2 false fun _ c =>
    match c.rs with
    | [] => .error trSTACK
    | (n, link) :: r =>
      if link then .error trLINK
      else if n - 1 = 0 then .ok { c with rs := r }
      else jumpTo (c.pc - 2) target { c with rs := (n - 1, false) :: r }
/-- RET: to an entry with the link bit set, in the caller's segment. -/
def execRet (core g : Nat) (sense : Bool) (s : State) : Res :=
  kPure s core g sense 1 2 false fun _ c =>
    match c.rs with
    | [] => .error trSTACK
    | (a, link) :: r => if link then .ok { c with rs := r, pc := a } else .error trLINK
/-- CALLS ( addr -- ). -/
def execCalls (core g : Nat) (sense : Bool) (s : State) : Res :=
  kPure s core g sense 1 2 false fun _ c =>
    match c.ds with
    | [] => .error trSTACK
    | a :: l => callTo (c.pc - 1) a { c with ds := l }
/-- JMPS ( addr -- ). -/
def execJmps (core g : Nat) (sense : Bool) (s : State) : Res :=
  kPure s core g sense 1 2 false fun _ c =>
    match c.ds with
    | [] => .error trSTACK
    | a :: l => jumpTo (c.pc - 1) a { c with ds := l }

end Sys2Proof.Machine
end

