-- ==== Sys2Proof/Machine/KreurStack.lean ====
section
/-!
DEFINITION. Kreur class 0x0, stack (R310), and class 0x9, moves between the stacks (R324).
-/
namespace Sys2Proof.Machine

/-- A one-word, one-cycle instruction on the data stack. -/
def kStack (s : State) (k g : Nat) (sense : Bool) (n p : Nat) (f : List Cell → List Cell) : Res :=
  kPure s k g sense 1 1 false fun _ c => stackOp n p f c

/-- NOP. -/
def execNop (core g : Nat) (sense : Bool) (s : State) : Res := kStack s core g sense 0 0 id
/-- DUP ( a -- a a ). -/
def execDup (core g : Nat) (sense : Bool) (s : State) : Res :=
  kStack s core g sense 1 2 fun l => match l with
    | [a] => [a, a]
    | l => l
/-- DROP ( a -- ). -/
def execDrop (core g : Nat) (sense : Bool) (s : State) : Res := kStack s core g sense 1 0 fun _ => []
/-- SWAP ( a b -- b a ). -/
def execSwap (core g : Nat) (sense : Bool) (s : State) : Res :=
  kStack s core g sense 2 2 fun l => match l with
    | [b, a] => [a, b]
    | l => l
/-- OVER ( a b -- a b a ). -/
def execOver (core g : Nat) (sense : Bool) (s : State) : Res :=
  kStack s core g sense 2 3 fun l => match l with
    | [b, a] => [a, b, a]
    | l => l
/-- ROT ( a b c -- b c a ). -/
def execRot (core g : Nat) (sense : Bool) (s : State) : Res :=
  kStack s core g sense 3 3 fun l => match l with
    | [c, b, a] => [a, c, b]
    | l => l
/-- NIP ( a b -- b ). -/
def execNip (core g : Nat) (sense : Bool) (s : State) : Res :=
  kStack s core g sense 2 1 fun l => l.take 1
/-- TUCK ( a b -- b a b ). -/
def execTuck (core g : Nat) (sense : Bool) (s : State) : Res :=
  kStack s core g sense 2 3 fun l => match l with
    | [b, a] => [b, a, b]
    | l => l
/-- DUP2 ( a b -- a b a b ). -/
def execDup2 (core g : Nat) (sense : Bool) (s : State) : Res :=
  kStack s core g sense 2 4 fun l => l ++ l
/-- DROP2 ( a b -- ). -/
def execDrop2 (core g : Nat) (sense : Bool) (s : State) : Res := kStack s core g sense 2 0 fun _ => []
/-- SWAP2 ( a b c d -- c d a b ). -/
def execSwap2 (core g : Nat) (sense : Bool) (s : State) : Res :=
  kStack s core g sense 4 4 fun l => match l with
    | [d, c, b, a] => [b, a, d, c]
    | l => l
/-- PICK: u must be less than the depth after popping it. -/
def execPick (core g : Nat) (sense : Bool) (s : State) : Res :=
  kPure s core g sense 1 1 false fun _ c =>
    match c.ds with
    | u :: l => if u.toNat < l.length then .ok { c with ds := l.getD u.toNat 0 :: l } else .error trSTACK
    | [] => .error trSTACK
/-- DEPTH ( -- n ), the depth before the push. -/
def execDepth (core g : Nat) (sense : Bool) (s : State) : Res :=
  kPure s core g sense 1 1 false fun _ c => pushCell (BitVec.ofNat 16 c.ds.length) c

/-- TOR: the entry carries the link bit clear. -/
def execTor (core g : Nat) (sense : Bool) (s : State) : Res :=
  kPure s core g sense 1 1 false fun _ c =>
    match c.ds with
    | a :: l => if 16 ≤ c.rs.length then .error trSTACK else .ok { c with ds := l, rs := (a, false) :: c.rs }
    | [] => .error trSTACK
/-- FROMR: the link bit is dropped. -/
def execFromr (core g : Nat) (sense : Bool) (s : State) : Res :=
  kPure s core g sense 1 1 false fun _ c =>
    match c.rs with
    | (a, _) :: l => pushCell a { c with rs := l }
    | [] => .error trSTACK
/-- COPYR. -/
def execCopyr (core g : Nat) (sense : Bool) (s : State) : Res :=
  kPure s core g sense 1 1 false fun _ c =>
    match c.rs with
    | (a, _) :: _ => pushCell a c
    | [] => .error trSTACK
/-- RDROP. -/
def execRdrop (core g : Nat) (sense : Bool) (s : State) : Res :=
  kPure s core g sense 1 1 false fun _ c =>
    match c.rs with
    | _ :: l => .ok { c with rs := l }
    | [] => .error trSTACK
/-- RDEPTH. -/
def execRdepth (core g : Nat) (sense : Bool) (s : State) : Res :=
  kPure s core g sense 1 1 false fun _ c => pushCell (BitVec.ofNat 16 c.rs.length) c

end Sys2Proof.Machine
end

