-- ==== Sys2Proof/Machine/Sessions.lean ====
section
/-!
DEFINITION. Sessions: the dispatcher's tag check (R92), SESSION_HELLO, FINISH, CLOSE and REKEY (R93 to R99), ECHO
(R491) and the code page (R102, R492).
-/
namespace Sys2Proof.Machine

/-! ## The dispatcher's first step (R92) -/

/-- A verified request goes on to its command, is refused, or is answered from the duplicate-tag window; a state-changing
one enters the window (R93, R98, R107, R109, R111). -/
def dispatchRequest (s : State) (i : Item) : State :=
  match requestRefused s i with
  | some st => answerDup s i st [] false
  | none =>
    if cmdClass i.cmd = some .changing then
      match dupAnswer s i with
      | some (st, p, d) => answerDup s i st p d
      | none => dupEnter s i
    else s

/-- The lane that works on the decrypt job of the item on core `core`, with the job. -/
def decryptLane (s : State) (core : Nat) (i : Item) : Option (PageId × Job) :=
  (unitPages (coreRegion core) .cipher).findSome? fun p =>
    ((s.lane p).cur.filter fun j => j.slot = noSlot ∧ j.core = core ∧ j.item = i.stamp).map fun j => (p, j)

/-- The decrypt job of an item ends: the frame opens into the frame buffer, or is dropped. -/
def tagVerified (s : State) (p : PageId) (j : Job) (i : Item) : State :=
  let r := i.region
  let done := fun (s : State) (st : Nat) => endJob s p r j st (gcmBlocks i.payload.length) i.payload.length [] 0x07 0x08
  match verifyItem s i with
  | none =>
    let bad := ((frameSession s (decide (i.port = 0x80)) i.session i.tenant).bind fun se => openItem s se i).isNone
    dropItem (countAuth (done s (if bad then stVERIFY_FAIL else stOK)) i.ingress i.tenant) i
  | some (x, s) =>
    let s := { s.setItem i.stamp (some x) with fb := memWrite s.fb (r * fbSize + i.fbOff) x.payload }
    let s := done s stOK
    dispatchRequest s ((s.item i.stamp).getD x)

/-- TAG_VERIFY_DONE on core `core`: the dispatcher's decrypt job, which a lane has taken, completes (R92). -/
def execTagVerifyDone (core : Nat) (s : State) : Res :=
  if coreRuns s core = false then .next s
  else match (s.core core).run.bind s.item with
    | none => .next s
    | some i =>
      if awaitsTag i = false then .next s
      else match decryptLane s core i with
        | none => .next s
        | some (p, _) =>
          let s := touch s p
          .next (match decryptLane s core i, s.item i.stamp with
            | some (p, j), some i => if awaitsTag i then tagVerified s p j i else s
            | _, _ => s)

/-! ## Opening a session (R93 to R95) -/

/-- The elements of SESSION_HELLO and SESSION_REKEY. -/
def helloDefs : List ElemDef :=
  [must 0x0101 (lenIs 1), must 0x0102 (fun n => decide (n = 65 ∨ n = 97)), must 0x0103 (lenIs 32), must 0x0104 (lenIs 4)]

/-- TMO, the elements, CURVE and the length of HOST_PUB (R95, step 4; R111): the curve and the elements. -/
def helloElems (i : Item) : Except Nat (Curve × List Elem) :=
  if i.fixed ∨ 28 ≤ i.tmo then .error stFORMAT
  else match elemShape helloDefs i.payload with
    | .error st => .error st
    | .ok l =>
      if contextField i l = false then .error stFORMAT
      else match elemLens helloDefs l with
        | some st => .error st
        | none =>
          let c := if elemNat l 0x0101 = 1 then curveP256 else curveP384
          if elemNat l 0x0101 ≠ 1 ∧ elemNat l 0x0101 ≠ 2 then .error stFORMAT
          else if (elemD l 0x0102).length ≠ 2 * c.size + 1 then .error stLENGTH
          else .ok (c, l)

/-- Open sessions. -/
def sessionCount (s : State) : Nat := (opresent s.sessions).length
/-- Open sessions of a tenant. -/
def tenantSessions (s : State) (t : Nat) : Nat := ((opresent s.sessions).filter fun e => e.2.tenant = t).length
/-- Management sessions. -/
def mgmtSessions (s : State) : Nat := ((opresent s.sessions).filter fun e => e.2.mgmt).length
/-- Free key cache slots. -/
def cacheFree (s : State) : Nat := s.fuse.variant.keySlots - slotsUsed s

/-- Step 7 of R95: the host's entry, or the free one that its HELLO reserves. -/
def helloHost (s : State) (i : Item) : Except Nat Nat :=
  match findHost s i.tenant i.source with
  | some (h, _) => .ok h
  | none =>
    match ofree s.hosts 0 4096 with
    | none => .error stBUSY
    | some h =>
      if (s.tenant i.tenant).qHost ≤ ((opresent s.hosts).filter fun e => e.2.tenant = i.tenant).length then .error stQUOTA
      else .ok h

/-- CRED in the order of R93: its curve and point.  A felled key is answered KEY_ORPHANED, as every resolution of it is,
where R93's list names no status for it (log 104). -/
def credKey (s : State) (t : Nat) (h : Word) : Except Nat (Curve × (Nat × Nat)) × State :=
  if handleTenant h ≠ t then (.error stNOT_AUTHORISED, s)
  else
    let (r, s) := resolveCred s h
    match r with
    | .error st => (.error st, s)
    | .ok k =>
      let pub := decide (k.usage = usage '5' '1' ∨ k.usage = usage '5' '3')
      let c := curveOfPub k.bits
      match decompress c k.bits with
      | some q =>
        if handleClass h = 1 ∧ ecValid c q = false then (.error stKEY_INVALID, s)
        else if pub then (.ok (c, q), s) else (.error stKEY_USAGE, s)
      | none => if pub then (.error stKEY_INVALID, s) else (.error stKEY_USAGE, s)

/-- What a HELLO or REKEY that passes every check opens: the device's payload, and the state with the session. -/
structure Opened where
  id : Nat
  payload : Bytes
  state : State

/-- A session is made (R93, R94): ephemeral key, nonce and signature nonce from `rand`. -/
def openSession (s : State) (i : Item) (c : Curve) (l : List Elem) (q : Nat × Nat) (host : Option Nat)
    (pred : Option (Nat × Nat)) (rand : Bytes) : Option Opened :=
  let d := scalarOf c (slice rand 0 c.size)
  match ecMul c d q, ecMul c d (c.gx, c.gy), ofree s.sessions 1 4096 with
  | some z, some pub, some id =>
    let nonce := slice rand c.size 32
    let head := elemBytes 0x0105 (beBytes 4 id) ++ elemBytes 0x0106 (pointBytes c pub) ++ elemBytes 0x0107 nonce ++
      elemBytes 0x0108 s.fuse.cert
    let t := sha384 (i.payload ++ head)
    let sig := ecdsaBytes curveP384 (identPriv s) (scalarOf curveP384 (slice rand (c.size + 32) 48)) t
    let ks := kdf108 (beBytes c.size z.1) "ADETRA-LINK".toList (t ++ beBytes 4 id) 72
    match placeSession s i.tenant (slice ks 0 32) with
    | none => none
    | some (a, s) =>
      match placeSession s i.tenant (slice ks 32 32) with
      | none => none
      | some (b, s) =>
        let win := match pred with
          | some (_, w) => w
          | none => ((List.range 4097).find? fun w => ! (opresent s.sessions).any fun e => decide (e.2.window = w)).getD 0
        let se : Session := {
          tenant := i.tenant, mgmt := decide (i.port = 0x80), stage := .hello, slotIn := a, slotOut := b
          saltIn := slice ks 64 4, saltOut := slice ks 68 4, highest := 0, accepted := [], devSeq := 1
          transcript := sha384 (t ++ sig), cred := BitVec.ofNat 32 (elemNat l 0x0104), window := win
          successor := none, predecessor := pred.map Prod.fst, seen := none, host := host, closeItem := none }
        let s := leaseGrant (s.setSession id (some se)) (leaseSession id) 1 (seqBlock s) (2 ^ 36)
        some { id := id, payload := head ++ elemBytes 0x0109 sig, state := s }
  | _, _, _ => none

/-- The checks of R95 in order and the session they open; step 7 is left out for a rekey, which names its predecessor. -/
def helloRun (s : State) (i : Item) (pred : Option (Nat × Session)) : Except (Nat × State) Opened :=
  if i.port = 0x80 ∧ i.tenant ≠ 0 then .error (stNOT_AUTHORISED, s)
  else match actingTenant s i.tenant with
    | some st => .error (st, s)
    | none =>
      match helloElems i with
      | .error st => .error (st, s)
      | .ok (c, l) =>
        if 4096 ≤ sessionCount s ∨ cacheFree s < 2 ∨ (i.port = 0x80 ∧ 16 ≤ mgmtSessions s) then .error (stBUSY, s)
        else if (s.tenant i.tenant).qSess ≤ tenantSessions s i.tenant then .error (stQUOTA, countRefused s i.tenant)
        else
          let hr : Except Nat (Option Nat) := match pred with
            | some (_, p) => .ok p.host
            | none => if i.port = 0x80 then .ok none else (helloHost s i).map some
          match hr with
          | .error st => .error (st, quotaCounted s i.tenant st)
          | .ok host =>
            let (cr, s) := credKey s i.tenant (BitVec.ofNat 32 (elemNat l 0x0104))
            match cr with
            | .error st => .error (st, s)
            | .ok _ =>
              let (rand, s) := boomBytes s i.region (c.size + 80) (some i.tenant)
              match rand with
              | none => .error (stRNG_UNAVAILABLE, s)
              | some rand =>
                match (pointOf c (elemD l 0x0102)).filter fun q => ecValid c q with
                | none => .error (stPOINT_INVALID, s)
                | some q =>
                  let s := match host with
                    | some h => if (s.host h).isSome then s else s.setHost h (some { tenant := i.tenant, key := i.source, port := i.port, isStatic := false, valid := false, lastFrame := s.time.tick, lastMove := none })
                    | none => s
                  match openSession s i c l q host (pred.map fun (p : Nat × Session) => (p.1, p.2.window)) rand with
                  | some o => .ok o
                  | none => .error (stBUSY, s)

/-- SESSION_HELLO, the command of core `core`: answered in clear. -/
def execSessionHello (core : Nat) (s : State) : Res :=
  hostRun s core 0x0E01 fun s i =>
    match helloRun s i none with
    | .error (st, s) => endItem s i st
    | .ok o => settle settleBound (tagEgress (respondPlain (releaseItem o.state i) i o.id 0 stOK o.payload) i stOK)

/-- SESSION_FINISH (R93). -/
def execSessionFinish (core : Nat) (s : State) : Res :=
  hostRun s core 0x0E02 fun s i =>
    match s.session i.session with
    | none => dropItem s i
    | some se =>
      if se.stage ≠ .hello then answerStatus s i stOPERAND_RANGE
      else match elemsOf [must 0x010A (fun n => decide (n = 64 ∨ n = 96))] i with
        | .error st => answerStatus s i st
        | .ok l =>
          let (cr, s) := credKey s i.tenant se.cred
          let sig := elemD l 0x010A
          match cr with
          | .error _ => answerStatus s i stNOT_AUTHORISED
          | .ok (c, q) =>
            if sig.length ≠ 2 * c.size then answerStatus s i stLENGTH
            else if ecdsaCheck c q se.transcript sig = false then answerStatus s i stNOT_AUTHORISED
            else
              let s := s.setSession i.session (some { se with stage := .opened })
              let s := match se.host with
                | some h => (match s.host h with | some e => s.setHost h (some { e with valid := true }) | none => s)
                | none => s
              answerCommit s i (beBytes 4 i.session) [(0x010B, beBytes 8 (2 ^ 36)), (0x010C, beBytes 4 65536)]

/-- SESSION_CLOSE (R99): admission stops, and the answer leaves once nothing else of the session remains. -/
def execSessionClose (core : Nat) (s : State) : Res :=
  hostRun s core 0x0E03 fun s i =>
    match elemsOf [] i, s.session i.session with
    | .error st, _ => answerStatus s i st
    | .ok _, none => dropItem s i
    | .ok _, some se =>
      if se.stage = .closing then answerStatus s i stOPERAND_RANGE
      else
        let s := dupCommit (releaseItem s i) i stOK (fitR 8 (beBytes 4 i.session))
        let s := s.setSession i.session (some { se with stage := .closing, closeItem := some i })
        settle settleBound (settleClose s i.session)

/-- SESSION_REKEY (R99): a successor that shares the window. -/
def execSessionRekey (core : Nat) (s : State) : Res :=
  hostRun s core 0x0E04 fun s i =>
    match s.session i.session with
    | none => dropItem s i
    | some se =>
      match helloRun s i (some (i.session, se)) with
      | .error (st, s) => endItem s i st
      | .ok o =>
        let s := match o.state.session i.session with
          | some p => o.state.setSession i.session (some { p with successor := some o.id })
          | none => o.state
        answerRaw (dupCommit s i stOK (fitR 8 (beBytes 4 o.id))) i stOK o.payload

/-- REKEY_PREDECESSOR_CLOSE of session `id`: 1 s after its successor's first verified frame. -/
def execRekeyPredecessorClose (id : Nat) (s : State) : Res :=
  match (s.session id).bind fun se => se.successor.bind fun n => (s.session n).bind fun x => x.seen with
  | some t => .next (closeSession (advanceTo s (t + 1000000)) id)
  | none => .next s

/-! ## ECHO and the code page -/

/-- ECHO (R491). -/
def execEcho (core : Nat) (s : State) : Res :=
  hostRun s core 0x0E05 fun s i =>
    match elemsOf [may 0x1010 (lenIn 1 8192)] i with
    | .error st => answerStatus s i st
    | .ok l => answer s i stOK l

/-- The code page at tenant creation: the identity over 0x20 to 0x7E (R102). -/
def identityPage : Bytes := (List.range 256).map fun b => if 0x20 ≤ b ∧ b ≤ 0x7E then BitVec.ofNat 8 b else 0

/-- The code page that applies to an item (R102). -/
def pageFor (s : State) (i : Item) : Bytes :=
  match (s.tenant i.tenant).codePages.find? fun e => e.1 ≤ i.stamp with
  | some e => e.2
  | none => identityPage

/-- The characters that must each be the image of exactly one host byte. -/
def pageChars : List Byte :=
  ((List.range 256).filter fun c => c = 0x20 ∨ (0x30 ≤ c ∧ c ≤ 0x39) ∨ (0x41 ≤ c ∧ c ≤ 0x5A)).map (BitVec.ofNat 8)

/-- A table satisfies R102. -/
def pageOk (t : Bytes) : Bool := pageChars.all fun c => decide ((t.filter fun b => b = c).length = 1)

/-- CODEPAGE_LOAD (R492). -/
def execCodepageLoad (core : Nat) (s : State) : Res :=
  hostRun s core 0x0F07 fun s i =>
    match elemsOf [must 0x1701 (lenIs 256)] i with
    | .error st => answerStatus s i st
    | .ok l =>
      if pageOk (elemD l 0x1701) = false then answerStatus s i stFORMAT
      else
        let t := s.tenant i.tenant
        let s := s.setTenant i.tenant { t with codePages := (s.nextItem, elemD l 0x1701) :: t.codePages }
        answerCommit s i (zeros 8) []

end Sys2Proof.Machine
end

