-- ==== Sys2Proof/Machine/PayBase.lean ====
section
/-!
DEFINITION. What the payment commands share: the element table (R115), the order of checks (R116), key attributes
(R112, R114), counter contexts (R119 to R121), fixed-field records (R101, R102, R157) and decimal extraction (R129).
-/
namespace Sys2Proof.Machine

/-- A command's checks and execution: it ends with a status, or goes on, over the state. -/
abbrev Cmd (α : Type) := ExceptT Nat (StateM State) α

/-- What a command that runs to its end answers: a completed status and the payload. -/
abbrev Answer := Nat × Bytes

/-- A check: the status when it fails. -/
def need (b : Bool) (st : Nat) : Cmd Unit := if b then pure () else throw st
/-- A status found by a check. -/
def refuseIf (o : Option Nat) : Cmd Unit :=
  match o with
  | some st => throw st
  | none => pure ()
/-- A claim of tenant `t` that a check refuses; QUOTA is counted (R363, R379). -/
def refuseClaim (t : Nat) (o : Option Nat) : Cmd Unit :=
  match o with
  | some st => do
    modify fun s => quotaCounted s t st
    throw st
  | none => pure ()
/-- An operation on the state that yields a value. -/
def act {α : Type} (f : State → α × State) : Cmd α := do
  let s ← get
  let r := f s
  set r.2
  pure r.1
/-- An operation that may refuse. -/
def actE {α : Type} (f : State → Except Nat α × State) : Cmd α := do
  let r ← act f
  match r with
  | .ok v => pure v
  | .error st => throw st

/-- A command's outcome: a refusal ends the item with its status, an answer with its payload. -/
def runCmd (s : State) (i : Item) (m : Cmd Answer) : State :=
  match m.run s with
  | (.error st, s) => endItem s i st
  | (.ok (st, p), s) => answerRaw s i st p

/-- A state-changing command's outcome: on an answer its window entry takes the result word. -/
def runCommit (s : State) (i : Item) (m : Cmd (Bytes × Bytes)) : State :=
  match m.run s with
  | (.error st, s) => endItem s i st
  | (.ok (w, p), s) => answerRaw (dupCommit s i stOK (fitR 8 w)) i stOK p

/-- An OK answer of elements. -/
def okElems (l : List Elem) : Answer := (stOK, (l.map fun e => elemBytes e.1 e.2).flatten)

/-! ## Elements (R115) -/

/-- The lengths the element table allows. -/
def payLen (t n : Nat) : Bool :=
  match t with
  | 0x1001 | 0x1002 | 0x1003 | 0x1004 | 0x1045 | 0x1025 | 0x1060 => decide (n = 4)
  | 0x1005 | 0x1052 => decide (12 ≤ n ∧ n ≤ 19)
  | 0x1006 | 0x1033 => decide (n = 8 ∨ n = 16)
  | 0x1007 | 0x1008 | 0x100B | 0x100D | 0x1012 | 0x1013 | 0x1014 | 0x1020 | 0x1028 | 0x1029 | 0x1031 | 0x1032 | 0x1041
  | 0x1043 | 0x1056 | 0x1063 => decide (n = 1)
  | 0x1009 | 0x100A | 0x1054 => decide (n = 16)
  | 0x100C => decide (4 ≤ n ∧ n ≤ 12)
  | 0x100E => decide (4 ≤ n ∧ n ≤ 6)
  | 0x1010 | 0x1015 => decide (1 ≤ n ∧ n ≤ 8192)
  | 0x1011 => decide (4 ≤ n ∧ n ≤ 16)
  | 0x1016 => decide (n = 17)
  | 0x1017 => decide (n = 258)
  | 0x1021 | 0x1024 | 0x1050 => decide (n = 2)
  | 0x1022 => decide (1 ≤ n ∧ n ≤ 1024)
  | 0x1023 | 0x1044 | 0x1057 => decide (n = 8)
  | 0x1026 => decide (n ≤ 8)
  | 0x1027 => decide (n = 4 ∨ n = 8)
  | 0x1030 => decide (n = 10 ∨ n = 12)
  | 0x1040 => decide (16 ≤ n ∧ n ≤ 2048)
  | 0x1042 => decide (n = 3 ∨ n = 5)
  | 0x1051 => decide (n ≤ 16)
  | 0x1053 => decide (n = 12)
  | 0x1055 => decide (n ≤ 1024)
  | 0x1061 => decide (n = 3)
  | 0x1062 => decide (n = 3 ∨ n = 4)
  | _ => false

abbrev eKEY_A : Nat := 0x1001
abbrev eKEY_B : Nat := 0x1002
abbrev eCTX : Nat := 0x1003
abbrev eBIND_CTX : Nat := 0x1004
abbrev ePAN : Nat := 0x1005
abbrev ePIN_BLOCK : Nat := 0x1006
abbrev eFMT_IN : Nat := 0x1007
abbrev eFMT_OUT : Nat := 0x1008
abbrev eDECTAB : Nat := 0x1009
abbrev eVAL_DATA : Nat := 0x100A
abbrev eCHECK_LEN : Nat := 0x100B
abbrev eOFFSET : Nat := 0x100C
abbrev ePVKI : Nat := 0x100D
abbrev eVV : Nat := 0x100E
abbrev eDATA : Nat := 0x1010
abbrev eMAC : Nat := 0x1011
abbrev eMAC_ALG : Nat := 0x1012
abbrev eMAC_PAD : Nat := 0x1013
abbrev eMAC_LEN : Nat := 0x1014
abbrev eMSG : Nat := 0x1015
abbrev eMACSEL : Nat := 0x1016
abbrev eFIELDFMT : Nat := 0x1017
abbrev ePSN : Nat := 0x1020
abbrev eATC : Nat := 0x1021
abbrev eTXN_DATA : Nat := 0x1022
abbrev eARQC : Nat := 0x1023
abbrev eARC : Nat := 0x1024
abbrev eCSU : Nat := 0x1025
abbrev ePROP_DATA : Nat := 0x1026
abbrev eARPC : Nat := 0x1027
abbrev eARPC_METHOD : Nat := 0x1028
abbrev eMK_METHOD : Nat := 0x1029
abbrev eKSN : Nat := 0x1030
abbrev eDK_USE : Nat := 0x1031
abbrev eDK_ALG : Nat := 0x1032
abbrev eIV : Nat := 0x1033
abbrev eKEYBLOCK : Nat := 0x1040
abbrev eKEY_CLASS : Nat := 0x1041
abbrev eKCV : Nat := 0x1042
abbrev eKCV_LEN : Nat := 0x1043
abbrev eKEY_SPEC : Nat := 0x1044
abbrev eHANDLE : Nat := 0x1045
abbrev eKEEP : Nat := 0x1050
abbrev eTWEAK : Nat := 0x1051
abbrev eTOKEN : Nat := 0x1052
abbrev eNONCE : Nat := 0x1053
abbrev eTAG : Nat := 0x1054
abbrev eAAD : Nat := 0x1055
abbrev eCIPHER_MODE : Nat := 0x1056
abbrev eCOUNTER : Nat := 0x1057
abbrev eEXPIRY : Nat := 0x1060
abbrev eSVC : Nat := 0x1061
abbrev eCSC : Nat := 0x1062
abbrev eCSC_LEN : Nat := 0x1063

/-- A mandatory element of the table. -/
def req (t : Nat) : ElemDef := must t (payLen t)
/-- An optional element of the table. -/
def opt (t : Nat) : ElemDef := may t (payLen t)

/-- ASCII digits. -/
def isDigits (b : Bytes) : Bool := b.all fun x => decide (0x30 ≤ x.toNat ∧ x.toNat ≤ 0x39)
/-- ASCII hexadecimal characters 0 to 9 and A to F. -/
def isHexChars (b : Bytes) : Bool :=
  b.all fun x => decide (0x30 ≤ x.toNat ∧ x.toNat ≤ 0x39 ∨ 0x41 ≤ x.toNat ∧ x.toNat ≤ 0x46)
/-- The digits of a digit string. -/
def digitsOf (b : Bytes) : List Nat := b.map fun x => x.toNat - 0x30
/-- A digit string. -/
def digitBytes (l : List Nat) : Bytes := l.map fun d => BitVec.ofNat 8 (0x30 + d)

/-- The codes the table defines for an element. -/
def payCodes (t : Nat) : Option (List Nat) :=
  match t with
  | 0x1007 | 0x1008 => some [0, 1, 3, 4]
  | 0x1012 => some [1, 3, 6]
  | 0x1013 | 0x1028 | 0x1029 | 0x1056 => some [1, 2]
  | 0x1031 => some [1, 2, 3]
  | 0x1032 => some [0, 1, 2, 3, 4]
  | 0x1041 => some [0, 1]
  | 0x1043 => some [3, 5]
  | 0x1063 => some [3, 4]
  | _ => none

/-- What the table says against an element's value: codes and digit strings (FORMAT), context IDs (R351), ranges.  DESIGN
CHOICE (log 105): a VAL_DATA character outside 0 to 9 and A to F, and a PSN that is not BCD, are FORMAT; R115 gives no
status for them. -/
def payValue (s : State) (e : Elem) : Option Nat :=
  match payCodes e.1 with
  | some l => if l.contains (beNat e.2) then none else some stFORMAT
  | none =>
    if [0x1005, 0x1009, 0x100C, 0x100D, 0x100E, 0x1052, 0x1060, 0x1061, 0x1062].contains e.1 then
      (if isDigits e.2 then none else some stFORMAT)
    else if e.1 = 0x100A then (if isHexChars e.2 then none else some stFORMAT)
    else if e.1 = 0x1020 then (if byteAt e.2 0 / 16 ≤ 9 ∧ byteAt e.2 0 % 16 ≤ 9 then none else some stFORMAT)
    else if e.1 = 0x1003 ∨ e.1 = 0x1004 then ctxIdStatus s (BitVec.ofNat 32 (beNat e.2))
    else if e.1 = 0x100B then (if 4 ≤ beNat e.2 ∧ beNat e.2 ≤ 12 then none else some stOPERAND_RANGE)
    else if e.1 = 0x1050 then (if byteAt e.2 0 ≤ 8 ∧ byteAt e.2 1 ≤ 4 then none else some stOPERAND_RANGE)
    else none

/-- The first element in payload order whose value is refused. -/
def payValues (s : State) : List Elem → Option Nat
  | [] => none
  | e :: l =>
    match payValue s e with
    | some st => some st
    | none => payValues s l

/-! ## Fixed-field records (R101, R102, R157) -/

/-- The four field types. -/
inductive FieldTy where
  | c | n | h | b
  deriving DecidableEq, Repr

/-- A field of a record: the element it gives, its type and width in characters. -/
structure FixField where
  elem : Nat
  ty : FieldTy
  width : Nat
  deriving DecidableEq, Repr

/-- Host bytes translated by a code page; a byte without translation is refused. -/
def translate (page b : Bytes) : Option Bytes :=
  b.mapM fun x => if page.getD x.toNat 0 = 0 then none else some (page.getD x.toNat 0)
/-- Output translated back. -/
def untranslate (page b : Bytes) : Bytes :=
  b.map fun c => BitVec.ofNat 8 (((List.range 256).find? fun k => decide (page.getD k 0 = c)).getD 0)

/-- The value of a hexadecimal character. -/
def hexVal (x : Byte) : Nat := if x.toNat ≤ 0x39 then x.toNat - 0x30 else x.toNat - 0x37
/-- A hexadecimal character. -/
def hexChar (n : Nat) : Byte := BitVec.ofNat 8 (if n < 10 then 0x30 + n else 0x37 + n)
/-- The bytes hexadecimal characters denote. -/
def unhex (b : Bytes) : Bytes := (chunks 2 b).map fun p => BitVec.ofNat 8 (hexVal (p.getD 0 0) * 16 + hexVal (p.getD 1 0))
/-- Bytes as hexadecimal characters. -/
def hexBytes (b : Bytes) : Bytes := (b.map fun x => [hexChar (x.toNat / 16), hexChar (x.toNat % 16)]).flatten

/-- The elements one field gives; none is FORMAT.  `fmt` is FMT_IN, once read, which says how long the PIN block is. -/
def fixElem (page : Bytes) (fmt : Nat) (f : FixField) (raw : Bytes) : Option (List Elem) :=
  match f.ty with
  | .b => some [(f.elem, raw)]
  | .c => (translate page raw).map fun v =>
      if f.elem = ePAN ∧ v.all (fun x => x = 0x20) then [] else [(f.elem, v.takeWhile fun x => x ≠ 0x20)]
  | .n => (translate page raw).bind fun v =>
      if isDigits v = false then none
      else if (payLen f.elem 1) ∧ f.elem ≠ ePVKI then some [(f.elem, beBytes 1 ((digitsOf v).foldl (fun a d => a * 10 + d) 0))]
      else some [(f.elem, v)]
  | .h => (translate page raw).bind fun v =>
      if isHexChars v = false then none
      else if f.elem = eVAL_DATA then some [(f.elem, v)]
      else if f.elem = ePIN_BLOCK ∧ fmt ≠ 4 then
        (if slice (unhex v) 8 8 = zeros 8 then some [(f.elem, slice (unhex v) 0 8)] else none)
      else some [(f.elem, unhex v)]

/-- The elements of a record. -/
def fixElems (page : Bytes) : Nat → List FixField → Bytes → Option (List Elem)
  | _, [], _ => some []
  | fmt, f :: fs, b =>
    match fixElem page fmt f (b.take f.width) with
    | none => none
    | some l =>
      let fmt := if f.elem = eFMT_IN then elemNat l eFMT_IN else fmt
      (fixElems page fmt fs (b.drop f.width)).map (l ++ ·)

/-- Steps 2 and 3 of R116 on an item: its elements, in TLV form or from its command's record. -/
def payElems (s : State) (i : Item) (defs : List ElemDef) (layout : List FixField) : Except Nat (List Elem) :=
  let shape := if i.fixed then
      (if layout = [] then .error stFORMAT
       else if i.payload.length ≠ layout.foldl (fun n f => n + f.width) 0 then .error stLENGTH
       else match fixElems (pageFor s i) 0 layout i.payload with
         | some l =>
           if defs.any fun d => d.mandatory && ! hasElem l d.typ then .error stFORMAT else .ok l
         | none => .error stFORMAT)
    else elemShape defs i.payload
  match shape with
  | .error st => .error st
  | .ok l => if contextField i l = false then .error stFORMAT else .ok l

/-- Steps 2 and 3: shape and Context field, the command's own rules on what is present, lengths, values. -/
def payCheck (i : Item) (defs : List ElemDef) (layout : List FixField) (present : List Elem → Bool) : Cmd (List Elem) := do
  let s ← get
  match payElems s i defs layout with
  | .error st => throw st
  | .ok l =>
    need (present l) stFORMAT
    refuseIf (elemLens defs l)
    refuseIf (payValues s l)
    pure l

/-- No further rule. -/
def anyElems (_ : List Elem) : Bool := true

/-! ## Keys (R112, R114) -/

/-- A handle named by an element. -/
def handleOf (l : List Elem) (t : Nat) : Word := BitVec.ofNat 32 (elemNat l t)

/-- Step 4 for the handles present among some elements. -/
def handleTenants (i : Item) (l : List Elem) (ts : List Nat) : Cmd Unit :=
  need (ts.all fun t => ! hasElem l t || decide (handleTenant (handleOf l t) = i.tenant)) stNOT_AUTHORISED

/-- A key of an algorithm that a payment command takes has a length of that algorithm. -/
def lengthFits (k : KeyVal) : Bool :=
  let n := k.bits.length
  if k.alg = chr 'T' then decide (n = 16 ∨ n = 24)
  else if k.alg = chr 'A' then decide (n = 16 ∨ n = 24 ∨ n = 32)
  else true

/-- A key's usage, algorithm, mode of use and length match. -/
def keyFits (k : KeyVal) (usages : List Nat) (algs modes : List Char) : Bool :=
  usages.contains k.usage && algs.any (fun c => decide (k.alg = chr c)) && modes.any (fun c => decide (k.mode = chr c)) &&
    lengthFits k

/-- A key resolved by its handle. -/
def getKey (h : Word) : Cmd KeyVal := actE fun s => resolveKey s h

/-- Step 6 for one key: resolution, then attributes. -/
def getKeyFor (h : Word) (usages : List Nat) (algs modes : List Char) : Cmd KeyVal := do
  let k ← getKey h
  need (keyFits k usages algs modes) stKEY_USAGE
  pure k

/-- The algorithm of a PIN block format. -/
def fmtAlg (f : Nat) : List Char := if f = 4 then ['A'] else ['T']

/-! ## Counter contexts (R116, steps 5 and 8) -/

/-- The context CTX names: present and of the tenant, and of one of some types. -/
def getCtx (i : Item) (id : Word) (types : Nat → Bool) : Cmd Ctx := do
  let s ← get
  match ctxNamed s id with
  | none => throw stKEY_NOT_FOUND
  | some c =>
    need (decide (c.tenant = i.tenant)) stKEY_NOT_FOUND
    need (types c.typ) stOPERAND_RANGE
    pure c

/-- A draw from a counter context. -/
def drawCtx (id : Word) : Cmd Nat := actE fun s => ctxDraw s (ctxRegion id) (ctxIndex id)

/-- Step 7 for a command whose random bytes are counted only at step 9: some are available. -/
def needRandom (i : Item) : Cmd Unit := do
  let s ← get
  match (boomBytes s i.region 1 (some i.tenant)).1 with
  | some _ => pure ()
  | none => throw stRNG_UNAVAILABLE

/-- A tenant without a valid active TMK creates no key (R194), at step 6. -/
def needTmk (i : Item) : Cmd Unit := do
  let s ← get
  need (activeTmk s i.tenant).isSome stKEY_NOT_FOUND

/-- Random bytes from the item's region (step 7). -/
def randomBytes (i : Item) (n : Nat) : Cmd Bytes := do
  let r ← act fun s => boomBytes s i.region n (some i.tenant)
  match r with
  | some b => pure b
  | none => throw stRNG_UNAVAILABLE

/-! ## Nibbles and decimal extraction (R129) -/

/-- The nibbles of a byte string. -/
def nibbles (b : Bytes) : List Nat := (b.map fun x => [x.toNat / 16, x.toNat % 16]).flatten
/-- A byte string from an even number of nibbles. -/
def packNibbles : List Nat → Bytes
  | a :: b :: l => BitVec.ofNat 8 (a * 16 + b) :: packNibbles l
  | _ => []
/-- Padded on the left with zeros to `n` digits. -/
def padLeft (n : Nat) (l : List Nat) : List Nat := List.replicate (n - l.length) 0 ++ l
/-- The `n` rightmost. -/
def rightmost {α : Type} (n : Nat) (l : List α) : List α := l.drop (l.length - n)
/-- The `n` rightmost PAN digits without the check digit, padded on the left. -/
def panRight (n : Nat) (pan : List Nat) : List Nat := padLeft n (rightmost n pan.dropLast)

/-- The first `k` decimal digits of a string of nibbles. -/
def extractDigits (k : Nat) (l : List Nat) : List Nat :=
  ((l.filter fun v => v ≤ 9) ++ ((l.filter fun v => 10 ≤ v).map fun v => v - 10)).take k

end Sys2Proof.Machine
end

