-- ==== Sys2Proof/Machine/PayMac.lean ====
section
/-!
DEFINITION. MAC generation and verification over data or selected ISO 8583 fields (R131 to R134), and EMV cryptograms
(R135 to R139).
-/
namespace Sys2Proof.Machine

/-! ## ISO 8583 selection (R132, R133) -/

/-- Entry `i` of a field format table. -/
def fieldFmt (t : Bytes) (i : Nat) : Nat := field t (2 * i) 2

/-- The value of a decimal or BCD or binary length prefix; `n` is 2 for LL and 3 for LLL. -/
def prefixValue (kind n : Nat) (b : Bytes) : Option Nat :=
  match kind with
  | 0 => if b.length = n ∧ isDigits b then some ((digitsOf b).foldl (fun a d => a * 10 + d) 0) else none
  | 1 =>
    let w := if n = 2 then 1 else 2
    if b.length = w ∧ (nibbles b).all (fun v => decide (v ≤ 9)) then some ((nibbles b).foldl (fun a d => a * 10 + d) 0) else none
  | _ => if b.length = (if n = 2 then 1 else 2) then some (beNat b) else none

/-- Bytes that a length occupies. -/
def unitBytes (packed : Bool) (n : Nat) : Nat := if packed then (n + 1) / 2 else n

/-- One field at the front of a message: its bytes with their prefix, and the rest. -/
def takeField (fmt : Nat) (m : Bytes) : Option (Bytes × Bytes) :=
  let kind := fmt / 2 ^ 14
  let pre := fmt / 2 ^ 12 % 4
  let packed := fmt.testBit 11
  let len := fmt % 2 ^ 11
  if fmt = 0 ∨ kind = 3 ∨ pre = 3 then none
  else if kind = 0 then
    let n := unitBytes packed len
    if m.length < n then none else some (m.take n, m.drop n)
  else
    let w := if pre = 0 then kind + 1 else kind
    match prefixValue pre (kind + 1) (m.take w) with
    | none => none
    | some v =>
      let n := w + unitBytes packed v
      if len < v ∨ m.length < n then none else some (m.take n, m.drop n)

/-- A bitmap of 64 bits in the form entry 1 gives: of fixed kind, with no reserved code, and 8 or 16 long. -/
def takeBitmap (fmt : Nat) (m : Bytes) : Option (Nat × Bytes) :=
  let len := fmt % 2 ^ 11
  if fmt / 2 ^ 14 ≠ 0 ∨ fmt / 2 ^ 12 % 4 = 3 then none
  else if len = 8 then (if m.length < 8 then none else some (beNat (m.take 8), m.drop 8))
  else if len = 16 then (if m.length < 16 ∨ isHexChars (m.take 16) = false then none else some (beNat (unhex (m.take 16)), m.drop 16))
  else none

/-- The fields of some numbers in turn; the message must end with them. -/
def takeFields (t : Bytes) : List Nat → Bytes → Option (List (Nat × Bytes))
  | [], m => if m = [] then some [] else none
  | i :: is, m =>
    match takeField (fieldFmt t i) m with
    | none => none
    | some (b, m) => (takeFields t is m).map fun l => (i, b) :: l

/-- The fields of a message, the MTI being 0. -/
def parse8583 (t m : Bytes) : Option (List (Nat × Bytes)) :=
  match takeField (fieldFmt t 0) m with
  | none => none
  | some (mti, m) =>
    match takeBitmap (fieldFmt t 1) m with
    | none => none
    | some (p, m) =>
      let rest := fun (q : Nat) (m : Bytes) =>
        (takeFields t ((List.range 129).filter fun i =>
          if i < 2 then false else if i ≤ 64 then p.testBit (64 - i) else q.testBit (128 - i)) m).map fun l => (0, mti) :: l
      if p.testBit 63 then
        match takeBitmap (fieldFmt t 1) m with
        | none => none
        | some (q, m) => rest q m
      else rest 0 m

/-- MACSEL's bit `i`, the first being 0. -/
def selBit (sel : Bytes) (i : Nat) : Bool := (byteAt sel (i / 8)).testBit (7 - i % 8)

/-- The MAC input, or FORMAT (R132).  DESIGN CHOICE (log 105): bits 129 to 135 of MACSEL name no field and are ignored. -/
def macInput (l : List Elem) : Except Nat Bytes :=
  if hasElem l eDATA then .ok (elemD l eDATA)
  else
    let sel := elemD l eMACSEL
    if selBit sel 1 ∨ selBit sel 64 ∨ selBit sel 128 then .error stFORMAT
    else match parse8583 (elemD l eFIELDFMT) (elemD l eMSG) with
      | none => .error stFORMAT
      | some fs => .ok ((fs.filter fun f => selBit sel f.1).map Prod.snd).flatten

/-! ## MACs (R131, R134, R494) -/

/-- The final block of a MAC. -/
def macBlock (alg pad : Nat) (key m : Bytes) : Bytes :=
  match alg with
  | 1 => mac1 (tdesEnc key) 8 (chunks 8 (pad9797 pad 8 m))
  | 3 => mac3 key (chunks 8 (pad9797 pad 8 m))
  | _ => aesCmac key m

/-- The presence rules of the MAC commands. -/
def macPresent (l : List Elem) : Bool :=
  let msg := hasElem l eMSG
  (hasElem l eDATA != msg) && (hasElem l eMACSEL == msg) && (hasElem l eFIELDFMT == msg) &&
    (decide (elemNat l eMAC_ALG ≠ 1 ∧ elemNat l eMAC_ALG ≠ 3) || hasElem l eMAC_PAD)

/-- The checks of the MAC commands and the MAC. -/
def macOf (i : Item) (verify : Bool) : Cmd (List Elem × Bytes) := do
  let l ← payCheck i
    ([req eKEY_A, req eMAC_ALG, opt eMAC_PAD, req eMAC_LEN, opt eDATA, opt eMSG, opt eMACSEL, opt eFIELDFMT] ++
      (if verify then [req eMAC] else [])) [] macPresent
  let alg := elemNat l eMAC_ALG
  let n := elemNat l eMAC_LEN
  match macInput l with
  | .error st => throw st
  | .ok m =>
    need (decide (alg ≠ 6) || ! hasElem l eMAC_PAD) stOPERAND_RANGE
    need (decide (4 ≤ n ∧ n ≤ (if alg = 6 then 16 else 8))) stOPERAND_RANGE
    need (! verify || decide ((elemD l eMAC).length = n)) stOPERAND_RANGE
    need (decide (m ≠ [])) stOPERAND_RANGE
    handleTenants i l [eKEY_A]
    let u := if alg = 1 then usage 'M' '1' else if alg = 3 then usage 'M' '3' else usage 'M' '6'
    let k ← getKeyFor (handleOf l eKEY_A) [u] (if alg = 6 then ['A'] else ['T']) (if verify then ['C', 'V'] else ['C', 'G'])
    pure (l, (macBlock alg (elemNat l eMAC_PAD) k.bits m).take n)

/-- MAC_GENERATE. -/
def macGenerate (i : Item) : Cmd Answer := do
  let (_, m) ← macOf i false
  pure (okElems [(eMAC, m)])
/-- MAC_VERIFY. -/
def macVerify (i : Item) : Cmd Answer := do
  let (l, m) ← macOf i true
  pure (if m = elemD l eMAC then stOK else stVERIFY_FAIL, [])

/-- MAC_GENERATE, the command of core `core`. -/
def execMacGenerate (core : Nat) (s : State) : Res := hostRun s core 0x0201 fun s i => runCmd s i (macGenerate i)
/-- MAC_VERIFY, the command of core `core`. -/
def execMacVerify (core : Nat) (s : State) : Res := hostRun s core 0x0202 fun s i => runCmd s i (macVerify i)

/-! ## EMV keys (R135, R136) -/

/-- A byte with odd parity. -/
def oddParity (x : Byte) : Byte :=
  let ones := (List.range 8).foldl (fun n i => if x.toNat.testBit i then n + 1 else n) 0
  if ones % 2 = 0 then x ^^^ 1 else x
/-- Odd parity on every byte. -/
def oddKey (b : Bytes) : Bytes := b.map oddParity

/-- The digits of PAN ‖ PSN. -/
def panPsn (pan : List Nat) (psn : Byte) : List Nat := pan ++ [psn.toNat / 16, psn.toNat % 16]

/-- Y of option A or B of EMV Book 2. -/
def emvY (optionB : Bool) (ds : List Nat) : Bytes :=
  if optionB then packNibbles (extractDigits 16 (nibbles (sha1 (packNibbles (padLeft (ds.length + ds.length % 2) ds)))))
  else packNibbles (padLeft 16 (rightmost 16 ds))

/-- The ICC master key; `opt` is MK_METHOD, 0 for absent. -/
def iccKey (k : KeyVal) (pan : List Nat) (psn : Byte) (opt : Nat) : Bytes :=
  let ds := panPsn pan psn
  if k.alg = chr 'A' then
    let y := packNibbles (padLeft 32 ds)
    (aesEnc k.bits y ++ aesEnc k.bits (y.map fun b => ~~~ b)).take k.bits.length
  else
    let y := emvY (decide (opt = 2) || (decide (opt = 0) && decide (16 < ds.length))) ds
    oddKey (tdesEnc k.bits y ++ tdesEnc k.bits (y.map fun b => ~~~ b))

/-- The session key for an ATC. -/
def emvSession (aes : Bool) (icc atc : Bytes) : Bytes :=
  if aes then
    (if icc.length = 16 then aesEnc icc (fitR 16 atc)
     else (aesEnc icc (fitR 16 (atc ++ [0xF0])) ++ aesEnc icc (fitR 16 (atc ++ [0x0F]))).take icc.length)
  else tdesEnc icc (fitR 8 (atc ++ [0xF0])) ++ tdesEnc icc (fitR 8 (atc ++ [0x0F]))

/-- The MAC of R137: 8 bytes under TDES, 16 under AES. -/
def emvMac (aes : Bool) (sk m : Bytes) : Bytes :=
  if aes then aesCmac sk m else mac3 sk (chunks 8 (pad9797 2 8 m))

/-- The ARPC (R138). -/
def arpcOf (aes : Bool) (sk : Bytes) (l : List Elem) : Bytes :=
  if elemNat l eARPC_METHOD = 1 then tdesEnc sk (xorB (elemD l eARQC) (fitR 8 (elemD l eARC)))
  else (emvMac aes sk (elemD l eARQC ++ elemD l eCSU ++ elemD l ePROP_DATA)).take 4

/-! ## EMV commands (R137 to R139) -/

/-- The elements that ARPC_METHOD asks for. -/
def arpcPresent (l : List Elem) : Bool :=
  if elemNat l eARPC_METHOD = 1 then hasElem l eARC
  else if elemNat l eARPC_METHOD = 2 then hasElem l eCSU
  else true

/-- The checks of the issuer's EMV commands: elements, whether AES, and the session key. -/
def emvKey (i : Item) (defs : List ElemDef) (arpc : Bool) : Cmd (List Elem × Bool × Bytes) := do
  let l ← payCheck i ([req eKEY_A, req ePAN, req ePSN, req eATC, req eARQC, opt eMK_METHOD] ++ defs ++
    (if arpc then [req eARPC_METHOD, opt eARC, opt eCSU, opt ePROP_DATA] else [])) [] (if arpc then arpcPresent else anyElems)
  handleTenants i l [eKEY_A]
  let k ← getKeyFor (handleOf l eKEY_A) [usage 'E' '0'] ['T', 'A'] ['X']
  let aes := decide (k.alg = chr 'A')
  need (decide (k.bound = 0)) stKEY_USAGE
  need (! (arpc && aes) || decide (elemNat l eARPC_METHOD ≠ 1)) stKEY_USAGE
  need (! aes || ! hasElem l eMK_METHOD) stOPERAND_RANGE
  let icc := iccKey k (digitsOf (elemD l ePAN)) ((elemD l ePSN).getD 0 0) (elemNat l eMK_METHOD)
  pure (l, aes, emvSession aes icc (elemD l eATC))

/-- ARQC_VERIFY. -/
def arqcVerify (i : Item) : Cmd Answer := do
  let (l, aes, sk) ← emvKey i [req eTXN_DATA] false
  pure (if (emvMac aes sk (elemD l eTXN_DATA)).take 8 = elemD l eARQC then stOK else stCRYPTOGRAM_FAIL, [])

/-- ARQC_VERIFY_ARPC. -/
def arqcVerifyArpc (i : Item) : Cmd Answer := do
  let (l, aes, sk) ← emvKey i [req eTXN_DATA] true
  pure (if (emvMac aes sk (elemD l eTXN_DATA)).take 8 = elemD l eARQC then okElems [(eARPC, arpcOf aes sk l)]
    else (stCRYPTOGRAM_FAIL, []))

/-- ARPC_GENERATE. -/
def arpcGenerate (i : Item) : Cmd Answer := do
  let (l, aes, sk) ← emvKey i [] true
  pure (okElems [(eARPC, arpcOf aes sk l)])

/-- ARQC_GENERATE.  DEDUCED (log 105): the bound key is the ICC master key (R135), so the PAN and PSN that the context
stores enter no step of the cryptogram, though R139 names them. -/
def arqcGenerate (i : Item) : Cmd Answer := do
  let l ← payCheck i [req eCTX, req eTXN_DATA] [] anyElems
  let id := handleOf l eCTX
  let c ← getCtx i id (fun t => decide (t = 4))
  let k ← getKeyFor c.bound [usage 'E' '0'] ['T', 'A'] ['X']
  need (decide (k.bound = id)) stKEY_USAGE
  let v ← drawCtx id
  let aes := decide (k.alg = chr 'A')
  let atc := beBytes 2 v
  let sk := emvSession aes k.bits atc
  pure (okElems [(eATC, atc), (eARQC, (emvMac aes sk (elemD l eTXN_DATA ++ atc)).take 8)])

/-- ARQC_VERIFY, the command of core `core`. -/
def execArqcVerify (core : Nat) (s : State) : Res := hostRun s core 0x0301 fun s i => runCmd s i (arqcVerify i)
/-- ARQC_VERIFY_ARPC, the command of core `core`. -/
def execArqcVerifyArpc (core : Nat) (s : State) : Res := hostRun s core 0x0302 fun s i => runCmd s i (arqcVerifyArpc i)
/-- ARPC_GENERATE, the command of core `core`. -/
def execArpcGenerate (core : Nat) (s : State) : Res := hostRun s core 0x0303 fun s i => runCmd s i (arpcGenerate i)
/-- ARQC_GENERATE, the command of core `core`. -/
def execArqcGenerate (core : Nat) (s : State) : Res := hostRun s core 0x0304 fun s i => runCmd s i (arqcGenerate i)

end Sys2Proof.Machine
end

