-- ==== Sys2Proof/Machine/PayPin.lean ====
section
/-!
DEFINITION. PIN blocks (R123 to R125), PIN translation, the decimalisation-offset method (R127, R128), the
verification-value method (R130) and card security codes (R155, R156).
-/
namespace Sys2Proof.Machine

/-! ## PIN blocks (R123, R124) -/

/-- The PAN field of formats 0 and 3. -/
def panField0 (pan : List Nat) : Bytes := packNibbles (padLeft 16 (panRight 12 pan))
/-- The PAN field of format 4. -/
def panField4 (pan : List Nat) : Bytes :=
  let l := (pan.length - 12) :: pan
  packNibbles (l ++ List.replicate (32 - l.length) 0)

/-- Bytes in a PIN block of a format. -/
def pinBlockLen (f : Nat) : Nat := if f = 4 then 16 else 8

/-- The PIN of a PIN field that passes R124. -/
def pinOfField (f : Nat) (p : List Nat) : Option (List Nat) :=
  let n := p.getD 1 0
  let pin := (p.drop 2).take n
  let fill := (p.drop (2 + n)).take (14 - n)
  let fillOk : Bool := match f with
    | 0 => fill.all fun v => decide (v = 15)
    | 3 => fill.all fun v => decide (10 ≤ v)
    | 4 => fill.all fun v => decide (v = 10)
    | _ => true
  if p.getD 0 0 = f ∧ 4 ≤ n ∧ n ≤ 12 ∧ (pin.all fun d => decide (d ≤ 9)) ∧ fillOk then some pin else none

/-- A deciphered PIN block. -/
def openPin (f : Nat) (key block : Bytes) (pan : List Nat) : Option (List Nat) :=
  match f with
  | 1 => pinOfField 1 (nibbles (tdesDec key block))
  | 4 =>
    let d := aesDecK (aesKeys key)
    pinOfField 4 (nibbles (d (xorB (d block) (panField4 pan))))
  | f => pinOfField f (nibbles (xorB (tdesDec key block) (panField0 pan)))

/-- An enciphered PIN block, with random bytes for its fill. -/
def sealPin (f : Nat) (key : Bytes) (pin pan : List Nat) (rand : Bytes) : Bytes :=
  let n := pin.length
  let rn := (nibbles rand).take (14 - n)
  match f with
  | 1 => tdesEnc key (packNibbles ([1, n] ++ pin ++ rn))
  | 3 => tdesEnc key (xorB (packNibbles ([3, n] ++ pin ++ rn.map fun v => 10 + v % 6)) (panField0 pan))
  | 4 =>
    let e := aesEncK (aesKeys key)
    e (xorB (e (packNibbles ([4, n] ++ pin ++ List.replicate (14 - n) 10) ++ rand.take 8)) (panField4 pan))
  | _ => tdesEnc key (xorB (packNibbles ([0, n] ++ pin ++ List.replicate (14 - n) 15)) (panField0 pan))

/-- The PAN's digits. -/
def panOf (l : List Elem) : List Nat := digitsOf (elemD l ePAN)

/-- A format other than 1 needs the PAN. -/
def panPresent (fs : List Nat) (l : List Elem) : Bool := hasElem l ePAN || fs.all fun f => decide (f = 1)

/-- The rules on formats at step 3: the block's length, and format 1 output from format 1 alone (R125, R126). -/
def pinFormats (fin : Nat) (fout : Option Nat) (l : List Elem) : Cmd Unit := do
  need (decide ((elemD l ePIN_BLOCK).length = pinBlockLen fin)) stLENGTH
  need (decide (fout ≠ some 1 ∨ fin = 1)) stOPERAND_RANGE

/-- Random fill for an output format (R125). -/
def pinFill (i : Item) (f : Nat) : Cmd Bytes := if f = 0 then pure [] else randomBytes i 8

/-- A key handle field. -/
def fixKey (t : Nat) : FixField := { elem := t, ty := .h, width := 8 }
/-- The PAN field. -/
def fixPan : FixField := { elem := ePAN, ty := .c, width := 19 }
/-- A digit field. -/
def fixN (t w : Nat) : FixField := { elem := t, ty := .n, width := w }
/-- The PIN block field. -/
def fixPinBlock : FixField := { elem := ePIN_BLOCK, ty := .h, width := 32 }

/-- A response in the form of the request: elements, or one field of characters (R157). -/
def answerForm (i : Item) (l : List Elem) (field : Bytes) : Cmd Answer := do
  let s ← get
  pure (if i.fixed then (stOK, untranslate (pageFor s i) field) else okElems l)

/-- PIN_TRANSLATE (R125, R126). -/
def pinTranslate (i : Item) : Cmd Answer := do
  let l ← payCheck i [req eKEY_A, req eKEY_B, req eFMT_IN, req eFMT_OUT, req ePIN_BLOCK, opt ePAN]
    [fixKey eKEY_A, fixKey eKEY_B, fixN eFMT_IN 2, fixN eFMT_OUT 2, fixPan, fixPinBlock]
    (fun l => panPresent [elemNat l eFMT_IN, elemNat l eFMT_OUT] l)
  let fin := elemNat l eFMT_IN
  let fout := elemNat l eFMT_OUT
  pinFormats fin (some fout) l
  handleTenants i l [eKEY_A, eKEY_B]
  let a ← getKeyFor (handleOf l eKEY_A) [usage 'P' '0'] (fmtAlg fin) ['B', 'D']
  let b ← getKeyFor (handleOf l eKEY_B) [usage 'P' '0'] (fmtAlg fout) ['B', 'E']
  let s ← get
  need (decide (fin ≠ 4 ∨ fout = 4) || (s.tenant i.tenant).pinDowngrade) stKEY_USAGE
  let r ← pinFill i fout
  match openPin fin a.bits (elemD l ePIN_BLOCK) (panOf l) with
  | none => throw stFORMAT
  | some pin =>
    let out := sealPin fout b.bits pin (panOf l) r
    answerForm i [(ePIN_BLOCK, out)] (fitR 32 (hexBytes out ++ List.replicate 16 0x30))

/-- PIN_TRANSLATE, the command of core `core`. -/
def execPinTranslate (core : Nat) (s : State) : Res := hostRun s core 0x0101 fun s i => runCmd s i (pinTranslate i)

/-! ## Decimalisation offset (R127, R128) -/

/-- DECTAB holds each digit once or twice. -/
def dectabOk (t : List Nat) : Bool :=
  (List.range 10).all fun d => decide (1 ≤ (t.filter fun x => x = d).length ∧ (t.filter fun x => x = d).length ≤ 2)

/-- The natural PIN. -/
def naturalPin (key valData : Bytes) (dectab : List Nat) (k : Nat) : List Nat :=
  ((nibbles (tdesEnc key (unhex valData))).map fun v => dectab.getD v 0).take k

/-- Steps 2 to 6 of the offset commands and the customer PIN: elements, customer PIN and natural PIN. -/
def offsetPins (i : Item) (verify : Bool) : Cmd (List Elem × Option (List Nat) × List Nat) := do
  let l ← payCheck i
    ([req eKEY_A, req eKEY_B, req eFMT_IN, req ePIN_BLOCK, opt ePAN, req eDECTAB, req eVAL_DATA, req eCHECK_LEN] ++
      (if verify then [req eOFFSET] else []))
    (if verify then
      [fixKey eKEY_A, fixKey eKEY_B, fixN eFMT_IN 2, fixPan, fixPinBlock, fixN eDECTAB 16,
        { elem := eVAL_DATA, ty := .h, width := 16 }, fixN eCHECK_LEN 2, { elem := eOFFSET, ty := .c, width := 12 }]
     else [])
    (fun l => panPresent [elemNat l eFMT_IN] l)
  let fin := elemNat l eFMT_IN
  pinFormats fin none l
  need (! verify || decide ((elemD l eOFFSET).length = elemNat l eCHECK_LEN)) stLENGTH
  need (dectabOk (digitsOf (elemD l eDECTAB))) stOPERAND_RANGE
  handleTenants i l [eKEY_A, eKEY_B]
  let a ← getKeyFor (handleOf l eKEY_A) [usage 'P' '0'] (fmtAlg fin) ['B', 'D']
  let b ← getKeyFor (handleOf l eKEY_B) [usage 'V' '1'] ['T'] (if verify then ['C', 'V'] else ['C', 'G'])
  pure (l, openPin fin a.bits (elemD l ePIN_BLOCK) (panOf l),
    naturalPin b.bits (elemD l eVAL_DATA) (digitsOf (elemD l eDECTAB)) (elemNat l eCHECK_LEN))

/-- PIN_VERIFY_OFFSET. -/
def pinVerifyOffset (i : Item) : Cmd Answer := do
  let (l, pin, nat) ← offsetPins i true
  match pin with
  | none => throw stFORMAT
  | some p =>
    let k := elemNat l eCHECK_LEN
    let want := List.zipWith (fun a b => (a + b) % 10) nat (digitsOf (elemD l eOFFSET))
    pure (if k ≤ p.length ∧ p.take k = want then stOK else stPIN_FAIL, [])

/-- PIN_GEN_OFFSET.  A customer PIN shorter than CHECK_LEN leaves the last digits free (log 20). -/
def pinGenOffset (i : Item) : Cmd Answer := do
  let (l, pin, nat) ← offsetPins i false
  match pin with
  | none => throw stFORMAT
  | some p =>
    let k := elemNat l eCHECK_LEN
    let n ← act fun s => (s.fresh, s.takeFresh)
    let open_ := (List.range (k - p.length)).map fun j => (Config.offsetDigits n).toNat / 10 ^ j % 10
    pure (okElems [(eOFFSET, digitBytes (List.zipWith (fun c n => (c + 10 - n) % 10) (p.take k) nat ++ open_))])

/-- PIN_VERIFY_OFFSET, the command of core `core`. -/
def execPinVerifyOffset (core : Nat) (s : State) : Res := hostRun s core 0x0102 fun s i => runCmd s i (pinVerifyOffset i)
/-- PIN_GEN_OFFSET, the command of core `core`. -/
def execPinGenOffset (core : Nat) (s : State) : Res := hostRun s core 0x0104 fun s i => runCmd s i (pinGenOffset i)

/-! ## Verification value (R130) -/

/-- The verification value of `k` digits. -/
def verificationValue (key : KeyVal) (pvki : Nat) (pin pan : List Nat) (k : Nat) : List Nat :=
  let inp := packNibbles (pvki :: (pin.take 4 ++ panRight 11 pan))
  if key.alg = chr 'A' then extractDigits k (nibbles (aesEnc key.bits (inp ++ inp.map fun b => ~~~ b)))
  else extractDigits k (nibbles (tdesEnc key.bits inp))

/-- The checks of the verification-value commands: elements, customer PIN and key. -/
def pvvPin (i : Item) (verify : Bool) : Cmd (List Elem × Option (List Nat) × KeyVal) := do
  let l ← payCheck i
    ([req eKEY_A, req eKEY_B, req eFMT_IN, req ePIN_BLOCK, req ePAN, req ePVKI] ++ (if verify then [req eVV] else [opt eCHECK_LEN]))
    (if verify then
      [fixKey eKEY_A, fixKey eKEY_B, fixN eFMT_IN 2, fixPan, fixPinBlock, fixN ePVKI 1, { elem := eVV, ty := .c, width := 6 }]
     else [])
    anyElems
  let fin := elemNat l eFMT_IN
  pinFormats fin none l
  need (! hasElem l eCHECK_LEN || decide (elemNat l eCHECK_LEN ≤ 6)) stOPERAND_RANGE
  handleTenants i l [eKEY_A, eKEY_B]
  let a ← getKeyFor (handleOf l eKEY_A) [usage 'P' '0'] (fmtAlg fin) ['B', 'D']
  let b ← getKeyFor (handleOf l eKEY_B) [usage 'V' '0'] ['T', 'A'] (if verify then ['C', 'V'] else ['C', 'G'])
  pure (l, openPin fin a.bits (elemD l ePIN_BLOCK) (panOf l), b)

/-- PIN_VERIFY_PVV. -/
def pinVerifyPvv (i : Item) : Cmd Answer := do
  let (l, pin, b) ← pvvPin i true
  match pin with
  | none => throw stFORMAT
  | some p =>
    let vv := digitsOf (elemD l eVV)
    let want := verificationValue b (beNat (elemD l ePVKI) - 0x30) p (panOf l) vv.length
    pure (if want = vv then stOK else stPIN_FAIL, [])

/-- PIN_GEN_PVV. -/
def pinGenPvv (i : Item) : Cmd Answer := do
  let (l, pin, b) ← pvvPin i false
  match pin with
  | none => throw stFORMAT
  | some p =>
    let k := if hasElem l eCHECK_LEN then elemNat l eCHECK_LEN else 4
    pure (okElems [(eVV, digitBytes (verificationValue b (beNat (elemD l ePVKI) - 0x30) p (panOf l) k))])

/-- PIN_VERIFY_PVV, the command of core `core`. -/
def execPinVerifyPvv (core : Nat) (s : State) : Res := hostRun s core 0x0103 fun s i => runCmd s i (pinVerifyPvv i)
/-- PIN_GEN_PVV, the command of core `core`. -/
def execPinGenPvv (core : Nat) (s : State) : Res := hostRun s core 0x0105 fun s i => runCmd s i (pinGenPvv i)

/-! ## Card security codes (R155, R156) -/

/-- The code of `k` digits of a card. -/
def cardCode (key : KeyVal) (pan expiry svc : List Nat) (k : Nat) : List Nat :=
  let inp := packNibbles (pan ++ List.replicate (19 - pan.length) 15 ++ expiry ++ svc ++ [k] ++ List.replicate 5 15)
  if key.alg = chr 'A' then extractDigits k (nibbles (aesEnc key.bits inp))
  else extractDigits k (nibbles (mac1 (tdesEnc key.bits) 8 (chunks 8 inp)))

/-- The checks of the card code commands: elements and key. -/
def cscKey (i : Item) (verify : Bool) : Cmd (List Elem × KeyVal) := do
  let last := if verify then eCSC else eCSC_LEN
  let l ← payCheck i [req eKEY_A, req ePAN, req eEXPIRY, req eSVC, req last]
    [fixKey eKEY_A, fixPan, fixN eEXPIRY 4, fixN eSVC 3,
      if verify then { elem := eCSC, ty := .c, width := 4 } else fixN eCSC_LEN 1] anyElems
  handleTenants i l [eKEY_A]
  let k ← getKeyFor (handleOf l eKEY_A) [usage 'C' '0'] ['T', 'A'] (if verify then ['C', 'V'] else ['C', 'G'])
  pure (l, k)

/-- The code an item asks for. -/
def itemCode (l : List Elem) (key : KeyVal) (k : Nat) : List Nat :=
  cardCode key (panOf l) (digitsOf (elemD l eEXPIRY)) (digitsOf (elemD l eSVC)) k

/-- CSC_GENERATE. -/
def cscGenerate (i : Item) : Cmd Answer := do
  let (l, key) ← cscKey i false
  let c := digitBytes (itemCode l key (elemNat l eCSC_LEN))
  answerForm i [(eCSC, c)] (c ++ List.replicate (4 - c.length) 0x20)

/-- CSC_VERIFY. -/
def cscVerify (i : Item) : Cmd Answer := do
  let (l, key) ← cscKey i true
  let c := digitsOf (elemD l eCSC)
  pure (if itemCode l key c.length = c then stOK else stVERIFY_FAIL, [])

/-- CSC_GENERATE, the command of core `core`. -/
def execCscGenerate (core : Nat) (s : State) : Res := hostRun s core 0x0701 fun s i => runCmd s i (cscGenerate i)
/-- CSC_VERIFY, the command of core `core`. -/
def execCscVerify (core : Nat) (s : State) : Res := hostRun s core 0x0702 fun s i => runCmd s i (cscVerify i)

end Sys2Proof.Machine
end

