-- ==== Sys2Proof/Machine/PayDukpt.lean ====
section
/-!
DEFINITION. DUKPT under ANSI X9.24-1 and X9.24-3 (R140 to R145).  The derivations are those of the standards (log 21).
-/
namespace Sys2Proof.Machine

/-! ## Derivation -/

/-- The 21-bit or 32-bit counter of a KSN. -/
def ksnCounter (ksn : Bytes) : Nat := if ksn.length = 10 then beNat ksn % 2 ^ 21 else field ksn 8 4
/-- A KSN of a 10- or 12-byte base with a counter. -/
def ksnWith (base : Bytes) (n : Nat) : Bytes :=
  if base.length = 10 then beBytes 10 (beNat base - beNat base % 2 ^ 21 + n) else base.take 8 ++ beBytes 4 n
/-- The counter has a permitted number of set bits (R140). -/
def ksnOk (ksn : Bytes) : Bool :=
  let n := setBits (ksnCounter ksn)
  decide (1 ≤ n ∧ n ≤ (if ksn.length = 10 then 10 else 16))

/-- The constant of X9.24-1's key variants. -/
def dukptC : Bytes := [0xC0, 0xC0, 0xC0, 0xC0, 0, 0, 0, 0, 0xC0, 0xC0, 0xC0, 0xC0, 0, 0, 0, 0]

/-- The initial TDES key. -/
def tdesInitial (bdk ksn : Bytes) : Bytes :=
  let k := (ksnWith ksn 0).take 8
  tdesEnc bdk k ++ tdesEnc (xorB bdk dukptC) k

/-- One TDES derivation step with a KSN register. -/
def tdesStep (key reg : Bytes) : Bytes :=
  let half := fun (k : Bytes) => xorB (desEnc (k.take 8) (xorB reg (k.drop 8))) (k.drop 8)
  half (xorB key dukptC) ++ half key

/-- The TDES transaction key from the initial key. -/
def tdesTxn (ik ksn : Bytes) : Bytes :=
  let n := ksnCounter ksn
  let base := beNat ((ksnWith ksn 0).drop 2)
  ((List.range 21).reverse.foldl (fun (acc : Bytes × Nat) b =>
    if n.testBit b then (tdesStep acc.1 (beBytes 8 (base + acc.2 + 2 ^ b)), acc.2 + 2 ^ b) else acc) (ik, 0)).1

/-- The TDES working key of a use: 1 PIN, 2 MAC, 3 data. -/
def tdesWorking (ik ksn : Bytes) (use : Nat) : Bytes :=
  let k := tdesTxn ik ksn
  let v := fun (p : Nat) => (List.range 16).map fun j => if j % 8 = p then (0xFF : Byte) else 0
  match use with
  | 1 => xorB k (v 7)
  | 2 => xorB k (v 6)
  | _ =>
    let d := xorB k (v 5)
    tdesEnc d (d.take 8) ++ tdesEnc d (d.drop 8)

/-- Key bytes of an X9.24-3 algorithm indicator. -/
def dkLen (alg : Nat) : Nat :=
  match alg with
  | 0 => 16
  | 1 => 24
  | 2 => 16
  | 3 => 24
  | _ => 32

/-- A key derived under X9.24-3: usage and algorithm indicators, and the last eight bytes of the derivation data. -/
def aesDerive (key : Bytes) (use alg : Nat) (last : Bytes) : Bytes :=
  let n := dkLen alg
  (((List.range ((n + 15) / 16)).map fun i =>
    aesEnc key ([1, BitVec.ofNat 8 (i + 1)] ++ beBytes 2 use ++ beBytes 2 alg ++ beBytes 2 (8 * n) ++ last)).flatten).take n

/-- The indicator of an AES key by its length. -/
def aesType (key : Bytes) : Nat := if key.length = 16 then 2 else if key.length = 24 then 3 else 4

/-- The initial AES key. -/
def aesInitial (bdk ksn : Bytes) : Bytes := aesDerive bdk 0x8001 (aesType bdk) (ksn.take 8)

/-- The AES working key of a use from the initial key. -/
def aesWorking (ik ksn : Bytes) (use alg : Nat) : Bytes :=
  let n := ksnCounter ksn
  let did := slice ksn 4 4
  let k := ((List.range 32).reverse.foldl (fun (acc : Bytes × Nat) b =>
    if n.testBit b then (aesDerive acc.1 0x8000 (aesType ik) (did ++ beBytes 4 (acc.2 + 2 ^ b)), acc.2 + 2 ^ b) else acc) (ik, 0)).1
  let u := match use with
    | 1 => 0x1000
    | 2 => 0x2000
    | _ => 0x3000
  aesDerive k u alg (did ++ beBytes 4 n)

/-- The working key from an initial key, by the KSN's scheme. -/
def dukptWorking (ik ksn : Bytes) (use alg : Nat) : Bytes :=
  if ksn.length = 10 then tdesWorking ik ksn use else aesWorking ik ksn use alg
/-- The initial key from a base key. -/
def dukptInitial (bdk ksn : Bytes) : Bytes := if ksn.length = 10 then tdesInitial bdk ksn else aesInitial bdk ksn

/-- A working key enciphers by AES: the AES scheme with an AES working key type. -/
def wkAes (ksnLen alg : Nat) : Bool := decide (ksnLen = 12 ∧ 2 ≤ alg)

/-- The MAC under a working key (R142). -/
def wkMac (aes : Bool) (wk m : Bytes) : Bytes := if aes then aesCmac wk m else mac3 wk (chunks 8 (pad9797 1 8 m))
/-- CBC encipherment under a working key. -/
def wkEnc (aes : Bool) (wk iv m : Bytes) : Bytes :=
  if aes then cbcEnc (aesEncK (aesKeys wk)) 16 iv m else cbcEnc (tdesEnc wk) 8 iv m
/-- CBC decipherment under a working key. -/
def wkDec (aes : Bool) (wk iv m : Bytes) : Bytes :=
  if aes then cbcDec (aesDecK (aesKeys wk)) 16 iv m else cbcDec (tdesDec wk) 8 iv m

/-- DATA and IV suit a block cipher. -/
def blocksOk (aes : Bool) (l : List Elem) : Bool :=
  let n := if aes then 16 else 8
  decide ((elemD l eDATA).length % n = 0 ∧ (elemD l eIV).length = n)

/-! ## The receiving side (R141, R142) -/

/-- DK_ALG is there for AES DUKPT alone. -/
def dkAlgPresent (l : List Elem) : Bool := hasElem l eDK_ALG == decide ((elemD l eKSN).length = 12)

/-- The checks of the receiving commands: elements and base key. -/
def dukptBase (i : Item) (defs : List ElemDef) (rules : List Elem → Cmd Unit) (handles : List Nat) :
    Cmd (List Elem × KeyVal) := do
  let l ← payCheck i ([req eKEY_A, req eKSN, opt eDK_ALG] ++ defs) [] dkAlgPresent
  rules l
  need (ksnOk (elemD l eKSN)) stOPERAND_RANGE
  handleTenants i l handles
  let k ← getKeyFor (handleOf l eKEY_A) [usage 'B' '0'] ['T', 'A'] ['X']
  need (decide (k.alg = chr 'A' ∨ k.bits.length = 16)) stKEY_USAGE
  need (decide ((elemD l eKSN).length = (if k.alg = chr 'A' then 12 else 10))) stLENGTH
  pure (l, k)

/-- The working key of a request. -/
def requestKey (l : List Elem) (k : KeyVal) (use : Nat) : Bytes :=
  dukptWorking (dukptInitial k.bits (elemD l eKSN)) (elemD l eKSN) use (elemNat l eDK_ALG)

/-- The request's working key enciphers by AES. -/
def requestAes (l : List Elem) : Bool := wkAes (elemD l eKSN).length (elemNat l eDK_ALG)

/-- DUKPT_PIN_TRANSLATE. -/
def dukptPinTranslate (i : Item) : Cmd Answer := do
  let (l, k) ← dukptBase i [req eKEY_B, req eFMT_IN, req eFMT_OUT, req ePIN_BLOCK, req ePAN]
    (fun l => do
      let fin := elemNat l eFMT_IN
      pinFormats fin (some (elemNat l eFMT_OUT)) l
      need (if (elemD l eKSN).length = 12 then decide (fin = 4) && requestAes l else decide (fin = 0 ∨ fin = 3)) stOPERAND_RANGE)
    [eKEY_A, eKEY_B]
  let fin := elemNat l eFMT_IN
  let fout := elemNat l eFMT_OUT
  let b ← getKeyFor (handleOf l eKEY_B) [usage 'P' '0'] (fmtAlg fout) ['B', 'E']
  let s ← get
  need (decide (fin ≠ 4 ∨ fout = 4) || (s.tenant i.tenant).pinDowngrade) stKEY_USAGE
  let r ← pinFill i fout
  match openPin fin (requestKey l k 1) (elemD l ePIN_BLOCK) (panOf l) with
  | none => throw stFORMAT
  | some pin => pure (okElems [(ePIN_BLOCK, sealPin fout b.bits pin (panOf l) r)])

/-- DUKPT_MAC_VERIFY. -/
def dukptMacVerify (i : Item) : Cmd Answer := do
  let (l, k) ← dukptBase i [req eDATA, req eMAC, req eMAC_LEN]
    (fun l => do
      let n := elemNat l eMAC_LEN
      need (decide (4 ≤ n ∧ n ≤ (if requestAes l then 16 else 8))) stOPERAND_RANGE
      need (decide ((elemD l eMAC).length = n)) stOPERAND_RANGE) [eKEY_A]
  let m := (wkMac (requestAes l) (requestKey l k 2) (elemD l eDATA)).take (elemNat l eMAC_LEN)
  pure (if m = elemD l eMAC then stOK else stVERIFY_FAIL, [])

/-- DUKPT_DECRYPT. -/
def dukptDecrypt (i : Item) : Cmd Answer := do
  let (l, k) ← dukptBase i [req eDATA, req eIV] (fun l => need (blocksOk (requestAes l) l) stLENGTH) [eKEY_A]
  pure (okElems [(eDATA, wkDec (requestAes l) (requestKey l k 3) (elemD l eIV) (elemD l eDATA))])

/-- DUKPT_PIN_TRANSLATE, the command of core `core`. -/
def execDukptPinTranslate (core : Nat) (s : State) : Res := hostRun s core 0x0401 fun s i => runCmd s i (dukptPinTranslate i)
/-- DUKPT_MAC_VERIFY, the command of core `core`. -/
def execDukptMacVerify (core : Nat) (s : State) : Res := hostRun s core 0x0402 fun s i => runCmd s i (dukptMacVerify i)
/-- DUKPT_DECRYPT, the command of core `core`. -/
def execDukptDecrypt (core : Nat) (s : State) : Res := hostRun s core 0x0403 fun s i => runCmd s i (dukptDecrypt i)

/-! ## The terminal side (R143, R144) -/

/-- The KSN base that a DUKPT terminal context holds after its counter (log 22). -/
def ctxKsn (c : Ctx) : Bytes := slice c.body 9 (if ctxScheme c = 2 then 12 else 10)

/-- What each DK_USE needs, and DK_ALG by the scheme of the tenant's terminal context that CTX names (R145).  The bracketed
MAC_LEN and IV may be absent (R115). -/
def txnPresent (s : State) (t : Nat) (l : List Elem) : Bool :=
  let scheme := match ctxNamed s (handleOf l eCTX) with
    | some c => if c.typ = 5 ∧ c.tenant = t then some (decide (ctxScheme c = 2)) else none
    | none => none
  (match scheme with | some a => hasElem l eDK_ALG == a | none => true) &&
  (match elemNat l eDK_USE with
    | 1 => [ePIN_BLOCK, eKEY_A, eFMT_IN, ePAN].all fun t => hasElem l t
    | 2 | 3 => hasElem l eDATA
    | _ => true)

/-- MAC bytes of DK_USE 2: MAC_LEN, or where it is absent a free length (log 106). -/
def txnMacLen (aes : Bool) (l : List Elem) : Nat :=
  if hasElem l eMAC_LEN then elemNat l eMAC_LEN else 4 + Config.txnMacLen.toNat % (if aes then 13 else 5)
/-- The IV of DK_USE 3: IV, or where it is absent a free one (log 106). -/
def txnIv (aes : Bool) (l : List Elem) : Bytes :=
  if hasElem l eIV then elemD l eIV else (beBytes 16 Config.txnIv.toNat).take (if aes then 16 else 8)
/-- DATA is whole blocks, and IV, where it is there, one. -/
def txnBlocks (aes : Bool) (l : List Elem) : Bool :=
  let n := if aes then 16 else 8
  decide ((elemD l eDATA).length % n = 0) && (! hasElem l eIV || decide ((elemD l eIV).length = n))

/-- The operation under the fresh transaction key; none where the PIN block is refused. -/
def txnResult (c : Ctx) (l : List Elem) (ik : Bytes) (a : Option KeyVal) (rand : Bytes) (v : Nat) : Option (List Elem) :=
  let ksn := ksnWith (ctxKsn c) v
  let use := elemNat l eDK_USE
  let alg := elemNat l eDK_ALG
  let aes := wkAes ksn.length alg
  let wk := dukptWorking ik ksn use alg
  match use with
  | 1 =>
    match a with
    | none => none
    | some a => (openPin (elemNat l eFMT_IN) a.bits (elemD l ePIN_BLOCK) (panOf l)).map fun pin =>
        [(eKSN, ksn), (ePIN_BLOCK, sealPin (if aes then 4 else 0) wk pin (panOf l) rand)]
  | 2 => some [(eKSN, ksn), (eMAC, (wkMac aes wk (elemD l eDATA)).take (txnMacLen aes l))]
  | _ => some [(eKSN, ksn), (eDATA, wkEnc aes wk (txnIv aes l) (elemD l eDATA))]

/-- DUKPT_TXN_KEY.  A PIN block refused at step 9 draws nothing (R106). -/
def dukptTxnKey (i : Item) : Cmd Answer := do
  let s ← get
  let l ← payCheck i [req eCTX, req eDK_USE, opt eDK_ALG, opt ePIN_BLOCK, opt eKEY_A, opt eFMT_IN, opt ePAN, opt eDATA, opt eMAC_LEN, opt eIV]
    [] (txnPresent s i.tenant)
  let use := elemNat l eDK_USE
  let id := handleOf l eCTX
  let alg := elemNat l eDK_ALG
  let aes := hasElem l eDK_ALG && decide (2 ≤ alg)
  let n := txnMacLen aes l
  let fin := elemNat l eFMT_IN
  need (decide (use ≠ 1) || decide ((elemD l ePIN_BLOCK).length = pinBlockLen fin)) stLENGTH
  need (decide (use ≠ 3) || txnBlocks aes l) stLENGTH
  need (decide (use ≠ 1) || ! hasElem l eDK_ALG || aes) stOPERAND_RANGE
  need (decide (use ≠ 2) || decide (4 ≤ n ∧ n ≤ (if aes then 16 else 8))) stOPERAND_RANGE
  handleTenants i l [eKEY_A]
  let c ← getCtx i id (fun t => decide (t = 5))
  let a ← if use = 1 then (do
      let k ← getKeyFor (handleOf l eKEY_A) [usage 'P' '0'] (fmtAlg fin) ['B', 'D']
      pure (some k))
    else pure none
  let b ← getKeyFor c.bound [usage 'B' '1'] ['T', 'A'] ['X']
  need (decide (b.bound = id)) stKEY_USAGE
  let s ← get
  need (decide (use ≠ 1 ∨ fin ≠ 4) || aes || (s.tenant i.tenant).pinDowngrade) stKEY_USAGE
  let r ← if use = 1 ∧ aes then randomBytes i 8 else pure []
  let s ← get
  let v ← drawCtx id
  match txnResult c l b.bits a r v with
  | some out => pure (okElems out)
  | none => do
    set s
    throw stFORMAT

/-- DUKPT_TXN_KEY, the command of core `core`. -/
def execDukptTxnKey (core : Nat) (s : State) : Res := hostRun s core 0x0404 fun s i => runCmd s i (dukptTxnKey i)

end Sys2Proof.Machine
end

