-- ==== Sys2Proof/Machine/PayKeys.lean ====
section
/-!
DEFINITION. Key blocks (R146, R147) and the key management commands (R145, R148 to R150), with the creation of
counter contexts (R119, R120).  The blocks are those of ANSI X9.143 and ISO 20038 (log 24).
-/
namespace Sys2Proof.Machine

/-! ## Key attributes and strength (R114, R147) -/

/-- Usage, algorithms and modes of use of the keys that R114 names. -/
def payUses : List (Nat × List Char × List Char) :=
  [(usage 'P' '0', ['T', 'A'], ['B', 'D', 'E']), (usage 'V' '1', ['T'], ['C', 'V', 'G']),
   (usage 'V' '0', ['T', 'A'], ['C', 'V', 'G']), (usage 'M' '1', ['T'], ['C', 'V', 'G']),
   (usage 'M' '3', ['T'], ['C', 'V', 'G']), (usage 'M' '6', ['A'], ['C', 'V', 'G']),
   (usage 'E' '0', ['T', 'A'], ['X']), (usage 'B' '0', ['T', 'A'], ['X']), (usage 'B' '1', ['T', 'A'], ['X']),
   (usage 'K' '1', ['T', 'A'], ['B', 'D', 'E']), (usage 'D' '0', ['A'], ['B', 'D', 'E']),
   (usage 'C' '0', ['T', 'A'], ['C', 'V', 'G'])]

/-- Those that a key block may bring: also the ledger key of R283, the HMAC key of R235 and the public-key kinds of R266. -/
def blockUses : List (Nat × List Char × List Char) :=
  payUses ++ [(usage '5' '2', ['A'], ['C', 'G']), (usage 'M' '7', ['H'], ['C', 'V', 'G']),
    (usage 'S' '0', ['R', 'E'], ['S', 'V']), (usage '5' '1', ['R', 'E'], ['S', 'V']), (usage '5' '3', ['R', 'E'], ['S', 'V']),
    (usage '5' '4', ['R', 'E'], ['S', 'V']), (usage 'D' '1', ['R'], ['D']), (usage 'K' '3', ['E'], ['X'])]

/-- Attribute bytes name a combination of a table. -/
def attrUsed (t : List (Nat × List Char × List Char)) (a : Bytes) : Bool :=
  t.any fun e => decide (field a 0 2 = e.1) && e.2.1.any (fun c => decide (byteAt a 2 = chr c)) &&
    e.2.2.any (fun c => decide (byteAt a 3 = chr c))

/-- Modulus bytes of an RSA key of `n` bytes: a fifth part is half the modulus, and a public key ends with four bytes of
exponent (log 31). -/
def rsaBytesOf (mode n : Nat) : Nat := if mode = chr 'V' then n - 4 else 2 * (n / 5)

/-- Key lengths of an algorithm and mode of use. -/
def keyLenOk (alg mode n : Nat) : Bool :=
  if alg = chr 'T' then decide (n = 16 ∨ n = 24)
  else if alg = chr 'A' then decide (n = 16 ∨ n = 24 ∨ n = 32)
  else if alg = chr 'E' then (if mode = chr 'V' then decide (n = 33 ∨ n = 49) else decide (n = 32 ∨ n = 48 ∨ n = 66))
  else if alg = chr 'R' then decide ((mode = chr 'V' ∨ n % 5 = 0) ∧ 256 ≤ rsaBytesOf mode n ∧ rsaBytesOf mode n ≤ 1024)
  else decide (1 ≤ n ∧ n ≤ 128)

/-- Security strength in bits, as SP 800-57 rates it (PRESUMED, log 56). -/
def strength (alg mode n : Nat) : Nat :=
  if alg = chr 'T' then (if n = 16 then 80 else 112)
  else if alg = chr 'E' then (if n ≤ 33 then 128 else if n ≤ 49 then 192 else 256)
  else if alg = chr 'R' then (if rsaBytesOf mode n < 384 then 112 else if rsaBytesOf mode n < 960 then 128 else 192)
  else min 256 (8 * n)

/-- A key of an algorithm, mode of use and length is stronger than a K1 key (R147). -/
def stronger (alg mode n : Nat) (k1 : KeyVal) : Bool :=
  decide (strength k1.alg k1.mode k1.bits.length < strength alg mode n)

/-- Odd parity on each byte of a TDES key (R148). -/
def parityFor (alg : Nat) (b : Bytes) : Bytes := if alg = chr 'T' then oddKey b else b

/-! ## Key blocks (R146) -/

/-- A key block taken apart. -/
structure KeyBlock where
  ver : Nat
  /-- Everything the authenticator covers before the key. -/
  head : Bytes
  /-- Usage, algorithm, mode of use, exportability. -/
  attr : Bytes
  opts : List Bytes
  cipher : Bytes
  mac : Bytes
  deriving DecidableEq, Repr

/-- Characters 0 to 9 and A to Z. -/
def isAlnum (b : Bytes) : Bool :=
  b.all fun x => decide (0x30 ≤ x.toNat ∧ x.toNat ≤ 0x39 ∨ 0x41 ≤ x.toNat ∧ x.toNat ≤ 0x5A)
/-- The number that decimal digits give. -/
def decNat (b : Bytes) : Nat := (digitsOf b).foldl (fun a d => a * 10 + d) 0
/-- A number as `n` decimal digits. -/
def decBytes (n v : Nat) : Bytes := digitBytes ((List.range n).reverse.map fun i => v / 10 ^ i % 10)

/-- The optional blocks of a header in turn, and what follows them. -/
def takeOpts : Nat → Bytes → Option (List Bytes × Bytes)
  | 0, b => some ([], b)
  | n + 1, b =>
    let h := slice b 2 2
    let len := if h = ascii ['0', '0'] then beNat (unhex (slice b 6 4)) else beNat (unhex h)
    let low := if h = ascii ['0', '0'] then 10 else 4
    let okHead : Bool := isAlnum (b.take 2) && isHexChars h &&
      (decide (h ≠ ascii ['0', '0']) || decide (slice b 4 2 = ascii ['0', '2']) && isHexChars (slice b 6 4))
    if okHead = false ∨ len < low ∨ b.length < len ∨ ((b.take len).all fun x => decide (0x20 ≤ x.toNat ∧ x.toNat ≤ 0x7E)) = false then none
    else (takeOpts n (b.drop len)).map fun r => (b.take len :: r.1, r.2)

/-- Bytes of authenticator of a version. -/
def blockMacLen (ver : Nat) : Nat := if ver = chr 'B' then 8 else 16

/-- A block whose header and lengths stand (R146). -/
def parseBlock (b : Bytes) : Option KeyBlock :=
  let ver := byteAt b 0
  let ml := 2 * blockMacLen ver
  if b.length < 16 ∨ isDigits (slice b 1 4) = false ∨ decNat (slice b 1 4) ≠ b.length ∨ isAlnum (slice b 5 7) = false ∨
      isDigits (slice b 12 4) = false ∨ slice b 14 2 ≠ ascii ['0', '0'] ∨
      ¬ [chr 'E', chr 'N', chr 'S'].contains (byteAt b 11) then none
  else match takeOpts (decNat (slice b 12 2)) (b.drop 16) with
    | none => none
    | some (opts, rest) =>
      let body := unhex (rest.take (rest.length - ml))
      if rest.length < ml + 4 ∨ rest.length % 2 ≠ 0 ∨ isHexChars rest = false then none
      else some {
        ver := ver, head := b.take (b.length - rest.length), attr := slice b 5 4 ++ slice b 11 1
        opts := opts.filter fun o => o.take 2 ≠ ascii ['P', 'B']
        cipher := body, mac := unhex (rest.drop (rest.length - ml)) }

/-- A key derived from a K1 key for a use: 0 encipherment, 1 authentication, 2 counter-mode encipherment. -/
def blockKey (k1 : Bytes) (tdes : Bool) (use : Nat) : Bytes :=
  let n := k1.length
  let alg := if tdes then (if n = 16 then 0 else 1) else if n = 16 then 2 else if n = 24 then 3 else 4
  let w := if tdes then 8 else 16
  (((List.range ((n + w - 1) / w)).map fun i =>
    let m := [BitVec.ofNat 8 (i + 1)] ++ beBytes 2 use ++ [0] ++ beBytes 2 alg ++ beBytes 2 (8 * n)
    if tdes then cmac (tdesEnc k1) 8 m else aesCmac k1 m).flatten).take n

/-- The authenticator of a block under a K1 key. -/
def blockMac (k1 : Bytes) (tdes : Bool) (m : Bytes) : Bytes :=
  if tdes then cmac (tdesEnc (blockKey k1 true 1)) 8 m else aesCmac (blockKey k1 false 1) m

/-- The key field of a block deciphered. -/
def blockPlain (k1 : Bytes) (x : KeyBlock) : Bytes :=
  if x.ver = chr 'B' then cbcDec (tdesDec (blockKey k1 true 0)) 8 x.mac x.cipher
  else if x.ver = chr 'D' then cbcDec (aesDecK (aesKeys (blockKey k1 false 0))) 16 x.mac x.cipher
  else ctrMode (aesEncK (aesKeys (blockKey k1 false 2))) 16 x.mac x.cipher

/-- A key that a block brings. -/
structure BlockKey where
  attr : Bytes
  bits : Bytes
  opt : Bytes
  deriving DecidableEq, Repr

/-- The last three attribute bytes of a key that a block brings: its length, and the named curve of an EC key of that
length (log 56). -/
def blockTail (alg n : Nat) : Bytes :=
  if alg = chr 'E' then [0, 0, if n ≤ 33 then 1 else if n ≤ 49 then 2 else 3]
  else if alg = chr 'R' then [0, 0, 0]
  else [BitVec.ofNat 8 n, 0, 0]
/-- What the vault keeps in front of a key's optional blocks: the public exponent of an RSA private key (R258). -/
def keyExtra (alg mode : Nat) (bits : Bytes) : Bytes :=
  if alg = chr 'R' ∧ mode ≠ chr 'V' then beBytes 32 (rsaOf bits).e else []
/-- The optional blocks of a stored key, without what stands in front of them. -/
def keyOpts (k : KeyVal) : Bytes :=
  if (k.alg = chr 'R' ∧ k.mode ≠ chr 'V') ∨ 0x100 ≤ k.curve then k.opt.drop 32 else k.opt

/-- The versions accepted: B, D and the ISO 20038 block. -/
def blockVersion (ver : Nat) : Bool := decide (ver = chr 'B' ∨ ver = chr 'D' ∨ ver = chr 'E')

/-- A block opened under a K1 key (R146, R147). -/
def openBlock (k1 : KeyVal) (b : Bytes) : Except Nat BlockKey :=
  let ver := byteAt b 0
  if blockVersion ver = false then .error stKEY_INVALID
  else if (ver = chr 'B') ≠ (k1.alg = chr 'T') then .error stKEY_USAGE
  else match parseBlock b with
    | none => .error stKEY_INVALID
    | some x =>
      let w := if ver = chr 'B' then 8 else if ver = chr 'D' then 16 else 1
      let p := blockPlain k1.bits x
      let n := field p 0 2 / 8
      if x.cipher.length % w ≠ 0 ∨ blockMac k1.bits (decide (ver = chr 'B')) (x.head ++ p) ≠ x.mac ∨ field p 0 2 % 8 ≠ 0 ∨
          p.length < n + 2 then .error stKEY_INVALID
      else if attrUsed blockUses x.attr = false ∨ keyLenOk (byteAt x.attr 2) (byteAt x.attr 3) n = false ∨
          stronger (byteAt x.attr 2) (byteAt x.attr 3) n k1 then .error stKEY_USAGE
      else
        let bits := slice p 2 n
        .ok { attr := x.attr ++ blockTail (byteAt x.attr 2) n, bits := bits
              opt := keyExtra (byteAt x.attr 2) (byteAt x.attr 3) bits ++ x.opts.flatten }

/-- Optional blocks counted. -/
def countOpts : Nat → Bytes → Nat
  | 0, _ => 0
  | f + 1, b => if b = [] then 0 else
      match takeOpts 1 b with
      | some (_, r) => countOpts f r + 1
      | none => 0

/-- Padding that makes the optional blocks a whole number of cipher blocks. -/
def padOpts (w n : Nat) : Bytes :=
  if n % w = 0 then []
  else
    let m := (w - n % w) + (if w - n % w < 4 then w else 0)
    ascii ['P', 'B'] ++ hexBytes (beBytes 1 m) ++ List.replicate (m - 4) 0x30

/-- Random bytes that pad a key field (R147). -/
def blockFill (k1 : KeyVal) (n : Nat) : Nat :=
  let w := if k1.alg = chr 'T' then 8 else 16
  (w - (n + 2) % w) % w

/-- A key as a block under a K1 key: version B under TDES, D under AES (R147). -/
def sealBlock (k1 : KeyVal) (x : BlockKey) (rand : Bytes) : Bytes :=
  let tdes := decide (k1.alg = chr 'T')
  let w := if tdes then 8 else 16
  let p := beBytes 2 (8 * x.bits.length) ++ x.bits ++ rand
  let pad := padOpts w x.opt.length
  let opts := x.opt ++ pad
  let count := countOpts opts.length opts
  let total := 16 + opts.length + 2 * p.length + 2 * blockMacLen (if tdes then chr 'B' else chr 'D')
  let head := ascii [if tdes then 'B' else 'D'] ++ decBytes 4 total ++ x.attr.take 4 ++ ascii ['0', '0'] ++ slice x.attr 4 1 ++
    decBytes 2 count ++ ascii ['0', '0'] ++ opts
  let mac := blockMac k1.bits tdes (head ++ p)
  let c := if tdes then cbcEnc (tdesEnc (blockKey k1.bits true 0)) 8 mac p else cbcEnc (aesEncK (aesKeys (blockKey k1.bits false 0))) 16 mac p
  head ++ hexBytes c ++ hexBytes mac

/-! ## Check values (R149) -/

/-- The check value of a TDES or AES key. -/
def keyCheck (alg : Nat) (bits : Bytes) (n : Nat) : Bytes :=
  if alg = chr 'T' then (tdesEnc bits (zeros 8)).take 3 else (aesCmac bits (zeros 16)).take n

/-- The check value a creating command returns; that of a key that is neither TDES nor AES is a free value (log 23). -/
def createdKcv (alg : Nat) (bits : Bytes) : Cmd Bytes := do
  if alg ≠ chr 'T' ∧ alg ≠ chr 'A' then act fun s => (beBytes 3 (Config.hmacKcv s.fresh).toNat, s.takeFresh)
  else pure (keyCheck alg bits 5)

/-! ## Creating a key and its context (R120, R150) -/

/-- PAN and PSN come with the binding of an EMV card context. -/
def bindPresent (l : List Elem) : Bool :=
  ! hasElem l eBIND_CTX || decide (ctxTypeOf (handleOf l eBIND_CTX) ≠ 4) || (hasElem l ePAN && hasElem l ePSN)

/-- Context types a command may create and bind. -/
def bindTypes (init : Bool) (t : Nat) : Bool := if init then decide (t = 5) else decide (t = 4 ∨ t = 6 ∨ t = 7)

/-- Step 5 of a creating command: the context, then room for the key. -/
def createChecks (i : Item) (l : List Elem) (init : Bool) (len : Nat) : Cmd Unit := do
  let s ← get
  if hasElem l eBIND_CTX then refuseClaim i.tenant (ctxCreateStatus s (handleOf l eBIND_CTX) i.tenant (bindTypes init))
  refuseClaim i.tenant (placeStatus s (elemNat l eKEY_CLASS) i.tenant len)

/-- A key created in its class under the active TMK, with the context bound to it: its handle. -/
def createKey (i : Item) (l : List Elem) (x : BlockKey) (body : Bytes) : Cmd Word := do
  needTmk i
  let s ← get
  refuseClaim i.tenant (placeStatus s (elemNat l eKEY_CLASS) i.tenant x.bits.length)
  let id := if hasElem l eBIND_CTX then handleOf l eBIND_CTX else 0
  match placeKey s (elemNat l eKEY_CLASS) i.tenant x.attr x.bits x.opt id with
  | none => throw stKEY_NOT_FOUND
  | some (h, s) => do
    set (if hasElem l eBIND_CTX then ctxMake s id i.tenant body h else s)
    pure h

/-- The body of a counter context at its first value: for an EMV card also the PAN's length and digits and the PSN
(log 22). -/
def counterBody (l : List Elem) : Bytes :=
  beBytes 8 1 ++ [0] ++
    (if ctxTypeOf (handleOf l eBIND_CTX) = 4 then [BitVec.ofNat 8 (elemD l ePAN).length] ++ fitR 19 (elemD l ePAN) ++ elemD l ePSN else [])

/-- The result word of a creating command. -/
def keyResult (h : Word) (kcv : Bytes) : Bytes := beBytes 4 h.toNat ++ kcv.take 3 ++ [0]

/-- A handle as an element. -/
def handleElem (h : Word) : Bytes := elemBytes eHANDLE (beBytes 4 h.toNat)

/-- Modes of use that decipher. -/
def modesIn : List Char := ['B', 'D']
/-- Modes of use that encipher. -/
def modesOut : List Char := ['B', 'E']
/-- A K1 key. -/
def getK1 (h : Word) (modes : List Char) : Cmd KeyVal := getKeyFor h [usage 'K' '1'] ['T', 'A'] modes

/-- A status as a check of an operation's result. -/
def orStatus {α : Type} (r : Except Nat α) : Cmd α :=
  match r with
  | .ok v => pure v
  | .error st => throw st

/-- KEY_IMPORT. -/
def keyImport (i : Item) : Cmd (Bytes × Bytes) := do
  let l ← payCheck i [req eKEY_A, req eKEYBLOCK, opt eKEY_CLASS, opt eBIND_CTX, opt ePAN, opt ePSN] [] bindPresent
  handleTenants i l [eKEY_A]
  createChecks i l false 1
  needTmk i
  let k1 ← getK1 (handleOf l eKEY_A) modesIn
  let x ← orStatus (openBlock k1 (elemD l eKEYBLOCK))
  let h ← createKey i l x (counterBody l)
  let kcv ← createdKcv (byteAt x.attr 2) x.bits
  pure (keyResult h kcv, handleElem h ++ elemBytes eKCV kcv)

/-- DUKPT_INIT. -/
def dukptInit (i : Item) : Cmd (Bytes × Bytes) := do
  let l ← payCheck i [req eKEY_A, req eKEYBLOCK, req eKSN, req eBIND_CTX, opt eKEY_CLASS] [] anyElems
  let ksn := elemD l eKSN
  need (ksnOk ksn) stOPERAND_RANGE
  handleTenants i l [eKEY_A]
  createChecks i l true 1
  needTmk i
  let k1 ← getK1 (handleOf l eKEY_A) modesIn
  let x ← orStatus (openBlock k1 (elemD l eKEYBLOCK))
  let tdes := decide (byteAt x.attr 2 = chr 'T')
  need (decide (field x.attr 0 2 = usage 'B' '1') && (! tdes || decide (x.bits.length = 16))) stKEY_USAGE
  need (decide (ksn.length = (if tdes then 10 else 12))) stLENGTH
  let h ← createKey i l x (beBytes 8 (ksnCounter ksn) ++ [if tdes then 1 else 2] ++ ksn)
  let kcv ← createdKcv (byteAt x.attr 2) x.bits
  pure (keyResult h kcv, handleElem h ++ elemBytes eKCV kcv)

/-- A key goes out as a block under a K1 key: exportability and its strength (R147).  DESIGN CHOICE (log 56): a block that
KEYBLOCK cannot hold is KEY_USAGE. -/
def blockOut (i : Item) (k1 : KeyVal) (x : BlockKey) : Cmd Bytes := do
  need (decide (byteAt x.attr 4 = chr 'E') && ! stronger (byteAt x.attr 2) (byteAt x.attr 3) x.bits.length k1) stKEY_USAGE
  let n := blockFill k1 x.bits.length
  need (decide ((sealBlock k1 x (zeros n)).length ≤ 2048)) stKEY_USAGE
  let r ← if n = 0 then pure [] else randomBytes i n
  pure (sealBlock k1 x r)

/-- KEY_EXPORT. -/
def keyExport (i : Item) : Cmd Answer := do
  let l ← payCheck i [req eHANDLE, req eKEY_B] [] anyElems
  handleTenants i l [eHANDLE, eKEY_B]
  let k ← getKey (handleOf l eHANDLE)
  let k1 ← getK1 (handleOf l eKEY_B) modesOut
  let b ← blockOut i k1 { attr := k.attr, bits := k.bits, opt := keyOpts k }
  pure (okElems [(eKEYBLOCK, b)])

/-- KEY_TRANSLATE.  The fill is counted once the key's length is known; that random output is there is tested before the
block is opened (R116). -/
def keyTranslate (i : Item) : Cmd Answer := do
  let l ← payCheck i [req eKEY_A, req eKEYBLOCK, req eKEY_B] [] anyElems
  handleTenants i l [eKEY_A, eKEY_B]
  let a ← getK1 (handleOf l eKEY_A) modesIn
  let b ← getK1 (handleOf l eKEY_B) modesOut
  needRandom i
  let x ← orStatus (openBlock a (elemD l eKEYBLOCK))
  let o ← blockOut i b { x with opt := x.opt.drop (keyExtra (byteAt x.attr 2) (byteAt x.attr 3) x.bits).length }
  pure (okElems [(eKEYBLOCK, o)])

/-- KEY_SPEC names a symmetric combination of R114 with a length of its algorithm. -/
def specOk (a : Bytes) : Bool :=
  attrUsed payUses a && keyLenOk (byteAt a 2) (byteAt a 3) (byteAt a 5) && [chr 'E', chr 'N', chr 'S'].contains (byteAt a 4)
/-- The two zero bytes of KEY_SPEC. -/
def specZero (l : List Elem) : Bool := decide (slice (elemD l eKEY_SPEC) 6 2 = [0, 0])

/-- KEY_GENERATE. -/
def keyGenerate (i : Item) : Cmd (Bytes × Bytes) := do
  let l ← payCheck i [req eKEY_SPEC, opt eKEY_CLASS, opt eKEY_B, opt eBIND_CTX, opt ePAN, opt ePSN] [] bindPresent
  let a := elemD l eKEY_SPEC
  let n := byteAt a 5
  need (specZero l) stFORMAT
  need (specOk a) stOPERAND_RANGE
  handleTenants i l [eKEY_B]
  createChecks i l false n
  needTmk i
  let k1 ← if hasElem l eKEY_B then some <$> getK1 (handleOf l eKEY_B) modesOut else pure none
  let fill := match k1 with
    | some k => blockFill k n
    | none => 0
  let r ← randomBytes i (n + fill)
  let x : BlockKey := { attr := a, bits := parityFor (byteAt a 2) (r.take n), opt := [] }
  let h ← createKey i l x (counterBody l)
  let kcv := keyCheck (byteAt a 2) x.bits 5
  let tail := match k1 with
    | some k => elemBytes eKEYBLOCK (sealBlock k x (r.drop n))
    | none => []
  pure (keyResult h kcv, handleElem h ++ elemBytes eKCV kcv ++ tail)

/-- KEY_CHECK_VALUE. -/
def keyCheckValue (i : Item) : Cmd Answer := do
  let l ← payCheck i [req eHANDLE, opt eKCV_LEN] [] anyElems
  handleTenants i l [eHANDLE]
  let k ← getKey (handleOf l eHANDLE)
  need ((k.alg = chr 'T' || k.alg = chr 'A') && lengthFits k) stKEY_USAGE
  need (decide (k.alg = chr 'A') || decide (elemNat l eKCV_LEN ≠ 5)) stOPERAND_RANGE
  pure (okElems [(eKCV, keyCheck k.alg k.bits (if hasElem l eKCV_LEN then elemNat l eKCV_LEN else 5))])

/-- A handle's key may be deleted: a working key or an external block, and no session key (R185, R196). -/
def deletable (s : State) (h : Word) : Bool :=
  match handleClass h with
  | 0 => match oget s.keys (handleSlot h) with
    | some k => ! k.session
    | none => false
  | 1 => match s.record (handleSlot h) with
    | some x => decide (x.typ = 5)
    | none => false
  | _ => true

/-- Records that a delete writes. -/
def deleteWrites (s : State) (h : Word) : Nat :=
  if handleClass h ≠ 1 then 0
  else match s.record (handleSlot h) with
    | some x => recsFor x.len
    | none => 0

/-- The context a key is bound to, felled keys included. -/
def boundOf (s : State) (h : Word) : Word :=
  match handleClass h with
  | 0 => match oget s.keys (handleSlot h) with
    | some k => k.bound
    | none => 0
  | 1 => match s.record (handleSlot h) with
    | some x => x.bound
    | none => 0
  | _ => 0

/-- A key's slots, records or external entry zeroised, and its bound context wiped in the same commit, locked or not (R150, R120). -/
def deleteKey (s : State) (h : Word) : State :=
  let id := boundOf s h
  let s := if handleClass h = 2 then
      { s with hbm := memWrite s.hbm ((s.tenant (handleTenant h)).extBase * 4096 + 128 * handleSlot h) (zeros 128) }
    else removeKey s h
  match ctxNamed s id with
  | some c => if c.bound = h then ctxWipeNow s (ctxRegion id) (ctxIndex id) else s
  | none => s

/-- KEY_DELETE: a felled key may be deleted too (R195). -/
def keyDelete (i : Item) : Cmd (Bytes × Bytes) := do
  let l ← payCheck i [req eHANDLE] [] anyElems
  handleTenants i l [eHANDLE]
  let h := handleOf l eHANDLE
  let s ← get
  need (decide (deleteWrites s h ≤ allowance s)) stBUSY
  let r ← act fun s => resolveKey s h
  match r with
  | .ok _ => pure ()
  | .error st => need (decide (st = stKEY_ORPHANED)) st
  let s ← get
  need (deletable s h) stKEY_USAGE
  set (deleteKey s h)
  pure (beBytes 4 h.toNat ++ zeros 4, [])

/-- KEY_IMPORT, the command of core `core`. -/
def execKeyImport (core : Nat) (s : State) : Res := hostRun s core 0x0501 fun s i => runCommit s i (keyImport i)
/-- KEY_EXPORT, the command of core `core`. -/
def execKeyExport (core : Nat) (s : State) : Res := hostRun s core 0x0502 fun s i => runCmd s i (keyExport i)
/-- KEY_GENERATE, the command of core `core`. -/
def execKeyGenerate (core : Nat) (s : State) : Res := hostRun s core 0x0503 fun s i => runCommit s i (keyGenerate i)
/-- KEY_CHECK_VALUE, the command of core `core`. -/
def execKeyCheckValue (core : Nat) (s : State) : Res := hostRun s core 0x0504 fun s i => runCmd s i (keyCheckValue i)
/-- KEY_DELETE, the command of core `core`. -/
def execKeyDelete (core : Nat) (s : State) : Res := hostRun s core 0x0505 fun s i => runCommit s i (keyDelete i)
/-- KEY_TRANSLATE, the command of core `core`. -/
def execKeyTranslate (core : Nat) (s : State) : Res := hostRun s core 0x0506 fun s i => runCmd s i (keyTranslate i)
/-- DUKPT_INIT, the command of core `core`. -/
def execDukptInit (core : Nat) (s : State) : Res := hostRun s core 0x0405 fun s i => runCommit s i (dukptInit i)

end Sys2Proof.Machine
end

