-- ==== Sys2Proof/Machine/PkCmds.lean ====
section
/-!
DEFINITION. The public-key commands (R265 to R270), as platform programs over the functions of the engines.
-/
namespace Sys2Proof.Machine

/-! ## Elements (R265) -/

abbrev ePK_ALG : Nat := 0x1301
abbrev eHASH_ALG : Nat := 0x1302
abbrev eDIGEST : Nat := 0x1303
abbrev eSIGNATURE : Nat := 0x1304
abbrev ePOINT : Nat := 0x1305
abbrev eCURVE_ID : Nat := 0x1306
abbrev eMODULUS : Nat := 0x1307
abbrev ePUB_EXP : Nat := 0x1308
abbrev eCIPHERTEXT : Nat := 0x1309
abbrev ePLAINTEXT : Nat := 0x130A
abbrev eLABEL : Nat := 0x130B
abbrev eKDF_INFO : Nat := 0x130C
abbrev eCURVE_PARAMS : Nat := 0x130D
abbrev eRSA_BITS : Nat := 0x130E
abbrev eSALT_LEN : Nat := 0x130F

/-- The lengths the element table allows. -/
def pkLen (t n : Nat) : Bool :=
  match t with
  | 0x1301 | 0x1302 | 0x130F => decide (n = 1)
  | 0x1303 => decide (n = 32 ∨ n = 48 ∨ n = 64)
  | 0x1304 => decide (64 ≤ n ∧ n ≤ 1024)
  | 0x1305 => decide (32 ≤ n ∧ n ≤ 161)
  | 0x1306 | 0x130E => decide (n = 2)
  | 0x1307 | 0x1309 => decide (128 ≤ n ∧ n ≤ 1024)
  | 0x1308 => decide (1 ≤ n ∧ n ≤ 32)
  | 0x130B | 0x130C => decide (n ≤ 256)
  | 0x130D => decide (3 ≤ n)
  | _ => false

/-- A mandatory public-key element. -/
def pkReq (t : Nat) : ElemDef := must t (pkLen t)
/-- An optional one. -/
def pkOpt (t : Nat) : ElemDef := may t (pkLen t)

/-- Code values: FORMAT for one the table does not define. -/
def pkCodes (l : List Elem) : Cmd Unit := do
  need (! hasElem l ePK_ALG || decide (1 ≤ elemNat l ePK_ALG ∧ elemNat l ePK_ALG ≤ 5)) stFORMAT
  need (! hasElem l eHASH_ALG || decide (1 ≤ elemNat l eHASH_ALG ∧ elemNat l eHASH_ALG ≤ 3)) stFORMAT

/-- A hash by HASH_ALG. -/
def pkHash (a : Nat) : Bytes → Bytes := if a = 1 then sha256 else if a = 2 then sha384 else sha512
/-- Its length. -/
def pkHashLen (a : Nat) : Nat := if a = 1 then 32 else if a = 2 then 48 else 64

/-- The command's job goes to the engines of its region: without ODM or a running engine it waits until the command's
deadline (R239, R272), and a function that the bundle lacks is FORMAT (R252). -/
def needFn (i : Item) (f : Nat) : Cmd Unit := do
  let s ← get
  if odmGrants s i.region = false ∨ enginesRunning s i.region = [] then
    modify fun s => advanceTo s i.deadline
    throw stTIMEOUT
  else need ((oget s.ucode i.region).any fun u => u.funcs.testBit f) stFORMAT

/-- The result of an engine function; a failed result check fails the engine that ran it, the first of the region that
runs (R258, log 29). -/
def engine (i : Item) (r : EngRes) : Cmd EngOut := do
  match r with
  | .ok o => pure o
  | .error (.status st) => throw st
  | .error .mismatch =>
    modify fun s => ((enginesRunning s i.region).head?.map fun p => resultMismatch s p).getD s
    throw stABORTED_FAULT
/-- An output of one. -/
def EngOut.out (o : EngOut) (slot : Nat) : Nat := ((o.outs.find? fun x => x.1 = slot).map Prod.snd).getD 0

/-! ## RSA encodings of RFC 8017 -/

/-- DigestInfo before the digest. -/
def digestInfo (a : Nat) : Bytes :=
  [0x30, BitVec.ofNat 8 (17 + pkHashLen a), 0x30, 0x0d, 0x06, 0x09, 0x60, 0x86, 0x48, 0x01, 0x65, 0x03, 0x04, 0x02,
   BitVec.ofNat 8 a, 0x05, 0x00, 0x04, BitVec.ofNat 8 (pkHashLen a)]
/-- EMSA-PKCS1-v1_5 of `k` bytes. -/
def emPkcs1 (k a : Nat) (digest : Bytes) : Bytes :=
  let t := digestInfo a ++ digest
  [0, 1] ++ List.replicate (k - t.length - 3) 0xFF ++ [0] ++ t

/-- A string with the bits above the low `bits` of its whole cleared. -/
def clearTop (bits : Nat) (b : Bytes) : Bytes := beBytes b.length (beNat b % 2 ^ bits)
/-- EMSA-PSS of a number of bits, with a salt. -/
def emPss (bits a : Nat) (digest salt : Bytes) : Bytes :=
  let h := pkHash a
  let n := (bits + 7) / 8
  let hh := h (zeros 8 ++ digest ++ salt)
  let db := zeros (n - salt.length - pkHashLen a - 2) ++ [1] ++ salt
  clearTop (bits - 8 * (pkHashLen a + 1)) (xorB db (mgf1 h (pkHashLen a) hh db.length)) ++ hh ++ [0xBC]
/-- EMSA-PSS verification, for a salt of `sl` bytes. -/
def pssOk (bits a sl : Nat) (digest em : Bytes) : Bool :=
  let h := pkHash a
  let hl := pkHashLen a
  let n := em.length
  let db := em.take (n - hl - 1)
  let hh := slice em (n - hl - 1) hl
  let x := clearTop (bits - 8 * (hl + 1)) (xorB db (mgf1 h hl hh db.length))
  decide (hl + sl + 2 ≤ n ∧ byteAt em (n - 1) = 0xBC ∧ beNat em < 2 ^ bits) &&
    decide (x.take (x.length - sl) = zeros (x.length - sl - 1) ++ [1]) &&
    decide (h (zeros 8 ++ digest ++ x.drop (x.length - sl)) = hh)

/-- The position of the byte that ends a run of zeros, where it is 01. -/
def oaepSplit : Bytes → Option Bytes
  | [] => none
  | x :: b => if x = 0 then oaepSplit b else if x = 1 then some b else none
/-- EME-OAEP decoding. -/
def oaepDecode (a : Nat) (label em : Bytes) : Option Bytes :=
  let h := pkHash a
  let hl := pkHashLen a
  let ms := slice em 1 hl
  let md := em.drop (1 + hl)
  let seed := xorB ms (mgf1 h hl md hl)
  let db := xorB md (mgf1 h hl seed md.length)
  if em.length < 2 * hl + 2 ∨ byteAt em 0 ≠ 0 ∨ db.take hl ≠ h label then none else oaepSplit (db.drop hl)

/-! ## Keys -/

/-- The least bytes that hold a number. -/
def minBytes (n : Nat) : Bytes := beBytes ((bitLen n + 7) / 8) n

/-- A key of PK_SIGN or PK_VERIFY matches PK_ALG (R266). -/
def pkAlgFits (alg : Nat) (k : KeyVal) : Bool :=
  if alg ≤ 2 then decide (k.alg = chr 'R') else decide (k.alg = chr 'E' ∧ (alg = 4) = (k.curve = idED))

/-- Modulus and public exponent of an RSA key: of a pair the exponent stored with it, of a public key the last four bytes
(log 31). -/
def rsaPublic (k : KeyVal) : Nat × Nat :=
  let n := k.bits.length - 4
  if k.mode = chr 'V' then (beNat (k.bits.take n), beNat (k.bits.drop n)) else ((rsaOf k.bits).n, field k.opt 0 32)

/-- Bytes of a signature under a key, as far as the handle shows it at step 3 (R267). -/
def sigLen (s : State) (k : KeyVal) : Option Nat :=
  if k.alg = chr 'R' then some ((bitLen (rsaPublic k).1 + 7) / 8)
  else if k.alg ≠ chr 'E' then none
  else if k.curve = idED then some 64
  else if k.mode = chr 'V' then some (2 * (curveOfPub k.bits).size)
  else (curveFor s (handleTenant k.handle) k.curve).map fun c => 2 * scalarLen c

/-- DIGEST or DATA, with HASH_ALG, as R267 combines them. -/
def digestPresent (l : List Elem) : Bool :=
  let ed := decide (elemNat l ePK_ALG = 4)
  if ed then hasElem l eDATA && ! hasElem l eDIGEST && ! hasElem l eHASH_ALG
  else (hasElem l eDATA != hasElem l eDIGEST) && hasElem l eHASH_ALG

/-- The rules of step 3 on a digest and a salt. -/
def digestChecks (l : List Elem) : Cmd Unit := do
  let hl := pkHashLen (elemNat l eHASH_ALG)
  need (! hasElem l eDIGEST || decide ((elemD l eDIGEST).length = hl)) stLENGTH
  need (decide (elemNat l ePK_ALG ≠ 5)) stOPERAND_RANGE
  need (! hasElem l eSALT_LEN || decide (elemNat l ePK_ALG = 4 ∨ elemNat l eSALT_LEN ≤ hl)) stOPERAND_RANGE

/-- The digest a command signs or verifies. -/
def pkDigest (l : List Elem) : Bytes :=
  if hasElem l eDIGEST then elemD l eDIGEST else pkHash (elemNat l eHASH_ALG) (elemD l eDATA)
/-- Salt bytes of PSS. -/
def saltLen (l : List Elem) : Nat := if hasElem l eSALT_LEN then elemNat l eSALT_LEN else pkHashLen (elemNat l eHASH_ALG)

/-- The encoded message that an RSA signature is made of. -/
def rsaEncoded (l : List Elem) (bits : Nat) (salt : Bytes) : Bytes :=
  if elemNat l ePK_ALG = 1 then emPkcs1 ((bits + 7) / 8) (elemNat l eHASH_ALG) (pkDigest l)
  else emPss (bits - 1) (elemNat l eHASH_ALG) (pkDigest l) salt

/-- The curve of an EC key of the item's tenant. -/
def curveOfKey (i : Item) (id : Nat) : Cmd Curve := do
  let s ← get
  match curveFor s i.tenant id with
  | some c => pure c
  | none => throw stOPERAND_RANGE

/-- PK_SIGN. -/
def pkSign (i : Item) : Cmd Answer := do
  let l ← payCheck i [req eKEY_A, pkReq ePK_ALG, pkOpt eHASH_ALG, pkOpt eDIGEST, opt eDATA, pkOpt eSALT_LEN] [] digestPresent
  pkCodes l
  digestChecks l
  handleTenants i l [eKEY_A]
  let k ← getKey (handleOf l eKEY_A)
  let alg := elemNat l ePK_ALG
  need (decide (k.usage = usage 'S' '0' ∧ k.mode = chr 'S') && pkAlgFits alg k) stKEY_USAGE
  let f := if alg ≤ 2 then 0x10 else if alg = 3 then 0x20 else 0x30
  let sl := if alg = 2 then saltLen l else 0
  let rand ← randomBytes i (64 + sl)
  let g : JobGen := { func := f, seed := rand.take 64 }
  needFn i f
  if alg ≤ 2 then
    let bits := rsaBits k.bits
    need (decide (2048 ≤ bits ∧ bits ≤ 8192)) stOPERAND_RANGE
    let o ← engine i (rsaPriv g k.bits (field k.opt 0 32) true (beNat (rsaEncoded l bits (rand.drop 64))))
    pure (okElems [(eSIGNATURE, beBytes ((bits + 7) / 8) (o.out 3))])
  else if alg = 3 then
    let c ← curveOfKey i k.curve
    let o ← engine i (ecSign c g (beNat k.bits) (pkDigest l))
    pure (okElems [(eSIGNATURE, beBytes (scalarLen c) (o.out 3) ++ beBytes (scalarLen c) (o.out 4))])
  else
    let o ← engine i (edSignFn g k.bits (elemD l eDATA))
    pure (okElems [(eSIGNATURE, beBytes 32 (o.out 3) ++ beBytes 32 (o.out 4))])

/-- An RSA signature verified (R263). -/
def rsaCheck (l : List Elem) (n e : Nat) : Cmd Answer := do
  let bits := bitLen n
  let sg := beNat (elemD l eSIGNATURE)
  let a := elemNat l eHASH_ALG
  let k := (bits + 7) / 8
  need (decide (n % 2 = 1)) stMODULUS_INVALID
  if sg = 0 ∨ n ≤ sg then pure (stVERIFY_FAIL, [])
  else
    let m := powMod sg e n
    let ok := if elemNat l ePK_ALG = 1 then decide (beBytes k m = emPkcs1 k a (pkDigest l))
      else decide (m < 2 ^ (8 * ((bits + 6) / 8))) && pssOk (bits - 1) a (saltLen l) (pkDigest l) (beBytes ((bits + 6) / 8) m)
    pure (if ok then stOK else stVERIFY_FAIL, [])

/-- VERIFY_FAIL is an answer, not a refusal. -/
def verdict (r : EngRes) : Cmd Answer :=
  match r with
  | .ok _ => pure (stOK, [])
  | .error (.status st) => if st = stVERIFY_FAIL then pure (stVERIFY_FAIL, []) else throw st
  | .error .mismatch => throw stABORTED_FAULT

/-- A signature over a curve verified. -/
def ecCheck (l : List Elem) (c : Curve) (q : Nat × Nat) : Cmd Answer :=
  let n := scalarLen c
  verdict (ecVerify c q (pkDigest l) (field (elemD l eSIGNATURE) 0 n) (field (elemD l eSIGNATURE) n n))

/-- The three ways to name the public key, and the read form (R267). -/
def verifyPresent (l : List Elem) : Bool :=
  let key := hasElem l eKEY_A
  let pt := hasElem l ePOINT && hasElem l eCURVE_ID
  let md := hasElem l eMODULUS && hasElem l ePUB_EXP
  let ptN := ! hasElem l ePOINT && ! hasElem l eCURVE_ID
  let mdN := ! hasElem l eMODULUS && ! hasElem l ePUB_EXP
  if hasElem l ePK_ALG then
    digestPresent l && hasElem l eSIGNATURE &&
      ((key && ptN && mdN) || (! key && pt && mdN) || (! key && ptN && md))
  else key && decide (l.length = 1)

/-- The public half of a key, as elements (R267). -/
def publicElems (s : State) (k : KeyVal) : Option (List Elem) :=
  if k.alg = chr 'R' then
    some [(eMODULUS, minBytes (rsaPublic k).1), (ePUB_EXP, minBytes (rsaPublic k).2)]
  else if k.curve = idED then some [(ePOINT, edPublic k.bits), (eCURVE_ID, beBytes 2 idED)]
  else (keyPoint s k).map fun x => [(ePOINT, sec1Bytes x.2.1 x.2.2), (eCURVE_ID, beBytes 2 x.1)]

/-- PK_VERIFY. -/
def pkVerify (i : Item) : Cmd Answer := do
  let l ← payCheck i [opt eKEY_A, pkOpt ePK_ALG, pkOpt eHASH_ALG, pkOpt eDIGEST, opt eDATA, pkOpt eSIGNATURE, pkOpt eSALT_LEN,
    pkOpt ePOINT, pkOpt eCURVE_ID, pkOpt eMODULUS, pkOpt ePUB_EXP] [] verifyPresent
  pkCodes l
  let alg := elemNat l ePK_ALG
  let s ← get
  let id := elemNat l eCURVE_ID
  if hasElem l ePK_ALG = false then
    handleTenants i l [eKEY_A]
    let k ← getKey (handleOf l eKEY_A)
    need (verifies k 'E' || verifies k 'R') stKEY_USAGE
    match publicElems s k with
    | some es => pure (okElems es)
    | none => throw stPOINT_INVALID
  else
    digestChecks l
    let sn := (elemD l eSIGNATURE).length
    if hasElem l eKEY_A then
      need ((peekKey s (handleOf l eKEY_A)).all fun k => (sigLen s k).all fun n => decide (n = sn)) stLENGTH
      handleTenants i l [eKEY_A]
      let k ← getKey (handleOf l eKEY_A)
      need ((verifies k 'E' || verifies k 'R') && pkAlgFits alg k) stKEY_USAGE
      needFn i (if alg ≤ 2 then 0x11 else if alg = 3 then 0x21 else 0x31)
      if alg ≤ 2 then rsaCheck l (rsaPublic k).1 (rsaPublic k).2
      else if alg = 4 then verdict (edVerifyFn (edPublic k.bits) (elemD l eDATA) (elemD l eSIGNATURE))
      else match keyPoint s k with
        | some (_, c, q) => ecCheck l c q
        | none => throw stPOINT_INVALID
    else if hasElem l eMODULUS then
      let n := beNat (elemD l eMODULUS)
      let e := beNat (elemD l ePUB_EXP)
      need (decide (sn = (bitLen n + 7) / 8)) stLENGTH
      need (decide (1024 ≤ bitLen n ∧ 3 ≤ e ∧ e % 2 = 1)) stOPERAND_RANGE
      need (decide (alg ≤ 2)) stKEY_USAGE
      needFn i 0x11
      rsaCheck l n e
    else
      need (curveNamed s i.tenant id) stOPERAND_RANGE
      if id = idED then
        need (decide ((elemD l ePOINT).length = 32 ∧ sn = 64)) stLENGTH
        need (decide (alg = 4)) stKEY_USAGE
        needFn i 0x31
        verdict (edVerifyFn (elemD l ePOINT) (elemD l eDATA) (elemD l eSIGNATURE))
      else
        let c ← curveOfKey i id
        refuseIf (pointForm c.size (elemD l ePOINT))
        need (decide (sn = 2 * scalarLen c)) stLENGTH
        need (decide (alg = 3)) stKEY_USAGE
        needFn i 0x21
        match sec1Point c (elemD l ePOINT) with
        | some q => ecCheck l c q
        | none => throw stPOINT_INVALID

/-- The one-step KDF of SP 800-56C with SHA-384: `n` bytes. -/
def kdf56c (z info : Bytes) (n : Nat) : Bytes :=
  (((List.range ((n + 47) / 48)).map fun k => sha384 (beBytes 4 (k + 1) ++ z ++ info)).flatten).take n

/-- PK_ECDH. -/
def pkEcdh (i : Item) : Cmd Answer := do
  let l ← payCheck i [req eKEY_A, pkReq ePOINT, req eKEY_B, req eKEY_SPEC, pkOpt eKDF_INFO] [] anyElems
  let a := elemD l eKEY_SPEC
  let n := byteAt a 5
  let s ← get
  refuseIf (((peekKey s (handleOf l eKEY_A)).bind fun k => curveFor s i.tenant k.curve).bind fun c => pointForm c.size (elemD l ePOINT))
  need (specZero l) stFORMAT
  need (specOk a) stOPERAND_RANGE
  handleTenants i l [eKEY_A, eKEY_B]
  let k ← getKey (handleOf l eKEY_A)
  need (keyIs k (usage 'K' '3') 'E' 'X' && (curveFor s i.tenant k.curve).isSome) stKEY_USAGE
  let k1 ← getK1 (handleOf l eKEY_B) modesOut
  need (! stronger (byteAt a 2) (byteAt a 3) n k1) stKEY_USAGE
  let rand ← randomBytes i (64 + blockFill k1 n)
  needFn i 0x22
  let c ← curveOfKey i k.curve
  match sec1Point c (elemD l ePOINT) with
  | none => throw stPOINT_INVALID
  | some q => do
    let o ← engine i (ecDh c { func := 0x22, seed := rand.take 64 } (beNat k.bits) q)
    let bits := parityFor (byteAt a 2) (kdf56c (beBytes c.size (o.out 3)) (elemD l eKDF_INFO) n)
    pure (okElems [(eKEYBLOCK, sealBlock k1 { attr := a, bits := bits, opt := [] } (rand.drop 64)),
      (eKCV, keyCheck (byteAt a 2) bits 5)])

/-- PK_RSA_DECRYPT; an empty message has no PLAINTEXT element and counts as a failure (log 33). -/
def pkRsaDecrypt (i : Item) : Cmd Answer := do
  let l ← payCheck i [req eKEY_A, pkReq ePK_ALG, pkReq eHASH_ALG, pkReq eCIPHERTEXT, pkOpt eLABEL] [] anyElems
  pkCodes l
  let s ← get
  need (decide (elemNat l ePK_ALG = 5 ∧ elemNat l eHASH_ALG ≤ 2)) stOPERAND_RANGE
  need ((peekKey s (handleOf l eKEY_A)).all fun k =>
    decide (k.alg ≠ chr 'R' ∨ (elemD l eCIPHERTEXT).length = (rsaBits k.bits + 7) / 8)) stLENGTH
  handleTenants i l [eKEY_A]
  let k ← getKey (handleOf l eKEY_A)
  need (keyIs k (usage 'D' '1') 'R' 'D') stKEY_USAGE
  let seed ← randomBytes i 64
  needFn i 0x10
  let bits := rsaBits k.bits
  need (decide (2048 ≤ bits ∧ bits ≤ 8192)) stOPERAND_RANGE
  let o ← engine i (rsaPriv { func := 0x10, seed := seed } k.bits (field k.opt 0 32) false (beNat (elemD l eCIPHERTEXT)))
  match oaepDecode (elemNat l eHASH_ALG) (elemD l eLABEL) (beBytes ((bits + 7) / 8) (o.out 3)) with
  | some m => do
    need (decide (m ≠ [])) stFORMAT
    pure (okElems [(ePLAINTEXT, m)])
  | none => throw stFORMAT

/-- CURVE_ID or RSA_BITS, PUB_EXP with the latter (R267). -/
def keygenPresent (l : List Elem) : Bool :=
  (hasElem l eCURVE_ID != hasElem l eRSA_BITS) && (! hasElem l ePUB_EXP || hasElem l eRSA_BITS)

/-- The length of the private key that PK_KEYGEN makes. -/
def keygenLen (s : State) (t : Nat) (l : List Elem) : Nat :=
  if hasElem l eRSA_BITS then 5 * (elemNat l eRSA_BITS / 16)
  else ((curveFor s t (elemNat l eCURVE_ID)).map scalarLen).getD 32

/-- PK_KEYGEN. -/
def pkKeygen (i : Item) : Cmd (Bytes × Bytes) := do
  let l ← payCheck i [req eKEY_SPEC, pkOpt eCURVE_ID, pkOpt eRSA_BITS, pkOpt ePUB_EXP, opt eKEY_CLASS] [] keygenPresent
  let a := elemD l eKEY_SPEC
  let rsa := hasElem l eRSA_BITS
  let id := elemNat l eCURVE_ID
  let bits := elemNat l eRSA_BITS
  let e := if hasElem l ePUB_EXP then elemNat l ePUB_EXP else 65537
  let s ← get
  need (decide (slice a 5 3 = [0, 0, 0])) stFORMAT
  need (if rsa then decide (bits ∈ [2048, 3072, 4096, 6144, 8192] ∧ e % 2 = 1 ∧ 65536 < e ∧ e < 2 ^ 256) else curveNamed s i.tenant id) stOPERAND_RANGE
  refuseClaim i.tenant (placeStatus s (elemNat l eKEY_CLASS) i.tenant (keygenLen s i.tenant l))
  let f := if rsa then 0x12 else if id = idED then 0x32 else 0x23
  needTmk i
  need (genSpecOk f a) stKEY_USAGE
  let seed ← randomBytes i 64
  needFn i f
  let g : JobGen := { func := f, seed := seed }
  let c := (curveFor s i.tenant id).getD curveP256
  let o ← engine i (if rsa then rsaKeygen g bits e else if id = idED then edKeygen g else ecKeygen c g (curveHash s i.tenant id))
  let x := o.key.getD ([], [])
  let h ← actE fun s =>
    match placeGenerated s (elemNat l eKEY_CLASS) i.tenant a id x.1 x.2 with
    | .ok (h, s) => (.ok h, s)
    | .error st => (.error st, quotaCounted s i.tenant st)
  let pub := if rsa then beBytes (bits / 8) (o.out 2) else if id = idED then beBytes 32 (o.out 3) else sec1Bytes c (o.out 3, o.out 4)
  let es := if rsa then [(eMODULUS, pub), (ePUB_EXP, minBytes e)] else [(ePOINT, pub), (eCURVE_ID, beBytes 2 id)]
  pure (beBytes 4 h.toNat ++ (sha256 pub).take 4, handleElem h ++ (es.map fun e => elemBytes e.1 e.2).flatten)

/-- A curve table entry from CURVE_PARAMS. -/
def paramsEntry (b : Bytes) : CurveEntry :=
  let lf := field b 0 2
  let f := fun (k : Nat) => field b (2 + k * lf) lf
  { lf := lf, hash := sha256 b, p := f 0, a := f 1, b := f 2, gx := f 3, gy := f 4, n := f 5, h := byteAt b (2 + 6 * lf) }

/-- The first stage of R261. -/
def paramsOk (e : CurveEntry) : Bool :=
  decide (20 ≤ e.lf ∧ e.lf ≤ 80 ∧ 256 ^ (e.lf - 1) ≤ e.p ∧ e.a < e.p ∧ e.b < e.p ∧ e.gx < e.p ∧ e.gy < e.p ∧ 1 ≤ e.h ∧ e.h ≤ 8)

/-- PK_CURVE_LOAD. -/
def pkCurveLoad (i : Item) : Cmd (Bytes × Bytes) := do
  let l ← payCheck i [pkReq eCURVE_ID, pkReq eCURVE_PARAMS] [] anyElems
  let id := elemNat l eCURVE_ID
  let b := elemD l eCURVE_PARAMS
  let e := paramsEntry b
  let key := 16 * i.tenant + (id - 0x100)
  need (decide (b.length = 3 + 6 * e.lf)) stLENGTH
  need (decide (0x100 ≤ id ∧ id ≤ 0x10F) && paramsOk e) stOPERAND_RANGE
  let s ← get
  let answer := (beBytes 2 id ++ zeros 6, elemBytes eCURVE_ID (beBytes 2 id))
  match oget s.curves key with
  | some x => do
    need (decide (x.hash = e.hash)) stOPERAND_RANGE
    pure answer
  | none => do
    let seed ← randomBytes i 64
    needFn i 0x25
    let _ ← engine i (curveCheck (curveOfEntry e) { func := 0x25, seed := seed })
    modify fun s => putCurve s key (some e)
    pure answer

/-- PK_SIGN, the command of core `core`. -/
def execPkSign (core : Nat) (s : State) : Res := hostRun s core 0x0801 fun s i => runCmd s i (pkSign i)
/-- PK_VERIFY, the command of core `core`. -/
def execPkVerify (core : Nat) (s : State) : Res := hostRun s core 0x0802 fun s i => runCmd s i (pkVerify i)
/-- PK_ECDH, the command of core `core`. -/
def execPkEcdh (core : Nat) (s : State) : Res := hostRun s core 0x0803 fun s i => runCmd s i (pkEcdh i)
/-- PK_KEYGEN, the command of core `core`. -/
def execPkKeygen (core : Nat) (s : State) : Res := hostRun s core 0x0804 fun s i => runCommit s i (pkKeygen i)
/-- PK_RSA_DECRYPT, the command of core `core`. -/
def execPkRsaDecrypt (core : Nat) (s : State) : Res := hostRun s core 0x0805 fun s i => runCmd s i (pkRsaDecrypt i)
/-- PK_CURVE_LOAD, the command of core `core`. -/
def execPkCurveLoad (core : Nat) (s : State) : Res := hostRun s core 0x0806 fun s i => runCommit s i (pkCurveLoad i)

end Sys2Proof.Machine
end

