-- ==== Sys2Proof/Machine/Ledger.lean ====
section
/-!
DEFINITION. The ledger commands (R276 to R287): decimal elements, the ledger MAC and accounts.
-/
namespace Sys2Proof.Machine

abbrev eLOP : Nat := 0x1401
abbrev eDEC_A : Nat := 0x1402
abbrev eDEC_B : Nat := 0x1403
abbrev eLSCALE : Nat := 0x1404
abbrev eRES_LEN : Nat := 0x1405
abbrev eDAYS : Nat := 0x1406
abbrev eBASIS : Nat := 0x1407
abbrev eDEC_R : Nat := 0x1408
abbrev eCMP_R : Nat := 0x1409
abbrev eLMAC : Nat := 0x140A
abbrev eFLOOR : Nat := 0x140B
abbrev ePOST_SEQ : Nat := 0x140C

/-- The lengths the element table allows (R284). -/
def ldgLen (t n : Nat) : Bool :=
  match t with
  | 0x1401 | 0x1405 | 0x1407 => decide (n = 1)
  | 0x1402 | 0x1403 | 0x140B => decide (1 ≤ n ∧ n ≤ 32)
  | 0x1404 => decide (n = 4)
  | 0x1406 => decide (n = 2)
  | _ => false
/-- A mandatory ledger element. -/
def ldgReq (t : Nat) : ElemDef := must t (ldgLen t)
/-- An optional one. -/
def ldgOpt (t : Nat) : ElemDef := may t (ldgLen t)

/-- What R278, R279, R282 and R284 say against an element's value. -/
def ldgValue (e : Elem) : Option Nat :=
  match e.1 with
  | 0x1402 | 0x1403 | 0x140B => if decValid e.2 then none else some stFORMAT
  | 0x1404 => if byteAt e.2 0 ≤ 62 ∧ byteAt e.2 1 ≤ 62 ∧ byteAt e.2 2 ≤ 62 ∧ byteAt e.2 3 ≤ 2 then none else some stOPERAND_RANGE
  | 0x1405 => if 1 ≤ beNat e.2 ∧ beNat e.2 ≤ 32 then none else some stOPERAND_RANGE
  | 0x1406 => if beNat e.2 ≤ 36600 then none else some stOPERAND_RANGE
  | 0x1407 => if 1 ≤ beNat e.2 ∧ beNat e.2 ≤ 3 then none else some stFORMAT
  | _ => none

/-- The first value refused, in payload order. -/
def ldgValues (l : List Elem) : Cmd Unit := refuseIf (l.findSome? ldgValue)

/-- SA, SB, SR and ROUND. -/
def lscale (l : List Elem) (k : Nat) : Nat := byteAt (elemD l eLSCALE) k
/-- RES_LEN, 32 by default. -/
def resLen (l : List Elem) : Nat := if hasElem l eRES_LEN then elemNat l eRES_LEN else 32
/-- The control block of a request. -/
def ctlFor (l : List Elem) : LdgCtl :=
  { sa := lscale l 0, sb := lscale l 1, sr := lscale l 2, round := lscale l 3, digits := 2 * resLen l - 1
    basis := elemNat l eBASIS, days := elemNat l eDAYS }

/-- The ledger MAC over its record (R283). -/
def lmac (key : Bytes) (i : Item) (lop round sr cmp : Nat) (result : Bytes) (ctx : Word) (seq : Nat) : Bytes :=
  aesCmac key ([0x41, 0x44, 0x4C, 0x47] ++ beBytes 2 i.cmd ++ beBytes 2 i.tenant ++ beBytes 4 i.tag.toNat ++
    beBytes 1 lop ++ beBytes 1 round ++ beBytes 1 sr ++ beBytes 1 cmp ++ result ++ beBytes 4 ctx.toNat ++ beBytes 8 seq ++ zeros 4)

/-- A ledger key. -/
def getLedger (l : List Elem) : Cmd KeyVal := getKeyFor (handleOf l eKEY_A) [usage '5' '2'] ['A'] ['C', 'G']

/-! ## Accounts (R286) -/

/-- BALANCE. -/
def acctBalance (c : Ctx) : Int := decInt (slice (fitR 248 c.body) 0 32)
/-- SCALE. -/
def acctScale (c : Ctx) : Nat := byteAt c.body 32
/-- ROUND. -/
def acctRound (c : Ctx) : Nat := byteAt c.body 33
/-- FLOOR. -/
def acctFloor (c : Ctx) : Int := decInt (slice (fitR 248 c.body) 40 32)
/-- POST_SEQ. -/
def acctSeq (c : Ctx) : Nat := field (fitR 248 c.body) 72 8
/-- The body of an account. -/
def acctBody (bal : Int) (scale round : Nat) (floor : Int) (seq : Nat) : Bytes :=
  decPack 32 bal ++ beBytes 1 scale ++ beBytes 1 round ++ zeros 6 ++ decPack 32 floor ++ beBytes 8 seq

/-! ## Commands (R285) -/

/-- The engine function of an operation (R281). -/
def lopFn (lop : Nat) : Nat := 0x3F + lop

/-- What an operation takes. -/
def calcPresent (l : List Elem) : Bool :=
  let lop := elemNat l eLOP
  if lop = 7 then hasElem l eCTX && decide (l.length = 3)
  else decide (1 ≤ lop ∧ lop ≤ 6) && ! hasElem l eCTX && hasElem l eDEC_A && hasElem l eLSCALE &&
    (hasElem l eDEC_B == decide (lop ≠ 6)) && (! hasElem l eRES_LEN || decide (lop ≠ 5))

/-- LDG_CALC. -/
def ldgCalc (i : Item) : Cmd Answer := do
  let l ← payCheck i [req eKEY_A, ldgReq eLOP, ldgOpt eDEC_A, ldgOpt eDEC_B, ldgOpt eLSCALE, ldgOpt eRES_LEN, opt eCTX] [] calcPresent
  ldgValues l
  handleTenants i l [eKEY_A]
  let lop := elemNat l eLOP
  if lop = 7 then
    let id := handleOf l eCTX
    let c ← getCtx i id (fun t => decide (t = 9))
    let k ← getLedger l
    let bal := slice (fitR 248 c.body) 0 32
    pure (okElems [(eDEC_R, bal), (ePOST_SEQ, beBytes 8 (acctSeq c)),
      (eLMAC, lmac k.bits i 7 (acctRound c) (acctScale c) 0 bal id (acctSeq c))])
  else
    let k ← getLedger l
    needFn i (lopFn lop)
    let ctl := ctlFor l
    match ldgRun (lopFn lop) (decInt (elemD l eDEC_A)) (decInt (elemD l eDEC_B)) ctl with
    | none => throw stOPERAND_RANGE
    | some v =>
      if lop = 5 then
        pure (okElems [(eCMP_R, beBytes 1 v.toNat), (eLMAC, lmac k.bits i lop ctl.round ctl.sr v.toNat (zeros 32) 0 0)])
      else
        pure (okElems [(eDEC_R, decPack (resLen l) v), (eLMAC, lmac k.bits i lop ctl.round ctl.sr 0 (decPack 32 v) 0 0)])

/-- LDG_ACCRUE. -/
def ldgAccrue (i : Item) : Cmd Answer := do
  let l ← payCheck i [req eKEY_A, ldgReq eDEC_A, ldgReq eDEC_B, ldgReq eDAYS, ldgReq eBASIS, ldgReq eLSCALE, ldgOpt eRES_LEN] [] anyElems
  ldgValues l
  handleTenants i l [eKEY_A]
  let k ← getLedger l
  needFn i 0x46
  let ctl := ctlFor l
  match ldgRun 0x46 (decInt (elemD l eDEC_A)) (decInt (elemD l eDEC_B)) ctl with
  | none => throw stOPERAND_RANGE
  | some v => pure (okElems [(eDEC_R, decPack (resLen l) v), (eLMAC, lmac k.bits i 8 ctl.round ctl.sr 0 (decPack 32 v) 0 0)])

/-- CTX or BIND_CTX, FLOOR with the latter. -/
def postPresent (l : List Elem) : Bool :=
  (hasElem l eCTX != hasElem l eBIND_CTX) && (! hasElem l eFLOOR || hasElem l eBIND_CTX)

/-- The answer of a post. -/
def postAnswer (i : Item) (l : List Elem) (key : Bytes) (id : Word) (scale round : Nat) (bal : Int) (seq : Nat) : Bytes × Bytes :=
  (beBytes 8 seq, (okElems [(eDEC_R, decPack (resLen l) bal), (ePOST_SEQ, beBytes 8 seq),
    (eLMAC, lmac key i 1 round scale 0 (decPack 32 bal) id seq)]).2)

/-- An account opened, with DEC_A rescaled as its balance. -/
def ldgOpen (i : Item) (l : List Elem) : Cmd (Bytes × Bytes) := do
  let id := handleOf l eBIND_CTX
  let s ← get
  refuseIf (ctxCreateStatus s id i.tenant (fun t => decide (t = 9)))
  let k ← getLedger l
  needFn i 0x45
  let ctl := ctlFor l
  let floor := if hasElem l eFLOOR then decInt (elemD l eFLOOR) else 0
  match ldgRun 0x45 (decInt (elemD l eDEC_A)) 0 ctl with
  | none => throw stOPERAND_RANGE
  | some v => do
    need (decide (floor ≤ v)) stOPERAND_RANGE
    modify fun s => ctxMake s id i.tenant (acctBody v ctl.sr ctl.round floor 1) 0
    pure (postAnswer i l k.bits id ctl.sr ctl.round v 1)

/-- A post to an account. -/
def ldgAdd (i : Item) (l : List Elem) : Cmd (Bytes × Bytes) := do
  let id := handleOf l eCTX
  let c ← getCtx i id (fun t => decide (t = 9))
  need (decide (lscale l 2 = acctScale c ∧ lscale l 3 = acctRound c)) stOPERAND_RANGE
  let k ← getLedger l
  needFn i 0x40
  match ldgRun 0x40 (decInt (elemD l eDEC_A)) (acctBalance c) { ctlFor l with sb := acctScale c } with
  | none => throw stOPERAND_RANGE
  | some v => do
    need (decide (acctFloor c ≤ v)) stOPERAND_RANGE
    let seq := (acctSeq c + 1) % 2 ^ 64
    modify fun s => s.setCtx (ctxRegion id) (ctxIndex id)
      (ctxPatch (s.ctxAt (ctxRegion id) (ctxIndex id)) 0 (acctBody v (acctScale c) (acctRound c) (acctFloor c) seq))
    pure (postAnswer i l k.bits id (acctScale c) (acctRound c) v seq)

/-- LDG_POST. -/
def ldgPost (i : Item) : Cmd (Bytes × Bytes) := do
  let l ← payCheck i [req eKEY_A, ldgReq eDEC_A, ldgReq eLSCALE, ldgOpt eRES_LEN, opt eCTX, opt eBIND_CTX, ldgOpt eFLOOR] [] postPresent
  ldgValues l
  handleTenants i l [eKEY_A]
  if hasElem l eBIND_CTX then ldgOpen i l else ldgAdd i l

/-- A ledger command on a part that fits the service (R276). -/
def ldgRunOn (s : State) (i : Item) (f : State → Item → State) : State :=
  if s.fuse.variant.ledger then f s i else endItem s i stNOT_FITTED

/-- LDG_CALC, the command of core `core`. -/
def execLdgCalc (core : Nat) (s : State) : Res :=
  hostRun s core 0x0A01 fun s i => ldgRunOn s i fun s i => runCmd s i (ldgCalc i)
/-- LDG_ACCRUE, the command of core `core`. -/
def execLdgAccrue (core : Nat) (s : State) : Res :=
  hostRun s core 0x0A02 fun s i => ldgRunOn s i fun s i => runCmd s i (ldgAccrue i)
/-- LDG_POST, the command of core `core`. -/
def execLdgPost (core : Nat) (s : State) : Res :=
  hostRun s core 0x0A03 fun s i => ldgRunOn s i fun s i => runCommit s i (ldgPost i)

end Sys2Proof.Machine
end

