-- ==== Sys2Proof/Machine/Mgmt.lean ====
section
/-!
DEFINITION. The management port (R83 to R88): its link, its frames, the frames of the ROM service, and MDIO.
-/
namespace Sys2Proof.Machine

/-! ## Link (R83) -/

/-- MGT_LINK_UP: the PHY reports a link at `mbps` Mbit/s. -/
def execMgtLinkUp (mbps : Nat) (s : State) : Res :=
  if running s .mgt = false then .next s
  else
    let s := s.setFlag .mgt MGT_STATUS_SYNC true
    if mbps = 1000 then .next (s.setFlag .mgt MGT_STATUS_LINK_UP true)
    else .next ((s.setFlag .mgt MGT_STATUS_LINK_UP false).bump .mgt MGT_CNT_SPEED)

/-- MGT_LINK_DOWN: the PHY link is lost, or code-group synchronisation with it. -/
def execMgtLinkDown (syncLost : Bool) (s : State) : Res :=
  if portAlive s 128 = false then .next s
  else
    let was := s.flag .mgt MGT_STATUS_LINK_UP
    let s := s.setFlag .mgt MGT_STATUS_LINK_UP false
    let s := if syncLost then s.setFlag .mgt MGT_STATUS_SYNC false else s
    .next (if was then setIrq (discardTx false s 128) .mgt 16 else s)

/-! ## Frames (R84 to R86) -/

/-- The port as the ROM service reads it: EtherType 0x88B5 and the fused address (R86). -/
def romView (s : State) : State :=
  let s := (s.setFld .mgt MGT_MAC_HI (field s.fuse.mgtMac 0 2)).setFld .mgt MGT_MAC_LO (field s.fuse.mgtMac 2 4)
  (s.setReg .mgt 0x040 0x40).setFld .mgt MGT_ETYPE 0x88B5

/-- The header of a ROM service frame: PLAIN alone, tenant 0, session 0 (R86, R91). -/
def romHeaderOk (b : Bytes) (pad : Bool) (frameLen : Nat) : Bool :=
  let total := 40 + hPayLen b
  decide (40 ≤ b.length) && decide (byteAt b 0 = 1) && decide (field b 2 2 = 40) && decide (slice b 34 6 = zeros 6) &&
  decide (hTenant b = 0) && decide (hSession b = 0) && decide (hTmo b < 32) && decide (hClass b < 8) &&
  (decide (hClass b ≠ 7) || (decide (hCmd b / 256 = 0x0E) && decide (frameLen ≤ 512))) &&
  (decide (hCmd b ≠ 0x0E10) || decide (hClass b = 7)) &&
  decide (hStatus b = 0) && decide (hFlags b = flPLAIN) &&
  (decide (b.length = total) || (pad && decide (total < b.length)))

/-- A ROM service frame refused. -/
def romRefuse (s : State) : State := setIrq (s.bump .mgt MGT_CNT_BADFRM) .mgt 18

/-- A ROM service frame: held in the 64 KiB receive buffer for its command, or answered UNKNOWN_COMMAND (R84, R86). -/
def romFrame (s : State) (frame : Bytes) (fcsOk : Bool) : State :=
  match parseFrame (romView s) 128 fcsOk frame with
  | .adetra src none b pad true =>
    if romHeaderOk b pad (frame.length + 4) = false then romRefuse s
    else
      let n := frame.length + 4
      if 65536 < (s.romQ.foldl (fun m i => m + i.held) n) then s.bump .mgt MGT_CNT_DROP
      else
      let s := s.bump .mgt MGT_CNT_RXFRM
      let i := frameItem s 128 0 (hClass b) src none b .management n
      let i := { i with region := 0, verified := true, ctxId := hContext b }
      let s := { s with nextItem := s.nextItem + 1 }
      if romOnly i.cmd then { s with romQ := s.romQ ++ [i] } else respondPlain s i 0 i.seq stUNKNOWN_COMMAND []
  | _ => romRefuse s

/-- MGT_FRAME_RECEIVED: the frame without its FCS, and whether the FCS was correct.  MGT_MODE.LOOP 1, near-end loopback, is
no more than a value to the model, where R88 gives it no effect on frames (log 103). -/
def execMgtFrameReceived (frame : Bytes) (fcsOk : Bool) (s : State) : Res :=
  let s := touchIf s (running s .mgt && s.flag .mgt MGT_STATUS_LINK_UP) .mgt
  if running s .mgt = false ∨ s.flag .mgt MGT_STATUS_LINK_UP = false ∨ s.chipFault.isSome then .next s
  else if s.flag .mgt MGT_STATUS_ROM_SVC then .next (romFrame s frame fcsOk)
  else match parseFrame s 128 fcsOk frame with
    | .bad | .noMatch => .next (s.bump .mgt MGT_CNT_BADFRM)
    | .neighbour a => .next (sendLink s 128 a)
    | .adetra src vlan b pad clean =>
      if headerOk 128 vlan b pad clean (frame.length + 4) = false then .next (s.bump .mgt MGT_CNT_BADFRM)
      else match mgmtRegion s with
        | none => .next (s.bump .mgt MGT_CNT_DROP)
        | some r => .next (classifyTouched s 128 r (frameClass 128 vlan b) (frame.length + 4) src vlan b)

/-! ## MDIO (R88) -/

/-- An MDIO operation starts; a write while one is in progress starts none. -/
def mdioStart (s : State) (write : Bool) (phy regad data : Nat) : State :=
  if s.mdio.isSome then s
  else
    let s := (s.setFld .mgt MGT_MDIO_PHYAD phy).setFld .mgt MGT_MDIO_REGAD regad
    let s := (s.setFld .mgt MGT_MDIO_DATA data).setFlag .mgt MGT_MDIO_BUSY true
    { s with mdio := some { write := write, phy := phy, regad := regad, data := data } }

/-- MDIO_WRITE: MGT_MDIO written with OP 1. -/
def execMdioWrite (phy regad : BitVec 5) (data : BitVec 16) (s : State) : Res := onComplex s <|
  .next (mdioStart s true phy.toNat regad.toNat data.toNat)

/-- MDIO_READ: MGT_MDIO written with OP 2. -/
def execMdioRead (phy regad : BitVec 5) (data : BitVec 16) (s : State) : Res := onComplex s <|
  .next (mdioStart s false phy.toNat regad.toNat data.toNat)

/-- MDIO_DONE, with the data the PHY returned to a read. -/
def execMdioDone (data : BitVec 16) (s : State) : Res :=
  match s.mdio with
  | none => .next s
  | some o =>
    let s := setIrq ({ s with mdio := none }.setFlag .mgt MGT_MDIO_BUSY false) .mgt 17
    .next (if o.write then s else s.setFld .mgt MGT_MDIO_DATA data.toNat)

/-- MDIO_TIMEOUT: 1 ms without completion. -/
def execMdioTimeout (s : State) : Res :=
  match s.mdio with
  | none => .next s
  | some _ => .next (raiseErr ({ s with mdio := none }.setFlag .mgt MGT_MDIO_BUSY false) .mgt 11 0x16)

end Sys2Proof.Machine
end

