-- ==== Sys2Proof/Machine/PayToken.lean ====
section
/-!
DEFINITION. Tokenisation with FF1 (R151, R152) and data protection (R153, R154).
-/
namespace Sys2Proof.Machine

/-! ## FF1 of SP 800-38G, radix 10 (R151) -/

/-- The number a digit string denotes. -/
def numRadix (l : List Nat) : Nat := l.foldl (fun a d => a * 10 + d) 0
/-- A number as `m` digits. -/
def strRadix (m v : Nat) : List Nat := (List.range m).reverse.map fun i => v / 10 ^ i % 10

/-- The fixed block P of FF1. -/
def ff1P (n u t : Nat) : Bytes := [1, 2, 1] ++ beBytes 3 10 ++ [10, BitVec.ofNat 8 u] ++ beBytes 4 n ++ beBytes 4 t
/-- Bytes of the numeral in the round input. -/
def ff1B (v : Nat) : Nat := (Nat.log2 (10 ^ v - 1) + 1 + 7) / 8

/-- The round value y of FF1 for a round and a half. -/
def ff1Round (key tweak : Bytes) (n u v i : Nat) (half : List Nat) : Nat :=
  let b := ff1B v
  let d := 4 * ((b + 3) / 4) + 4
  let q := tweak ++ zeros ((16 - (tweak.length + b + 1) % 16) % 16) ++ [BitVec.ofNat 8 i] ++ beBytes b (numRadix half)
  let e := aesEncK (aesKeys key)
  let r := cbcMac e (zeros 16) (chunks 16 (ff1P n u tweak.length ++ q))
  beNat (((List.range ((d + 15) / 16)).map fun j => if j = 0 then r else e (xorB r (beBytes 16 j))).flatten.take d)

/-- FF1 encipherment of a digit string. -/
def ff1Enc (key tweak : Bytes) (x : List Nat) : List Nat :=
  let n := x.length
  let u := n / 2
  let v := n - u
  let r := (List.range 10).foldl (fun (ab : List Nat × List Nat) i =>
    let m := if i % 2 = 0 then u else v
    (ab.2, strRadix m ((numRadix ab.1 + ff1Round key tweak n u v i ab.2) % 10 ^ m))) (x.take u, x.drop u)
  r.1 ++ r.2

/-- FF1 decipherment. -/
def ff1Dec (key tweak : Bytes) (x : List Nat) : List Nat :=
  let n := x.length
  let u := n / 2
  let v := n - u
  let r := (List.range 10).reverse.foldl (fun (ab : List Nat × List Nat) i =>
    let m := if i % 2 = 0 then u else v
    (strRadix m ((numRadix ab.2 + 10 ^ m - ff1Round key tweak n u v i ab.1 % 10 ^ m) % 10 ^ m), ab.1)) (x.take u, x.drop u)
  r.1 ++ r.2

/-! ## Tokenisation (R151, R152) -/

/-- Digits kept clear on the left and on the right. -/
def keepOf (l : List Elem) : Nat × Nat := (byteAt (elemD l eKEEP) 0, byteAt (elemD l eKEEP) 1)
/-- The number of digits between lies in 6 to 19. -/
def keepOk (l : List Elem) (t : Nat) : Bool :=
  decide ((keepOf l).1 + (keepOf l).2 + 6 ≤ (elemD l t).length)
/-- The digits between replaced. -/
def onMiddle (l : List Elem) (t : Nat) (f : List Nat → List Nat) : Bytes :=
  let ds := digitsOf (elemD l t)
  let k := keepOf l
  let m := ds.length - k.1 - k.2
  digitBytes (ds.take k.1 ++ f ((ds.drop k.1).take m) ++ ds.drop (k.1 + m))

/-- A D0 key. -/
def getD0 (h : Word) (modes : List Char) : Cmd KeyVal := getKeyFor h [usage 'D' '0'] ['A'] modes

/-- TOKENISE and DETOKENISE, from an element to another. -/
def tokenMap (i : Item) (src dst : Nat) (modes : List Char) (f : Bytes → Bytes → List Nat → List Nat) : Cmd Answer := do
  let l ← payCheck i [req eKEY_A, req src, req eKEEP, opt eTWEAK] [] anyElems
  need (keepOk l src) stOPERAND_RANGE
  handleTenants i l [eKEY_A]
  let k ← getD0 (handleOf l eKEY_A) modes
  pure (okElems [(dst, onMiddle l src (f k.bits (elemD l eTWEAK)))])

/-- TOKENISE_COUNTED. -/
def tokeniseCounted (i : Item) : Cmd Answer := do
  let l ← payCheck i [req eKEY_A, req eCTX, req ePAN, req eKEEP, may eTWEAK fun n => decide (n ≤ 8)] [] anyElems
  need (keepOk l ePAN) stOPERAND_RANGE
  handleTenants i l [eKEY_A]
  let _ ← getCtx i (handleOf l eCTX) (fun t => decide (t = 6))
  let k ← getD0 (handleOf l eKEY_A) modesOut
  let v ← drawCtx (handleOf l eCTX)
  let tw := elemD l eTWEAK ++ beBytes 8 v
  pure (okElems [(eTOKEN, onMiddle l ePAN (ff1Enc k.bits tw)), (eCOUNTER, beBytes 8 v), (eTWEAK, tw)])

/-! ## Data protection (R153, R154) -/

/-- The nonce of a context and its counter. -/
def dataNonce (id : Word) (v : Nat) : Bytes := beBytes 4 id.toNat ++ beBytes 8 v
/-- The CBC initial value of a nonce. -/
def dataIv (key nonce : Bytes) : Bytes := aesEnc key (nonce ++ zeros 4)

/-- The cipher is GCM. -/
def isGcm (l : List Elem) : Bool := decide (elemNat l eCIPHER_MODE = 2)

/-- DATA_ENCRYPT. -/
def dataEncrypt (i : Item) : Cmd Answer := do
  let l ← payCheck i [req eKEY_A, req eCTX, req eCIPHER_MODE, req eDATA, opt eAAD] []
    (fun l => isGcm l || ! hasElem l eAAD)
  need (isGcm l || decide ((elemD l eDATA).length % 16 = 0)) stLENGTH
  handleTenants i l [eKEY_A]
  let id := handleOf l eCTX
  let c ← getCtx i id (fun t => decide (t = 7))
  let k ← getD0 (handleOf l eKEY_A) modesOut
  need (decide (c.bound = handleOf l eKEY_A)) stKEY_USAGE
  let v ← drawCtx id
  let n := dataNonce id v
  let e := aesEncK (aesKeys k.bits)
  if isGcm l then
    let r := gcmSeal e n (elemD l eAAD) (elemD l eDATA)
    pure (okElems [(eDATA, r.1), (eNONCE, n), (eTAG, r.2)])
  else pure (okElems [(eDATA, cbcEnc e 16 (dataIv k.bits n) (elemD l eDATA)), (eNONCE, n)])

/-- DATA_DECRYPT. -/
def dataDecrypt (i : Item) : Cmd Answer := do
  let l ← payCheck i [req eKEY_A, req eCIPHER_MODE, req eNONCE, req eDATA, opt eTAG, opt eAAD] []
    (fun l => hasElem l eTAG == isGcm l && (isGcm l || ! hasElem l eAAD))
  need (isGcm l || decide ((elemD l eDATA).length % 16 = 0)) stLENGTH
  handleTenants i l [eKEY_A]
  let k ← getD0 (handleOf l eKEY_A) modesIn
  let n := elemD l eNONCE
  if isGcm l then
    match gcmOpen (aesEncK (aesKeys k.bits)) n (elemD l eAAD) (elemD l eDATA) (elemD l eTAG) with
    | some m => pure (okElems [(eDATA, m)])
    | none => pure (stVERIFY_FAIL, [])
  else pure (okElems [(eDATA, cbcDec (aesDecK (aesKeys k.bits)) 16 (dataIv k.bits n) (elemD l eDATA))])

/-- TOKENISE, the command of core `core`. -/
def execTokenise (core : Nat) (s : State) : Res :=
  hostRun s core 0x0601 fun s i => runCmd s i (tokenMap i ePAN eTOKEN modesOut ff1Enc)
/-- DETOKENISE, the command of core `core`. -/
def execDetokenise (core : Nat) (s : State) : Res :=
  hostRun s core 0x0602 fun s i => runCmd s i (tokenMap i eTOKEN ePAN modesIn ff1Dec)
/-- TOKENISE_COUNTED, the command of core `core`. -/
def execTokeniseCounted (core : Nat) (s : State) : Res := hostRun s core 0x0603 fun s i => runCmd s i (tokeniseCounted i)
/-- DATA_ENCRYPT, the command of core `core`. -/
def execDataEncrypt (core : Nat) (s : State) : Res := hostRun s core 0x0604 fun s i => runCmd s i (dataEncrypt i)
/-- DATA_DECRYPT, the command of core `core`. -/
def execDataDecrypt (core : Nat) (s : State) : Res := hostRun s core 0x0605 fun s i => runCmd s i (dataDecrypt i)

end Sys2Proof.Machine
end

