-- ==== Sys2Proof/Machine/VaultUpdate.lean ====
section
/-!
DEFINITION. Authenticated update messages (R196 to R198) and the writing of level-1 and public records.
-/
namespace Sys2Proof.Machine

/-! ## Migration state (R199, R200) -/

abbrev mgIDLE : Nat := 0
abbrev mgREWRAP : Nat := 1
abbrev mgARMED : Nat := 2
abbrev mgTRIAL : Nat := 3
abbrev mgCONFIRMING : Nat := 4
abbrev mgHELD : Nat := 5

/-- The migration state changed: recorded, with IRQST.BLOCK[17] (R216, R439). -/
def setMig (s : State) (m : Nat) : State :=
  let old := s.sys.mig
  let s := { s with sys := { s.sys with mig := m, rewrapAt := s.time.ns } }
  postEvent (setIrq s .vlt 17) .vlt 0x8004 (BitVec.ofNat 32 old) (BitVec.ofNat 32 m)

/-- The valid TMK records, with their positions. -/
def validTmks (s : State) : List (Nat × Rec) := (opresent s.recs).filter fun e => decide (e.2.typ = 1) && ! e.2.felled

/-- DR of the measurement set whose wraps CUR_WRAP names: the running one, or in TRIAL the one that ran before. -/
def currentRoot (s : State) : Option Bytes :=
  if s.sys.mig = mgTRIAL then s.dr.map fun _ => deviceRoot s s.sys.cur else s.dr
/-- DR of the other set, while a migration is under way (R200). -/
def otherRoot (s : State) : Option Bytes :=
  if s.sys.mig = mgIDLE then none else s.dr.map fun _ => deviceRoot s s.sys.target

/-- TMK records that have their wrap under the target set: one each 20 µs of REWRAP (R200, R216). -/
def rewrapDone (s : State) : Nat :=
  if s.sys.mig = mgREWRAP ∧ running s .vlt then min s.sys.toRewrap (s.sys.rewrapped + (s.time.ns - s.sys.rewrapAt) / 20000)
  else s.sys.rewrapped

/-- A TMK wrapped under a root. -/
def wrapTmk (t i : Nat) (key : Bytes) (dr : Option Bytes) : Bytes :=
  match dr with
  | some d => kwWrap (aesEncK (aesKeys (tmkWrapKey d t i))) key
  | none => []

/-- The two wraps of a record with the current one and the other. -/
def setWraps (s : State) (x : Rec) (cur other : Bytes) : Rec :=
  if s.sys.curWrap = 0 then { x with wrap0 := cur, wrap1 := other } else { x with wrap0 := other, wrap1 := cur }
/-- The other wrap of every TMK record set by a function. -/
def mapOther (s : State) (f : Nat → Nat → Bytes → Bytes) : State :=
  (validTmks s).foldl (fun s e =>
    let x := e.2
    let cur := if s.sys.curWrap = 0 then x.wrap0 else x.wrap1
    let key := (tmkOf s x.tenant x.index).getD []
    writeRec s e.1 (setWraps s x cur (f x.tenant x.index key))) s

/-! ## Writing records -/

/-- The position of the record of a type, tenant and index, or a free one. -/
def recSlot (s : State) (typ t index : Nat) : Nat :=
  match findRec s typ t index with
  | some (n, _) => n
  | none => (freeRecs s 1).getD 0

/-- A record with nothing secret in it. -/
def blankRec (typ t index : Nat) (attr : Bytes) : Rec :=
  { typ := typ, felled := false, tenant := t, index := index, gen := 0, parent := 255, parentGen := 0, attr := attr, wseq := 0
    wrap0 := [], wrap1 := [], pub := [], tag := [], len := 0, opt := [], bound := 0 }

/-- A public record written. -/
def putPublic (s : State) (typ t index : Nat) (attr pub : Bytes) : State :=
  writeRec s (recSlot s typ t index) { blankRec typ t index attr with pub := pub }

/-- Attribute bytes of an update authority and of a custodian. -/
def authAttr (u : Char) : Bytes := ascii ['5', u, 'E', 'V', 'N'] ++ [0, 0, 0]

/-- A tenant's update authority written. -/
def putAuth (s : State) (t : Nat) (pub : Bytes) : State := putPublic s 2 t 0 (authAttr '3') pub
/-- A tenant's custodian list replaced. -/
def putCustodians (s : State) (t : Nat) (pubs : List Bytes) : State :=
  let s := (opresent s.recs).foldl (fun s e => if e.2.typ = 3 ∧ e.2.tenant = t then freeRec s e.1 else s) s
  (List.range pubs.length).foldl (fun s k => putPublic s 3 t k (authAttr '4') (pubs.getD k [])) s
/-- A TMK written under the wraps of the migration state, at its counter's generation. -/
def putTmk (s : State) (t i : Nat) (key attr : Bytes) : State :=
  let x := setWraps s { blankRec 1 t i attr with gen := tmkGen s t i } (wrapTmk t i key (currentRoot s)) (wrapTmk t i key (otherRoot s))
  writeRec s (recSlot s 1 t i) x
/-- A TMK felled: its generation is raised and its record marked (R195). -/
def fellTmk (s : State) (t i : Nat) : State :=
  let s := ctrWrite s (genCtr t i) (tmkGen s t i + 1)
  match findRec s 1 t i with
  | some (n, x) => writeRec s n { x with felled := true, wrap0 := [], wrap1 := [] }
  | none => s

/-! ## Messages (R196) -/

/-- An update message taken apart. -/
structure UpdMsg where
  op : Nat
  devid : Bytes
  tenant : Nat
  signer : Nat
  counter : Nat
  body : Bytes
  authSig : Bytes
  custs : List (Nat × Bytes)
  /-- D. -/
  digest : Bytes
  /-- Its first 48 bytes. -/
  head : Bytes
  deriving DecidableEq, Repr

/-- The operations of R197. -/
def updOps : List Nat := [0x0101, 0x0102, 0x0201, 0x0202, 0x0203, 0x0204, 0x0205, 0x0206, 0x0301, 0x0302]

/-- The lengths a body may have, by its operation and first byte. -/
def updBodyOk (op : Nat) (b : Bytes) : Bool :=
  match op with
  | 0x0101 => decide (b.length = 52)
  | 0x0102 => decide (b.length = 4 + 49 * byteAt b 0)
  | 0x0202 => decide (b.length = 157)
  | 0x0205 => decide (b.length = 45 ∨ b.length = 61)
  | 0x0301 => decide (b.length = 260)
  | 0x0302 => decide (b.length = 0)
  | _ => decide (b.length = 4)

/-- The zero bytes of a body. -/
def updZeros (op : Nat) (b : Bytes) : Bool :=
  match op with
  | 0x0101 => decide (slice b 49 3 = [0, 0, 0])
  | 0x0102 => decide (slice b 1 3 = [0, 0, 0] ∧ byteAt b 0 ≤ 8)
  | 0x0201 | 0x0202 | 0x0203 | 0x0204 => decide (slice b 1 3 = [0, 0, 0])
  | _ => true

/-- Step 1 of R198. -/
def parseUpd (m : Bytes) : Except Nat UpdMsg :=
  let op := field m 6 2
  let n := field m 36 4
  let cc := byteAt m 27
  if slice m 0 4 ≠ [0x41, 0x44, 0x55, 0x4D] ∨ field m 4 2 ≠ 1 ∨ ¬ updOps.contains op ∨ 1 < byteAt m 26 ∨ 8 < cc then .error stFORMAT
  else if m.length ≠ 136 + n + 97 * cc then .error stLENGTH
  else
    let b := slice m 40 n
    if updBodyOk op b = false then .error stLENGTH
    else if updZeros op b = false then .error stFORMAT
    else .ok {
      op := op, devid := slice m 8 16, tenant := field m 24 2, signer := byteAt m 26, counter := field m 28 8, body := b
      authSig := slice m (40 + n) 96
      custs := (List.range cc).map fun k => (byteAt m (136 + n + 97 * k), slice m (137 + n + 97 * k) 96)
      digest := sha384 (m.take (40 + n)), head := m.take 48 }

/-- The tenant whose authority signs: tenant 0, the owner, or the target tenant. -/
def UpdMsg.signTenant (u : UpdMsg) : Nat := if u.signer = 0 then 0 else u.tenant

/-- The signer may order the operation (R197). -/
def updAllowed (u : UpdMsg) : Bool :=
  match u.op with
  | 0x0101 | 0x0203 => true
  | 0x0301 | 0x0302 => decide (u.tenant = 0)
  | _ => decide (u.signTenant = u.tenant)

/-- A public record's key, where its tag stands. -/
def pubOf (s : State) (x : Rec) : Option (Nat × Nat) := if x.tag = recTag s x then decompress (curveOfPub x.pub) x.pub else none

/-- A P-384 signature over a digest by a public record's key. -/
def signedBy (s : State) (r : Option (Nat × Rec)) (digest sig : Bytes) : Bool :=
  match r.bind fun e => pubOf s e.2 with
  | some q => ecdsaCheck curveP384 q digest sig
  | none => false

/-- A tenant has custodians. -/
def hasCustodians (s : State) (t : Nat) : Bool := (opresent s.recs).any fun e => decide (e.2.typ = 3 ∧ e.2.tenant = t)

/-- No number comes twice. -/
def distinct : List Nat → Bool
  | [] => true
  | a :: l => ! l.contains a && distinct l

/-- Custodian signatures: numbers in the list and distinct, each signature valid (R198, step 6; R418). -/
def custodiansOk (s : State) (t : Nat) (cs : List (Nat × Bytes)) (digest : Bytes) : Bool :=
  distinct (cs.map Prod.fst) && cs.all fun c => signedBy s (findRec s 3 t c.1) digest c.2

/-- Dual control is required (R197). -/
def dualNeeded (s : State) (u : UpdMsg) : Bool :=
  match u.op with
  | 0x0101 | 0x0202 | 0x0203 | 0x0301 => true
  | 0x0102 => hasCustodians s u.signTenant
  | _ => false

/-- A compressed point of a curve. -/
def pointGood (b : Bytes) : Bool := (decompress (curveOfPub b) b).isSome

/-- What TMK_LOAD brings: the key and its attributes. -/
def tmkLoaded (s : State) (u : UpdMsg) : Option (Bytes × Bytes) :=
  match s.dr, pointOf curveP384 (slice u.body 4 97) with
  | some dr, some q =>
    match ecMul curveP384 (vtkPriv dr) q with
    | some z =>
      let k := kdf108 (beBytes 48 z.1) "ADETRA-TMK-LOAD".toList (sha384 u.head) 32
      (gcmOpen (aesEncK (aesKeys k)) (zeros 12) [] (slice u.body 101 40) (slice u.body 141 16)).map fun p => (p.take 32, p.drop 32)
    | none => none
  | _, _ => none

/-- Step 8 of R198. -/
def updSpecific (s : State) (u : UpdMsg) : Option Nat :=
  let b := u.body
  let i := byteAt b 0
  match u.op with
  | 0x0101 => if pointGood (b.take 49) then none else some stOPERAND_RANGE
  | 0x0102 => if (chunks 49 (b.drop 4)).all pointGood then none else some stOPERAND_RANGE
  | 0x0201 => if 3 < i then some stOPERAND_RANGE else if s.dr.isNone then some stBUSY else none
  | 0x0202 =>
    if 3 < i then some stOPERAND_RANGE else if s.dr.isNone then some stBUSY
    else if (tmkLoaded s u).isNone then some stKEY_INVALID else none
  | 0x0203 => if 3 < i then some stOPERAND_RANGE else none
  | 0x0204 => match findRec s 1 u.tenant i with
    | some (_, x) => if x.felled ∨ 3 < i then some stOPERAND_RANGE else none
    | none => some stOPERAND_RANGE
  | 0x0205 =>
    let n := field b 0 4
    let a := slice b 4 8
    let old := s.record n
    let oldOk : Bool := match old with
      | some x => decide (x.typ = 4 ∧ x.tenant = u.tenant)
      | none => true
    if 12800 ≤ n ∨ oldOk = false ∨ field a 0 2 ≠ usage '5' '1' ∨ byteAt a 2 ≠ chr 'E' ∨ byteAt a 3 ≠ chr 'V' ∨
        pointGood (b.drop 12) = false then some stOPERAND_RANGE else none
  | 0x0206 => match s.record (field b 0 4) with
    | some x => if x.typ = 4 ∧ x.tenant = u.tenant then none else some stOPERAND_RANGE
    | none => some stOPERAND_RANGE
  | 0x0301 =>
    if s.sys.mig = mgIDLE ∨ (s.sys.mig = mgHELD ∧ s.sys.target = b.take 240) then (if s.dr.isNone then some stBUSY else none)
    else some stBUSY
  | _ => if s.sys.mig = mgTRIAL ∨ s.sys.mig = mgCONFIRMING then some stBUSY else none

/-- Logical records that an operation adds, and records that it writes. -/
def updRecords (s : State) (u : UpdMsg) : Nat × Nat :=
  let t := u.tenant
  let added := fun (typ index : Nat) => if (findRec s typ t index).isSome then 0 else 1
  match u.op with
  | 0x0101 => (added 2 0, 1)
  | 0x0102 =>
    let old := ((opresent s.recs).filter fun e => e.2.typ = 3 ∧ e.2.tenant = t).length
    (byteAt u.body 0 - old, max old (byteAt u.body 0))
  | 0x0201 | 0x0202 => (added 1 (byteAt u.body 0), 1)
  | 0x0203 | 0x0206 => (0, 1)
  | 0x0205 => (if (s.record (field u.body 0 4)).isSome then 0 else 1, 1)
  | _ => (0, 0)

/-- Step 9 of R198: records, the write allowance and the counters. -/
def updSpace (s : State) (u : UpdMsg) : Option Nat :=
  let (n, w) := updRecords s u
  let room : Option Nat := if n = 0 then none else recRoom s u.tenant n
  match room with
  | some st => some st
  | none =>
    if allowance s < w ∨ ctrReady s u.signTenant = false ∨ (u.op = 0x0203 ∧ ctrReady s (genCtr u.tenant (byteAt u.body 0)) = false) then some stBUSY
    else none

/-- The operation itself, with 32 random bytes for TMK_GENERATE. -/
def updApply (s : State) (u : UpdMsg) (rand : Bytes) : State :=
  let b := u.body
  let t := u.tenant
  let i := byteAt b 0
  match u.op with
  | 0x0101 => putAuth s t (b.take 49)
  | 0x0102 => putCustodians s t (chunks 49 (b.drop 4))
  | 0x0201 => putTmk s t i rand (zeros 8)
  | 0x0202 => match tmkLoaded s u with
    | some (k, a) => putTmk s t i k a
    | none => s
  | 0x0203 => fellTmk s t i
  | 0x0204 => { s with activeTmks := mset (fun _ => none) s.activeTmks t (some i) }
  | 0x0205 => writeRec s (field b 0 4) { blankRec 4 t (field b 0 4) (slice b 4 8) with pub := b.drop 12 }
  | 0x0206 => freeRec s (field b 0 4)
  | 0x0301 =>
    let held := decide (s.sys.mig = mgHELD)
    let n := (validTmks s).length
    let s := { s with sys := { s.sys with target := b.take 240, newVers := slice b 240 16, raise := (byteAt b 259).testBit 0 } }
    if held then setMig s mgARMED
    else setMig { s with sys := { s.sys with toRewrap := n, rewrapped := 0 } } mgREWRAP
  | _ =>
    if s.sys.mig = mgIDLE then s
    else
      let s := mapOther s fun _ _ _ => []
      setMig { s with sys := { s.sys with target := [], newVers := [], raise := false, toRewrap := 0, rewrapped := 0 } } mgIDLE

/-- A refused message is counted and recorded, with the step that refused it (R216, R439). -/
def updRefused (s : State) (t op step : Nat) : State :=
  postEvent (setIrq (s.bump .vlt VLT_UPD_REFUSED) .vlt 19) .vlt 0x8002 (BitVec.ofNat 32 t) (BitVec.ofNat 32 op) (BitVec.ofNat 32 step)

/-- The checks of R198 in order: the step that fails, with its status. -/
def updChecks (s : State) (i : Item) (u : UpdMsg) : Option (Nat × Nat) :=
  let vault : Option Nat := vaultStatus s
  if s.fuse.variant.tenMax < u.tenant then some (2, stNOT_FITTED)
  else if u.devid ≠ s.fuse.devid ∨ updAllowed u = false ∨ (i.tenant ≠ 0 ∧ i.tenant ≠ u.tenant) then some (3, stNOT_AUTHORISED)
  else if u.counter ≤ ctrValue s u.signTenant then some (4, stNOT_AUTHORISED)
  else if signedBy s (findAuth s u.signTenant) u.digest u.authSig = false then some (5, stNOT_AUTHORISED)
  else if custodiansOk s u.signTenant u.custs u.digest = false then some (6, stNOT_AUTHORISED)
  else if dualNeeded s u ∧ u.custs.length < 2 then some (7, stDUAL_CONTROL_REQUIRED)
  else match vault with
    | some st => some (8, st)
    | none => match (targetTenant s i.tenant u.tenant).orElse fun _ => updSpecific s u with
      | some st => some (8, st)
      | none => (updSpace s u).map fun st => (9, st)

/-- DEV_UPDATE on an item whose message names the operation `op`, or none at all. -/
def devUpdate (s : State) (i : Item) (op : Nat) : State :=
  match elemsOf [must 0x1201 (lenIn 136 4096)] i with
  | .error st => endItem s i st
  | .ok l =>
    let m := elemD l 0x1201
    match parseUpd m with
    | .error st => endItem (updRefused s (field m 24 2) (field m 6 2) 1) i st
    | .ok u =>
      if u.op ≠ op then s
      else match updChecks s i u with
        | some (step, st) => endItem (quotaCounted (updRefused s u.tenant u.op step) u.tenant st) i st
        | none =>
          let (r, s) := if op = 0x0201 then boomBytes s i.region 32 (some i.tenant) else (some [], s)
          match r with
          | none => endItem (updRefused s u.tenant u.op 8) i stRNG_UNAVAILABLE
          | some rand =>
            let s := takeAllowance s (updRecords s u).2
            let s := ctrWrite (updApply s u rand) u.signTenant u.counter
            let s := postEvent (s.bump .vlt VLT_UPD_ACCEPTED) .vlt 0x8001 (BitVec.ofNat 32 u.tenant) (BitVec.ofNat 32 u.op) (BitVec.ofNat 32 u.counter)
            answerCommit s i (beBytes 8 u.counter) [(0x1204, beBytes 8 u.counter)]

/-- AUTH_SET, an update message of core `core`'s item. -/
def execAuthSet (core : Nat) (s : State) : Res := hostRun s core 0x0F03 fun s i => devUpdate s i 0x0101
/-- CUSTODIAN_SET. -/
def execCustodianSet (core : Nat) (s : State) : Res := hostRun s core 0x0F03 fun s i => devUpdate s i 0x0102
/-- TMK_GENERATE. -/
def execTmkGenerate (core : Nat) (s : State) : Res := hostRun s core 0x0F03 fun s i => devUpdate s i 0x0201
/-- TMK_LOAD. -/
def execTmkLoad (core : Nat) (s : State) : Res := hostRun s core 0x0F03 fun s i => devUpdate s i 0x0202
/-- TMK_INVALIDATE. -/
def execTmkInvalidate (core : Nat) (s : State) : Res := hostRun s core 0x0F03 fun s i => devUpdate s i 0x0203
/-- TMK_SELECT. -/
def execTmkSelect (core : Nat) (s : State) : Res := hostRun s core 0x0F03 fun s i => devUpdate s i 0x0204
/-- CRED_LOAD. -/
def execCredLoad (core : Nat) (s : State) : Res := hostRun s core 0x0F03 fun s i => devUpdate s i 0x0205
/-- CRED_DELETE. -/
def execCredDelete (core : Nat) (s : State) : Res := hostRun s core 0x0F03 fun s i => devUpdate s i 0x0206
/-- FIRMWARE_MIGRATE. -/
def execFirmwareMigrate (core : Nat) (s : State) : Res := hostRun s core 0x0F03 fun s i => devUpdate s i 0x0301
/-- MIGRATE_CANCEL. -/
def execMigrateCancel (core : Nat) (s : State) : Res := hostRun s core 0x0F03 fun s i => devUpdate s i 0x0302

end Sys2Proof.Machine
end

