-- ==== Sys2Proof/Machine/VaultOps.lean ====
section
/-!
DEFINITION. The vault's own operations: migration (R199 to R201), re-masking (R202, R203), start-up (R204, R208, R209,
R212), measurements (R213), SEAL and INFO (R216), the debug master (R215), refills (R205, R206) and attestation (R211).
-/
namespace Sys2Proof.Machine

/-! ## Migration (R199) -/

/-- MIG_CONFIRM: a write of `v` to VLT_MIG_CONFIRM.  The confirm commit flips CUR_WRAP and the image slot together.  A
vault that is closed or starting, or whose floor counter takes no write, refuses it with ERR.ACCESS (R206, R207; log 59). -/
def execMigConfirm (v : Byte) (s : State) : Res := onComplex s <|
  if v ≠ 0xA5 then .next s
  else if s.sys.mig ≠ mgTRIAL ∨ (vaultStatus s).isSome ∨ (s.sys.raise ∧ ctrReady s floorCtr = false) then .next (accessErr s .vlt)
  else
    let y := s.sys
    let n := (validTmks s).length
    let s := { s with sys := { y with
      curWrap := 1 - y.curWrap, slot := 1 - y.slot, cur := y.target, target := y.cur, versions := y.newVers, newVers := [], raise := false
      toRewrap := n, rewrapped := 0 } }
    let s := if y.raise then ctrWrite s floorCtr (field y.newVers 0 4) else s
    .next (setMig s mgCONFIRMING)

/-- MIGRATION_REWRAP_DONE: every TMK has its wrap under the target set, without a draw on the allowance (R200). -/
def execMigrationRewrapDone (s : State) : Res :=
  if s.sys.mig ≠ mgREWRAP ∨ (vaultStatus s).isSome then .next s
  else
    let dr := otherRoot s
    let s := mapOther s fun t i key => wrapTmk t i key dr
    .next (setMig { s with sys := { s.sys with rewrapped := s.sys.toRewrap } } mgARMED)

/-- MIGRATION_CONFIRM_DONE: the superseded wraps are zeroised. -/
def execMigrationConfirmDone (s : State) : Res :=
  if s.sys.mig ≠ mgCONFIRMING ∨ (vaultStatus s).isSome then .next s
  else
    let s := mapOther s fun _ _ _ => []
    .next (setMig { s with sys := { s.sys with target := [], toRewrap := 0, rewrapped := 0 } } mgIDLE)

/-! ## Re-masking (R195, R202, R203) -/

/-- One cache slot re-masked; a slot whose parent is no longer current is felled and its key zeroised. -/
def remaskSlot (s : State) (n : Nat) : State :=
  match oget s.keys n with
  | none => s
  | some k =>
    let felled := k.felled || ! parentCurrent s k.tenant k.parent k.parentGen
    let key := if felled then zeros k.masked.length else k.key
    let (m, s) := maskBytes s k.masked.length
    { s with keys := oset s.keys n (some { k with felled := felled, masked := xorB key m, mask := m }) }

/-- The vault re-masks: it is RUNNING and not closed. -/
def remasks (s : State) : Bool := ! s.shut && running s .vlt

/-- KEY_CACHE_REMASK. -/
def execKeyCacheRemask (s : State) : Res :=
  if remasks s = false then .next s
  else .next (((opresent s.keys).foldl (fun s e => remaskSlot s e.1) s).bump .vlt VLT_REMASK_CACHE)

/-- Both shares of the root under a new mask. -/
def remaskRoot (s : State) (data : Bytes) : State :=
  let (m, s) := rootMask s 2048
  { s with root := { a := xorB data m, b := m } }

/-- BBRAM_REMASK. -/
def execBbramRemask (s : State) : Res := .next (if s.root.a = [] then s else remaskRoot s (rootData s))

/-- A felled working key's record: marked, and its bits zeroised (R195). -/
def settleRec (s : State) (n : Nat) (x : Rec) : State :=
  if x.typ = 5 ∧ (x.felled ∨ parentCurrent s x.tenant x.parent x.parentGen = false) ∧ x.wrap0 ≠ [] then
    writeRec s n { x with felled := true, wrap0 := [], wrap1 := [] }
  else s

/-- Bank `b` holds what bank `newest` holds, under another seed. -/
def copyBank (s : State) (newest b : Nat) (seed : Bytes) : SMap (Option Bytes) :=
  (((opresent s.nvm.cells).filter fun e => e.1 / 12800 = newest).foldl (fun m e =>
    let p := e.1 % 12800
    oset m (12800 * b + p) (some (maskImage seed p (maskImage (bankSeed s newest) p e.2))))
    (mfilter (fun k _ => decide (k / 12800 ≠ b)) s.nvm.cells))

/-- A sector whose write fails verification is retired for a spare; with none left the bank loses its copies there (R183).
IRQST.BLOCK[18] with fewer than 32 spares. -/
def retireSector (s : State) (sector : Nat) : State :=
  let v := s.nvm
  let s := if v.spare = 0 then
      { s with nvm := { v with cells := mfilter (fun k _ => decide (k / 12800 * 400 + k % 12800 / 32 ≠ sector)) v.cells } }
    else { s with nvm := { v with
      retired := v.retired + 1, spare := v.spare - 1
      moved := (v.moved.filter fun e => e.1 ≠ sector) ++ [(sector, 2048 - v.spare)] } }
  if s.nvm.spare < 32 then setIrq s .vlt 18 else s

/-- NVM_BANK_REMASK: the oldest bank is rewritten from the newest under a new seed; the writes of the sectors `fails` of
the bank failed verification (log 59). -/
def execNvmBankRemask (fails : List Nat) (s : State) : Res :=
  if remasks s = false then .next s
  else
    let s := (opresent s.recs).foldl (fun s e => settleRec s e.1 e.2) s
    let b := (s.sys.bank + 1) % 4
    let (seed, s) := maskBytes s 32
    let s := if s.root.a = [] then s
      else
        let cells := copyBank s s.sys.bank b seed
        { remaskRoot s (patch (rootData s) (80 + 32 * b) seed) with nvm := { s.nvm with cells := cells } }
    let s := (fails.filter fun x => decide (x < 400)).foldl (fun s x => retireSector s (400 * b + x)) s
    .next ({ s with sys := { s.sys with bank := b } }.bump .vlt VLT_REMASK_NVM)

/-- The lowest-numbered region whose expander is RUNNING. -/
def lowestExpander (s : State) : Option Nat := (List.range 4).find? fun r => running s (.rnx r)

/-- Words from the boom of the lowest-numbered running region. -/
def vaultRandom (s : State) (n : Nat) : Option Bytes × State :=
  match lowestExpander s with
  | none => (none, s)
  | some r => boomBytes s r n none

/-- VAULT_MASK_RESEED. -/
def execVaultMaskReseed (s : State) : Res :=
  if remasks s = false then .next s
  else match vaultRandom s 32 with
    | (some k, s) => .next ({ s with maskGen := { key := k, ctr := 0, seeded := s.time.tick } }.setFlag .vlt VLT_STATUS_MASK_STALE false)
    | (none, s) =>
      if s.time.tick < s.maskGen.seeded + 60000000 ∨ s.flag .vlt VLT_STATUS_MASK_STALE then .next s
      else .next (setIrq (s.setFlag .vlt VLT_STATUS_MASK_STALE true) .vlt 20)

/-! ## Refills (R205, R206) -/

/-- WRITE_ALLOWANCE_REFILL: one write more, up to 60,000. -/
def execWriteAllowanceRefill (s : State) : Res := .next (s.setFld .vlt VLT_NVM_ALLOW (min 60000 (allowance s + 1)))

/-- COUNTER_WRITE_REFILL: counter `n` may be written once more. -/
def execCounterWriteRefill (n : Nat) (s : State) : Res :=
  .next (if n < 8192 then s.setCtr n { s.ctr n with used := (s.ctr n).used - 1 } else s)

/-! ## Start-up (R204, R208, R209, R212) -/

/-- A record with no good copy: a TMK or working key is felled, a working key in all its records, and a public record
reads free. -/
def loseRecord (s : State) (n : Nat) : State :=
  match s.record n with
  | none => s
  | some x =>
    let s := if x.typ = 1 then fellTmk s x.tenant x.index
      else if x.typ = 5 then
        (opresent s.recs).foldl (fun s e =>
          if e.2.typ = 5 ∧ e.2.tenant = x.tenant ∧ e.2.index = x.index ∧ e.2.felled = false then
            writeRec s e.1 { e.2 with felled := true, wrap0 := [], wrap1 := [] }
          else s) s
      else freeRec s n
    postEvent (raiseErr s .vlt 9 0x43) .vlt 0x8003 (BitVec.ofNat 32 n)

/-- The copy of logical record `n` in bank `b`, where SECDED (`bad` lists the cells that fail it) and its tag let it
stand. -/
def goodCopy (s : State) (bad : List Nat) (n : Nat) (pub : Bool) (b : Nat) : Option Bytes :=
  match oget s.nvm.pos n with
  | none => none
  | some p =>
    if bad.contains (12800 * b + p) then none
    else match oget s.nvm.cells (12800 * b + p) with
      | none => none
      | some c =>
        let img := maskImage (bankSeed s b) p c
        if slice img 112 16 = tagOver s pub (img.take 112) then some img else none

/-- The copy with the highest WSEQ. -/
def bestCopy (l : List Bytes) : Option Bytes :=
  l.foldl (fun acc c => match acc with
    | some a => if field a 28 4 < field c 28 4 then some c else acc
    | none => some c) none

/-- One logical record reconciled (R204): the copy with the highest WSEQ whose tag verifies wins, the other banks are
rewritten to match it, and each copy that failed is counted; a record with no good copy is lost. -/
def reconcileRec (s : State) (bad : List Nat) (n : Nat) (x : Rec) : State :=
  if x.felled then s
  else
    let l := (List.range 4).map (goodCopy s bad n (recPublic x))
    match bestCopy (l.filterMap id), oget s.nvm.pos n with
    | some img, some p =>
      if l.all (fun c => decide (c = some img)) then s
      else (l.filter Option.isNone).foldl (fun s _ => raiseErr (s.bumpSat .vlt HEALTH_CORR) .vlt 8 0x42) (putCells s p img)
    | _, _ => loseRecord s n

/-- The banks reconciled at a start. -/
def reconcile (s : State) (bad : List Nat) : State := (opresent s.recs).foldl (fun s e => reconcileRec s bad e.1 e.2) s

/-- Every valid TMK felled by generation increment (R208). -/
def fellAll (s : State) : State :=
  let s := (validTmks s).foldl (fun s e => fellTmk s e.2.tenant e.2.index) s
  { s with nvm := { s.nvm with fell := false } }

/-- Every record tagged under the keys of the root and written to the banks under its seeds. -/
def rebank (s : State) : State :=
  (opresent s.recs).foldl (fun s e =>
    let x := { e.2 with tag := recTag s e.2 }
    let s := { s with recs := oset s.recs e.1 (some x) }
    match oget s.nvm.pos e.1 with
    | some p => putCells s p (recImage (if x.felled then 2 else 1) x)
    | none => s) { s with nvm := { s.nvm with cells := [] } }

/-- A new root from random bytes: the secret, its check value and the bank seeds (R182, R209).  What an erase left of the
old root's TMKs is felled first, and the records are kept under the new seeds (log 59). -/
def newRoot (s : State) (rand : Bytes) : State :=
  let s := if s.nvm.fell then fellAll s else s
  let rs := rand.take 64
  let s := remaskRoot s (fitR 2048 (rs ++ (sha384 (rs ++ s.fuse.uds)).take 16 ++ slice rand 64 128))
  (rebank s).setFlag .vlt VLT_STATUS_ERASED false

/-- DR derived from the sealed measurements, where the root is valid (R186). -/
def deriveRoot (s : State) : State :=
  if rootValid s then { s with dr := some (deviceRoot s (measSet s)) } else s

/-- The migration state applied at a start (R199). -/
def applyMig (s : State) : State :=
  if s.sys.mig = mgARMED then setMig s mgTRIAL
  else if s.sys.mig = mgTRIAL then setMig s mgHELD
  else { s with sys := { s.sys with rewrapAt := s.time.ns } }

/-- A unit that has never had a root makes one at a start in SHIPPED or OWNED; the measurements it starts with become
the current set (R209). -/
def firstRoot (s : State) : State :=
  if rootValid s ∨ s.sys.cur ≠ [] ∨ ¬ (lifeState s = lcSHIPPED ∨ lifeState s = lcOWNED) then s
  else match vaultRandom s 192 with
    | (some b, s) =>
      let s := newRoot s b
      { s with sys := { s.sys with cur := measSet s } }
    | (none, s) => s

/-- VAULT_STARTUP, once MEAS_4 is sealed: `bad` are the NVM cells, 12,800 b + p for position p of bank b, that fail
SECDED.  Under an invalid root no secret record can be verified, and TMKs are felled instead (log 59). -/
def execVaultStartup (bad : List Nat) (s : State) : Res :=
  if stateOf s .vlt ≠ stStarting ∨ (s.fld .vlt VLT_MEAS_SEAL).testBit 4 = false then .next s
  else
    let s := { s with keys := [] }
    let s := if rootValid s then reconcile s bad else s
    let s := applyMig (firstRoot s)
    let s := if rootValid s then (if s.nvm.fell then fellAll s else s) else (fellAll s).setFlag .vlt VLT_STATUS_ERASED (decide (s.sys.cur ≠ []))
    .next (setState (deriveRoot s) .vlt stRunning)

/-! ## Measurements (R213) -/

/-- Bits 0 to n - 1 of the seal are set and bit n is clear. -/
def measOpen (s : State) (n : Nat) : Bool :=
  let v := s.fld .vlt VLT_MEAS_SEAL
  decide (v % 2 ^ n = 2 ^ n - 1) && ! v.testBit n

/-- MEAS_WRITE: word `w` of MEAS_n. -/
def execMeasWrite (n w : Nat) (v : Word) (s : State) : Res := onComplex s <|
  if 8 ≤ n ∨ 12 ≤ w then .next s
  else if measOpen s n then .next (s.setReg .vlt (0x100 + 48 * n + 4 * w) v)
  else .next (accessErr s .vlt)

/-- Seal bits set; sealing MEAS_4 derives DR. -/
def sealMeas (s : State) (v : Nat) : State :=
  let old := s.fld .vlt VLT_MEAS_SEAL
  let s := s.setFld .vlt VLT_MEAS_SEAL (Nat.lor old v)
  if v.testBit 4 ∧ ¬ old.testBit 4 then deriveRoot s else s

/-- MEAS_SEAL: bits `v` set. -/
def execMeasSeal (v : Byte) (s : State) : Res := onComplex s <| .next (sealMeas s v.toNat)

/-! ## SEAL and INFO (R193, R216) -/

/-- An operation ends with a status and IRQST.BLOCK[16]. -/
def vltOpDone (s : State) (st : Nat) : State := setIrq (s.setFld .vlt VLT_OP_STATUS st) .vlt 16

/-- The handle of an operation, refused when it belongs to another tenant than VLT_EXT_TEN's. -/
def vltHandle (s : State) : Except Nat Word :=
  let h := s.reg .vlt 0x060
  if handleTenant h ≠ s.fld .vlt VLT_EXT_TEN then .error stNOT_AUTHORISED else .ok h

/-- An external block (R193). -/
def extBlock (s : State) (t slot parent : Nat) (tmk : Bytes) (k : KeyVal) : Bytes :=
  let kx := extKey tmk t
  let n := k.bits.length
  let attr := patch (fitR 8 k.attr) 5 [BitVec.ofNat 8 n]
  let body := [5, 1] ++ beBytes 2 t ++ beBytes 4 slot ++ beBytes 4 0 ++ [BitVec.ofNat 8 parent, 0, 0, 0] ++ beBytes 4 (tmkGen s t parent) ++ attr ++
    zeros 4 ++ fitR 40 (kwWrap (aesEncK (aesKeys (slice kx 0 32))) (fitR (extLen n) k.bits)) ++ zeros 40
  body ++ (hmac384 (slice kx 32 32) body).take 16

/-- VLT_SEAL. -/
def execVltSeal (s : State) : Res := onComplex s <|
  match vltHandle s with
  | .error st => .next (vltOpDone s st)
  | .ok h =>
    let t := handleTenant h
    let slot := s.fld .vlt VLT_OP_INDEX
    if (s.tenant t).extCount ≤ slot then .next (vltOpDone s stKEY_NOT_FOUND)
    else match resolveKey s h with
      | (.error st, s) => .next (vltOpDone s st)
      | (.ok k, s) =>
        if handleClass h ≠ 0 ∨ 32 < k.bits.length then .next (vltOpDone s stOPERAND_RANGE)
        else match activeTmk s t with
          | none => .next (vltOpDone s stKEY_NOT_FOUND)
          | some i => match tmkOf s t i with
            | none => .next (vltOpDone s stKEY_NOT_FOUND)
            | some tmk =>
              let s := { s with hbm := memWrite s.hbm ((s.tenant t).extBase * 4096 + 128 * slot) (extBlock s t slot i tmk k) }
              .next (vltOpDone s stOK)

/-- What INFO reports of a handle: attribute bytes, length, state, parent and its recorded generation. -/
def infoOf (s : State) (h : Word) : Option (Bytes × Nat × Nat × Nat × Nat) :=
  match resolveRaw s h with
  | .ok k => some (k.attr, k.bits.length, 1, k.parent, k.parentGen)
  | .error st =>
    if st ≠ stKEY_ORPHANED then none
    else match handleClass h with
      | 0 => (oget s.keys (handleSlot h)).map fun k => (k.attr, k.masked.length, 2, k.parent, k.parentGen)
      | 1 => (s.record (handleSlot h)).map fun x => (x.attr, x.len, 2, x.parent, x.parentGen)
      | _ =>
        let b := memRead s.hbm ((s.tenant (handleTenant h)).extBase * 4096 + 128 * handleSlot h) 128
        some (slice b 20 8, byteAt b 25, 2, byteAt b 12, field b 16 4)

/-- VLT_INFO: attributes and state, never key bits. -/
def execVltInfo (s : State) : Res := onComplex s <|
  match vltHandle s with
  | .error st => .next (vltOpDone s st)
  | .ok h => match vaultStatus s with
    | some st => .next (vltOpDone s st)
    | none => match infoOf s h with
      | none =>
        let r := resolveRaw s h
        .next (vltOpDone s (match r with | .error st => st | .ok _ => stOK))
      | some (a, n, st, p, g) =>
        let now := if p = 255 then 0 else tmkGen s (handleTenant h) p
        let s := s.setReg .vlt 0x068 (BitVec.ofNat 32 (field a 0 4))
        let s := s.setReg .vlt 0x06C (BitVec.ofNat 32 (byteAt a 4 * 2 ^ 24 + n % 256 * 2 ^ 16 + st * 256 + p))
        .next (vltOpDone ((s.setReg .vlt 0x070 (BitVec.ofNat 32 g)).setReg .vlt 0x074 (BitVec.ofNat 32 now)) stOK)

/-- VAULT_DEBUG_ACCESS (R215). -/
def execVaultDebugAccess (s : State) : Res := .next ((setIrq (accessErr s .vlt) .vlt 21).bumpSat .vlt VLT_DBG_REFUSED)

/-! ## Attestation (R211) -/

/-- TOP_PART.CODE. -/
def partCode (v : Variant) : Nat := v.pick 0x0880 0x0860 0x0840
/-- The LOCK byte: open, locked, or locked with the root erased. -/
def lockByte (s : State) : Nat := if s.devLocked = false then 0 else if rootValid s then 1 else 2
/-- VTK's public key, uncompressed; zeros without DR. -/
def vtkPublic (s : State) : Bytes :=
  match s.dr with
  | some d => match ecMul curveP384 (vtkPriv d) (curveP384.gx, curveP384.gy) with
    | some q => pointBytes curveP384 q
    | none => zeros 97
  | none => zeros 97

/-- Bytes 0 to 623 of an attestation statement for a tenant and a nonce. -/
def attestBody (s : State) (t : Nat) (nonce : Bytes) : Bytes :=
  [0x41, 0x44, 0x41, 0x54] ++ beBytes 2 1 ++ beBytes 2 0x0270 ++ fitR 16 s.fuse.devid ++ beBytes 2 (partCode s.fuse.variant) ++ [s.fuse.step] ++
  [BitVec.ofNat 8 (lifeState s), BitVec.ofNat 8 (lockByte s), BitVec.ofNat 8 s.sys.mig, BitVec.ofNat 8 s.sys.curWrap, 0] ++
  ((List.range 8).map (measOf s)).flatten ++ fitR 16 s.sys.versions ++ beBytes 4 (ctrValue s floorCtr) ++ beBytes 8 (ctrValue s lockCtr) ++
  beBytes 4 s.fuse.slots.length ++ beBytes 8 (ctrValue s 0) ++ beBytes 2 t ++ [0, 0] ++ beBytes 8 (ctrValue s t) ++
  ((List.range 4).map fun i => beBytes 4 (tmkGen s t i)).flatten ++ beBytes 8 s.time.ns ++ nonce ++ vtkPublic s ++ zeros 3

/-- DEV_ATTEST. -/
def devAttest (i : Item) : Cmd Answer := do
  let l ← orStatus (elemsOf [must 0x1202 (lenIs 32), may 0x1103 (lenIs 2)] i)
  let t := if hasElem l 0x1103 then elemNat l 0x1103 else i.tenant
  let s ← get
  need (! hasElem l 0x1103 || decide (i.tenant = 0)) stNOT_AUTHORISED
  refuseIf (targetTenant s i.tenant t)
  let r ← randomBytes i 48
  let s ← get
  let b := attestBody s t (elemD l 0x1202)
  pure (okElems [(0x1203, b ++ ecdsaBytes curveP384 (identPriv s) (scalarOf curveP384 r) (sha384 b)), (0x0108, s.fuse.cert)])

/-- DEV_ATTEST, the command of core `core`. -/
def execDevAttest (core : Nat) (s : State) : Res := hostRun s core 0x0F01 fun s i => runCmd s i (devAttest i)

end Sys2Proof.Machine
end

