-- ==== Sys2Proof/Machine/StandIn.lean ====
section
/-!
DEFINITION. Stand-in authorisation: issuer state and heartbeat (R159 to R161), rules and zones (R163, R164), card records
(R165 to R167), decisions (R168 to R171) and the journal (R172 to R174).
-/
namespace Sys2Proof.Machine

/-! ## Issuer state (R159 to R161) -/

/-- A tenant's stand-in state before anything has changed it. -/
def SiTenant.start : SiTenant := { reachable := true, cause := 0, period := 500, next := 0, journal := [] }
/-- Tenant `t`'s. -/
def State.siOf (s : State) (t : Nat) : SiTenant := mget (fun _ => SiTenant.start) s.si t
/-- It stored. -/
def State.setSi (s : State) (t : Nat) (v : SiTenant) : State := { s with si := mset (fun _ => SiTenant.start) s.si t v }

/-- The code of an issuer state: 1 reachable, 2 unreachable. -/
def reachCode (b : Bool) : Nat := if b then 1 else 2

/-- An issuer state set; a change is recorded. -/
def setIssuer (s : State) (t : Nat) (reach : Bool) (cause : Nat) : State :=
  let v := s.siOf t
  if v.reachable = reach ∧ v.cause = cause then s
  else postEvent (s.setSi t { v with reachable := reach, cause := cause }) .ten 0x6002 (BitVec.ofNat 32 t)
    (BitVec.ofNat 32 (reachCode v.reachable)) (BitVec.ofNat 32 (reachCode reach)) (BitVec.ofNat 32 cause)

/-- A tenant's heartbeat timer. -/
def isHeartbeat (t : Nat) (k : TimerKind) : Bool :=
  match k with
  | .heartbeat u => decide (u = t)
  | _ => false

/-- The region whose delay list carries a tenant's timer: t mod 4, and only where that one is isolated the lowest
surviving one (R160). -/
def heartbeatRegion (s : State) (t : Nat) : Nat :=
  if regionFitted s (t % 4) ∧ isolated s (t % 4) = false then t % 4
  else ((List.range 4).find? fun r => regionFitted s r && ! isolated s r).getD (t % 4)

/-- A tenant's timer re-armed with its full period; a period of 0 disables it. -/
def armHeartbeat (s : State) (t : Nat) : State :=
  let s := (List.range 4).foldl (fun s r => dropTimers s r (isHeartbeat t)) s
  let p := (s.siOf t).period
  if p = 0 then s
  else match setTimer s (heartbeatRegion s t) (1000 * p) (.heartbeat t) with
    | some (_, s) => s
    | none => s

/-- HEARTBEAT_EXPIRY: the timer of tenant `t` on region `r`'s list comes due. -/
def execHeartbeatExpiry (r t : Nat) (s : State) : Res :=
  match (s.timerList r).find? fun x => isHeartbeat t x.kind with
  | none => .next s
  | some x =>
    if timersFire s r = false then .next s
    else
      let s := fireTimer (advanceTo s x.due) r x
      .next (if (s.siOf t).reachable then setIssuer s t false 2 else s)

/-- HEARTBEAT_REARM: the tenants whose timer lay on isolated region `r` get it on a surviving region. -/
def execHeartbeatRearm (r : Nat) (s : State) : Res := onComplex s <|
  if isolated s r = false ∨ s.fuse.variant.standIn = false then .next s
  else .next ((List.range 1023).foldl (fun s t => if t % 4 = r ∧ (s.tenant t).state = 1 then armHeartbeat s t else s) s)

/-- The tenant a stand-in command names. -/
def siTarget (i : Item) (l : List Elem) : Cmd Nat := do
  let s ← get
  if hasElem l 0x1103 then do
    need (decide (i.tenant = 0)) stNOT_AUTHORISED
    refuseIf (targetTenant s i.tenant (elemNat l 0x1103))
    pure (elemNat l 0x1103)
  else pure i.tenant

/-- The part has the service (R158). -/
def siFitted : Cmd Unit := do
  let s ← get
  need s.fuse.variant.standIn stNOT_FITTED

/-- ISSUER_STATE and CAUSE of a tenant. -/
def issuerAnswer (s : State) (t : Nat) : Answer :=
  okElems [(0x1101, beBytes 1 (reachCode (s.siOf t).reachable)), (0x1111, beBytes 1 (s.siOf t).cause)]

/-- SI_ISSUER_STATE; ISSUER_STATE 0x00 queries without change, whatever HB_PERIOD comes beside it (R161). -/
def siIssuerState (i : Item) : Cmd Answer := do
  siFitted
  let l ← payCheck i [must 0x1101 (lenIs 1), may 0x1102 (lenIs 4), may 0x1103 (lenIs 2)] [] anyElems
  let c := elemNat l 0x1101
  let p := elemNat l 0x1102
  need (decide (c ≤ 2)) stFORMAT
  need (decide (p = 0) || decide (10 ≤ p ∧ p ≤ 60000)) stOPERAND_RANGE
  let t ← siTarget i l
  let s ← get
  let s := if hasElem l 0x1102 ∧ c ≠ 0 then armHeartbeat (s.setSi t { s.siOf t with period := p }) t else s
  let s := if c = 1 then setIssuer s t true 0 else if c = 2 then setIssuer s t false 1 else s
  set s
  pure (issuerAnswer s t)

/-- SI_HEARTBEAT. -/
def siHeartbeat (i : Item) : Cmd Answer := do
  siFitted
  let l ← payCheck i [may 0x1103 (lenIs 2)] [] anyElems
  let t ← siTarget i l
  let s ← get
  let s := armHeartbeat s t
  let s := if (s.siOf t).reachable = false ∧ (s.siOf t).cause = 2 then setIssuer s t true 0 else s
  set s
  pure (issuerAnswer s t)

/-! ## Rule sets and key zones (R163, R164) -/

/-- A rule set; none before it is loaded. -/
def ruleSet (s : State) (t i : Nat) : Option Bytes := oget s.rules (1024 * t + i)
/-- A key zone. -/
def keyZone (s : State) (t z : Nat) : Option Bytes := oget s.zones (256 * t + z)
/-- LEN, COUNT_MAX and AMOUNT_MAX of window `w`. -/
def winLen (r : Bytes) (w : Nat) : Nat := field r (16 + 16 * w) 4
def winCount (r : Bytes) (w : Nat) : Nat := field r (20 + 16 * w) 2
def winAmount (r : Bytes) (w : Nat) : Nat := field r (24 + 16 * w) 8

/-- The windows' lengths and the currency lie in their ranges. -/
def rulesOk (r : Bytes) : Bool :=
  ((List.range 3).all fun w => decide (winLen r w = 0) || decide (winLen r w % 8 = 0 ∧ 8 ≤ winLen r w ∧ winLen r w ≤ 2592000)) &&
    (nibbles (r.take 2)).all fun v => decide (v ≤ 9)

/-- ARPC_METHOD and MK_METHOD of a zone are defined codes, and its last bytes zero. -/
def zoneCodes (z : Bytes) : Bool :=
  decide (byteAt z 4 = 1 ∨ byteAt z 4 = 2) && decide (byteAt z 5 ≤ 2) && decide (slice z 6 2 = [0, 0])

/-- The E0 key of a zone, checked as KEY_A of ARPC_GENERATE. -/
def zoneKey (z : Bytes) : Cmd KeyVal := do
  let k ← getKeyFor (BitVec.ofNat 32 (field z 0 4)) [usage 'E' '0'] ['T', 'A'] ['X']
  let aes := decide (k.alg = chr 'A')
  need (decide (k.bound = 0) && (! aes || decide (byteAt z 4 = 2))) stKEY_USAGE
  need (! aes || decide (byteAt z 5 = 0)) stOPERAND_RANGE
  pure k

/-- Either a rule set or a key zone comes, whole. -/
def rulesPresent (l : List Elem) : Bool :=
  let r := hasElem l 0x1109 && hasElem l 0x110A && ! hasElem l 0x110B && ! hasElem l 0x110C
  let z := hasElem l 0x110B && hasElem l 0x110C && ! hasElem l 0x1109 && ! hasElem l 0x110A
  r || z

/-- SI_RULES_LOAD. -/
def siRulesLoad (i : Item) : Cmd (Bytes × Bytes) := do
  siFitted
  let l ← payCheck i [may 0x1109 (lenIs 2), may 0x110A (lenIs 64), may 0x110B (lenIs 1), may 0x110C (lenIs 8)] [] rulesPresent
  if hasElem l 0x1109 then do
    let n := elemNat l 0x1109
    need (decide (n < 1024) && rulesOk (elemD l 0x110A)) stOPERAND_RANGE
    let s ← get
    set { s with rules := oset s.rules (1024 * i.tenant + n) (some (elemD l 0x110A)) }
    pure (beBytes 2 n ++ zeros 6, [])
  else do
    let n := elemNat l 0x110B
    let z := elemD l 0x110C
    need (zoneCodes z) stFORMAT
    need (decide (handleTenant (BitVec.ofNat 32 (field z 0 4)) = i.tenant)) stNOT_AUTHORISED
    let _ ← zoneKey z
    let s ← get
    set { s with zones := oset s.zones (256 * i.tenant + n) (some z) }
    pure (beBytes 2 n ++ [1] ++ zeros 5, [])

/-! ## Card records (R165 to R167) -/

/-- A PAN in BCD, left-justified and filled with 0xF. -/
def panBcd (pan : Bytes) : Bytes := packNibbles (digitsOf pan ++ List.replicate (20 - pan.length) 15)

/-- A record's fields: the bytes of its body. -/
def cardPan (b : Bytes) : Bytes := slice b 0 10
def cardPsn (b : Bytes) : Bytes := slice b 10 1
def cardBlocked (b : Bytes) : Bool := decide (byteAt b 11 = 1)
def cardApprovals (b : Bytes) : Nat := field b 12 2
def cardCap (b : Bytes) : Nat := field b 14 2
def cardBase (b : Bytes) (w : Nat) : Nat := field b (16 + 4 * w) 4
def cardAtc (b : Bytes) : Nat := field b 28 2
def cardCount (b : Bytes) (w k : Nat) : Nat := field b (32 + 64 * w + 8 * k) 2
def cardAmount (b : Bytes) (w k : Nat) : Nat := field b (34 + 64 * w + 8 * k) 6

/-- A CARD element's codes. -/
def cardCodes (c : Bytes) : Bool := decide (byteAt c 0 ≤ 1) && decide (byteAt c 1 ≤ 1) && decide (slice c 4 4 = zeros 4)

/-- A record changed by a CARD element. -/
def cardApply (b c : Bytes) : Bytes :=
  let b := patch (patch b 11 (c.take 1)) 14 (slice c 2 2)
  if byteAt c 1 = 1 then patch (patch (patch b 12 [0, 0]) 28 [0, 0]) 32 (zeros 192) else b

/-- A record changed on its card: PAN and PSN equal those that come. -/
def cardMatches (b : Bytes) (l : List Elem) : Bool :=
  (! hasElem l ePAN || decide (cardPan b = panBcd (elemD l ePAN))) && (! hasElem l ePSN || decide (cardPsn b = elemD l ePSN))

/-- A creation brings BIND_CTX, PAN and PSN; a change CTX and CARD. -/
def cardPresent (l : List Elem) : Bool :=
  if hasElem l eBIND_CTX then ! hasElem l eCTX && hasElem l ePAN && hasElem l ePSN
  else hasElem l eCTX && hasElem l 0x110D

/-- SI_CARD_UPDATE. -/
def siCardUpdate (i : Item) : Cmd (Bytes × Bytes) := do
  siFitted
  let l ← payCheck i [opt eCTX, opt eBIND_CTX, opt ePAN, opt ePSN, may 0x110D (lenIs 8)] [] cardPresent
  let c := elemD l 0x110D
  need (! hasElem l 0x110D || cardCodes c) stFORMAT
  if hasElem l eBIND_CTX then do
    let id := handleOf l eBIND_CTX
    let s ← get
    refuseClaim i.tenant (ctxCreateStatus s id i.tenant (fun t => decide (t = 8)))
    let b := fitR 248 (panBcd (elemD l ePAN) ++ elemD l ePSN)
    set (ctxMake s id i.tenant (if hasElem l 0x110D then cardApply b c else b) 0)
    pure (beBytes 4 id.toNat ++ zeros 4, [])
  else do
    let id := handleOf l eCTX
    let x ← getCtx i id (fun t => decide (t = 8))
    need (cardMatches x.body l) stOPERAND_RANGE
    let s ← get
    set (s.setCtx (ctxRegion id) (ctxIndex id) (ctxPatch x 0 (cardApply (fitR 248 x.body) c)))
    pure (beBytes 4 id.toNat ++ zeros 4, [])

/-- Buckets from `a` to `c` (by their numbers) of window `w` cleared. -/
def clearBuckets (b : Bytes) (w a : Nat) : Nat → Bytes
  | 0 => b
  | n + 1 => clearBuckets (patch b (32 + 64 * w + 8 * (a % 8)) (zeros 8)) w (a + 1) n

/-- Window `w` of length `len` advanced to second `t` (R167). -/
def winAdvance (b : Bytes) (w len t : Nat) : Bytes :=
  let n := t / (len / 8)
  let base := cardBase b w
  let b := if base + 8 ≤ n then clearBuckets b w 0 8 else if base < n then clearBuckets b w (base + 1) (n - base) else b
  if base < n then patch b (16 + 4 * w) (beBytes 4 n) else b

/-- The enabled windows of a rule set. -/
def winsOn (r : Bytes) : List Nat := (List.range 3).filter fun w => winLen r w ≠ 0
/-- Every enabled window advanced. -/
def winsAdvance (r b : Bytes) (t : Nat) : Bytes := (winsOn r).foldl (fun b w => winAdvance b w (winLen r w) t) b

/-- The sums of a window. -/
def sumCount (b : Bytes) (w : Nat) : Nat := (List.range 8).foldl (fun n k => n + cardCount b w k) 0
def sumAmount (b : Bytes) (w : Nat) : Nat := (List.range 8).foldl (fun n k => n + cardAmount b w k) 0

/-- An approval added to the bucket of window `w` for second `t`; an amount beyond 48 bits is a free value (log 27). -/
def winAdd (b : Bytes) (w len t amount free : Nat) : Bytes :=
  let k := max (t / (len / 8)) (cardBase b w) % 8
  let a := cardAmount b w k + amount
  let a := if a < 2 ^ 48 then a else (Config.bucketAmount free).toNat
  patch b (32 + 64 * w + 8 * k) (beBytes 2 (cardCount b w k + 1) ++ beBytes 6 a)

/-! ## Decisions (R168 to R171) -/

/-- What a decision looks at. -/
structure Deciding where
  route : Option Word
  rules : Option Bytes
  /-- The card record after the window advance. -/
  card : Option Bytes
  /-- An ARQC came, and whether it verifies. -/
  arqc : Bool
  good : Bool
  atc : Nat
  amount : Nat
  currency : Bytes
  deriving DecidableEq, Repr

/-- The approvals a card may have. -/
def capOf (r b : Bytes) : Nat := if cardCap b = 0 then field r 2 2 else cardCap b

/-- The lowest-numbered reason that fails; 0 for none (R170). -/
def reasonOf (d : Deciding) : Nat :=
  match d.route with
  | none => 0x10
  | some w =>
    if w.toNat.testBit 0 = false then 0x11
    else match d.rules with
      | none => 0x12
      | some r => match d.card with
        | none => 0x13
        | some b =>
          if cardBlocked b then 0x20
          else if (w.toNat.testBit 1 ∧ d.arqc = false) ∨ (d.arqc ∧ d.good = false) then 0x21
          else if w.toNat.testBit 2 ∧ d.atc ≤ cardAtc b then 0x22
          else if field r 8 8 < d.amount then 0x30
          else if capOf r b < cardApprovals b + 1 then 0x31
          else if d.currency ≠ r.take 2 then 0x32
          else match (winsOn r).find? fun x => decide (winCount r x < sumCount b x + 1) with
            | some x => 0x40 + x
            | none => match (winsOn r).find? fun x => decide (winAmount r x < sumAmount b x + d.amount) with
              | some x => 0x48 + x
              | none => 0

/-- The record after an approval (R171). -/
def cardApprove (r b : Bytes) (t : Nat) (d : Deciding) (free : Nat) : Bytes :=
  let b := (winsOn r).foldl (fun b w => winAdd b w (winLen r w) t d.amount free) b
  let b := patch b 12 (beBytes 2 (cardApprovals b + 1))
  if d.arqc then patch b 28 (beBytes 2 d.atc) else b

/-- The JSEQ a tenant's next decision takes: its next one, at a start its reserved bound, and before any bound was
written 1 (R172, R173). -/
def jseqNext (s : State) (t : Nat) : Nat := if (s.siOf t).next = 0 then max 1 (ctrValue s (jseqCtr t)) else (s.siOf t).next
/-- Fewer than half a block remains below the reserved bound. -/
def jseqLow (s : State) (t : Nat) : Bool := decide (ctrValue s (jseqCtr t) < jseqNext s t + 2 ^ 23)
/-- A bound one block higher written where needed, before the decision that draws commits (R173). -/
def jseqReserve (s : State) (t : Nat) : State :=
  if jseqLow s t then ctrWrite s (jseqCtr t) (ctrValue s (jseqCtr t) + 2 ^ 24) else s

/-- A tenant's lease raised, never above its reserved bound (R173, R390). -/
def jseqLeaseTop (s : State) (t next : Nat) : State :=
  leaseTop s (leaseJseq t) next (jseqBlock s) (ctrValue s (jseqCtr t))

/-- A tenant's lease granted, below its reserved bound (R173, R390). -/
def jseqGrant (s : State) (t : Nat) : State :=
  let n := jseqNext s t
  let s := jseqReserve (s.setSi t { s.siOf t with next := n }) t
  leaseGrant s (leaseJseq t) n (jseqBlock s) (ctrValue s (jseqCtr t))

/-- A journal entry (R172). -/
def journalEntry (s : State) (i : Item) (l : List Elem) (jseq decision rs : Nat) (d : Deciding) (approval : Bytes) : Bytes :=
  let flags := (if d.arqc then 1 else 0) + (if d.good then 2 else 0) + (if i.tenant = 0 then 4 else 0)
  beBytes 8 jseq ++ beBytes 8 s.time.ns ++ panBcd (elemD l ePAN) ++ (if hasElem l ePSN then elemD l ePSN else [0xFF]) ++
  beBytes 2 decision ++ [BitVec.ofNat 8 flags] ++ beBytes 2 rs ++ beBytes 8 d.amount ++ d.currency ++ beBytes 2 d.atc ++ approval ++
  beBytes 4 i.tag.toNat ++ beBytes 4 i.session ++ zeros 6

/-- The ARPC of an approval under a zone (R138, R171). -/
def zoneArpc (z : Bytes) (aes : Bool) (sk arqc : Bytes) : Bytes :=
  arpcOf aes sk ([(eARPC_METHOD, slice z 4 1), (eARQC, arqc), (eARC, [0x30, 0x30]), (eCSU, zeros 4)])

/-- All of PSN, ATC, TXN_DATA and ARQC come, or none. -/
def arqcPresent (l : List Elem) : Bool :=
  let ts := [ePSN, eATC, eTXN_DATA, eARQC]
  (ts.all fun t => hasElem l t) || ! ts.any fun t => hasElem l t

/-- An entry put at the end of a tenant's journal, and into HBM behind those before it from TEN_JRN_BASE on (R172). -/
def journalPut (s : State) (t : Nat) (next : Nat) (e : Bytes) : State :=
  let v := s.siOf t
  let s := s.setSi t { v with next := next, journal := v.journal ++ [e] }
  { s with hbm := memWrite s.hbm (4096 * (s.tenant t).jrnBase + 64 * v.journal.length) e }

/-- A decision that finds no acknowledged JSEQ left waits before its commit (R391): no status has this number. -/
abbrev siWaits : Nat := 0x10000

/-- SI_AUTHORISE. -/
def siAuthorise (i : Item) : Cmd (Bytes × Bytes) := do
  siFitted
  let l ← payCheck i [req ePAN, must 0x1104 (lenIs 8), must 0x1105 (lenIs 2), opt eCTX, opt ePSN, opt eATC, opt eTXN_DATA, opt eARQC] []
    arqcPresent
  let found ← act fun s => triRoute s (panOf l)
  let route ← match found with
    | .ok r => pure r
    | .error st => throw st
  let s ← get
  let t := match route with
    | some w => w.toNat / 2 ^ 22
    | none => i.tenant
  need (decide (t = i.tenant) || (decide (i.tenant = 0) && (s.tenant t).siOwnerSubmit)) stNOT_AUTHORISED
  let id := handleOf l eCTX
  let card ← if hasElem l eCTX then (do
      let c ← getCtx { i with tenant := t } id (fun x => decide (x = 8))
      need (cardMatches c.body l) stOPERAND_RANGE
      pure (some c))
    else pure none
  refuseClaim t (if (s.siOf t).journal.length < 1024 * (s.tenant t).jrnQuota then none else some stQUOTA)
  let hasArqc := hasElem l eARQC
  let zone := match route with
    | some w => keyZone s t (w.toNat / 16 % 256)
    | none => none
  let sk ← if hasArqc ∧ route.isSome then (do
      match zone with
      | none => throw stKEY_NOT_FOUND
      | some z => do
        let k ← zoneKey z
        let aes := decide (k.alg = chr 'A')
        pure (some (z, aes, emvSession aes (iccKey k (panOf l) ((elemD l ePSN).getD 0 0) (byteAt z 5)) (elemD l eATC))))
    else pure none
  let s ← get
  if route.isSome ∧ (s.siOf t).reachable then pure (beBytes 2 0x0300 ++ zeros 6, elemBytes 0x1106 (beBytes 2 0x0300))
  else do
    need (! jseqLow s t || ctrReady s (jseqCtr t)) stBUSY
    need (leaseAllows s (leaseJseq t) (jseqNext s t)) siWaits
    let rs := match route with
      | some w => w.toNat / 2 ^ 12 % 1024
      | none => 0
    let now := s.time.ns / 1000000000
    let rules := if route.isSome then ruleSet s t rs else none
    let body := card.map fun (c : Ctx) => match rules with
      | some r => winsAdvance r (fitR 248 c.body) now
      | none => fitR 248 c.body
    let good := match sk with
      | some (_, aes, k) => decide ((emvMac aes k (elemD l eTXN_DATA)).take 8 = elemD l eARQC)
      | none => false
    let d : Deciding := {
      route := route, rules := rules, card := body, arqc := hasArqc, good := good, atc := elemNat l eATC
      amount := elemNat l 0x1104, currency := elemD l 0x1105 }
    let reason := reasonOf d
    let ok := decide (reason = 0)
    let decision := (if ok then 0x0100 else 0x0200) + reason
    let j := jseqNext s t
    let s := jseqReserve s t
    let approval := if ok then digitBytes (strRadix 6 (j % 1000000)) else zeros 6
    let s := match card, body with
      | some c, some b =>
        let b := match rules with
          | some r => if ok then cardApprove r b now d s.fresh else b
          | none => b
        s.setCtx (ctxRegion id) (ctxIndex id) (ctxPatch c 0 b)
      | _, _ => s
    let s := (journalPut s t (j + 1) (journalEntry s i l j decision rs d approval)).takeFresh
    set (jseqLeaseTop s t (j + 1))
    let arpc := match sk with
      | some (z, aes, k) => if ok ∧ good then elemBytes eARPC (zoneArpc z aes k (elemD l eARQC)) else []
      | none => []
    pure (beBytes 2 decision ++ beBytes 6 (j % 2 ^ 48), elemBytes 0x1106 (beBytes 2 decision) ++
      (if ok then elemBytes 0x1107 approval else []) ++ elemBytes 0x1108 (beBytes 8 j) ++ arpc)

/-! ## The journal (R174) -/

/-- SI_JOURNAL_READ. -/
def siJournalRead (i : Item) : Cmd Answer := do
  siFitted
  let l ← payCheck i [req eKEY_A, must 0x1108 (lenIs 8), must 0x110E (lenIs 2)] [] anyElems
  let n := elemNat l 0x110E
  need (decide (1 ≤ n ∧ n ≤ 128)) stOPERAND_RANGE
  handleTenants i l [eKEY_A]
  let k ← getKeyFor (handleOf l eKEY_A) [usage 'M' '6'] ['A'] ['C', 'G']
  let s ← get
  let es := ((s.siOf i.tenant).journal.filter fun e => decide (elemNat l 0x1108 ≤ field e 0 8)).take n
  pure (okElems [(0x110F, es.flatten), (0x1110, aesCmac k.bits es.flatten)])

/-- A tenant's journal after a release: the entries that stay lie in HBM one behind the other (R172). -/
def journalLay (s : State) (t : Nat) (l : List Bytes) : State :=
  let s := s.setSi t { s.siOf t with journal := l }
  { s with hbm := memWrite s.hbm (4096 * (s.tenant t).jrnBase) l.flatten }

/-- SI_JOURNAL_RELEASE. -/
def siJournalRelease (i : Item) : Cmd (Bytes × Bytes) := do
  siFitted
  let l ← payCheck i [must 0x1108 (lenIs 8)] [] anyElems
  let s ← get
  let v := s.siOf i.tenant
  set (journalLay s i.tenant (v.journal.filter fun e => decide (elemNat l 0x1108 < field e 0 8)))
  pure (elemD l 0x1108, [])

/-- SI_AUTHORISE, the command of core `core`. -/
def execSiAuthorise (core : Nat) (s : State) : Res := hostRun s core 0x0901 fun s i =>
  match (siAuthorise i).run s with
  | (.error st, t) => if st = siWaits then s else endItem t i st
  | (.ok (w, p), t) => answerRaw (dupCommit t i stOK (fitR 8 w)) i stOK p
/-- SI_ISSUER_STATE, the command of core `core`. -/
def execSiIssuerState (core : Nat) (s : State) : Res := hostRun s core 0x0902 fun s i => runCmd s i (siIssuerState i)
/-- SI_JOURNAL_READ, the command of core `core`. -/
def execSiJournalRead (core : Nat) (s : State) : Res := hostRun s core 0x0903 fun s i => runCmd s i (siJournalRead i)
/-- SI_JOURNAL_RELEASE, the command of core `core`. -/
def execSiJournalRelease (core : Nat) (s : State) : Res := hostRun s core 0x0904 fun s i => runCommit s i (siJournalRelease i)
/-- SI_RULES_LOAD, the command of core `core`. -/
def execSiRulesLoad (core : Nat) (s : State) : Res := hostRun s core 0x0905 fun s i => runCommit s i (siRulesLoad i)
/-- SI_CARD_UPDATE, the command of core `core`. -/
def execSiCardUpdate (core : Nat) (s : State) : Res := hostRun s core 0x0906 fun s i => runCommit s i (siCardUpdate i)
/-- SI_HEARTBEAT, the command of core `core`. -/
def execSiHeartbeat (core : Nat) (s : State) : Res := hostRun s core 0x0907 fun s i => runCmd s i (siHeartbeat i)

end Sys2Proof.Machine
end

