-- ==== Sys2Proof/Machine/Tamper.lean ====
section
/-!
DEFINITION. The tamper domain: monitors and responses (R402, R404 to R409), stimulus tests (R410), the blaze log (R412,
R413, R415, R416), DEV_STATUS and DEV_UNLOCK (R417 to R419), errors (R420) and the cell (R487, R488).
-/
namespace Sys2Proof.Machine

/-! ## Monitors and responses (R402, R406, R407) -/

/-- Bit m - 1 of a monitor map. -/
def monBit (m : Nat) : BitVec 16 := BitVec.ofNat 16 (2 ^ (m - 1))
/-- Monitor `m` stands in a map. -/
def monIn (v : BitVec 16) (m : Nat) : Bool := v.toNat.testBit (m - 1)
/-- The monitor codes in a map, ascending. -/
def monsIn (v : BitVec 16) : List Nat := ((List.range 16).map (· + 1)).filter (monIn v)

/-- The monitors that run on the backup cell alone. -/
def onCell (m : Nat) : Bool := decide (m ∈ [0x08, 0x09, 0x0A, 0x0B, 0x0C, 0x0D, 0x0F, 0x10])

/-- The floors of R402 in OWNED: 2 bits a monitor. -/
def floorWord (s : State) : Word := if lifeState s = lcOWNED then 0x88280055 else 0

/-- Monitor `m`'s field of a response word; 3 stands for 2. -/
def respField (w : Word) (m : Nat) : Nat := min 2 (w.toNat / 4 ^ (m - 1) % 4)
/-- A response word from a function of the monitor. -/
def respWord (f : Nat → Nat) : Word := BitVec.ofNat 32 ((List.range 16).foldl (fun n k => n + f (k + 1) * 4 ^ k) 0)
/-- No field below the floor; 3 stored as 2 (R407, R421). -/
def floored (s : State) (w : Word) : Word := respWord fun m => max (respField w m) (respField (floorWord s) m)
/-- The response of monitor `m`. -/
def respOf (s : State) (m : Nat) : Nat := respField (floored s s.tmp.resp) m

/-- TMP_CFG: loop enables, the response to a failed test and the test period. -/
def cfgLoopB (w : Word) : Bool := w.toNat.testBit 17
def cfgLoopA (w : Word) : Bool := w.toNat.testBit 16
def cfgFail (w : Word) : Nat := min 2 (w.toNat / 256 % 4)
def cfgPeriod (w : Word) : Nat := max 1 (w.toNat % 256)
/-- A TMP_CFG value as it is stored: the test failure's floor is LOCK in OWNED (R410). -/
def cfgStored (s : State) (w : Word) : Word :=
  let f := if lifeState s = lcOWNED then max 1 (cfgFail w) else cfgFail w
  BitVec.ofNat 32 ((if cfgLoopB w then 2 ^ 17 else 0) + (if cfgLoopA w then 2 ^ 16 else 0) + f * 256 + cfgPeriod w)

/-- A monitor can trip: a loop only where enabled, and on the cell only those that run there (R402, R411, R488). -/
def monRuns (s : State) (m : Nat) : Bool :=
  (decide (m ≠ 0x0C) || cfgLoopA s.tmp.cfg) && (decide (m ≠ 0x0D) || cfgLoopB s.tmp.cfg) &&
    (if s.tmp.power then decide (m ≠ 0x10) else onCell m)

/-! ## The blaze log (R412, R415, R416) -/

/-- The TAG of the newest NVM entry. -/
def logHead (s : State) : Bytes :=
  match s.tmp.log.getLast? with
  | some e => slice e 8 8
  | none => (sha384 (fitR 16 s.fuse.devid)).take 8

/-- RTC seconds, and sub-seconds in units of 1/32,768 s. -/
def rtcSec (s : State) : Nat := s.time.rtcUs / 1000000
def rtcSub (s : State) : Nat := s.time.rtcUs % 1000000 * 32768 / 1000000

/-- An entry without its tag. -/
def logEntry (s : State) (event resp : Nat) : Bytes :=
  beBytes 4 (rtcSec s) ++ beBytes 2 (rtcSub s + (if s.tmp.power then 0 else 32768)) ++ [BitVec.ofNat 8 event, BitVec.ofNat 8 (resp * 64)]

/-- The number the next entry will have. -/
def nextEntry (s : State) : Nat := s.tmp.log.length + s.tmp.buf.length

/-- An entry put into the buffer; one that finds it full is counted (R412). -/
def bufferEntry (s : State) (e : Bytes) : State :=
  if 256 ≤ s.tmp.buf.length then { s with tmp := { s.tmp with ovf := min (s.tmp.ovf + 1) 0xFFFFFFFF } }
  else { s with tmp := { s.tmp with buf := s.tmp.buf ++ [e] } }

/-- The buffer has no room. -/
def bufFull (s : State) : Bool := decide (256 ≤ s.tmp.buf.length)

/-! ## LOCK and ERASE (R405, R408, R409, R208) -/

/-- A paired unit that locks leaves service (R409). -/
def lockLeaves (s : State) : State :=
  let c := openCause s
  if s.role = roACTIVE then becomeFenced s.takeFresh c
  else if s.role = roSTANDBY ∨ s.role = roSYNCING then setRole s.takeFresh roFENCED c
  else s

/-- The device enters the locked state from open; the lock counter counts it in the same commit (R408), whatever the write
budget of R206. -/
def enterLock (s : State) : State :=
  if s.devLocked then s
  else lockLeaves (setIrq (ctrWrite { s with devLocked := true } lockCtr (ctrValue s lockCtr + 1)) .tmp 17)

/-- Both root shares and the mask seeds zeroised, with everything derived from them. -/
def eraseRoot (s : State) : State :=
  { s with root := { a := [], b := [] }, dr := none, maskGen := { key := [], ctr := 0, seeded := s.time.tick }
           cellGen := { key := [], ctr := 0, seeded := s.time.tick }, nvm := { s.nvm with fell := true }
           tmp := { s.tmp with erased := true } }

/-- Sessions end: their keys are gone. -/
def endSessions (s : State) : State := (opresent s.sessions).foldl (fun s e => closeSession s e.1) s

/-- ERASE on main power (R208): root, derived keys, key cache and the key registers of lanes and engines; work in
flight gets no response. -/
def eraseNow (s : State) : State :=
  let s := endAllItems { s with held := [], early := [], brakeQ := [], laneQ := [], lanes := [], sealQ := [] } none
  let s := endSessions s
  let s := { eraseRoot s with keys := [] }
  setIrq (s.setFlag .vlt VLT_STATUS_ERASED true) .tmp 18

/-- A response carried out: 0 LOG, 1 LOCK, 2 ERASE; on the cell a lock is left pending, and so it is while a slot is
programmed (R411, R432). -/
def respond (s : State) (resp : Nat) (defer : Bool) : State :=
  if s.tmp.power = false then
    let s := if 2 ≤ resp then eraseRoot s else s
    if 1 ≤ resp then { s with tmp := { s.tmp with pending := true } } else s
  else
    let s := setIrq s .tmp 16
    let s := if 1 ≤ resp then (if defer then { s with tmp := { s.tmp with pending := true } } else enterLock s) else s
    if 2 ≤ resp then eraseNow s else s

/-- Monitors trip in one cycle: logged in ascending code, and the strongest response applies once (R406, R412). -/
def tripMonitors (s : State) (ms : List Nat) (defer : Bool) : State :=
  let r := ms.foldl (fun (acc : State × Nat) m =>
    let s := acc.1
    let resp := respOf s m
    let full := bufFull s
    let n := nextEntry s
    let s := bufferEntry s (logEntry s m resp)
    let s := { s with tmp := { s.tmp with
      present := s.tmp.present ||| monBit m, disarmed := s.tmp.disarmed ||| monBit m, seen := s.tmp.seen ||| monBit m } }
    let s := if s.tmp.power then postEvent s .tmp (0x9000 + m) (BitVec.ofNat 32 resp) (BitVec.ofNat 32 n) else s
    (s, max acc.2 (if full then 2 else resp))) (s, 0)
  if ms = [] then s else respond r.1 r.2 defer

/-- The monitor whose window is open. -/
def underTest (s : State) : Option Nat := s.tmp.tests.head?.map Prod.fst

/-- Conditions that appear and trip: their monitors run, are armed and are not under test. -/
def tripping (s : State) (v : BitVec 16) : List Nat :=
  (monsIn v).filter fun m => monRuns s m && ! monIn s.tmp.disarmed m && decide (underTest s ≠ some m)

/-- The outcome in LCS_RESULT, recorded (R428, R435, R439). -/
def postResult (s : State) (status step src dst : Nat) : State :=
  let s := ((s.setFlag .lcs LCS_RESULT_VALID true).setFld .lcs LCS_RESULT_STEP step).setFld .lcs LCS_RESULT_STATUS status
  postEvent (setIrq s .lcs 16) .lcs 0xA001 (BitVec.ofNat 32 status) (BitVec.ofNat 32 step) (BitVec.ofNat 32 src) (BitVec.ofNat 32 dst)

/-- A lock or erase before the first bit is pulsed stops a transition, unless its target is SCRAP (R432). -/
def stopTransition (s : State) : State :=
  match s.lcs.prog with
  | some (t, _) =>
    if t = lcSCRAP then s
    else
      let s := { s.setFlag .lcs LCS_STATUS_BUSY false with lcs := { s.lcs with prog := none, stage := 0 } }
      postResult s stDEVICE_LOCKED 5 (lifeState s) t
  | none => s

/-- TAMPER_TRIP: the conditions `v` appear in one cycle; a rail's fall trips under R403 instead.  `pulsed`: the first
bit of a life-cycle slot has been pulsed (R432). -/
def execTamperTrip (v : BitVec 16) (pulsed : Bool) (s : State) : Res :=
  let v := v &&& ~~~ (monBit 5 ||| monBit 7)
  let ms := tripping s v
  let gone := decide (monIn v 0x10)
  let s := { s with tmp := { s.tmp with present := s.tmp.present ||| v, cell := s.tmp.cell && ! gone } }
  let strong := ms ≠ [] ∧ (bufFull s ∨ ms.any fun m => 1 ≤ respOf s m)
  let s := if strong ∧ pulsed = false ∧ s.tmp.power then stopTransition s else s
  .next (tripMonitors s ms (pulsed && s.lcs.prog.isSome))

/-- MONITOR_REARM: monitor `m`'s condition has been absent for 1 ms (R404). -/
def execMonitorRearm (m : Nat) (s : State) : Res :=
  if m = 0 ∨ 16 < m then .next s
  else .next { s with tmp := { s.tmp with present := s.tmp.present &&& ~~~ monBit m, disarmed := s.tmp.disarmed &&& ~~~ monBit m } }

/-- TMP_RESP_WRITE (R406, R407). -/
def execTmpRespWrite (v : Word) (s : State) : Res := onComplex s <|
  let w := floored s v
  let old := floored s s.tmp.resp
  let lowers := (List.range 16).any fun k => decide (respField w (k + 1) < respField old (k + 1))
  if (s.fld .vlt VLT_MEAS_SEAL).testBit 5 && lowers then .next (accessErr s .tmp)
  else .next { s with tmp := { s.tmp with resp := w } }

/-- TMP_CFG_WRITE, under the same rule. -/
def execTmpCfgWrite (v : Word) (s : State) : Res := onComplex s <|
  let w := cfgStored s v
  let old := cfgStored s s.tmp.cfg
  let lowers := (cfgLoopA old && ! cfgLoopA w) || (cfgLoopB old && ! cfgLoopB w) || decide (cfgFail w < cfgFail old) ||
    decide (cfgPeriod w < cfgPeriod old)
  if (s.fld .vlt VLT_MEAS_SEAL).testBit 5 && lowers then .next (accessErr s .tmp)
  else .next { s with tmp := { s.tmp with cfg := w } }

/-! ## From the buffer to the NVM log -/

/-- The device locks because the log is full, or warns that it fills (R416). -/
def logMark (s : State) : State :=
  let s := if s.tmp.log.length = 3584 then setIrq s .tmp 20 else s
  if s.tmp.log.length = 4096 then enterLock (setIrq s .tmp 21) else s

/-- An entry chained and written to the NVM log. -/
def logAppend (s : State) (e : Bytes) : State :=
  let x := e ++ (sha384 (logHead s ++ e)).take 8
  logMark { s with tmp := { s.tmp with log := s.tmp.log ++ [x] } }

/-- The NVM log is full. -/
def logFull (s : State) : Bool := decide (4096 ≤ s.tmp.log.length)

/-- The oldest buffered entry moves to the NVM log, where it has room. -/
def moveEntry (s : State) : State :=
  match s.tmp.buf with
  | [] => s
  | e :: l => if logFull s then s else logAppend { s with tmp := { s.tmp with buf := l } } e

/-- BLAZE_LOG_NVM_WRITE_DONE. -/
def execBlazeLogNvmWriteDone (s : State) : Res := .next (if s.tmp.power then moveEntry s else s)

/-- An entry appended at a start: to the NVM log, or to the buffer once that is full. -/
def startEntry (s : State) (head : Bytes) (event resp : Nat) : State :=
  let e := head ++ [BitVec.ofNat 8 event, BitVec.ofNat 8 (resp * 64)]
  let n := nextEntry s
  postEvent (if logFull s then bufferEntry s e else logAppend s e) .tmp (0x9000 + event) (BitVec.ofNat 32 resp) (BitVec.ofNat 32 n)

/-- The start steps of R413, with R414 first. -/
def tamperStart (s : State) : State :=
  let owned := decide (lifeState s = lcOWNED)
  let s := if s.tmp.bad then
      let s := { s with tmp := { s.tmp with
        bad := false, stateLost := true, resp := 0x89694555, cfg := 0x13C, pending := owned, buf := [], ovf := 0, seen := 0, erased := false } }
      raiseErr (startEntry s (zeros 6) 0x82 (if owned then 1 else 0)) .tmp 9 0xC2
    else { s with tmp := { s.tmp with stateLost := false } }
  let s := (List.range s.tmp.buf.length).foldl (fun s _ => moveEntry s) s
  let s := if s.tmp.ovf = 0 then s
    else startEntry { s with tmp := { s.tmp with ovf := 0 } } (beBytes 6 s.tmp.ovf) 0x81 0
  if s.tmp.pending then enterLock { s with tmp := { s.tmp with pending := false } } else s

/-- TMP_LOG_READ: a read of TMP_LOG_DATA_3 advances the cursor. -/
def execTmpLogRead (s : State) : Res := onComplex s <| .next (s.bump .tmp TMP_LOG_CURSOR)

/-! ## Stimulus tests (R410) -/

/-- TESTING follows the open window. -/
def markTesting (s : State) : State := s.setFlag .tmp TMP_STATUS_TESTING (decide (s.tmp.tests ≠ []))
/-- A test queued; the first in the queue has its window open. -/
def queueTest (s : State) (m : Nat) (sw : Bool) : State := markTesting { s with tmp := { s.tmp with tests := s.tmp.tests ++ [(m, sw)] } }

/-- STIMULUS_TEST_PERIOD: the next monitor of the cycle. -/
def execStimulusTestPeriod (s : State) : Res :=
  if s.tmp.power = false then .next s
  else
    let m := s.tmp.nextTest
    .next (queueTest { s with tmp := { s.tmp with nextTest := m % 16 + 1 } } m false)

/-- TMP_TEST_RUN: a write of RUN with SEL; no test starts for a code outside 1 to 16 or while RUN is set. -/
def execTmpTestRun (sel : BitVec 5) (s : State) : Res := onComplex s <|
  if s.flag .tmp TMP_TEST_RUN then .next s
  else
    let s := s.setFld .tmp TMP_TEST_SEL sel.toNat
    if sel.toNat = 0 ∨ 16 < sel.toNat then .next s
    else
      let s := ((s.setFlag .tmp TMP_TEST_RUN true).setFlag .tmp TMP_TEST_DONE false).setFlag .tmp TMP_TEST_FAIL false
      .next (queueTest s sel.toNat true)

/-- A test ends without a trip: logged, reported and answered (R410). -/
def testFailed (s : State) (m : Nat) : State :=
  let resp := cfgFail (cfgStored s s.tmp.cfg)
  let n := nextEntry s
  let full := bufFull s
  let s := bufferEntry s (logEntry s (0x40 + m) resp)
  let s := setIrq (raiseErr s .tmp 9 0xC1) .tmp 19
  respond (postEvent s .tmp (0x9040 + m) (BitVec.ofNat 32 resp) (BitVec.ofNat 32 n)) (if full then 2 else resp) false

/-- STIMULUS_WINDOW_CLOSE: whether the monitor tripped on its stimulus and whether its condition persists. -/
def execStimulusWindowClose (tripped persists : Bool) (s : State) : Res :=
  match s.tmp.tests with
  | [] => .next s
  | (m, sw) :: rest =>
    let real := persists || (monIn s.tmp.present m && ! monIn s.tmp.disarmed m)
    let s := markTesting { s with tmp := { s.tmp with tests := rest } }
    let s := if sw then ((s.setFlag .tmp TMP_TEST_RUN false).setFlag .tmp TMP_TEST_DONE true).setFlag .tmp TMP_TEST_FAIL (! tripped) else s
    let s := if tripped then s.bump .tmp TMP_TESTS else testFailed s m
    .next (if real ∧ monRuns s m ∧ monIn s.tmp.disarmed m = false then tripMonitors s [m] false else s)

/-! ## Errors (R420) -/

/-- TMP_LOGIC_PARITY: an immediate test of every monitor. -/
def execTmpLogicParity (code : Byte) (s : State) : Res :=
  let s := reportUncorrected s .tmp code.toNat
  .next ((List.range 16).foldl (fun s k => queueTest s (k + 1) false) s)

/-- BATTERY_DOMAIN_ERROR: ERASE, and the device locks. -/
def execBatteryDomainError (s : State) : Res :=
  .next (if s.tmp.power then eraseNow (enterLock (reportUncorrected s .tmp 0xC3)) else respond s 2 false)

/-! ## The cell (R487, R488) -/

/-- CELL_INSERTED: a cell is fitted and VHOLD starts to charge. -/
def execCellInserted (s : State) : Res := .next { s with tmp := { s.tmp with cell := true, vhold := false } }
/-- VHOLD_CHARGED. -/
def execVholdCharged (s : State) : Res := .next (if s.tmp.cell then { s with tmp := { s.tmp with vhold := true } } else s)

/-- The battery domain has lost its supply: root, retained state and RTC are gone (R414). -/
def domainDies (s : State) : State :=
  { s with root := { a := [], b := [] }, dr := none, devLocked := false, time := { s.time with rtcUs := 0 }
           tmp := { s.tmp with bad := true, vhold := false, buf := [], pending := false, present := 0, disarmed := 0 } }
/-- HOLD_UP_EXHAUSTED: with main power off and no cell. -/
def execHoldUpExhausted (s : State) : Res := .next (if s.tmp.power ∨ s.tmp.cell then s else domainDies s)

/-! ## DEV_STATUS and DEV_UNLOCK (R417 to R419) -/

/-- TAMPER_STATE. -/
def tamperState (s : State) : Bytes :=
  [BitVec.ofNat 8 (lockByte s), if s.tmp.pending then 1 else 0, if logFull s then 1 else 0, 0] ++ beBytes 2 s.tmp.present.toNat ++
  beBytes 2 s.tmp.log.length ++ beBytes 4 s.tmp.ovf ++ beBytes 8 (ctrValue s lockCtr) ++ logHead s ++ zeros 4

/-- DEV_STATUS: TAMPER_STATE, with elements that the spec does not list (log 25). -/
def devStatus (i : Item) : Cmd Answer := do
  let _ ← orStatus (elemsOf [] i)
  let s ← get
  set s.takeFresh
  let r := (Config.deviceStatus s.fresh).toNat
  pure (okElems [(0x1504, tamperState s), (r / 2 ^ 32 % 65536, beBytes 4 (r % 2 ^ 32))])

/-- The digest that custodians sign to unlock. -/
def unlockDigest (s : State) : Bytes :=
  sha384 (ascii "ADETRA-UNLOCK".toList ++ fitR 16 s.fuse.devid ++ beBytes 8 (ctrValue s lockCtr) ++ logHead s)

/-- The elements of DEV_UNLOCK. -/
def unlockDefs : List ElemDef :=
  [must 0x1501 (lenIs 8), must 0x1502 (lenIs 8), { must 0x1503 (lenIs 97) with repeats := true }]

/-- A monitor that answers with LOCK or ERASE shows its condition. -/
def conditionHolds (s : State) : Bool := (monsIn s.tmp.present).any fun m => decide (1 ≤ respOf s m)

/-- DEV_UNLOCK. -/
def devUnlock (i : Item) : Cmd (Bytes × Bytes) := do
  need (decide (i.tenant = 0 ∨ i.port = 0x80)) stNOT_AUTHORISED
  let l ← orStatus (elemsOf unlockDefs i)
  let cs := (l.filter fun e => e.1 = 0x1503).map fun e => (byteAt e.2 0, e.2.drop 1)
  need (decide (cs.length ≤ 8)) stFORMAT
  let s ← get
  need s.devLocked stOPERAND_RANGE
  need (! logFull s) stDEVICE_LOCKED
  need (decide (elemNat l 0x1501 = ctrValue s lockCtr ∧ elemD l 0x1502 = logHead s)) stNOT_AUTHORISED
  need (custodiansOk s 0 cs (unlockDigest s)) stNOT_AUTHORISED
  need (decide (2 ≤ cs.length)) stDUAL_CONTROL_REQUIRED
  need (! conditionHolds s) stBUSY
  let ctr := beBytes 8 (ctrValue s lockCtr)
  let rand ← if rootValid s then pure none else (do
      let r ← act fun s => vaultRandom s 192
      match r with
      | some b => pure (some b)
      | none => throw stRNG_UNAVAILABLE)
  let s ← get
  let s := match rand with
    | some b => if (s.fld .vlt VLT_MEAS_SEAL).testBit 4 then deriveRoot (newRoot s b) else newRoot s b
    | none => s
  let s := { s with devLocked := false, tmp := { s.tmp with erased := false }
                    shut := s.shut && ! (s.chipFault.isNone && s.tmp.core && s.tmp.io && s.tmp.window.isNone) }
  let s := bufferEntry s (logEntry s 0x80 0)
  set (postEvent s .tmp 0x9080 0 (BitVec.ofNat 32 (nextEntry s - 1)))
  let s ← get
  pure (ctr, elemBytes 0x1504 (tamperState s))

/-- DEV_STATUS, the command of core `core`. -/
def execDevStatus (core : Nat) (s : State) : Res := hostRun s core 0x0F02 fun s i => runCmd s i (devStatus i)
/-- DEV_UNLOCK, the command of core `core`. -/
def execDevUnlock (core : Nat) (s : State) : Res := hostRun s core 0x0F06 fun s i => runCommit s i (devUnlock i)

end Sys2Proof.Machine
end

