-- ==== Sys2Proof/Machine/Pair.lean ====
section
/-!
DEFINITION. Active and standby pairs: the link and whom it admits (R381, R382), roles (R383 to R386), epochs, deltas and
leases (R387 to R392), promotion and fencing (R393, R395), switchover (R398) and PAR errors (R400).
-/
namespace Sys2Proof.Machine

/-! ## Lasting state (R387) -/

/-- The lasting state discarded: every item of the delta contents table (R384, R387), but for the owner's authority,
by which a later link admits its partner (R382). -/
def discardLasting (s : State) : State :=
  { keepRecs (clearCurves s) (fun x => decide (x.typ = 2 ∧ x.tenant = 0)) with
    ctxs := [], leases := []
    keys := [], activeTmks := [], sessions := [], windows := [], hosts := []
    tenants := initTenants s.fuse.variant, si := [], rules := [], zones := [], tri := { s.tri with active := [] }
    curves := [], brakes := [] }

/-- An item of a delta or copy applied; the vault wraps a TMK under its own level 0 (R210, R388). -/
def applyItem (s : State) : DeltaItem → State
  | .context r i c => s.setCtx r i c
  | .lease k b => s.setLease k (some { acked := b, bound := b, epoch := 0 })
  | .tmk t i gen attr key => putTmk (ctrTake s (genCtr t i) gen) t i key attr
  | .fell t i gen =>
    let s := ctrTake s (genCtr t i) gen
    match findRec s 1 t i with
    | some (n, x) => writeRec s n { x with felled := true, wrap0 := [], wrap1 := [] }
    | none => s
  | .record n (some x) => writeRec s n x
  | .record n none => freeRec s n
  | .counter n v => ctrTake s n v
  | .active t i => { s with activeTmks := oset s.activeTmks t i }
  | .key n k => { s with keys := oset s.keys n k }
  | .session id (some x) => s.setSession id (some x)
  | .session id none => { s.setSession id none with leases := oset s.leases (leaseSession id) none }
  | .window w l => { s with windows := lset s.windows w l }
  | .host n h => s.setHost n h
  | .tenant t x => s.setTenant t x
  | .issuer t x => s.setSi t x
  | .rules n b => { s with rules := oset s.rules n b }
  | .zone n b => { s with zones := oset s.zones n b }
  | .nodes b l =>
    { s with tri := { s.tri with
      active := (List.range 128).foldl (fun m k => mset (fun _ => 0) m (128 * b + k) (l.getD k 0)) s.tri.active } }
  | .curve n c => putCurve s n c
  | .brake n b => { s with brakes := oset s.brakes n b }

/-- An item in the form in which two are compared: what is the unit's own (a context's lock, a key's mask, the times of a
host's frames) is left out. -/
def DeltaItem.plain : DeltaItem → DeltaItem
  | .context r i c => .context r i { c with lock := false, wipe := false, waiters := [] }
  | .key n (some k) => .key n (some { k with masked := k.key, mask := zeros k.masked.length })
  | .host n (some h) => .host n (some { h with lastFrame := 0, lastMove := none })
  | .session id (some x) => .session id (some { x with closeItem := none })
  | x => x

/-- What an item is about: its kind, and its place among those of its kind. -/
def DeltaItem.place : DeltaItem → Nat × Nat
  | .context r i _ => (0, ctxKey r i)
  | .lease k _ => (1, k)
  | .tmk t i _ _ _ | .fell t i _ => (2, 4 * t + i)
  | .record n _ => (3, n)
  | .counter n _ => (4, n)
  | .active t _ => (5, t)
  | .key n _ => (6, n)
  | .session n _ => (7, n)
  | .window n _ => (8, n)
  | .host n _ => (9, n)
  | .tenant n _ => (10, n)
  | .issuer n _ => (11, n)
  | .rules n _ => (12, n)
  | .zone n _ => (13, n)
  | .nodes n _ => (14, n)
  | .curve n _ => (15, n)
  | .brake n _ => (16, n)

/-- The item that says that what an item gave is there no longer; a lease ends with its counter. -/
def DeltaItem.gone : DeltaItem → Option DeltaItem
  | .context r i _ => some (.context r i Ctx.free)
  | .record n _ => some (.record n none)
  | .active t _ => some (.active t none)
  | .key n _ => some (.key n none)
  | .session n _ => some (.session n none)
  | .window n _ => some (.window n [])
  | .host n _ => some (.host n none)
  | .tenant t _ => some (.tenant t Tenant.free)
  | .issuer t _ => some (.issuer t SiTenant.start)
  | .rules n _ => some (.rules n none)
  | .zone n _ => some (.zone n none)
  | .nodes b _ => some (.nodes b (List.replicate 128 0))
  | .curve n _ => some (.curve n none)
  | .brake n _ => some (.brake n none)
  | .lease .. | .tmk .. | .fell .. | .counter .. => none

/-- Counters that the delta carries: update counters, TMK generations and JSEQ bounds, not the unit's own lock counter and
version floor (R173, R210). -/
def pairCounter (n : Nat) : Bool := decide (n ≠ lockCtr ∧ n ≠ floorCtr)

/-- The lasting state of a unit, item by item (R387). -/
def lasting (s : State) : List DeltaItem :=
  s.ctxs.map (fun e => .context (e.1 / 65536) (e.1 % 65536) e.2) ++
  (opresent s.leases).map (fun e => .lease e.1 e.2.bound) ++
  (opresent s.recs).map (fun e =>
    if e.2.typ ≠ 1 then .record e.1 (some e.2)
    else if e.2.felled then .fell e.2.tenant e.2.index (tmkGen s e.2.tenant e.2.index)
    else .tmk e.2.tenant e.2.index (tmkGen s e.2.tenant e.2.index) e.2.attr ((tmkOf s e.2.tenant e.2.index).getD [])) ++
  (s.ctrs.filter fun e => pairCounter e.1).map (fun e => .counter e.1 (ctrValue s e.1)) ++
  (opresent s.activeTmks).map (fun e => .active e.1 (some e.2)) ++
  (opresent s.keys).map (fun e => .key e.1 (some e.2)) ++
  (opresent s.sessions).map (fun e => .session e.1 (some e.2)) ++
  s.windows.map (fun e => .window e.1 e.2) ++
  (opresent s.hosts).map (fun e => .host e.1 (some e.2)) ++
  s.tenants.map (fun e => .tenant e.1 e.2) ++
  s.si.map (fun e => .issuer e.1 e.2) ++
  (opresent s.rules).map (fun e => .rules e.1 (some e.2)) ++
  (opresent s.zones).map (fun e => .zone e.1 (some e.2)) ++
  ((s.tri.active.map fun e => e.1 / 128).eraseDups).map (fun b => .nodes b ((List.range 128).map (triSlot s b))) ++
  (opresent s.curves).map (fun e => .curve e.1 (some e.2)) ++
  (opresent s.brakes).map (fun e => .brake e.1 (some e.2))

/-- What changed since the deltas closed so far: new and changed items, and those of what is gone (R108, R387). -/
def changed (s : State) : List DeltaItem :=
  let now := lasting s
  let was := s.pair.shadow
  (now.filter fun x => ! was.contains x.plain) ++
    (was.filter fun x => ! now.any fun y => decide (y.place = x.place)).filterMap DeltaItem.gone

/-- The epoch count stored. -/
def setEpoch (s : State) (e : Nat) : State := (s.setFld .par PAIR_EPOCH_LO e).setFld .par PAIR_EPOCH_HI (e / 2 ^ 32)

/-- A delta applied: its items, and device time set to the delta's (R388). -/
def applyDelta (s : State) (d : Delta) : State :=
  let s := d.items.foldl applyItem s
  let s := (setEpoch s (d.epoch + 1)).setFld .par PAIR_DELTA_LAST d.bytes
  { s with
    time := { s.time with ns := d.time }
    pair := { s.pair with applied := some d.epoch, lastDelta := s.time.tick } }

/-- The deltas that wait, applied while each follows the one before (R388); `whole` applies all that are held (R393). -/
def applyStaged (whole : Bool) : List Delta → State → State
  | [], s => { s with pair := { s.pair with staged := [] } }
  | d :: l, s =>
    if whole || decide (s.pair.applied = none ∨ s.pair.applied = some (d.epoch - 1) ∧ d.epoch ≠ 0) then
      applyStaged whole l (applyDelta s d)
    else { s with pair := { s.pair with staged := d :: l } }

/-- A delta put among those that wait, by rising epoch. -/
def stageDelta (d : Delta) : List Delta → List Delta
  | [] => [d]
  | e :: l => if d.epoch < e.epoch then d :: e :: l else if d.epoch = e.epoch then d :: l else e :: stageDelta d l

/-! ## Leases (R390, R392) -/

/-- Leases for every counter that exists, when a unit becomes ACTIVE with a partner (R390). -/
def grantAll (s : State) : State :=
  let s := s.ctxs.foldl (fun s e =>
    let c := e.2
    if c.valid ∧ 4 ≤ c.typ ∧ c.typ ≤ 7 then leaseGrant s e.1 (ctxCounter c) (ctxBlock s c.typ) else s) s
  let s := (opresent s.sessions).foldl (fun s e => leaseGrant s (leaseSession e.1) e.2.devSeq (seqBlock s) (2 ^ 36)) s
  (List.range 1023).foldl (fun s t =>
    if (s.tenant t).state ≠ 0 then jseqGrant s t else s) s

/-- A counter raised to its lease's bound (R392); a JSEQ above its reserved bound too (R173).  A session
that has no sequence number left is closed (R98). -/
def raiseCounter (s : State) (k bound : Nat) : State :=
  if k < 2 ^ 18 then
    let c := s.ctxAt (k / 65536) (k % 65536)
    if c.valid ∧ ctxCounter c < bound then
      s.setCtx (k / 65536) (k % 65536) { c with body := patch (fitR 248 c.body) 0 (beBytes 8 bound), gen := c.gen + 1 }
    else s
  else if k < 2 ^ 34 then
    match s.session (k - 2 ^ 32) with
    | some x =>
      if 2 ^ 36 ≤ bound then closeSession s (k - 2 ^ 32)
      else s.setSession (k - 2 ^ 32) (some { x with devSeq := max x.devSeq bound })
    | none => s
  else
    let t := k - 2 ^ 34
    s.setSi t { s.siOf t with next := max (max (jseqNext s t) bound) (ctrValue s (jseqCtr t)) }

/-- Every leased counter at the highest bound received (R392). -/
def raiseCounters (s : State) : State := (opresent s.leases).foldl (fun s e => raiseCounter s e.1 e.2.bound) s

/-- The heartbeat timers re-armed with their full periods (R160). -/
def rearmTimers (s : State) : State :=
  if s.fuse.variant.standIn then
    (List.range 1023).foldl (fun s t => if (s.tenant t).state = 1 then armHeartbeat s t else s) s
  else s

/-! ## Role changes -/

/-- A standby becomes ACTIVE (R393). -/
def promote (s : State) (cause : Nat) : State :=
  let s := unpair (rearmTimers (raiseCounters (applyStaged true s.pair.staged s)))
  (setRole s roACTIVE cause).bumpSat .par PAIR_FAILOVERS

/-- A serving unit has a partner from now on: it is ACTIVE and leases its counters (R384, R390), and the full copy gives the
partner its lasting state as it stands (R385). -/
def takePartner (s : State) : State :=
  let s := setRole s.takeFresh roACTIVE (openCause s)
  let s := grantAll { s with pair := { s.pair with paired := true, silent := 0, heard := true, unacked := [] } }
  { s with pair := { s.pair with shadow := (lasting s).map DeltaItem.plain } }

/-- The unit takes its partner's state as SYNCING, its own lasting state discarded (R384, R385, R393). -/
def startSync (s : State) : State :=
  let s := setRole (discardLasting s.takeFresh) roSYNCING (openCause s)
  { s with pair := { s.pair with applied := none, staged := [], joining := false } }

/-- A role whose unit serves hosts. -/
def serving (r : Nat) : Bool := decide (r = roALONE ∨ r = roACTIVE)

/-- The partner's identity in PAIR_PEER_ID (R401): [31:0] in PAIR_PEER_ID_0. -/
def peerId (s : State) : Bytes :=
  beBytes 4 (s.fld .par (PAIR_PEER_ID 3)) ++ beBytes 4 (s.fld .par (PAIR_PEER_ID 2)) ++
    beBytes 4 (s.fld .par (PAIR_PEER_ID 1)) ++ beBytes 4 (s.fld .par (PAIR_PEER_ID 0))

/-- The checks of R382 on the partner's identity, owner authority and life-cycle state. -/
def partnerKnown (s : State) (x : Partner) : Bool :=
  x.cert && decide (x.devid = peerId s) && decide (x.owner = (findAuth s 0).map fun r => r.2.pub) &&
    decide (x.life = lifeState s)

/-- What the roles of the two units make of a link that admits the partner (R384, R393). -/
def meetPartner (s : State) (x : Partner) : State :=
  let r := s.role
  if serving r then
    if serving x.role then setIrq (s.setFlag .par PAIR_STATUS_CONFLICT true) .par 19
    else
      let s := s.setFlag .par PAIR_STATUS_CONFLICT false
      if (x.role = roNONE ∧ x.seeks) ∨ x.role = roFENCED ∨ x.role = roSYNCING then takePartner s else s
  else
    let s := s.setFlag .par PAIR_STATUS_CONFLICT false
    if serving x.role ∧ ((r = roNONE ∧ s.pair.joining) ∨ r = roFENCED ∨ r = roSYNCING) then startSync s else s

/-- PAIR_LINK_UP with `lanes` in block lock: the session opens when every check of R382 holds. -/
def execPairLinkUp (lanes : Byte) (x : Partner) (s : State) : Res :=
  if running s .par = false ∨ lanes = 0 then .next s
  else
    let s := s.setFld .par PAIR_STATUS_LANES lanes.toNat
    let s := (s.setFlag .par PAIR_STATUS_ID_REFUSED (! partnerKnown s x)).setFlag .par PAIR_STATUS_FMT_MISMATCH (! x.format)
    if partnerKnown s x ∧ x.format then
      let s := s.setFlag .par PAIR_STATUS_LINK_UP true
      .next (meetPartner { s with pair := { s.pair with partner := x.role } } x)
    else .next (raiseErr s .par 12 0xB2)

/-- The link is declared down (R381). -/
def linkDown (s : State) : State :=
  let s := { s with pair := { s.pair with switching := false } }
  setIrq (linkClosed s) .par 17

/-- PAIR_LINK_DOWN: a frame is abandoned after its retries, or every lane has lost block lock. -/
def execPairLinkDown (abandoned : Bool) (s : State) : Res :=
  if s.flag .par PAIR_STATUS_LINK_UP = false then .next s
  else if abandoned then .next (linkDown (raiseErr s .par 9 0xB0))
  else .next (linkDown (s.setFld .par PAIR_STATUS_LANES 0))

/-- PAIR_LANE_BLOCK_LOCK: lane `n` loses or regains block lock; the loss of the last one takes the link down (R381). -/
def execPairLaneBlockLock (n : BitVec 3) (lock : Bool) (s : State) : Res :=
  if running s .par = false then .next s
  else
    let s := s.setFlag .par ⟨0x048, 16 + n.toNat, 1⟩ lock
    .next (if s.fld .par PAIR_STATUS_LANES = 0 ∧ s.flag .par PAIR_STATUS_LINK_UP then linkDown s else s)

/-- PAIR_JOIN_TIMEOUT: no partner within JOIN_WAIT (R384). -/
def execPairJoinTimeout (s : State) : Res :=
  .next (if s.role = roNONE then { s with pair := { s.pair with joining := false } } else s)

/-- FULL_COPY_DONE: the copy of `mib` MiB and the deltas that came with it have been applied (R385). -/
def execFullCopyDone (mib : BitVec 16) (copy : List DeltaItem) (s : State) : Res :=
  if s.role ≠ roSYNCING ∨ s.flag .par PAIR_STATUS_LINK_UP = false then .next s
  else
    let s := copy.foldl applyItem s
    let s := (s.setFld .par PAIR_COPY_TOTAL mib.toNat).setFld .par PAIR_COPY_DONE mib.toNat
    let s := setIrq (setRole s.takeFresh roSTANDBY (openCause s)) .par 18
    .next { s with pair := { s.pair with lastDelta := s.time.tick } }

/-- PAIR_HEARTBEAT_LOST (R386): no role changes. -/
def execPairHeartbeatLost (s : State) : Res :=
  let was := s.flag .par PAIR_STATUS_PEER_HB
  let s := { s.setFlag .par PAIR_STATUS_PEER_HB false with balls := { s.balls with hbIn := false } }
  .next (if was then setIrq s .par 21 else s)

/-- PAIR_HEARTBEAT_PRESENT (R386). -/
def execPairHeartbeatPresent (s : State) : Res :=
  .next { s.setFlag .par PAIR_STATUS_PEER_HB true with balls := { s.balls with hbIn := true } }

/-! ## Epochs and deltas -/

/-- The current epoch closes with a delta of everything that changed in it, `bytes` on the link, of which and of the backlog
the link takes `sent` (R387, R389). -/
def closeEpoch (s : State) (bytes sent retries : Nat) : State :=
  let e := s.epoch
  let s := (setEpoch s (e + 1)).setFld .par PAIR_DELTA_LAST bytes
  if s.pair.paired = false then s
  else
    let up := s.flag .par PAIR_STATUS_LINK_UP
    let waiting := s.fld .par PAIR_BACKLOG + bytes - (if up then sent else 0)
    let s := if up then s.bump .par PAIR_RETRY retries else s
    let d : Delta := { epoch := e, bytes := bytes, time := s.time.ns, items := changed s }
    refreshBacklog { s with
      pair := { s.pair with unacked := s.pair.unacked ++ [d], shadow := (lasting s).map DeltaItem.plain } } waiting

/-- EPOCH_CLOSE: the fourth whole epoch without an acknowledgement fences the unit, or leaves it ALONE when its partner
is dead (R393). -/
def execEpochClose (bytes sent : BitVec 24) (retries : Byte) (s : State) : Res :=
  if s.role ≠ roACTIVE then .next s
  else
    let s := closeEpoch (touch s .par) bytes.toNat sent.toNat retries.toNat
    if s.pair.paired = false ∨ s.role ≠ roACTIVE then .next s
    else if s.pair.heard then .next { s with pair := { s.pair with heard := false, silent := 0 } }
    else
      let s := { s with pair := { s.pair with silent := s.pair.silent + 1 } }
      if s.pair.silent < 4 then .next s
      else if s.balls.hbIn then .next (becomeFenced s 1)
      else .next (becomeAlone s 4)

/-- DELTA_RECEIVED whole and verified: staged, and applied in epoch order (R388). -/
def execDeltaReceived (d : Delta) (s : State) : Res :=
  if (s.role ≠ roSYNCING ∧ s.role ≠ roSTANDBY) ∨ s.flag .par PAIR_STATUS_LINK_UP = false then .next s
  else if (match s.pair.applied with | some e => decide (d.epoch ≤ e) | none => false) then .next s
  else .next (applyStaged false (stageDelta d s.pair.staged) s)

/-- DELTA_ACK_RECEIVED for epoch `e`, from a partner in STANDBY or SYNCING: lease bounds become usable, and held replies
leave (R390, R391, R396). -/
def execDeltaAckReceived (e : Nat) (standby : Bool) (s : State) : Res :=
  if s.role ≠ roACTIVE ∨ s.pair.paired = false ∨ s.flag .par PAIR_STATUS_LINK_UP = false ∨ s.epoch ≤ e then .next s
  else
    let s := s.setFld .par PAIR_ACKED_LO e
    let s := { s with
      leases := mmap (fun _ => none) (fun x : Option Lease => x.map fun l => if l.epoch ≤ e then { l with acked := l.bound } else l) s.leases
      pair := { s.pair with
        unacked := s.pair.unacked.filter fun u => e < u.epoch
        silent := 0, heard := true, partner := if standby then roSTANDBY else roSYNCING } }
    .next (releaseHeld (refreshBacklog s (s.fld .par PAIR_BACKLOG)) (some e))

/-! ## Promotion and fencing (R393) -/

/-- STANDBY_TIMEOUT: 200 µs with no delta applied. -/
def execStandbyTimeout (s : State) : Res :=
  if s.role ≠ roSTANDBY then .next s
  else .next (promote (advanceTo s (s.pair.lastDelta + 200)) 1)

/-- PARTNER_PROMOTED_MSG. -/
def execPartnerPromotedMsg (s : State) : Res := .next (if s.role = roACTIVE then becomeFenced s 3 else s)

/-- PARTNER_WITHDRAW_MSG of a partner that locked (R409). -/
def execPartnerWithdrawMsg (s : State) : Res := .next (if s.role = roACTIVE then becomeAlone s 3 else s)

/-- ROLE_MESSAGE_RECEIVED by a standby: of a switchover, whose sender follows it, or of a partner that has locked
(R398, R409). -/
def execRoleMessageReceived (switchover : Bool) (s : State) : Res :=
  if s.role ≠ roSTANDBY then .next s
  else
    let s := promote s 3
    .next (if switchover then takePartner { s with pair := { s.pair with partner := roSTANDBY } } else s)

/-- A command of PAIR_CMD that the unit's role does not allow. -/
def pairRefused (s : State) : State := raiseErr s .par 12 0xB4

/-- PAIR_SWITCH on the active unit with its partner in STANDBY: admission stops (R398). -/
def execPairSwitch (s : State) : Res := onComplex s <|
  if s.role = roACTIVE ∧ s.pair.paired ∧ s.flag .par PAIR_STATUS_LINK_UP ∧ s.pair.partner = roSTANDBY then
    .next { s with pair := { s.pair with switching := true } }
  else .next (pairRefused s)

/-- SWITCH_DRAIN_TIMEOUT: the rest returns DISCARDED_FAILOVER, the epoch closes and is acknowledged, and the unit
follows (R398). -/
def execSwitchDrainTimeout (s : State) : Res :=
  if s.role ≠ roACTIVE ∨ s.pair.switching = false then .next s
  else
    let s := endAllItems s (some stDISCARDED_FAILOVER)
    let e := s.epoch
    let s := releaseHeld ((setEpoch s (e + 1)).setFld .par PAIR_ACKED_LO e) (some e)
    let keep := s.leases
    let s := setRole (discardHeld (unpair s)) roSTANDBY 2
    .next { s with
      leases := keep
      pair := { s.pair with partner := roACTIVE, applied := some e, staged := [], lastDelta := s.time.tick } }

/-- PAIR_PROMOTE: a standby becomes ACTIVE, a unit in NONE becomes ALONE (R384, R393). -/
def execPairPromote (s : State) : Res := onComplex s <|
  if running s .par = false then .next (pairRefused s)
  else if s.role = roSTANDBY then .next (promote s 2)
  else if s.role = roNONE then
    .next (setRole { s with pair := { s.pair with joining := false } } roALONE 2)
  else .next (pairRefused s)

/-- ABANDON_STATE: the unit discards its lasting state and becomes NONE; work in flight gets no response (R384, R395). -/
def execAbandonState (s : State) : Res := onComplex s <|
  let s := discardHeld (endAllItems s none)
  let s := becomeNone (discardLasting s) 2
  .next { s.setFlag .par PAIR_STATUS_CONFLICT false with pair := { s.pair with joining := running s .par } }

/-- PAR_UNCORRECTABLE_ERROR in its delta buffers or link logic (R400). -/
def execParUncorrectableError (parity : Bool) (s : State) : Res :=
  if stateOf s .par = stOff ∨ stateOf s .par = stFailed then .next s else .next (parFail s 0xB1 parity)

end Sys2Proof.Machine
end

