-- ==== Sys2Proof/Machine/Reset.lean ====
section
/-!
DEFINITION. Chip resets (R455 to R457), the ROM and its service (R86, R428, R461, R463), life-cycle transitions (R426 to
R432), READY and the watchdog (R464, R467).
-/
namespace Sys2Proof.Machine

/-! ## Where a start stands -/

/-- The ROM is about to run. -/
abbrev sgROM : Nat := 0
/-- The ROM runs its management-port service. -/
abbrev sgSERVICE : Nat := 1
/-- The ROM programs a life-cycle slot. -/
abbrev sgPROGRAM : Nat := 2
/-- The first stage has taken over. -/
abbrev sgRUN : Nat := 3

/-! ## Erasing for a transition (R426, R431) -/

/-- User secrets: both root shares, the key cache, level-1 records, contexts and journals. -/
def eraseUser (s : State) : State :=
  { keepRecs s (fun x => decide (x.typ ≠ 1)) with
    root := { a := [], b := [] }, dr := none, maskGen := { key := [], ctr := 0, seeded := s.time.tick }, keys := []
    ctxs := [], si := mmap (fun _ => SiTenant.start) (fun x => { x with journal := [] }) s.si }

/-- Every NVM record and counter but the blaze log. -/
def eraseNvm (s : State) : State := 
  { s with recs := [], nvm := { s.nvm with pos := [], seq := [], cells := [] }, ctrs := [], activeTmks := [] }

/-- What is erased before the slot of a target state is programmed. -/
def eraseFor (s : State) (target : Nat) : State :=
  if target = lcDEBUG then eraseUser s
  else if target = lcSCRAP then eraseNvm (eraseUser s)
  else if target = lcSHIPPED then eraseNvm { s with root := { a := [], b := [] }, keys := [] }
  else s

/-- A start that finds ERASE_PENDING finishes the erase. -/
def finishErase (s : State) : State :=
  match s.lcs.erase with
  | some t => { eraseFor s t with lcs := { s.lcs with erase := none } }
  | none => s

/-! ## The slot (R423, R430) -/

/-- The slot holds the target's code word: the commit to OWNED writes the owner authority record with its counter at 0. -/
def slotWritten (s : State) (target : Nat) (pub : Bytes) : State :=
  let s := { s with
    fuse := { s.fuse with slots := s.fuse.slots ++ [codeWord target] }
    lcs := { s.lcs with prog := none, erase := none } }
  if target = lcOWNED then putAuth (ctrTake s 0 0) 0 pub else s

/-- Programming stops with the bits `w` of the code word set: with none of them nothing has changed, with all of them
the slot stands. -/
def slotStopped (s : State) (w : Word) : State :=
  match s.lcs.prog with
  | none => s
  | some (t, pub) =>
    let x := codeWord t &&& w
    if x = codeWord t then slotWritten s t pub
    else if x = 0 then { s with lcs := { s.lcs with prog := none } }
    else { s with
      fuse := { s.fuse with slots := s.fuse.slots ++ [x] }
      lcs := { s.lcs with prog := none, erase := none } }

/-! ## Chip resets (R455, R456) -/

/-- Causes of R455. -/
abbrev rcPOWER : Nat := 1
abbrev rcRESETN : Nat := 2
abbrev rcARM : Nat := 3
abbrev rcSOFT : Nat := 4
abbrev rcWDT : Nat := 5
abbrev rcBOOT : Nat := 6

/-- Stored registers of one state put back into another. -/
def keepRegs (old s : State) (p : PageId) (offs : List Nat) : State := offs.foldl (fun s o => s.setReg p o (old.reg p o)) s

/-- The recorder after a reset: its records are kept but for power-on, and a RESET record is queued first (R438, R449). -/
def resetEvr (s t : State) (cause : Nat) : State :=
  if cause = rcPOWER then t
  else
    let kept := if s.fuse.variant.evrHist then s.evr.hist.length else s.evr.recs.length
    let t := keepRegs s t .evr [0x04C, 0x050, 0x084, 0x088]
    let t := { t with evr := { t.evr with
      recs := s.evr.recs, hist := s.evr.hist, next := s.evr.next, overwrote := s.evr.overwrote } }
    postEvent t .evr 0x0004 (BitVec.ofNat 32 cause) (BitVec.ofNat 32 kept)

/-- A chip reset: what R456 clears is as after reset; OTP, the vault NVM, the battery domain and the inputs stay, with
what R455 keeps for the cause. -/
def chipReset (s : State) (cause : Nat) : State :=
  let s := slotStopped s.takeFresh (Config.slotBits s.fresh)
  let first := decide (cause = rcPOWER ∨ cause = rcRESETN)
  let fault := if first then none else s.chipFault
  let t : State := { State.reset with
    pending := s.pending, fresh := s.fresh, fuse := s.fuse, regs := []
    balls := { s.balls with ready := false, fault := fault.isSome, hbOut := false, gpio := 0 }
    time := { s.time with ns := (if cause = rcPOWER then 0 else s.time.ns), wdt := s.time.tick }
    repairMap := s.repairMap, chipFault := fault, tenants := initTenants s.fuse.variant
    devLocked := s.devLocked, shut := fault.isSome || ! (s.tmp.core && s.tmp.io) || s.tmp.window.isSome
    recs := s.recs, nvm := s.nvm, ctrs := s.ctrs, root := s.root, maskGen := { key := [], ctr := 0, seeded := s.time.tick }
    cellGen := s.cellGen, sys := { s.sys with rewrapped := rewrapDone s }, activeTmks := s.activeTmks
    pair := { State.reset.pair with roleHigh := s.balls.pairRoleHigh }
    tmp := { s.tmp with tests := [] }
    lcs := { prog := none, erase := s.lcs.erase, stage := sgROM } }
  let t := t.setFld .rst RST_CAUSE cause
  let t := t.setFld .rst RST_COUNT (if cause = rcPOWER then 0 else min (s.fld .rst RST_COUNT + 1) 0xFFFF)
  let t := if rcSOFT ≤ cause then keepRegs s t .rst [0x054] else t
  let t := if cause = rcARM then keepRegs s t .lcs (0x050 :: (List.range 512).map fun w => 0x800 + 4 * w) else t
  let t := (t.setFld .mgt MGT_MAC_HI (field s.fuse.mgtMac 0 2)).setFld .mgt MGT_MAC_LO (field s.fuse.mgtMac 2 4)
  let t := if s.fuse.variant = .a880 then t else (List.range 4).foldl (fun t r => t.setFld (.odm r) ODM_CFG_LONG_MAX 1) t
  resetEvr s t cause

/-- POWER_ON: VDD_CORE enters its range. -/
def execPowerOn (s : State) : Res :=
  .next (chipReset { s with tmp := { s.tmp with power := true, core := true, io := true, window := none } } rcPOWER)

/-- RESET_N low for 100 ns or longer. -/
def execResetN (s : State) : Res := .next (if s.tmp.power then chipReset s rcRESETN else s)

/-- RST_CMD written: 0x0000_00C1 resets the chip, another value is refused. -/
def execRstCmd (v : Word) (s : State) : Res :=
  if complexRuns s = false then .next s
  else if v = 0x000000C1 then .next (chipReset s rcSOFT)
  else .next (accessErr s .rst)

/-! ## The watchdog (R467) -/

/-- The watchdog runs (R456, R467). -/
def wdtRuns (s : State) : Bool := complexRuns s && decide (s.fld .rst RST_WDT ≠ 0)

/-- WATCHDOG_HALF: time passes to half the timeout. -/
def execWatchdogHalf (s : State) : Res :=
  if wdtRuns s = false then .next s
  else .next (setIrq (advanceTo s (s.time.wdt + 500 * s.fld .rst RST_WDT)) .rst 16)

/-- WATCHDOG_EXPIRY: time passes to the timeout, and the chip resets. -/
def execWatchdogExpiry (s : State) : Res :=
  if wdtRuns s = false then .next s
  else .next (chipReset (advanceTo s (s.time.wdt + 1000 * s.fld .rst RST_WDT)) rcWDT)

/-- RST_WDT_KICK: any write restarts the watchdog. -/
def execRstWdtKick (s : State) : Res := onComplex s <| .next { s with time := { s.time with wdt := s.time.tick } }

/-! ## Boot failure and READY (R463, R464) -/

/-- A stage fails: RST_BOOT takes the TYPE and status, and the chip resets with cause 6. -/
def bootFail (s : State) (typ status : Nat) : State :=
  chipReset ((s.setFld .rst RST_BOOT_TYPE typ).setFld .rst RST_BOOT_STATUS status) rcBOOT

/-- BOOT_FAILURE of a component's stage. -/
def execBootFailure (typ : Byte) (status : Cell) (s : State) : Res :=
  if complexRuns s = false ∨ s.lcs.stage ≠ sgRUN then .next s else .next (bootFail s typ.toNat status.toNat)

/-- READY may rise: the vault runs, MEAS_7 is sealed and an expander runs (R464). -/
def readyAllowed (s : State) : Bool :=
  running s .vlt && (s.fld .vlt VLT_MEAS_SEAL).testBit 7 && (lowestExpander s).isSome

/-- RST_READY written. -/
def execRstReady (on : Bool) (s : State) : Res :=
  if complexRuns s = false then .next s
  else if on && ! readyAllowed s then .next (accessErr s .rst)
  else .next { s.setFlag .rst RST_READY on with balls := { s.balls with ready := on } }

/-! ## Transition requests (R427, R429) -/

/-- A transition request taken apart. -/
structure LcReq where
  src : Nat
  dst : Nat
  devid : Bytes
  count : Nat
  after : Nat
  token : Bytes
  pub : Bytes
  voucher : Bytes
  signer : Nat
  sig : Bytes
  custs : List (Nat × Bytes)
  digest : Bytes

/-- MAGIC, FORMAT, bytes that are zero, and the length. -/
def parseReq (b : Bytes) : Except Nat LcReq :=
  if b.length < 312 then .error stLENGTH
  else if slice b 0 6 ≠ [0x41, 0x44, 0x4C, 0x43, 0, 1] ∨ slice b 113 3 ≠ zeros 3 ∨ slice b 214 2 ≠ zeros 2 ∨ 8 < byteAt b 213 then
    .error stFORMAT
  else if b.length ≠ 312 + 97 * byteAt b 213 then .error stLENGTH
  else .ok {
    src := byteAt b 6, dst := byteAt b 7, devid := slice b 8 16, count := field b 24 4, after := field b 28 4
    token := slice b 32 32, pub := slice b 64 49, voucher := slice b 116 96, signer := byteAt b 212, sig := slice b 216 96
    custs := (chunks 97 (b.drop 312)).map fun c => (byteAt c 0, c.drop 1)
    digest := sha384 (b.take 216) }

/-- A signature by a compressed P-384 key. -/
def keySigned (pub digest sig : Bytes) : Bool :=
  match decompress curveP384 pub with
  | some q => ecdsaCheck curveP384 q digest sig
  | none => false

/-- The transition is signed by the owner authority (R426). -/
def ownerSigns (src : Nat) : Bool := decide (src = lcOWNED ∨ src = lcDEBUG)
/-- Dual control is required. -/
def dualTransition (src : Nat) : Bool := ownerSigns src

/-- The voucher, the authority's signature and the custodians' are valid (R427, R429). -/
def reqSigned (s : State) (q : LcReq) : Bool :=
  let auth :=
    if q.src = lcSHIPPED ∧ q.dst = lcOWNED then
      decide (q.signer = 1) && keySigned q.pub q.digest q.sig &&
        keySigned (beBytes 49 Config.voucherKey.toNat) (sha384 (ascii "ADETRA-VOUCHER".toList ++ q.devid ++ q.pub)) q.voucher
    else if ownerSigns q.src then decide (q.signer = 1) && signedBy s (findAuth s 0) q.digest q.sig
    else decide (q.signer = 0) && keySigned (beBytes 49 Config.lifeCycleKey.toNat) q.digest q.sig
  auth && custodiansOk s 0 q.custs q.digest

/-- Token `m` opens an entry: its preimage is given and it is not consumed (R425). -/
def tokenOk (s : State) (q : LcReq) : Bool :=
  if lcTest q.dst then
    let m := q.dst - 0x10
    decide (s.fuse.tokens[m]? = some (sha256 q.token)) && ! tokenConsumed s.fuse.slots m
  else true

/-- The checks of R429 in order: the step and status of the first that fails.  `vdd` and `vbat` are the margins. -/
def reqRefused (s : State) (b : Bytes) (vdd vbat : Bool) : Except (Nat × Nat) LcReq :=
  match parseReq b with
  | .error st => .error (1, st)
  | .ok q =>
    if q.devid ≠ fitR 16 s.fuse.devid then .error (2, stNOT_AUTHORISED)
    else if q.src ≠ lifeState s ∨ successor s.fuse.slots q.src q.dst = false ∨ lcCode q.dst = false ∨ 40 ≤ s.fuse.slots.length then
      .error (3, stOPERAND_RANGE)
    else if q.count ≠ s.fuse.slots.length ∨ (q.after ≠ 0xFFFFFFFF ∧ q.after < rtcSec s) then .error (4, stNOT_AUTHORISED)
    else if s.devLocked ∧ q.dst ≠ lcSCRAP then .error (5, stDEVICE_LOCKED)
    else if tokenOk s q = false then .error (6, stNOT_AUTHORISED)
    else if reqSigned s q = false then .error (7, stNOT_AUTHORISED)
    else if dualTransition q.src ∧ q.custs.length < 2 then .error (8, stDUAL_CONTROL_REQUIRED)
    else if s.balls.pwrHold = false ∨ vdd = false ∨ vbat = false then .error (9, stBUSY)
    else .ok q

/-- An accepted transition: BUSY, the erase with ERASE_PENDING, and the slot is programmed (R430, R431). -/
def beginTransition (s : State) (q : LcReq) : State :=
  let s := s.setFlag .lcs LCS_STATUS_BUSY true
  let pend := decide (q.dst = lcDEBUG ∨ q.dst = lcSCRAP)
  let s := eraseFor s q.dst
  { s with lcs := { prog := some (q.dst, q.pub), erase := if pend then some q.dst else s.lcs.erase, stage := sgPROGRAM } }

/-- LCS_ARM: the chip resets to run the staged request; ignored while LCS_REQ_LEN is 0 (R428, R435). -/
def execLcsArm (s : State) : Res :=
  if complexRuns s = false ∨ s.fld .lcs LCS_REQ_LEN = 0 then .next s else .next (chipReset s rcARM)

/-- LCS_PROGRAM_DONE: every bit has verified, or the extra pulses are spent with the bits of `partly` standing; the ROM
restarts (R430). -/
def execLcsProgramDone (partly : Option Word) (s : State) : Res :=
  match s.lcs.prog with
  | none => .next s
  | some (t, pub) =>
    let src := lifeState s
    let s := s.setFlag .lcs LCS_STATUS_BUSY false
    let s := { s with lcs := { s.lcs with stage := sgROM } }
    match partly with
    | none => .next (postResult (slotWritten s t pub) stOK 0 src t)
    | some w => .next (slotStopped (raiseErr s .lcs 9 0xD1) w)

/-! ## The ROM (R461 to R463) -/

/-- Signed code alone runs, or none at all: the ROM service runs in place of a first stage (R86). -/
def serviceState (c : Nat) : Bool := decide (c = lcBLANK ∨ c = lcSCRAP ∨ c = lcINVALID)

/-- The debug master and module open in TEST_UNLOCKED and DEBUG_OPEN alone (R376, R434, R436). -/
def debugSetup (s : State) : State :=
  let c := lifeState s
  let s := (s.setFlag .dbg DBG_STATUS_MASTER_EN (lifeOpen s)).setFlag .dbg DBG_STATUS_DM_EN (lifeOpen s)
  let s := s.setFld .dbg DBG_STATUS_SCAN
    (if lifeOpen s then 2 else if c = lcBLANK ∨ c = lcFACTORY ∨ c = lcSHIPPED then 1 else 0)
  let cfg : Word := 0xA87C0000
  let s := if lifeOpen s then
      { s.setReg (.mpu 19) 0x108 cfg with mpus := oset s.mpus (16 * 19) (entryOf 0 0 cfg) }
    else s
  s.setFlag (.mpu 19) LOCK_LOCK true

/-- A block that the ROM enables runs. -/
def romEnable (s : State) (p : PageId) : State :=
  if stateOf s p = stFailed then s else (s.setFlag p CTRL_EN true).setFld p STAT_STATE stRunning

/-- MEAS_n written and sealed. -/
def measure (s : State) (n : Nat) (d : Bytes) : State := sealMeas (setMeas s n d) (2 ^ n)

/-- The staged request's bytes: byte 4w in [7:0] of word w. -/
def stagedReq (s : State) : Bytes :=
  (((List.range 272).map fun w => wordLe (s.reg .lcs (0x800 + 4 * w))).flatten).take (s.fld .lcs LCS_REQ_LEN)
/-- The window and its length zeroised. -/
def clearReq (s : State) : State :=
  ((List.range 512).foldl (fun s w => s.setReg .lcs (0x800 + 4 * w) 0) s).setFld .lcs LCS_REQ_LEN 0

/-- The spare Kreur cores and control cores begin their own checks at the hand-over (R44; log 97); the spares of the other
pools come out of their start-up vectors (R232, R255). -/
def startSpares (s : State) : State :=
  let l := sparesOf (.ccr 0) ++ ((List.range s.fuse.variant.regions).map fun r => sparesOf (.kcr r 0)).flatten
  l.foldl (fun s q => if live s q ∧ stateOf s q = stOff then refreshSpares (s.setFld q STAT_STATE stStarting) q else s) s

/-- The repairs of the map applied again, each to the macros of its site, before the start-up self-tests (R34). -/
def applyRepairs (s : State) : State :=
  s.repairMap.foldl (fun s e =>
    match pageOfAddr e.1 with
    | some p => s.setAux p { s.auxOf p with applied := (s.auxOf p).applied ++ [e.2] }
    | none => s) s

/-- The ROM hands over to a first stage, or runs its service (R461, R463). -/
def romBoot (s : State) (f : FirstStage) : State :=
  if serviceState (lifeState s) ∨ s.fld .rst RST_CAUSE = rcBOOT then
    { s.setFlag .mgt MGT_STATUS_ROM_SVC true with lcs := { s.lcs with stage := sgSERVICE } }
  else
    let s := s.setFld .bfl BFL_SLOT_BOOTED (if s.sys.mig = mgARMED then 1 - s.sys.slot else s.sys.slot)
    match f.fault with
    | some st => bootFail s 1 st
    | none =>
      if f.version < ctrValue s floorCtr then bootFail s 1 Config.floorStatus.toNat
      else
        { (startSpares (measure s 1 f.digest)).setFlag .mgt MGT_STATUS_ROM_SVC false with
          romQ := [], lcs := { s.lcs with stage := sgRUN } }

/-- ROM_START, after reset release or once a slot is programmed: `f` is the first stage the flash holds in the chosen
slot, `vdd` and `vbat` the margins a staged request meets. -/
def execRomStart (f : FirstStage) (vdd vbat : Bool) (s : State) : Res :=
  if complexRuns s = false ∨ s.lcs.stage ≠ sgROM then .next s
  else
    let s := measure (applyRepairs s) 0 (beBytes 48 Config.romDigest.toNat)
    let s := romEnable (romEnable (finishErase s) .mgt) .bfl
    let s := debugSetup (tamperStart s)
    let s := s.setFld .bfl BFL_SLOT_CUR s.sys.slot
    if s.fld .rst RST_CAUSE = rcARM ∧ s.fld .lcs LCS_REQ_LEN ≠ 0 then
      let b := stagedReq s
      let s := clearReq s
      match reqRefused s b vdd vbat with
      | .ok q => .next (beginTransition s q)
      | .error (step, st) => .next (romBoot (postResult s st step (byteAt b 6) (byteAt b 7)) f)
    else .next (romBoot s f)

/-! ## The ROM service (R86) -/

/-- ROM_INFO. -/
def romInfo (s : State) : Bytes :=
  fitR 16 s.fuse.devid ++ beBytes 2 (partCode s.fuse.variant) ++ [s.fuse.step, BitVec.ofNat 8 (lifeState s)] ++
    beBytes 4 s.fuse.slots.length ++ [BitVec.ofNat 8 (s.fld .rst RST_CAUSE), BitVec.ofNat 8 (lockByte s)] ++
    beBytes 2 s.tmp.log.length ++ [BitVec.ofNat 8 (s.fld .rst RST_BOOT_TYPE), 0] ++ beBytes 2 (s.fld .rst RST_BOOT_STATUS) ++
    beBytes 2 (s.fld .lcs LCS_RESULT_STATUS) ++ [BitVec.ofNat 8 (s.fld .lcs LCS_RESULT_STEP), 0] ++ logHead s ++ zeros 4

/-- The oldest request the service holds, when it carries command `code`. -/
def romTake (s : State) (code : Nat) : Option (Item × State) :=
  if s.lcs.stage ≠ sgSERVICE ∨ complexRuns s = false then none
  else match s.romQ with
    | i :: l => if i.cmd = code then some (i, { s with romQ := l }) else none
    | [] => none

/-- An answer of the service, in clear with the request's sequence number. -/
def romAnswer (s : State) (i : Item) (st : Nat) (l : List Elem) : State :=
  respondPlain s i 0 i.seq st ((l.map fun e => elemBytes e.1 e.2).flatten)

/-- ROM_REPORT: ROM_INFO, and with LOG_FIRST up to 64 blaze log entries. -/
def execRomReport (s : State) : Res :=
  match romTake s 0x0F10 with
  | none => .next s
  | some (i, s) =>
    match elemsOf [may 0x1602 (lenIs 2)] i with
    | .error st => .next (romAnswer s i st [])
    | .ok l =>
      let n := elemNat l 0x1602
      if hasElem l 0x1602 then
        if 4096 ≤ n then .next (romAnswer s i stOPERAND_RANGE [])
        else .next (romAnswer s i stOK [(0x1601, romInfo s), (0x1603, ((s.tmp.log.drop n).take 64).flatten)])
      else .next (romAnswer s i stOK [(0x1601, romInfo s)])

/-- ROM_LCS_REQUEST: a refused request is answered at once, an accepted one begins its transition without an answer. -/
def execRomLcsRequest (vdd vbat : Bool) (s : State) : Res :=
  match romTake s 0x0F11 with
  | none => .next s
  | some (i, s) =>
    match elemsOf [must 0x1604 (lenIn 312 1088)] i with
    | .error st => .next (romAnswer s i st [])
    | .ok l =>
      let b := elemD l 0x1604
      match reqRefused s b vdd vbat with
      | .ok q => .next (beginTransition s q)
      | .error (step, st) => .next (romAnswer (postResult s st step (byteAt b 6) (byteAt b 7)) i st [])

end Sys2Proof.Machine
end

