-- ==== Sys2Proof/Machine/Rails.lean ====
section
/-!
DEFINITION. The supplies (R403, R411, R454), the JTAG port (R433), the boot flash (R458, R460, R468), the HBM controller (R470
to R473), and the events of the CLK, PWR and I2C interfaces (R465, R466, R484).
-/
namespace Sys2Proof.Machine

/-! ## Rails (R403, R411, R488) -/

/-- The battery domain's generator takes a seed from the DRBG as power goes down; where no words are left it draws one
from the vault's generator (R202; log 59). -/
def seedCell (s : State) : State :=
  match vaultRandom s 32 with
  | (some k, s) => { s with cellGen := { key := k, ctr := 0, seeded := s.time.tick } }
  | (none, s) =>
    let (k, s) := maskBytes s 32
    { s with cellGen := { key := k, ctr := 0, seeded := s.time.tick } }

/-- Main power is lost: the part keeps what its battery domain and NVM hold.  Without a cell the hold-up capacitor
carries VBAT_REMOVED, or the domain dies at once. -/
def powerLoss (s : State) : State :=
  let s := chipReset (seedCell s) rcPOWER
  let s := { s with tmp := { s.tmp with power := false, core := false, io := false, window := none, tests := [] }, shut := true }
  if s.tmp.cell then s
  else if s.tmp.vhold then
    let ms := tripping s (monBit 0x10)
    tripMonitors { s with tmp := { s.tmp with present := s.tmp.present ||| monBit 0x10 } } ms false
  else domainDies s

/-- RAIL_FALL of VDD_CORE (`core`) or VDD_IO: the vault and the key bus close at once. -/
def execRailFall (core : Bool) (s : State) : Res :=
  if s.tmp.power = false then .next s
  else
    let a := s.tmp.core && ! core
    let b := s.tmp.io && core
    let w := match s.tmp.window with
      | some (x, y, z) => (x || core, y || ! core, z || (! a && ! b))
      | none => (core, ! core, ! a && ! b)
    .next { s with shut := true, tmp := { s.tmp with core := a, io := b, window := some w } }

/-- The vault and the key bus reopen: both rails in range, no lock and no chip-level fault (R25, R403). -/
def reopen (s : State) : State :=
  if s.tmp.core ∧ s.tmp.io ∧ s.tmp.window.isNone ∧ s.devLocked = false ∧ s.tmp.pending = false ∧ s.chipFault.isNone then
    { s with shut := false }
  else s

/-- RAIL_FALL_WINDOW_END: 2 ms after the first fall. -/
def execRailFallWindowEnd (s : State) : Res :=
  match s.tmp.window with
  | none => .next s
  | some (x, y, z) =>
    let s := { s with tmp := { s.tmp with window := none } }
    if z then .next (powerLoss s)
    else
      let v := (if x then monBit 5 else 0) ||| (if y then monBit 7 else 0)
      .next (reopen (tripMonitors s (tripping s v) s.lcs.prog.isSome))

/-- RAIL_RETURN of VDD_CORE (`core`) or VDD_IO into its range. -/
def execRailReturn (core : Bool) (s : State) : Res :=
  if s.tmp.power = false then .next s
  else if core then .next (reopen { s with tmp := { s.tmp with core := true } })
  else .next (reopen { s with tmp := { s.tmp with io := true } })

/-! ## JTAG (R422, R433) -/

/-- Boundary scan stands open in the state. -/
def scanAllowed (c : Nat) : Bool := decide (c = lcBLANK ∨ c = lcFACTORY ∨ c = lcSHIPPED) || lcTest c || decide (c = lcDEBUG)
/-- The debug instructions stand open in the state. -/
def debugAllowed (c : Nat) : Bool := lcTest c || decide (c = lcDEBUG)

/-- An instruction shifted in; one that is not allowed acts as BYPASS and is counted. -/
def tapInstr (s : State) (code : Byte) (allowed : Bool) : State :=
  if allowed then { s with balls := { s.balls with tapIr := code } }
  else { s.bumpSat .dbg DBG_REFUSED with balls := { s.balls with tapIr := 0xFF } }

/-- EXTEST. -/
def execExtest (s : State) : Res := .next (tapInstr s 0x00 (scanAllowed (lifeState s)))
/-- IDCODE. -/
def execIdcode (s : State) : Res := .next (tapInstr s 0x01 true)
/-- SAMPLE/PRELOAD. -/
def execSamplePreload (s : State) : Res := .next (tapInstr s 0x02 (scanAllowed (lifeState s)))
/-- DTMCS. -/
def execDtmcs (s : State) : Res := .next (tapInstr s 0x10 (debugAllowed (lifeState s)))
/-- DMI. -/
def execDmi (s : State) : Res := .next (tapInstr s 0x11 (debugAllowed (lifeState s)))
/-- BYPASS. -/
def execBypass (s : State) : Res := .next (tapInstr s 0xFF true)

/-! ## The boot flash (R460, R468) -/

/-- BFL_TRANSFER: GO written. -/
def execBflTransfer (s : State) : Res := onComplex s <|
  if running s .bfl = false ∨ s.flag .bfl BFL_XFER_GO then .next s
  else .next (((s.setFlag .bfl BFL_XFER_GO true).setFlag .bfl BFL_XFER_DONE false).setFlag .bfl BFL_XFER_ERR false)

/-- Byte 4w of a digest in [31:24] of word w. -/
def setDigest (s : State) (d : Bytes) : State := (List.range 12).foldl (fun s w => s.setFld .bfl (BFL_DIGEST w) (field d (4 * w) 4)) s

/-- BFL_TRANSFER_DONE: the bytes the flash gave, or a device timeout or an uncorrectable transfer. -/
def execBflTransferDone (r : BflResult) (s : State) : Res :=
  if s.flag .bfl BFL_XFER_GO = false then .next s
  else
    let s := setIrq ((s.setFlag .bfl BFL_XFER_GO false).setFlag .bfl BFL_XFER_DONE true) .bfl 16
    match r with
    | .data b =>
      let b := fitR (s.fld .bfl BFL_LEN) b
      .next (setDigest (physWrite s (addr40 s .bfl BFL_DST_LO BFL_DST_HI) b) (sha384 b))
    | .timeout => .next (raiseErr (setDigest (s.setFlag .bfl BFL_XFER_ERR true) []) .bfl 11 0xFD)
    | .uncorrectable => .next (raiseErr (setDigest (s.setFlag .bfl BFL_XFER_ERR true) []) .bfl 9 0xFC)

/-- PRESUMED (log 37): the program and erase commands of the device class, the last two erasing all of it. -/
def flashWrites (op : Byte) : Bool := decide (op ∈ [0x02, 0x12, 0x20, 0x21, 0x52, 0x5C, 0xD8, 0xDC, 0x60, 0xC7])
/-- The command programs; the others erase. -/
def flashPrograms (op : Byte) : Bool := decide (op = 0x02 ∨ op = 0x12)
/-- The commands that erase the whole device. -/
def flashErasesAll (op : Byte) : Bool := decide (op = 0x60 ∨ op = 0xC7)

/-- A program or erase addressed to the platform area of the current slot (R459, R460). -/
def flashGuarded (s : State) (op : Byte) : Bool :=
  let a := s.fld .bfl BFL_CMD_ADDR
  let n := if flashPrograms op then max 1 (s.fld .bfl BFL_CMD_LEN) else 1
  let lo := s.sys.slot * 0x4000000
  flashWrites op && (flashErasesAll op || (decide (a < lo + 0x3000000) && decide (lo < a + n)))

/-- BFL_COMMAND: an xSPI command is issued; `reply` is what the device answers, into the data window. -/
def execBflCommand (op : Byte) (reply : Bytes) (s : State) : Res := onComplex s <|
  if running s .bfl = false then .next s
  else if (lifeState s = lcSHIPPED ∨ lifeState s = lcOWNED) ∧ flashGuarded s op then .next (accessErr s .bfl)
  else if flashWrites op then .next s
  else
    let n := min (min (s.fld .bfl BFL_CMD_LEN) 256) reply.length
    .next ((List.range ((n + 3) / 4)).foldl (fun s w =>
      let old := wordLe (s.reg .bfl (0x100 + 4 * w))
      let new := slice (reply.take n) (4 * w) 4
      s.setReg .bfl (0x100 + 4 * w) (BitVec.ofNat 32 (leNat (new ++ old.drop new.length)))) s)

/-! ## The HBM controller (R470 to R473) -/

/-- HBM_TRAINING_DONE after `us` µs: the keys are drawn from the boom of the lowest-numbered running region and the
controller runs; without words it waits, and a failed training fails it (R470, R471). -/
def execHbmTrainingDone (ok : Bool) (us : BitVec 24) (s : State) : Res :=
  if stateOf s .hbc ≠ stStarting then .next s
  else
    let s := s.setFld .hbc HBC_TRAIN_US us.toNat
    if ok = false then .next (setState (raiseErr s .hbc 9 0xF4) .hbc stFailed)
    else
      let s := s.setFlag .hbc HBC_STATUS_TRAINED true
      match vaultRandom s 64 with
      | (some k, s) => .next (setState ({ s with hbcKeys := k, hbm := [] }.setFlag .hbc HBC_STATUS_KEYED true) .hbc stRunning)
      | (none, s) => .next s

/-- HBM_INIT_DONE: the whole stack holds enciphered zeros where nothing has written, and the patrol begins (R471, R472). -/
def execHbmInitDone (s : State) : Res :=
  if running s .hbc = false then .next s
  else .next ((s.setFlag .hbc HBC_STATUS_INIT_DONE true).setFlag .hbc HBC_STATUS_SCRUBBING true)

/-- HBM_SCRUB_PASS. -/
def execHbmScrubPass (s : State) : Res :=
  if running s .hbc = false ∨ s.flag .hbc HBC_STATUS_SCRUBBING = false then .next s
  else .next (setIrq (s.bump .hbc HBC_SCRUB_PASSES) .hbc 16)

/-- HBM_TEMP_THRESHOLD: the stack's sensor reads `t` quarter degrees (R472). -/
def execHbmTempThreshold (t : BitVec 16) (s : State) : Res :=
  let was := BitVec.ofNat 16 (s.fld .hbc HBC_TEMP)
  let s := (s.setFld .hbc HBC_TEMP t.toNat).setFlag .hbc HBC_STATUS_HOT (decide (340 < t.toInt))
  .next (if 380 < t.toInt ∧ was.toInt ≤ 380 then setIrq s .hbc 17 else s)

/-! ## Clocks, temperature and I2C (R465, R466, R484) -/

/-- SERDES_PLL_LOCK_LOSS of port quad `q`, or of the pair quad at 32 and above. -/
def execSerdesPllLockLoss (q : BitVec 6) (s : State) : Res :=
  let s := if q.toNat < 32 then s.setFlag .clk ⟨0x044, q.toNat, 1⟩ false else s.setFlag .clk CLK_STATUS_PAIR_LOCK false
  .next (setIrq (raiseErr (s.bumpSat .clk CLK_SD_LOSS) .clk 9 0xF0) .clk 16)

/-- DIE_TEMP_ALARM: the conversion reads `t` quarter degrees. -/
def execDieTempAlarm (t : BitVec 16) (s : State) : Res :=
  let s := s.setFld .pwr PWR_TEMP t.toNat
  .next (if 4 * (s.fld .pwr PWR_TALARM : Int) < t.toInt then setIrq s .pwr 16 else s)

/-- PWR_STATUS.RAILS: VDD_CORE, VDD_IO and VBAT as the tamper domain sees them, the other comparators live. -/
def railsByte (s : State) : Nat :=
  let w := (Config.liveInput 0xF0002040 s.time.tick).toNat % 256
  (if s.tmp.core then 1 else 0) + w / 2 % 32 * 2 + (if s.tmp.io then 64 else 0) + (if s.tmp.cell then 128 else 0)

/-- What the I2C target returns for a command byte. -/
def i2cByte (s : State) (c : Byte) : Byte :=
  if c = 0 then BitVec.ofNat 8 (railsByte s)
  else if c = 1 then BitVec.ofInt 8 (((BitVec.ofNat 16 (s.fld .pwr PWR_TEMP)).toInt + 2) / 4)
  else if c = 2 then BitVec.ofNat 8 ((if s.balls.ready then 1 else 0) + (if s.balls.fault then 2 else 0))
  else 0

/-- I2C_READ at address 0x5A with a command byte. -/
def execI2cRead (c : Byte) (s : State) : Res :=
  .next (if s.tmp.power then { s with balls := { s.balls with i2cOut := i2cByte s c } } else s)

end Sys2Proof.Machine
end

