-- ==== Sys2Proof/Machine/Recorder.lean ====
section
/-!
DEFINITION. The event recorder (R437 to R444, R449, R450) and the performance counters (R445 to R448, R451).
-/
namespace Sys2Proof.Machine

/-- The recorder works: not FAILED (R449). -/
def evrRuns (s : State) : Bool := running s .evr

/-- SEQ after `n`: 0 names no record (R438). -/
def nextSeq (n : Nat) : Nat := if n = 0xFFFFFFFF then 1 else n + 1

/-- The histogram bin of an interval in ns (R444). -/
def eventBin (ns : Nat) : Nat :=
  let us := ns / 1000
  if us = 0 then 0 else min 15 (Nat.log2 us / 2 + 1)

/-- An occurrence counted in its entry. -/
def countHist (x : EvHist) (e : EvRec) : EvHist :=
  let b := eventBin (e.time - x.last)
  let x := { x with
    bins := x.bins.set b (min 0xFFFFFFFF (x.bins.getD b 0 + 1))
    last := e.time }
  if x.maxP0.toNat < e.p0.toNat then { x with maxP0 := e.p0, source := e.source } else x

/-- The first occurrence of a code. -/
def newHist (e : EvRec) : EvHist :=
  { code := e.code, source := e.source, maxP0 := e.p0, first := e.time, last := e.time,
    bins := List.replicate 15 0 ++ [1] }

/-- A record written: the newest of 65,536, or an occurrence in the histogram table (R438, R444). -/
def writeEvent (s : State) (e : EvRec) : State :=
  let v := s.evr
  let e := { e with seq := v.next }
  let s := s.setFld .evr EVR_NEWEST e.seq
  if s.fuse.variant.evrHist then
    if v.hist.any fun x => x.code = e.code then
      { s with evr := { v with next := nextSeq v.next, hist := v.hist.map fun x => if x.code = e.code then countHist x e else x } }
    else if v.hist.length < 256 then
      { s.setFld .evr EVR_HIST_USED (v.hist.length + 1) with
        evr := { v with next := nextSeq v.next, hist := v.hist ++ [newHist e] } }
    else { s.bumpSat .evr EVR_HIST_OTHER with evr := { v with next := nextSeq v.next } }
  else
    let full := decide (65536 ≤ v.recs.length)
    let recs := e :: v.recs.take 65535
    let s := if full && ! v.overwrote then setIrq s .evr 18 else s
    let s := s.setFld .evr EVR_OLDEST ((recs.getLast?).map (EvRec.seq ·) |>.getD e.seq)
    { s with evr := { v with next := nextSeq v.next, recs := recs, overwrote := v.overwrote || full } }

/-- A record of the recorder's own, made now. -/
def evrRecord (s : State) (code : Nat) (p0 p1 p2 p3 : Nat) : EvRec :=
  { seq := 0, time := s.time.ns, code := code, source := sourceOf .evr, p0 := BitVec.ofNat 32 p0,
    p1 := BitVec.ofNat 32 p1, p2 := BitVec.ofNat 32 p2, p3 := BitVec.ofNat 32 p3 }

/-- Recording resumes with one MISSED record (R442). -/
def unfreeze (s : State) : State :=
  let v := s.evr
  let s := s.setFlag .evr EVR_CTRL_FREEZE false
  let s := { s with evr := { v with missedSince := 0 } }
  postEvent s .evr 0x0002 (BitVec.ofNat 32 v.missedSince) (BitVec.ofNat 32 ((s.time.ns - v.frozenAt) / 1000))

/-- EVR_FREEZE: EVR_CTRL.FREEZE written (R442). -/
def execEvrFreeze (on : Bool) (s : State) : Res := onComplex s <|
  if on = s.flag .evr EVR_CTRL_FREEZE then .next s
  else if on then
    .next { s.setFlag .evr EVR_CTRL_FREEZE true with evr := { s.evr with frozenAt := s.time.ns, missedSince := 0 } }
  else .next (unfreeze s)

/-- EVR_FREEZE_TIMEOUT: FREEZE has been set for EVR_FREEZE_MAX ms, and time passes to that moment (R442). -/
def execEvrFreezeTimeout (s : State) : Res :=
  if s.flag .evr EVR_CTRL_FREEZE then
    let due := s.evr.frozenAt + 1000000 * s.fld .evr EVR_FREEZE_MAX
    let s := advance s ((due - s.time.ns + 999) / 1000)
    .next (setIrq (unfreeze s) .evr 16)
  else .next s

/-- Every record discarded and the CLEAR record written: its SEQ (R443, R444). -/
def clearEvents (s : State) (i : Item) : Nat × State :=
  let v := s.evr
  let last := match v.recs with
    | e :: _ => e.seq
    | [] => 0
  let e := evrRecord s 0x0001 last (if s.fuse.variant.evrHist then v.hist.length else v.recs.length) i.session i.tag.toNat
  let s := { s with evr := { v with recs := [], hist := [], overwrote := false } }
  (v.next, writeEvent s e)

/-- EVR_CLEAR, the command of core `core` (R443). -/
def execEvrClear (core : Nat) (s : State) : Res :=
  hostRun s core 0x0F05 fun s i =>
    if i.tenant ≠ 0 then answerStatus s i stNOT_AUTHORISED
    else match elemsOf [] i with
      | .error st => answerStatus s i (if st = stLENGTH then st else stFORMAT)
      | .ok _ =>
        if s.flag .evr EVR_CTRL_FREEZE then answerStatus s i stBUSY
        else
          let (seq, s) := clearEvents s i
          answerCommit s i (beBytes 4 seq) []

/-- EVR_TIME_SET: EVR_TIME_CMD.GO loads the new device time (R437). -/
def execEvrTimeSet (s : State) : Res := onComplex s <|
  let t := s.fld .evr EVR_TIME_SET_LO + s.fld .evr EVR_TIME_SET_HI * 2 ^ 32
  let old := s.time.ns
  let s := { s with time := { s.time with ns := t } }
  .next (postEvent s .evr 0x0005 (BitVec.ofNat 32 (old / 1000000000)) (BitVec.ofNat 32 (t / 1000000000)))

/-- EVR_POST: a write of EVR_POST_CODE (R439, R450). -/
def execEvrPost (code : BitVec 12) (s : State) : Res := onComplex s <|
  .next (postEvent s .evr (0xF000 + code.toNat) (s.reg .evr 0x074) (s.reg .evr 0x078) (s.reg .evr 0x07C) (s.reg .evr 0x080))

/-! ## Performance counters -/

/-- A PMC page's words from an offset zeroed. -/
def zeroWords (s : State) (p : PageId) (off n : Nat) : State :=
  (List.range n).foldl (fun s w => s.setReg p (off + 4 * w) 0) s

/-- One counter zeroed. -/
def zeroCounter (s : State) (r c : Nat) : State :=
  (s.setFld (.pmc r) (PMC_CNT_LO c) 0).setFld (.pmc r) (PMC_CNT_HI c) 0

/-- A write of a PMC register by a master: turned away unless it is privileged and its MPU admits it (R446). -/
def pmcWrite (s : State) (x : Master) (r off : Nat) (f : State → State) : Res :=
  if masterRuns s x = false ∨ live s (.pmc r) = false then .next s
  else match pageReach s x .write (some (.pmc r)) (pageBase (.pmc r) + off) 4 with
    | .error s => .next s
    | .ok s => .next (f s)

/-- PMC_ZERO in region `r`: every counter, PMC_OVF, the ring and the histograms (R451). -/
def execPmcZero (x : Master) (r : Nat) (s : State) : Res :=
  let p := PageId.pmc r
  pmcWrite s x r PMC_CTRL_FREEZE.off fun s =>
    let s := (List.range 16).foldl (fun s c => zeroCounter s r c) s
    let s := (s.setFld p PMC_OVF 0).setFld p PMC_TAG_HEAD 0
    zeroWords (zeroWords s p 0x400 512) p 0xC00 256

/-- PMC_FREEZE in region `r`: PMC_CTRL.FREEZE written (R445). -/
def execPmcFreeze (x : Master) (r : Nat) (on : Bool) (s : State) : Res :=
  pmcWrite s x r PMC_CTRL_FREEZE.off fun s => s.setFlag (.pmc r) PMC_CTRL_FREEZE on

/-- PMC_HIST_CLR in region `r`: the histograms of the groups written 1 (R451). -/
def execPmcHistClr (x : Master) (r : Nat) (groups : BitVec 16) (s : State) : Res :=
  pmcWrite s x r PMC_HIST_CLR.off fun s => (List.range 16).foldl (fun s g =>
    if groups.toNat.testBit g then zeroWords s (.pmc r) (0x400 + 128 * g) 32 else s) s

/-- PMC_COUNTER_WRAP of counter `c` in region `r`: occurrences carry it past 2^48 - 1 (R445). -/
def execPmcCounterWrap (r c : Nat) (s : State) : Res :=
  if live s (.pmc r) = false ∨ 16 ≤ c ∨ s.flag (.pmc r) (PMC_SEL_EN c) = false ∨ s.flag (.pmc r) PMC_CTRL_FREEZE ∨
      stateOf s (.pmc r) ≠ stRunning then .next s
  else .next (pmcAdd s r c (2 ^ 48 - pmcCount s r c))

/-- PMC_COUNTER_UNCORRECTABLE: the counter is zeroed and marked, and the page goes on (R449). -/
def execPmcCounterUncorrectable (r c : Nat) (s : State) : Res :=
  let p := PageId.pmc r
  if live s p = false ∨ 16 ≤ c then .next s
  else
    let s := raiseErr (s.bumpSat p HEALTH_UNCORR) p 9 0xE8
    .next ((zeroCounter s r c).setFlag p ⟨0x044, c, 1⟩ true)

end Sys2Proof.Machine
end

