-- ==== Sys2Proof/Machine/RegRead.lean ====
section
/-!
DEFINITION. What a register read returns: the stored word of a page with its live fields laid over it, and the read
windows of R40.  No command of the table is a read, so these are views of the state; a read that latches another
register (R421, R450, R451) therefore shows both in the same state.
-/
namespace Sys2Proof.Machine

/-! ## The header (R46) -/

/-- CAP of a page, by the chapter of its block. -/
def blockCap (s : State) : PageId → Nat
  | .lnk _ => 0xF
  | .cls _ => 0x40
  | .htb => 0x1000
  | .mgt => 0x10
  | .tri => s.fuse.variant.triBlocks
  | .vlt => s.fuse.variant.pick 0x00320100 0x00320100 0x00320080
  | .cph _ _ => 0x7F
  | .hsh _ _ => 0x1F
  | .pke _ _ => if s.fuse.variant.ledger then 0x7F else 0x5F
  | .odm _ => 0x200
  | .rng => 0x28
  | .rnx _ => 0x40
  | .sch _ => 0x10002000
  | .kcr _ _ => 0x10200010
  | .ctx _ => s.fuse.variant.ctxPerRegion
  | .ten => s.fuse.variant.tenMax + 1
  | .mpu _ => 0x10
  | .par => 8
  | .tmp => 0x10
  | .lcs => 0x2810
  | .dbg => 1
  | .evr => s.fuse.variant.pick 0x40 0x40 0x80000100
  | .pmc _ => 0x00200010
  | .clk => 0x21
  | .pwr => 8
  | .rst => 6
  | .bfl => 2
  | .hbc => s.fuse.variant.hbmBytes / 2 ^ 30
  | .top | .ccr _ => 0

/-- A one-bit live field. -/
def bitFld (f : Fld) (b : Bool) : Fld × Nat := (f, if b then 1 else 0)

/-- The live fields of the header.  The pages of R53 and their like read EN as 1. -/
def liveHeader (s : State) (p : PageId) : List (Fld × Nat) :=
  [(ID_BTYPE, pageBtype p), (ID_INST, pageInst p), (ID_VER, 1), (CAP, blockCap s p), (STAT_INFLIGHT, min (inflight s p) 0xFFFF),
   bitFld STAT_BUSY (decide (inflight s p ≠ 0)), (STAT_STATE, stateOf s p)] ++
  (if undrained p then [bitFld CTRL_EN true] else [])

/-! ## TOP (R55) -/

/-- The pages of a list that are RUNNING. -/
def runningOf (s : State) (l : List PageId) : Nat := (l.filter (running s)).length

/-- Pages of every region: positions 0 to `n - 1` of a group. -/
def groupPages (s : State) (n : Nat) (f : Nat → Nat → PageId) : List PageId :=
  ((List.range s.fuse.variant.regions).map fun r => (List.range n).map (f r)).flatten

/-- One four-bit count for each region, RGN_0 lowest. -/
def perRegion (s : State) (f : Nat → Nat) : Nat :=
  (List.range s.fuse.variant.regions).foldl (fun n r => n + f r % 16 * 16 ^ r) 0

/-- Healthy spares of a group in each region. -/
def spareCounts (s : State) (f : Nat → Nat → PageId) : Nat := perRegion s fun r => (sparesFor s (f r 0)).length

/-- A region runs: its scheduler does, and it is not isolated (log 38). -/
def activeRegions (s : State) : Nat :=
  (List.range s.fuse.variant.regions).foldl (fun n r => if running s (.sch r) then n + 2 ^ r else n) 0

/-- The live and fused fields of TOP. -/
def liveTop (s : State) : List (Fld × Nat) :=
  let v := s.fuse.variant
  ((List.range 4).map fun i => (TOP_DEVID i, field s.fuse.devid (12 - 4 * i) 4)) ++
  [(TOP_PART_STEP, s.fuse.step.toNat), (TOP_PART_CODE, partCode v), (TOP_FITTED_0_HBM_GIB, v.hbmBytes / 2 ^ 30),
   bitFld TOP_FITTED_0_EVR_HIST v.evrHist, bitFld TOP_FITTED_0_LEDGER v.ledger, bitFld TOP_FITTED_0_STANDIN v.standIn,
   bitFld TOP_FITTED_0_PAIR true, (TOP_FITTED_0_RGN, 2 ^ v.regions - 1), (TOP_FITTED_1_KCR, 32),
   (TOP_FITTED_1_CPH, v.cphPerRegion), (TOP_FITTED_1_HSH, 4), (TOP_FITTED_1_PKE, v.pkePerRegion),
   (TOP_FITTED_2_TEN_MAX, v.tenMax), (TOP_FITTED_2_CTX_K, v.ctxPerRegion / 1024), (TOP_FITTED_3_KC_K, v.keySlots / 1024),
   (TOP_FITTED_3_BIN_K, v.triBlocks / 8), (TOP_RGN_STATUS_ACTIVE, activeRegions s)] ++
  ((List.range 4).map fun i => (TOP_PORTS i, if i < v.regions then 2 ^ v.portsPerRegion - 1 else 0)) ++
  [(TOP_ACTIVE_0_KCR, runningOf s (groupPages s 32 .kcr)), (TOP_ACTIVE_0_CPH, runningOf s (groupPages s v.cphPerRegion .cph)),
   (TOP_ACTIVE_0_HSH, runningOf s (groupPages s 4 .hsh)), (TOP_ACTIVE_0_PKE, runningOf s (groupPages s v.pkePerRegion .pke)),
   (TOP_ACTIVE_1_CCR, runningOf s ((List.range 8).map .ccr)), (TOP_ACTIVE_1_OSC, (sitesOf (oscUse s)).length),
   (TOP_ACTIVE_1_LNK, runningOf s ((hostPorts s).map .lnk)), (TOP_SPARES_0_CPH, spareCounts s .cph),
   (TOP_SPARES_0_KCR, spareCounts s .kcr), (TOP_SPARES_1_PKE, spareCounts s .pke), (TOP_SPARES_1_HSH, spareCounts s .hsh),
   (TOP_SPARES_2_OSC, (oscSpares s).length), (TOP_SPARES_2_CCR, (sparesFor s (.ccr 0)).length)]

/-! ## Ports, vault and units -/

/-- Brake filters in force. -/
def brakesUsed (s : State) : Nat := ((List.range 64).filter (brakeActive s)).length

/-- The live fields of CLS (R81). -/
def liveCls (s : State) (r : Nat) : List (Fld × Nat) :=
  [(CLS_FB_SHARED, sharedPool s r / 1024), (CLS_FB_USED, (sharedUsed s r + 1023) / 1024), (CLS_BRK_USED, brakesUsed s)]

/-- The live fields of HTB (R82). -/
def liveHtb (s : State) : List (Fld × Nat) :=
  let l := opresent s.hosts
  [(HTB_COUNT_STATIC, (l.filter fun e => e.2.isStatic).length), (HTB_COUNT_USED, l.length)]

/-- Re-wrapped TMK records and their total while a migration runs, the external table of VLT_EXT_TEN, and the vault's
state (R216). -/
def liveVlt (s : State) : List (Fld × Nat) :=
  let t := s.tenant (s.fld .vlt VLT_EXT_TEN)
  [bitFld VLT_STATUS_LOCKED s.devLocked, bitFld VLT_STATUS_ROOT_VALID (rootValid s), bitFld VLT_STATUS_DERIVED s.dr.isSome,
   (VLT_STATUS_MIG, s.sys.mig), (VLT_STATUS_CUR_WRAP, s.sys.curWrap), (VLT_CACHE_USED, slotsUsed s),
   (VLT_NVM_FREE, 12800 - recsUsed s), (VLT_NVM_USED, recsUsed s), (VLT_NVM_SECT_SPARE, s.nvm.spare),
   (VLT_NVM_SECT_RETIRED, s.nvm.retired), (VLT_MIG_DONE, rewrapDone s), (VLT_MIG_TOTAL, s.sys.toRewrap), (VLT_EXT_BASE, t.extBase), (VLT_EXT_COUNT, t.extCount),
   (VLT_VFLOOR, ctrValue s floorCtr)] ++
  (List.range 4).map fun i => (VLT_FWVER i, field s.sys.versions (4 * i) 4)

/-- CPH_CUR.ALG of a job's key: 01 to 03 by the length of an AES key, 11 and 12 of a TDES key (R240). -/
def algCode (j : Job) : Nat :=
  let n := (j.key.getD []).length
  if j.alg = chr 'A' then (n - 8) / 8 else if n = 16 then 0x11 else if n = 24 then 0x12 else 0

/-- CCLK per block of a cipher job, CCLK before its first data block, and its blocks: R229. -/
def cipherPace (j : Job) : Nat × Nat × Nat :=
  let d := j.desc
  let m := dMode d
  let n := if j.alg = chr 'T' then 8 else 16
  let per := if j.alg = chr 'T' then (if m = 9 then 16 else 48) else 11 + 2 * (((j.key.getD []).length - 16) / 8)
  let lead := if m = 6 then 2 * per + 8 * ((dAad d + 15) / 16) else if m = 7 then per else 0
  (per, lead, if m = 2 then dLen d else (dLen d + n - 1) / n)

/-- The same of a hash job: R236. -/
def hashPace (j : Job) : Nat × Nat × Nat :=
  let d := j.desc
  let (k, _, _) := hashOf (dMode d)
  let per := if k.blk = 64 then 66 else 82
  (per, if hashKeyed d && dFirst d then per else 0,
    if dLast d then (dLen d + 1 + k.lenB + k.blk - 1) / k.blk else dLen d / k.blk)

/-- Blocks that a lane has done of its segment: the time since the job was bound, less the typical overhead of 0.20 µs and
0.05 µs for the check of a state area, at one block in `per` CCLK of 0.8 ns (R229, R236, log 109). -/
def laneDone (s : State) (j : Job) (pace : Nat × Nat × Nat) : Nat :=
  let t := s.time.ns - j.bound - (if dFirst j.desc then 200 else 250)
  min pace.2.2 ((t * 5 / 4 - pace.2.1) / pace.1)

/-- The live fields of a cipher lane that works on an egress seal job: AES-256 GCM under the session's send key (R92,
R230, R240). -/
def liveSeal (s : State) (x : SealJob) : List (Fld × Nat) :=
  [bitFld CPH_CUR_VALID true, (CPH_CUR_TENANT, x.item.tenant), (CPH_CUR_OP, 0x06), (CPH_CUR_ALG, 3),
   (CPH_CUR_HANDLE, ((s.session x.item.session).map fun se => se.tenant * 2 ^ 20 + se.slotOut).getD 0)]

/-- PKE_CUR_BITS: the modulus or field bits of a job (R260, R274); 0 where the function has neither. -/
def curBits (s : State) (j : Job) : Nat :=
  let d := j.desc
  match eFunc d with
  | 0x10 => rsaBits (j.key.getD [])
  | 0x12 | 0x13 => eParam d
  | 0x20 | 0x21 | 0x22 | 0x23 | 0x24 => ((curveFor s j.tenant (eCurve d)).map fun c => bitLen c.p).getD 0
  | 0x30 | 0x31 | 0x32 => 255
  | f => if isLedgerFn f then 0 else eBits d

/-- The live fields of a lane's page while a job is bound (R240, R241). -/
def liveLane (s : State) (p : PageId) (valid tenant op handle : Fld) : List (Fld × Nat) :=
  match (s.lane p).sealing, (s.lane p).cur with
  | some x, _ => liveSeal s x
  | none, none => []
  | none, some j =>
    [bitFld valid true, (tenant, j.tenant), (op, byteAt j.desc 0), (handle, (dKey j.desc).toNat)] ++
    (match p with
     | .cph _ _ => [(CPH_CUR_ALG, algCode j), (CPH_CUR_DONE, laneDone s j (cipherPace j))]
     | .pke _ _ => [(PKE_CUR_SLOT, byteAt j.desc 1 % 8), (PKE_CUR_BITS, curBits s j)]
     | _ => [(HSH_CUR_DONE, laneDone s j (hashPace j))])

/-- The live fields of ODM (R275). -/
def liveOdm (s : State) (r : Nat) : List (Fld × Nat) :=
  let q := s.queue r .engine
  [(ODM_QUEUE_LONG, (q.filter (isLong s)).length), (ODM_QUEUE_ALL, q.length)]

/-- The live fields of an expander (R305). -/
def liveRnx (s : State) (r : Nat) : List (Fld × Nat) :=
  [(RNG_BOOM_RESV, wordsReserved s r), (RNG_BOOM_FILL, (s.boom r).words.length + wordsReserved s r)]

/-- The live fields of SCH (R358). -/
def liveSch (s : State) (r : Nat) : List (Fld × Nat) :=
  [(SCH_HELD_SUSP, suspendedCount s r), (SCH_HELD_ALL, heldCount s r), (SCH_DLY, (s.timerList r).length)] ++
  (List.range 8).map fun l => (SCH_LEVEL l, levelCount s r l)

/-- The live fields of a core's page (R359). -/
def liveKcr (s : State) (r k : Nat) : List (Fld × Nat) :=
  let c := s.core (32 * r + k)
  (KCR_BUSY, c.busy / 1024) :: match c.run.bind s.item with
    | some i => [bitFld KCR_CUR_VALID true, (KCR_CUR_TENANT, i.tenant), (KCR_CUR_CMD, i.cmd), (KCR_PC, c.pc.toNat)]
    | none => []

/-- The contexts of a region that are listed. -/
def regionCtxs (s : State) (r : Nat) : List Ctx := (s.ctxs.filter fun e => e.1 / 65536 = r).map Prod.snd

/-- The live fields of CTX (R360). -/
def liveCtx (s : State) (r : Nat) : List (Fld × Nat) :=
  [(CTX_USED, ((regionCtxs s r).filter Ctx.valid).length), (CTX_LOCKED, ((regionCtxs s r).filter Ctx.lock).length)]

/-! ## Chip-level pages -/

/-- The tenant that the window of the TEN page shows; none beyond the part's tenants. -/
def windowTenant (s : State) : Option Nat :=
  let t := s.fld .ten TEN_SEL
  if t ≤ s.fuse.variant.tenMax then some t else none

/-- The window fields of the TEN page, 0x050 to 0x08C (R379). -/
def liveWindow (s : State) : List (Fld × Nat) :=
  match windowTenant s with
  | none => []
  | some t =>
    let x := s.tenant t
    [bitFld TEN_STATUS_DONE x.done, (TEN_STATUS_RESETS, x.resets), (TEN_STATUS_PHASE, x.phase), (TEN_STATUS_STATE, x.state),
     bitFld TEN_ASID_VALID x.asid.isSome, (TEN_ASID_ASID, x.asid.getD (s.fld .ten TEN_ASID_ASID)),
     bitFld TEN_POLICY_SI_OWNER_SUBMIT x.siOwnerSubmit, bitFld TEN_POLICY_PIN_DOWNGRADE x.pinDowngrade, (TEN_Q_WORK, x.qWork),
     (TEN_Q_CTX, x.qCtx), (TEN_Q_NET_HOST, x.qHost), (TEN_Q_NET_SESS, x.qSess), (TEN_Q_KEYS, x.qKeys), (TEN_Q_VLT, x.qVlt),
     (TEN_SCHED_SHARE, x.share), (TEN_SCHED_DEADLINE, x.deadlineMs), (TEN_JRN_BASE, x.jrnBase), (TEN_JRN_QUOTA, x.jrnQuota),
     (TEN_USE_0_HOST, ((opresent s.hosts).filter fun e => e.2.tenant = t).length),
     (TEN_USE_0_SESS, ((opresent s.sessions).filter fun e => e.2.tenant = t).length), (TEN_USE_KEYS, slotsOf s t),
     (TEN_USE_VLT, recsOf s t), (TEN_USE_JRN, (s.siOf t).journal.length), (TEN_REFUSED, x.refused.toNat)]

/-- The master ID that MPU `m` guards (R373). -/
def mpuMaster (m : Nat) : Nat :=
  if m < 10 then m else if m < 14 then 0x10 + (m - 10) else if m < 18 then 0x14 + (m - 14) else if m = 18 then 0x18 else 0x1F

/-- The live fields of the TMP page (R421). -/
def liveTmp (s : State) : List (Fld × Nat) :=
  let m := s.tmp
  let e := m.log.getD (s.fld .tmp TMP_LOG_CURSOR) []
  [bitFld TMP_STATUS_LOCKED s.devLocked, bitFld TMP_STATUS_PENDING m.pending, bitFld TMP_STATUS_LOG_FULL (logFull s),
   bitFld TMP_STATUS_STATE_LOST m.stateLost, bitFld TMP_STATUS_ERASED m.erased, (TMP_TRIPPED, m.present.toNat),
   (TMP_SEEN, m.seen.toNat), (TMP_RESP, (floored s m.resp).toNat), (TMP_FLOOR, (floorWord s).toNat),
   bitFld TMP_CFG_LOOP_B_EN (cfgLoopB m.cfg), bitFld TMP_CFG_LOOP_A_EN (cfgLoopA m.cfg), (TMP_CFG_TESTFAIL_RESP, cfgFail m.cfg),
   (TMP_CFG_TEST_PERIOD, cfgPeriod m.cfg), (TMP_LOCK_CTR_LO, ctrValue s lockCtr), (TMP_LOCK_CTR_HI, ctrValue s lockCtr / 2 ^ 32),
   (TMP_LOG_BUF, m.buf.length), (TMP_LOG_USED, m.log.length), (TMP_LOG_HEAD_LO, field (logHead s) 4 4),
   (TMP_LOG_HEAD_HI, field (logHead s) 0 4), (TMP_CELL_OVF, m.ovf), (TMP_RTC_SEC, rtcSec s), (TMP_RTC_SUB, rtcSub s)] ++
  (List.range 4).map fun w => (TMP_LOG_DATA w, field e (4 * w) 4)

/-- The tokens consumed (R425). -/
def tokenBits (s : State) : Nat :=
  (List.range 16).foldl (fun n m => if tokenConsumed s.fuse.slots m then n + 2 ^ m else n) 0

/-- DBG_STATUS.SCAN by the life-cycle state (R433, R436). -/
def scanLevel (s : State) : Nat := if debugAllowed (lifeState s) then 2 else if scanAllowed (lifeState s) then 1 else 0

/-- A live register of an input the block only measures (log 34). -/
def inputAt (s : State) (p : PageId) (f : Fld) : Fld × Nat := (f, (Config.liveInput (pageBase p + f.off) s.time.tick).toNat)

/-- The live fields of each page beside its header. -/
def livePage (s : State) (p : PageId) : List (Fld × Nat) :=
  match p with
  | .top => liveTop s
  | .lnk _ => [bitFld LNK_STATUS_FENCED (fenced s)]
  | .cls r => liveCls s r
  | .htb => liveHtb s
  | .mgt => [(MGT_SESS, ((opresent s.sessions).filter fun e => e.2.mgmt).length)]
  | .vlt => liveVlt s
  | .cph _ _ => liveLane s p CPH_CUR_VALID CPH_CUR_TENANT CPH_CUR_OP CPH_CUR_HANDLE
  | .hsh _ _ => liveLane s p HSH_CUR_VALID HSH_CUR_TENANT HSH_CUR_OP HSH_CUR_HANDLE
  | .pke _ _ => liveLane s p PKE_CUR_VALID PKE_CUR_TENANT PKE_CUR_FUNC PKE_CUR_HANDLE
  | .odm r => liveOdm s r
  | .rnx r => liveRnx s r
  | .sch r => liveSch s r
  | .kcr r k => if k < 32 then liveKcr s r k else []
  | .ctx r => liveCtx s r
  | .ten => liveWindow s
  | .mpu m => [(MPU_MASTER, mpuMaster m)]
  | .par => [(PAIR_HELD, min s.held.length 0xFFFF)]
  | .tmp => liveTmp s
  | .lcs =>
    [(LCS_STATE_SLOTS, s.fuse.slots.length), (LCS_STATE_STATE, lifeState s), (LCS_TOKENS, tokenBits s),
     bitFld LCS_STATUS_ERASE_PENDING s.lcs.erase.isSome, bitFld LCS_MARGIN_PWR_HOLD s.balls.pwrHold,
     inputAt s .lcs LCS_MARGIN_VDD, inputAt s .lcs LCS_MARGIN_VBAT]
  | .dbg => [(DBG_IDCODE, s.fuse.step.toNat * 2 ^ 28 + partCode s.fuse.variant * 2 ^ 12 + 0xB47), (DBG_STATUS_SCAN, scanLevel s)]
  | .evr => [(EVR_TIME_LO, s.time.ns), (EVR_TIME_HI, s.time.ns / 2 ^ 32)]
  | .clk => [inputAt s .clk CLK_CCLK_DEV]
  | .pwr =>
    [bitFld PWR_STATUS_HOLD s.balls.pwrHold, (PWR_STATUS_RAILS, railsByte s), inputAt s .pwr PWR_VCORE, inputAt s .pwr PWR_VBAT,
     inputAt s .pwr PWR_ICORE]
  | .hbc => [inputAt s .hbc HBC_RD_BLK, inputAt s .hbc HBC_WR_BLK]
  | _ => []

/-! ## Reads -/

/-- Live fields laid over a stored word. -/
def overlay (off : Nat) (l : List (Fld × Nat)) (w : Word) : Word :=
  l.foldl (fun w x => if x.1.off = off then x.1.put w x.2 else w) w

/-- The window words of a tenant that no tenant stands behind read zero (R379). -/
def windowOff (off : Nat) : Bool := decide (0x050 ≤ off ∧ off < 0x090)

/-- What an aligned read of a page returns: zero where the page is absent (R5).  In an isolated region STAT.STATE reads
FAILED and nothing is held (R23). -/
def readReg (s : State) (p : PageId) (off : Nat) : Word :=
  if present s p = false ∨ off % 4 ≠ 0 then 0
  else if p = .ten ∧ windowOff off then overlay off (liveWindow s) 0
  else overlay off (liveHeader s p ++ livePage s p) (s.reg p off)

/-- A word of little-endian bytes. -/
def wordAt (b : Bytes) (off : Nat) : Word :=
  BitVec.ofNat 32 (byteAt b off + byteAt b (off + 1) * 256 + byteAt b (off + 2) * 65536 + byteAt b (off + 3) * 16777216)

/-- The 32 bytes of a record (R438). -/
def recBytes (e : EvRec) : Bytes :=
  leBytes 4 e.seq ++ leBytes 8 e.time ++ leBytes 2 e.code ++ leBytes 2 e.source ++ leBytes 4 e.p0.toNat ++ leBytes 4 e.p1.toNat ++
    leBytes 4 e.p2.toNat ++ leBytes 4 e.p3.toNat

/-- The 128 bytes of a histogram entry (R444). -/
def histBytes (e : EvHist) : Bytes :=
  leBytes 2 e.code ++ leBytes 2 e.source ++ leBytes 4 e.maxP0.toNat ++ leBytes 8 e.first ++ leBytes 8 e.last ++
    fitR 104 ((e.bins.map (leBytes 4)).flatten)

/-- SEQ `n` places after `q`: 0 names no record (R438). -/
def seqAfter (q : Nat) : Nat → Nat
  | 0 => q
  | n + 1 => nextSeq (seqAfter q n)

/-- A word of the recorder's read window (R441, R444). -/
def evrWindow (s : State) (off : Nat) : Word :=
  let cur := s.fld .evr EVR_CURSOR
  if s.fuse.variant.evrHist then
    match s.evr.hist[cur + off / 128]? with
    | some e => wordAt (histBytes e) (off % 128)
    | none => 0
  else
    match s.evr.recs.find? fun e => e.seq = seqAfter cur (off / 32) with
    | some e => wordAt (recBytes e) (off % 32)
    | none => 0

/-- A word of the node window: shadow at 0x000 and active copy at 0x400 of each block's 4 KiB (R180). -/
def nodeWindow (s : State) (off : Nat) : Word :=
  let b := off / 4096
  let o := off % 4096
  if s.fuse.variant.triBlocks ≤ b ∨ 0x800 ≤ o then 0
  else
    let v := if o < 0x400 then triShadow s b (o / 8) else triSlot s b (o % 0x400 / 8)
    BitVec.ofNat 32 (v.toNat / 2 ^ (32 * (o / 4 % 2)))

/-- A word of a context store window: the committed state (R354). -/
def ctxWindow (s : State) (r off : Nat) : Word :=
  if live s (.ctx r) = false ∨ 256 * s.fuse.variant.ctxPerRegion ≤ off then 0 else wordAt (ctxRead s r off 4) 0

/-- What an aligned 32-bit read of the control complex returns (R40, R41).  The spec does not print the ROM: its words are
free values (DESIGN CHOICE, log 96). -/
def readWord (s : State) (a : Nat) : Word :=
  if a < 0x40000 then Config.romWord (a / 4)
  else if 0x1000000000 ≤ a then
    if a < 0x1000000000 + s.fuse.variant.hbmBytes then wordAt (physRead s a 4) 0 else 0
  else if 0x10000000 ≤ a ∧ a < 0x10800000 then wordAt (physRead s a 4) 0
  else if 0xF8000000 ≤ a ∧ a < 0xFC000000 then ctxWindow s ((a - 0xF8000000) / 0x1000000) ((a - 0xF8000000) % 0x1000000)
  else if 0xFC000000 ≤ a ∧ a < 0xFE000000 then nodeWindow s (a - 0xFC000000)
  else if 0xFE000000 ≤ a ∧ a < 0xFE001000 then evrWindow s (a - 0xFE000000)
  else if 0xFE001000 ≤ a ∧ a < 0xFE002000 then wordAt s.rawWin (a - 0xFE001000)
  else match pageOfAddr a with
    | some p => readReg s p (a % 0x1000)
    | none => 0

/-- What an aligned 32-bit read by a master returns: zero where the vault, a PMC page or the master's MPU refuses it
(R215, R375, R446), and from every register of the TEN page for a user (R367). -/
def readAs (s : State) (x : Master) (a : Nat) : Word :=
  match pageReach s x .read (pageOfAddr a) a 4, pageOfAddr a, x with
  | .error _, _, _ => 0
  | .ok _, some .ten, .core _ (some _) => 0
  | .ok _, _, _ => readWord s a

end Sys2Proof.Machine
end

