-- ==== Sys2Proof/Machine/RegWrite.lean ====
section
/-!
DEFINITION. Register writes without a command of their own (R8, R9, R49, R54): REGISTER_WRITE field by field under
the types of the register tables, with the values that a chapter refuses or rounds; and ERR, ERRINJ, LOCK and malformed
accesses (R42, R47 to R49).
-/
namespace Sys2Proof.Machine

/-! ## Fields of one word -/

/-- Stopped-only fields of a page take no write in its present state (R54). -/
def stoppedBars (s : State) (p : PageId) : Bool := decide (stateOf s p ≠ stOff) && decide (stateOf s p ≠ stStopped)

/-- One row's field of a word written: RW stores, W1C clears; other types, fields with a command of their own and
frozen fields stay. -/
def writeRow (p : PageId) (off : Nat) (v : Word) (s : State) (d : FieldDef) : State :=
  let f : Fld := ⟨off, d.fld.lo, d.fld.width⟩
  if d.own ∨ (d.lock ∧ locked s p) ∨ (d.stopped ∧ stoppedBars s p) then s
  else
    match d.ty with
    | .rw => s.setFld p f (f.get v)
    | .w1c => s.setFld p f (f.get (s.reg p off &&& ~~~v))
    | _ => s

/-- A write to the word would meet a stopped-only field that takes none. -/
def stopRefused (s : State) (p : PageId) (off : Nat) : Bool :=
  (rowsAt p off).any fun d => d.stopped && ! (d.lock && locked s p) && decide (d.ty = .rw) && stoppedBars s p

/-- A field that a write can change. -/
def FieldDef.writable (d : FieldDef) : Bool := ! d.own && (decide (d.ty = .rw) || decide (d.ty = .w1c))

/-- The page is locked, and every field of the word that a write could change is lockable (R49). -/
def frozen (s : State) (p : PageId) (off : Nat) : Bool :=
  locked s p && (rowsAt p off).any FieldDef.writable && (rowsAt p off).all fun d => d.lock || ! d.writable

/-! ## Values that a chapter refuses or rounds -/

/-- The event codes of each counter mode (R445). -/
def eventKnown (occ : Bool) (n : Nat) : Bool :=
  if occ then decide (0x40 ≤ n ∧ n ≤ 0x48) else decide (1 ≤ n ∧ n ≤ 0x11)

/-- The value is refused with ERR.ACCESS: LNK_BUF, LNK_XOFF (R80), ODM_CFG (R275), RNG_CFG (R304), PMC_TAG (R451). -/
def valueRefused (s : State) (p : PageId) (off : Nat) (v : Word) : Bool :=
  match p with
  | .lnk _ =>
    if off = 0x06C then
      let n := LNK_BUF_RUNOUT.get v
      decide (n < (s.fld p LNK_MAXFRM + 1023) / 1024) || decide (64 < n)
    else decide (off = 0x070) && decide (LNK_XOFF_XOFF.get v ≤ LNK_XOFF_XON.get v)
  | .odm _ =>
    decide (off = 0x040) &&
      (decide (ODM_CFG_LONG_MAX.get v = 0) || decide (s.fuse.variant.pkePerRegion ≤ ODM_CFG_LONG_MAX.get v))
  | .rng => decide (off = 0x044) && (decide (RNG_CFG_MIN_OSC.get v < 16) || decide (32 < RNG_CFG_MIN_OSC.get v))
  | .pmc _ => decide (off = 0x048) && decide (16 < PMC_TAG_K.get v)
  | _ => false

/-- CLS_LVLMAP with every level 0 stored as 1 (R81). -/
def lvlMap (v : Word) : Word :=
  (List.range 7).foldl (fun w c => let f : Fld := ⟨0x040, 3 * c, 3⟩; if f.get w = 0 then f.put w 1 else w) v

/-- The value as it is stored: a 0 that stands for 1 (R81, R450, R473). -/
def valueStored (p : PageId) (off : Nat) (v : Word) : Word :=
  match p with
  | .cls _ => if off = 0x040 then lvlMap v else v
  | .evr => if off = 0x044 ∧ EVR_FREEZE_MAX.get v = 0 then 1 else v
  | .hbc => if off = 0x058 ∧ HBC_SCRUB.get v = 0 then 1 else v
  | _ => v

/-! ## Words with a home outside the stored registers -/

/-- A window word of the TEN page written for tenant `t` (R379). -/
def writeTenant (s : State) (t off : Nat) (v : Word) : State :=
  let x := s.tenant t
  match off with
  | 0x050 => if TEN_STATUS_DONE.get v = 1 then s.setTenant t { x with done := false } else s
  | 0x054 => s.setFld .ten TEN_ASID_ASID (TEN_ASID_ASID.get v)
  | 0x058 => s.setTenant t { x with siOwnerSubmit := v.getLsbD 1, pinDowngrade := v.getLsbD 0 }
  | 0x05C => s.setTenant t { x with qWork := TEN_Q_WORK.get v }
  | 0x060 => s.setTenant t { x with qCtx := TEN_Q_CTX.get v }
  | 0x064 => s.setTenant t { x with qHost := TEN_Q_NET_HOST.get v, qSess := TEN_Q_NET_SESS.get v }
  | 0x068 => s.setTenant t { x with qKeys := TEN_Q_KEYS.get v }
  | 0x06C => s.setTenant t { x with qVlt := TEN_Q_VLT.get v }
  | 0x070 => s.setTenant t { x with share := max 1 (TEN_SCHED_SHARE.get v), deadlineMs := max 1 (TEN_SCHED_DEADLINE.get v) }
  | 0x074 => if x.state = 0 then s.setTenant t { x with jrnBase := TEN_JRN_BASE.get v } else accessErr s .ten
  | 0x078 => s.setTenant t { x with jrnQuota := TEN_JRN_QUOTA.get v }
  | _ => s

/-- VLT_EXT_BASE and VLT_EXT_COUNT of the tenant that VLT_EXT_TEN names (R216). -/
def writeExt (s : State) (off : Nat) (v : Word) : State :=
  let t := s.fld .vlt VLT_EXT_TEN
  if s.fuse.variant.tenMax < t then s
  else if off = 0x07C then s.setTenant t { s.tenant t with extBase := VLT_EXT_BASE.get v }
  else s.setTenant t { s.tenant t with extCount := VLT_EXT_COUNT.get v }

/-- A word of a page written row by row. -/
def writeRows (s : State) (p : PageId) (off : Nat) (v : Word) : State :=
  let v := valueStored p off v
  (rowsAt p off).foldl (writeRow p off v) s

/-- What a write does beside storing: a selection that counts nothing sets ERR.ACCESS (R445), a new watchdog timeout runs
from now (R467), and the source is judged by its new minimum (R293, R304). -/
def writeHook (s : State) (p : PageId) (off : Nat) : State :=
  match p with
  | .pmc _ =>
    let c := (off - 0x100) / 16
    if 0x100 ≤ off ∧ off < 0x200 ∧ off % 16 = 0 ∧ s.flag p (PMC_SEL_EN c) ∧
        eventKnown (s.flag p (PMC_SEL_OCC c)) (s.fld p (PMC_SEL_EVENT c)) = false then accessErr s p
    else s
  | .rst => if off = 0x04C then { s with time := { s.time with wdt := s.time.tick } } else s
  | .odm 0 => if off = 0x068 then rebaseCurves s else s
  | .rng => if off = 0x044 ∧ s.flag .rng RNG_SRC_STATUS_STARTUP_DONE then refreshSource s else s
  | _ => s

/-- A 32-bit write to page `p` at an aligned offset: a value the chapter refuses stores nothing, and of a word with
stopped-only fields that take no write the others are stored (R54). -/
def writePage (s : State) (p : PageId) (off : Nat) (v : Word) : State :=
  if live s p = false then s
  else if p = .ten ∧ windowOff off then
    match windowTenant s with
    | some t => writeTenant s t off v
    | none => s
  else if p = .tmp ∧ off = 0x048 then { s with tmp := { s.tmp with seen := s.tmp.seen &&& ~~~(v.setWidth 16) } }
  else if p = .vlt ∧ (off = 0x07C ∨ off = 0x080) then if locked s p then s else writeExt s off v
  else if frozen s p off ∨ (pageBtype p = 0x0112 ∧ 0x100 ≤ off ∧ locked s p) then s
  else if pageBtype p = 0x0202 ∧ 0x100 ≤ off ∧ segSealed s 2 then accessErr s p
  else if valueRefused s p off v then accessErr s p
  else
    let s := if stopRefused s p off then accessErr s p else s
    writeHook (writeRows s p off v) p off

/-- ERR.ACCESS on the page an address lies in, where the page is present (R42). -/
def malformed (s : State) (a : Nat) : State :=
  match pageOfAddr a with
  | some p => if present s p then accessErr s p else s
  | none => s

/-- Pages whose cells no work but register accesses reaches in the model (log 94). -/
def registerUnit : PageId → Bool
  | .top | .clk | .pwr | .rst | .lcs | .tmp | .vlt | .ten | .htb | .bfl | .dbg | .ccr _ | .mpu _ | .pmc _ => true
  | _ => false

/-- A 32-bit write of a master to a register page that its MPU admits: a user reaches no TEN register here (R367), and the
debug master neither an MPU page nor TMP (R376, R420). -/
def masterPage (s : State) (x : Master) (p : PageId) (off : Nat) (v : Word) : State :=
  match p, x with
  | .ten, .core _ (some _) => s
  | .mpu _, .debug => s
  | .tmp, .debug => s
  | _, _ =>
    let s := if registerUnit p then touch s p else s
    if masterRuns s x then writePage s p off v else s

/-- A write of a master to memory: beyond the HBM fitted the HBM controller reports the access (R469), and an access to HBM
that is not ready waits (R471; log 42). -/
def masterMemory (s : State) (a : Nat) (b : Bytes) : State :=
  if 0x1000000000 ≤ a then
    if 0x1000000000 + s.fuse.variant.hbmBytes < a + b.length then accessErr s .hbc
    else
      let s := touch s .hbc
      if running s .hbc then physWrite s a b else s
  else physWrite s a b

/-- An address of control SRAM or of the HBM range. -/
def inMemory (a n : Nat) : Bool :=
  decide (0x10000000 ≤ a ∧ a + n ≤ 0x10800000) || decide (0x1000000000 ≤ a ∧ a + n ≤ 0x1400000000)

/-- The words of a register access: one, or the two of a 64-bit access, lower address first (R42). -/
def writeWords (s : State) (x : Master) (a : Nat) : List Word → State
  | [] => s
  | v :: l =>
    let s := match pageOfAddr a with
      | some p => masterPage s x p (a % 0x1000) v
      | none => s
    writeWords s x (a + 4) l

/-- REGISTER_WRITE of a word, or of the two words of a 64-bit access, by a master at a physical address.  The master's MPU
judges the whole access (R372, R375, R41).  Register pages take aligned 32-bit words, and a control core's 64-bit access at
a multiple of 8 as two of them (R42); ROM, the windows and unassigned addresses from 0xF000_0000 on take no write (R40,
R41). -/
def execRegisterWrite (x : Master) (a : Nat) (v : Word) (hi : Option Word) (s : State) : Res :=
  let ws := v :: hi.toList
  let n := 4 * ws.length
  if masterRuns s x = false then .next s
  else match pageReach s x .write (pageOfAddr a) a n with
    | .error s => .next s
    | .ok s =>
      if inMemory a n then .next (masterMemory s a (ws.map fun w => leBytes 4 w.toNat).flatten)
      else if a < 0x40000 ∨ (0xF0000000 ≤ a ∧ a ≤ 0xFFFFFFFF) then
        if a % n ≠ 0 ∨ (hi.isSome && (match x with | .core _ _ => false | _ => true)) = true then .next (malformed s a)
        else .next (writeWords s x a ws)
      else .fault .unassignedAddress

/-- MALFORMED_ACCESS of a master at an address: nothing is read or written (R42).  The vault and the PMC pages turn away
the masters they refuse (R215, R446), and the master's MPU judges the byte at the address as a read (log 71). -/
def execMalformedAccess (x : Master) (a : Nat) (s : State) : Res :=
  if masterRuns s x = false then .next s
  else match pageReach s x .read (pageOfAddr a) a 1 with
    | .error s => .next s
    | .ok s => .next (malformed s a)

/-! ## ERR, ERRINJ and LOCK -/

/-- ERR_WRITE: the flags written 1 clear, and CODE with the last of them (R46, R47). -/
def execErrWrite (p : PageId) (v : Word) (s : State) : Res := onComplex s <|
  if live s p = false then .next s
  else
    let w := s.reg p 0x010 &&& ~~~(v &&& 0x80001F00)
    .next (s.setReg p 0x010 (if w &&& 0x80001F00 = 0 then 0 else w))

/-- The strongest injection that a write to ERRINJ asks for. -/
def injectOf (v : Word) : Option Inject :=
  if v.getLsbD 10 then some .parity else if v.getLsbD 9 then some .uncorr else if v.getLsbD 8 then some .corr else none

/-- ERRINJ: with TEST_EN set, one error is armed for the next protected access (R48). -/
def execErrinj (p : PageId) (v : Word) (s : State) : Res := onComplex s <|
  if live s p = false ∨ s.flag p CTRL_TEST_EN = false ∨ injectOf v = none then .next s
  else .next (s.setAux p { s.auxOf p with inject := injectOf v })

/-- LOCK: LOCK.LOCK is set until chip reset (R49). -/
def execLock (p : PageId) (s : State) : Res := onComplex s <| .next (if live s p then s.setFlag p LOCK_LOCK true else s)

end Sys2Proof.Machine
end

