-- ==== Sys2Proof/Machine/Tenants.lean ====
section
/-!
DEFINITION. Tenant slices: the operations of the TEN page (R361 to R363, R379), the doorbell (R367) and the tenant reset
(R368 to R370).
-/
namespace Sys2Proof.Machine

/-! ## Reset -/

/-- Every item of a tenant. -/
def tenantItems (s : State) (t : Nat) : List Nat := ((opresent s.items).filter fun e => e.2.tenant = t).map Prod.fst

/-- A delay-list timer belongs to a tenant. -/
def timerOf (s : State) (t : Nat) (k : TimerKind) : Bool :=
  match k with
  | .submit _ _ _ _ u => decide (u = t)
  | .heartbeat u => decide (u = t)
  | .expire c => decide ((s.ctxAt (ctxRegion c) (ctxIndex c)).tenant = t)
  | .wake _ => false

/-- Phase 2: what the tenant still holds ends ABORTED_DRAIN, and its timers are cancelled. -/
def squashTenant (s : State) (t : Nat) : State :=
  let ids := tenantItems s t
  let s := s.setTenant t { s.tenant t with phase := 2, squashed := ids.length }
  let s := endItems s ids stABORTED_DRAIN
  (List.range 4).foldl (fun u r => dropTimers u r (timerOf s t)) s

/-- A reset starts; with a limit of 0 phase 2 follows at once. -/
def startReset (s : State) (t : Nat) (release : Bool) : State :=
  let s := s.setTenant t { s.tenant t with
    state := 2, phase := 1, done := false, release := release, resetAt := s.time.tick, squashed := 0 }
  if s.fld .ten TEN_DRAIN_TIMEOUT = 0 then squashTenant s t else s

/-- A lane or engine still zeroises output of the tenant. -/
def tenantZeroising (s : State) (t : Nat) : Bool := s.lanes.any fun e => e.2.discard.any fun d => decide (d.1.tenant = t)

/-- Phase 3: contexts, cache slots, sessions, learned host entries and brake filters of the tenant. -/
def wipeTenant (s : State) (t : Nat) : State :=
  let s := s.setTenant t { s.tenant t with phase := 3 }
  let s := (s.ctxs.filter fun e => e.2.valid ∧ e.2.tenant = t ∧ isolated s (e.1 / 65536) = false).foldl
    (fun s e => ctxWipeNow s (e.1 / 65536) (e.1 % 65536)) s
  let s := ((opresent s.sessions).filter fun e => e.2.tenant = t).foldl (fun s e => closeSession s e.1) s
  let s := { s with keys := mfilter (fun _ k => ! k.any fun k => decide (k.tenant = t)) s.keys }
  let s := ((opresent s.hosts).filter fun e => e.2.tenant = t ∧ e.2.isStatic = false).foldl (fun s e => s.setHost e.1 none) s
  ((opresent s.brakes).filter fun e => e.2.owner = t).foldl (fun s e =>
    mirrorBrake { s with brakes := oset s.brakes e.1 none } e.1 none) s

/-- What RELEASE takes away after its reset (R379). -/
def releaseTenant (s : State) (t : Nat) : State :=
  let s := (List.range 4).foldl (fun s i => if (findRec s 1 t i).isSome then fellTmk s t i else s) s
  let s := ((opresent s.recs).filter fun e => e.2.tenant = t).foldl (fun s e => freeRec s e.1) s
  let s := { s with
    activeTmks := mset (fun _ => none) s.activeTmks t none
    rules := mfilter (fun k _ => decide (k / 1024 ≠ t)) s.rules
    zones := mfilter (fun k _ => decide (k / 256 ≠ t)) s.zones }
  let s := ((opresent s.curves).filter fun e => e.1 / 16 = t).foldl (fun s e => putCurve s e.1 none) s
  let s := s.setSi t { s.siOf t with journal := [] }
  s.setTenant t { s.tenant t with state := 0, asid := none, extBase := 0, extCount := 0, codePages := [] }

/-- A reset is complete. -/
def completeReset (s : State) (t : Nat) : State :=
  let x := s.tenant t
  let s := s.setTenant t { x with state := 1, phase := 0, done := true, resets := (x.resets + 1) % 256, release := false }
  let s := postEvent (setIrq s .ten 16) .ten 0x6001 (BitVec.ofNat 32 t) (BitVec.ofNat 32 x.squashed)
  if x.release then releaseTenant s t
  else if s.fuse.variant.standIn then armHeartbeat s t else s

/-- Element TENANT (R161, R368). -/
abbrev eTENANT : Nat := 0x1103

/-- TENANT_RESET, the command of core `core`. -/
def execTenantReset (core : Nat) (s : State) : Res :=
  hostRun s core 0x0F04 fun s i =>
    if i.tenant ≠ 0 then answerStatus s i stNOT_AUTHORISED
    else match elemsOf [must eTENANT (lenIs 2)] i with
      | .error st => answerStatus s i st
      | .ok l =>
        let t := elemNat l eTENANT
        if s.fuse.variant.tenMax < t then answerStatus s i stNOT_FITTED
        else if t = 0 ∨ (s.tenant t).state = 0 then answerStatus s i stOPERAND_RANGE
        else if (s.tenant t).state = 2 then answerStatus s i stTENANT_RESETTING
        else answerCommit (startReset s t false) i (beBytes 2 t ++ zeros 6) []

/-- TENANT_RESET_DRAIN_END of tenant `t`: it holds nothing, or time passes to the limit of phase 1. -/
def execTenantResetDrainEnd (t : Nat) (s : State) : Res :=
  let x := s.tenant t
  if x.state ≠ 2 ∨ x.phase ≠ 1 then .next s
  else if tenantItems s t = [] then .next (squashTenant s t)
  else .next (squashTenant (advanceTo s (x.resetAt + s.fld .ten TEN_DRAIN_TIMEOUT)) t)

/-- TENANT_RESET_SQUASH_DONE of tenant `t`: the last zeroising of its output is done. -/
def execTenantResetSquashDone (t : Nat) (s : State) : Res :=
  let x := s.tenant t
  if x.state ≠ 2 ∨ x.phase ≠ 2 ∨ tenantZeroising s t then .next s else .next (wipeTenant s t)

/-- TENANT_RESET_COMPLETE of tenant `t`. -/
def execTenantResetComplete (t : Nat) (s : State) : Res :=
  let x := s.tenant t
  if x.state ≠ 2 ∨ x.phase ≠ 3 then .next s else .next (completeReset s t)

/-! ## Operations of the TEN page -/

/-- The status of an operation. -/
def tenStatus (s : State) (st : Nat) : State := s.setFld .ten TEN_OP_STATUS st
/-- A refused operation. -/
def tenRefused (s : State) (st : Nat) : State := raiseErr (tenStatus s st) .ten 12 0xA1

/-- An operation on the tenant of TEN_SEL, which must be in a state. -/
def tenOp (s : State) (state : Nat) (f : State → Nat → State) : Res :=
  let t := s.fld .ten TEN_SEL
  if s.fuse.variant.tenMax < t then .next (tenRefused s stNOT_FITTED)
  else if t = 0 ∨ (s.tenant t).state ≠ state then .next (tenRefused s stOPERAND_RANGE)
  else .next (f s t)

/-- TEN_CREATE: the defaults of R361 and R363; the journal base, written while FREE, stays. -/
def execTenCreate (s : State) : Res := onComplex s <|
  tenOp s 0 fun s t =>
    let x := s.tenant t
    let s := s.setTenant t { Tenant.free with state := 1, jrnBase := x.jrnBase, resets := x.resets, refused := x.refused }
    let s := s.setSi t { s.siOf t with reachable := true, cause := 0 }
    tenStatus (if s.fuse.variant.standIn then armHeartbeat s t else s) stOK

/-- TEN_RESET. -/
def execTenReset (s : State) : Res := onComplex s <| tenOp s 1 fun s t => tenStatus (startReset s t false) stOK
/-- TEN_RELEASE: a reset that also frees the tenant. -/
def execTenRelease (s : State) : Res := onComplex s <| tenOp s 1 fun s t => tenStatus (startReset s t true) stOK

/-- TEN_BIND of the ASID in TEN_ASID: an ASID is bound to at most one tenant. -/
def execTenBind (s : State) : Res := onComplex s <|
  tenOp s 1 fun s t =>
    let a := s.fld .ten TEN_ASID_ASID
    if s.tenants.any fun e => e.1 ≠ t ∧ e.2.asid = some a then accessErr (tenStatus s stOPERAND_RANGE) .ten
    else tenStatus (s.setTenant t { s.tenant t with asid := some a }) stOK

/-- TEN_UNBIND. -/
def execTenUnbind (s : State) : Res := onComplex s <|
  tenOp s 1 fun s t => tenStatus (s.setTenant t { s.tenant t with asid := none }) stOK

/-- TEN_DOORBELL: a write of TEN_DB by a privileged hart, or by the process of an ASID (R367). -/
def execTenDoorbell (user : Option (BitVec 16)) (s : State) : Res := onComplex s <|
  match accessTag s user with
  | some t => .next (setIrq (s.setFlag .ten ⟨0x0A0 + 4 * (t / 32), t % 32, 1⟩ true) .ten 17)
  | none => .next s

end Sys2Proof.Machine
end

