-- ==== Sys2Proof/Machine/Units.lean ====
section
/-!
DEFINITION. The work of the units at an access to their cells: each meets the error armed on it first (R48), and then does
what its chapter gives (R223 to R228, R234, R235, R294, R296, R297, R329, R341, R342, R440).
-/
namespace Sys2Proof.Machine

/-- The current job of a cipher lane ends, an egress seal job among them (R230); TAG_VERIFY_DONE ends a dispatcher's
decrypt job. -/
def cipherJobDone (r k : Nat) (s : State) : Res :=
  let p := PageId.cph r k
  match (s.lane p).sealing, (s.lane p).cur with
  | some x, _ => .next (if live s p then endSeal s p r x else s)
  | none, none => .next s
  | none, some j =>
    if j.slot = noSlot then .next s
    else if unitOf p = some (r, .cipher) ∧ live s p then
      let d := j.desc
      let o := cipherRun s r j
      let bad := decide (o.status = 0) && dLast d &&
        (decide (dOp d = 3) || decide (dOp d = 1 ∧ dMode d = 6)) &&
        decide (fabricRead s r j.core (dCmp d) (dTag d) ≠ o.out16)
      if bad then
        let s := if dMode d ≤ 6 then jobWrite s r j (dDst d) (zeros o.out.length) else s
        .next (endJob s p r j stVERIFY_FAIL o.blocks 0 [] 0x07 0x08)
      else
        let s := if dMode d ≤ 6 then jobWrite s r j (dDst d) o.out else s
        let s := writeArea s r j o.chain
        let out16 := if dOp d = 3 ∨ (dOp d = 1 ∧ dMode d = 6) then [] else o.out16
        .next (endJob s p r j o.status o.blocks o.out.length out16 0x07 0x08)
    else .next s

/-- CIPHER_JOB_DONE: the current job of a lane ends. -/
def execCipherJobDone (r k : Nat) (s : State) : Res :=
  cipherJobDone r k (touchIf s ((s.lane (.cph r k)).cur.isSome || (s.lane (.cph r k)).sealing.isSome) (.cph r k))

/-- The current job of a hash lane ends. -/
def hashJobDone (r k : Nat) (s : State) : Res :=
  let p := PageId.hsh r k
  match (s.lane p).cur with
  | none => .next s
  | some j =>
    if unitOf p = some (r, .hash) ∧ live s p then
      let d := j.desc
      let ch := if dFirst d then Chain.start [] else (jobChain s r j j.parentGen).getD (Chain.start [])
      let m := fabricRead s r j.core (dSrc d) (dLen d)
      let o := hashSeg (dMode d) j.key (dFirst d) (dLast d) ch m
      let res := if dTag d = 0 then o.out else o.out.take (dTag d)
      if dLast d = false then .next (endJob (writeArea s r j o.chain) p r j stOK o.blocks 0 [] 0x09 0)
      else if dOp d = 3 then
        let st := if fabricRead s r j.core (dCmp d) (dTag d) = res then stOK else stVERIFY_FAIL
        .next (endJob s p r j st o.blocks 0 [] 0x09 0)
      else
        let s := if 16 < res.length then jobWrite s r j (dCmp d) res else s
        .next (endJob s p r j stOK o.blocks 0 (res.take 16) 0x09 0)
    else .next s

/-- HASH_JOB_DONE. -/
def execHashJobDone (r k : Nat) (s : State) : Res :=
  hashJobDone r k (touchIf s (s.lane (.hsh r k)).cur.isSome (.hsh r k))

/-- A prefetch slot is filled, and its item starts when the core is free. -/
def workItemDispatch (core : Nat) (s : State) : Res :=
  if 128 ≤ core ∨ running s (corePage core) = false ∨ schDispatches s (coreRegion core) = false then .next s
  else
    let s := fillPrefetch s core
    match (s.core core).run, (s.core core).prefetch.bind s.item with
    | none, some i => .next (startItem s core i)
    | _, _ => .next s

/-- WORK_ITEM_DISPATCH on core `core`: its prefetch slot is filled, and the item starts when the core is free. -/
def execWorkItemDispatch (core : Nat) (s : State) : Res :=
  workItemDispatch core (let t := touchIf s (schDispatches s (coreRegion core)) (.sch (coreRegion core))
    touchIf t (schDispatches t (coreRegion core)) (.ctx (coreRegion core)))

/-- 128 words enter the boom. -/
def drbgGenerate (r : Nat) (s : State) : Res :=
  let p := PageId.rnx r
  let b := s.boom r
  if running s p = false ∨ s.flag p RNG_DRBG_STATUS_SEEDED = false ∨ s.flag p RNG_DRBG_STATUS_LIMIT ∨
      boomFills s r = false ∨ 8192 < b.words.length + wordsReserved s r + 128 then .next s
  else
    let (out, k, v) := drbgGen b.key b.v 1024
    let full := decide (8192 < b.words.length + wordsReserved s r + 256)
    let s := s.setBoom r { b with key := k, v := v, words := b.words ++ chunks 8 out, filling := ! full }
    let g := s.fld p RNG_GEN_LO + s.fld p RNG_GEN_HI * 2 ^ 32 + 1
    let s := (s.setFld p RNG_GEN_LO g).setFld p RNG_GEN_HI (g / 2 ^ 32)
    let n := s.fld p RNG_DRBG_STATUS_REQS + 1
    let s := s.setFld p RNG_DRBG_STATUS_REQS n
    let s := if n = 4097 then
        postEvent (setIrq (s.setFlag p RNG_DRBG_STATUS_STRETCH true) p 16) p 0xB002 (BitVec.ofNat 32 r) else s
    let s := if n = 1048576 then
        postEvent (setIrq (s.setFlag p RNG_DRBG_STATUS_LIMIT true) p 17) p 0xB003 (BitVec.ofNat 32 r) else s
    .next s

/-- DRBG_GENERATE_REQUEST in region `r`: 128 words enter the boom, from the fall below RNG_REFILL until it is full
(R296, R297). -/
def execDrbgGenerateRequest (r : Nat) (s : State) : Res :=
  drbgGenerate r (touchIf s (running s (.rnx r)) (.rnx r))

/-- A block for each oscillator in use enters the seed queue. -/
def conditionedBlock (s : State) : Res :=
  if running s .rng = false ∨ s.flag .rng RNG_SRC_STATUS_STARTUP_DONE = false ∨ rawMode s then .next s
  else
    let n := (sitesOf (oscUse s)).length
    let blocks := (List.range n).map fun i => sha384 (beBytes 128 (Config.rawEntropy (s.fresh + i)).toNat)
    let q := s.seedQ ++ blocks
    .next (setSeedQ (s.takeFresh n) (q.drop (q.length - 32)))

/-- CONDITIONED_BLOCK_RELEASE: one block for each oscillator in use, the SHA-384 of 1,024 raw bits, enters the seed
queue; the oldest leave beyond 32 (R294). -/
def execConditionedBlockRelease (s : State) : Res :=
  conditionedBlock (touchIf s (running s .rng) .rng)

/-- The oldest lookup leaves the pipelines. -/
def prefixLookupDone (s : State) : Res :=
  match s.lookups with
  | [] => .next s
  | x :: l =>
    let s := { s with lookups := l }
    let s := match x.fault with
      | some slot => triFault s slot
      | none => if x.counted then triCount s x.miss x.bad else s
    .next (complete s x.core x.slot x.word)

/-- PREFIX_LOOKUP_DONE: the oldest lookup leaves the pipelines. -/
def execPrefixLookupDone (s : State) : Res :=
  prefixLookupDone (match s.lookups with
    | x :: _ => touch s .tri (.lookup x.core x.slot)
    | [] => s)

/-- A LOST record, or the oldest queued record, is written. -/
def eventRecordWrite (s : State) : Res :=
  if evrRuns s = false ∨ s.flag .evr EVR_CTRL_FREEZE then .next s
  else if s.evr.lostSince ≠ 0 then
    let e := evrRecord s 0x0003 s.evr.lostSince 0 0 0
    .next (writeEvent { s with evr := { s.evr with lostSince := 0 } } e)
  else match s.evr.queue with
    | e :: q => .next (writeEvent { s with evr := { s.evr with queue := q } } e)
    | [] => .next s

/-- EVENT_RECORD_WRITE: a LOST record where records were lost, else the oldest queued record (R440). -/
def execEventRecordWrite (s : State) : Res :=
  eventRecordWrite (touchIf s (s.evr.queue ≠ []) .evr)


end Sys2Proof.Machine
end

