-- ==== Sys2Proof/Machine/Dispatch.lean ====
section
/-!
DEFINITION. One arm for each command: the call of its meaning.
-/
namespace Sys2Proof.Machine

/-- The effect of one command on everything but the queue. -/
def exec (i : Instr) (s : State) : Host.Outcome State Fault Refusal :=
  match i with
  | .singleBitError p code addr => Sys2Proof.Machine.execSingleBitError p code addr s
  | .blockUncorrectableError p code parity victim addr => Sys2Proof.Machine.execBlockUncorrectableError p code parity victim addr s
  | .spareAdmissionDone p res => Sys2Proof.Machine.execSpareAdmissionDone p res s
  | .regionFatalError r p1 => Sys2Proof.Machine.execRegionFatalError r p1 s
  | .chipLevelFault cause => Sys2Proof.Machine.execChipLevelFault cause s
  | .cruiseTest p res => Sys2Proof.Machine.execCruiseTest p res s
  | .sramRepairApply p => Sys2Proof.Machine.execSramRepairApply p s
  | .blockEnable p c => Sys2Proof.Machine.execBlockEnable p c s
  | .blockDisable p c => Sys2Proof.Machine.execBlockDisable p c s
  | .drainReq p c en => Sys2Proof.Machine.execDrainReq p c en s
  | .squashReq p c drainReq => Sys2Proof.Machine.execSquashReq p c drainReq s
  | .startupSettled p => Sys2Proof.Machine.execStartupSettled p s
  | .drainComplete p => Sys2Proof.Machine.execDrainComplete p s
  | .drainTimeout p => Sys2Proof.Machine.execDrainTimeout p s
  | .errWrite p v => Sys2Proof.Machine.execErrWrite p v s
  | .errinj p v => Sys2Proof.Machine.execErrinj p v s
  | .lock p => Sys2Proof.Machine.execLock p s
  | .malformedAccess x a => Sys2Proof.Machine.execMalformedAccess x a s
  | .registerWrite x a v hi => Sys2Proof.Machine.execRegisterWrite x a v hi s
  | .frameReceived p frame fcsOk => Sys2Proof.Machine.execFrameReceived p frame fcsOk s
  | .xoffRepeat p => Sys2Proof.Machine.execXoffRepeat p s
  | .pauseReceived p hold resume => Sys2Proof.Machine.execPauseReceived p hold resume s
  | .txholdTimeout p => Sys2Proof.Machine.execTxholdTimeout p s
  | .trainingTimeout p => Sys2Proof.Machine.execTrainingTimeout p s
  | .blockLockAcquired p => Sys2Proof.Machine.execBlockLockAcquired p s
  | .linkDown p => Sys2Proof.Machine.execLinkDown p s
  | .responseTransmitDone p => Sys2Proof.Machine.execResponseTransmitDone p s
  | .brakeSet r => Sys2Proof.Machine.execBrakeSet r s
  | .brakeRelease r => Sys2Proof.Machine.execBrakeRelease r s
  | .brakeFilterPropagated => Sys2Proof.Machine.execBrakeFilterPropagated s
  | .clsControlParity r mirror => Sys2Proof.Machine.execClsControlParity r mirror s
  | .brakeMirrorReloaded r => Sys2Proof.Machine.execBrakeMirrorReloaded r s
  | .fenceAssert => Sys2Proof.Machine.execFenceAssert s
  | .fenceDeassert => Sys2Proof.Machine.execFenceDeassert s
  | .hostEntryAgeOut h => Sys2Proof.Machine.execHostEntryAgeOut h s
  | .htbReadEntry => Sys2Proof.Machine.execHtbReadEntry s
  | .htbWriteStatic => Sys2Proof.Machine.execHtbWriteStatic s
  | .htbDeleteEntry => Sys2Proof.Machine.execHtbDeleteEntry s
  | .mgtFrameReceived frame fcsOk => Sys2Proof.Machine.execMgtFrameReceived frame fcsOk s
  | .mgtLinkUp mbps => Sys2Proof.Machine.execMgtLinkUp mbps s
  | .mdioWrite phy regad data => Sys2Proof.Machine.execMdioWrite phy regad data s
  | .mdioRead phy regad data => Sys2Proof.Machine.execMdioRead phy regad data s
  | .mdioDone data => Sys2Proof.Machine.execMdioDone data s
  | .mdioTimeout => Sys2Proof.Machine.execMdioTimeout s
  | .romReport => Sys2Proof.Machine.execRomReport s
  | .romLcsRequest vdd vbat => Sys2Proof.Machine.execRomLcsRequest vdd vbat s
  | .tagVerifyDone core => Sys2Proof.Machine.execTagVerifyDone core s
  | .earlyEndTagVerify stamp => Sys2Proof.Machine.execEarlyEndTagVerify stamp s
  | .earlyEndVerifyTimeout stamp => Sys2Proof.Machine.execEarlyEndVerifyTimeout stamp s
  | .sessionHello core => Sys2Proof.Machine.execSessionHello core s
  | .sessionFinish core => Sys2Proof.Machine.execSessionFinish core s
  | .sessionClose core => Sys2Proof.Machine.execSessionClose core s
  | .sessionRekey core => Sys2Proof.Machine.execSessionRekey core s
  | .rekeyPredecessorClose id => Sys2Proof.Machine.execRekeyPredecessorClose id s
  | .echo core => Sys2Proof.Machine.execEcho core s
  | .codepageLoad core => Sys2Proof.Machine.execCodepageLoad core s
  | .deadlineExpiry item => Sys2Proof.Machine.execDeadlineExpiry item s
  | .pinTranslate core => Sys2Proof.Machine.execPinTranslate core s
  | .pinVerifyOffset core => Sys2Proof.Machine.execPinVerifyOffset core s
  | .pinVerifyPvv core => Sys2Proof.Machine.execPinVerifyPvv core s
  | .pinGenOffset core => Sys2Proof.Machine.execPinGenOffset core s
  | .pinGenPvv core => Sys2Proof.Machine.execPinGenPvv core s
  | .macGenerate core => Sys2Proof.Machine.execMacGenerate core s
  | .macVerify core => Sys2Proof.Machine.execMacVerify core s
  | .arqcVerify core => Sys2Proof.Machine.execArqcVerify core s
  | .arqcVerifyArpc core => Sys2Proof.Machine.execArqcVerifyArpc core s
  | .arpcGenerate core => Sys2Proof.Machine.execArpcGenerate core s
  | .arqcGenerate core => Sys2Proof.Machine.execArqcGenerate core s
  | .dukptPinTranslate core => Sys2Proof.Machine.execDukptPinTranslate core s
  | .dukptMacVerify core => Sys2Proof.Machine.execDukptMacVerify core s
  | .dukptDecrypt core => Sys2Proof.Machine.execDukptDecrypt core s
  | .dukptTxnKey core => Sys2Proof.Machine.execDukptTxnKey core s
  | .dukptInit core => Sys2Proof.Machine.execDukptInit core s
  | .keyImport core => Sys2Proof.Machine.execKeyImport core s
  | .keyExport core => Sys2Proof.Machine.execKeyExport core s
  | .keyGenerate core => Sys2Proof.Machine.execKeyGenerate core s
  | .keyCheckValue core => Sys2Proof.Machine.execKeyCheckValue core s
  | .keyDelete core => Sys2Proof.Machine.execKeyDelete core s
  | .keyTranslate core => Sys2Proof.Machine.execKeyTranslate core s
  | .tokenise core => Sys2Proof.Machine.execTokenise core s
  | .detokenise core => Sys2Proof.Machine.execDetokenise core s
  | .tokeniseCounted core => Sys2Proof.Machine.execTokeniseCounted core s
  | .dataEncrypt core => Sys2Proof.Machine.execDataEncrypt core s
  | .dataDecrypt core => Sys2Proof.Machine.execDataDecrypt core s
  | .cscGenerate core => Sys2Proof.Machine.execCscGenerate core s
  | .cscVerify core => Sys2Proof.Machine.execCscVerify core s
  | .siAuthorise core => Sys2Proof.Machine.execSiAuthorise core s
  | .siIssuerState core => Sys2Proof.Machine.execSiIssuerState core s
  | .siHeartbeat core => Sys2Proof.Machine.execSiHeartbeat core s
  | .siJournalRead core => Sys2Proof.Machine.execSiJournalRead core s
  | .siJournalRelease core => Sys2Proof.Machine.execSiJournalRelease core s
  | .siRulesLoad core => Sys2Proof.Machine.execSiRulesLoad core s
  | .siCardUpdate core => Sys2Proof.Machine.execSiCardUpdate core s
  | .heartbeatExpiry r t => Sys2Proof.Machine.execHeartbeatExpiry r t s
  | .heartbeatRearm r => Sys2Proof.Machine.execHeartbeatRearm r s
  | .triLockSet b recent => Sys2Proof.Machine.execTriLockSet b recent s
  | .triLockCopyDone => Sys2Proof.Machine.execTriLockCopyDone s
  | .triLockHoldRelease => Sys2Proof.Machine.execTriLockHoldRelease s
  | .triLockClr b => Sys2Proof.Machine.execTriLockClr b s
  | .triCommit => Sys2Proof.Machine.execTriCommit s
  | .triNodeWrite b n v => Sys2Proof.Machine.execTriNodeWrite b n v s
  | .triDmaGo first count => Sys2Proof.Machine.execTriDmaGo first count s
  | .triDmaDone => Sys2Proof.Machine.execTriDmaDone s
  | .prefixLookupDone => Sys2Proof.Machine.execPrefixLookupDone s
  | .authSet core => Sys2Proof.Machine.execAuthSet core s
  | .custodianSet core => Sys2Proof.Machine.execCustodianSet core s
  | .tmkGenerate core => Sys2Proof.Machine.execTmkGenerate core s
  | .tmkLoad core => Sys2Proof.Machine.execTmkLoad core s
  | .tmkInvalidate core => Sys2Proof.Machine.execTmkInvalidate core s
  | .tmkSelect core => Sys2Proof.Machine.execTmkSelect core s
  | .credLoad core => Sys2Proof.Machine.execCredLoad core s
  | .credDelete core => Sys2Proof.Machine.execCredDelete core s
  | .firmwareMigrate core => Sys2Proof.Machine.execFirmwareMigrate core s
  | .migrateCancel core => Sys2Proof.Machine.execMigrateCancel core s
  | .migrationRewrapDone => Sys2Proof.Machine.execMigrationRewrapDone s
  | .migConfirm v => Sys2Proof.Machine.execMigConfirm v s
  | .migrationConfirmDone => Sys2Proof.Machine.execMigrationConfirmDone s
  | .keyCacheRemask => Sys2Proof.Machine.execKeyCacheRemask s
  | .bbramRemask => Sys2Proof.Machine.execBbramRemask s
  | .nvmBankRemask fails => Sys2Proof.Machine.execNvmBankRemask fails s
  | .vaultMaskReseed => Sys2Proof.Machine.execVaultMaskReseed s
  | .writeAllowanceRefill => Sys2Proof.Machine.execWriteAllowanceRefill s
  | .vaultStartup bad => Sys2Proof.Machine.execVaultStartup bad s
  | .measWrite n w v => Sys2Proof.Machine.execMeasWrite n w v s
  | .measSeal v => Sys2Proof.Machine.execMeasSeal v s
  | .vltSeal => Sys2Proof.Machine.execVltSeal s
  | .vltInfo => Sys2Proof.Machine.execVltInfo s
  | .vaultDebugAccess => Sys2Proof.Machine.execVaultDebugAccess s
  | .devAttest core => Sys2Proof.Machine.execDevAttest core s
  | .cipherJobBind r k => Sys2Proof.Machine.execCipherJobBind r k s
  | .cipherJobDone r k => Sys2Proof.Machine.execCipherJobDone r k s
  | .discardZeroiseDone p written => Sys2Proof.Machine.execDiscardZeroiseDone p written s
  | .hashJobBind r k => Sys2Proof.Machine.execHashJobBind r k s
  | .hashJobDone r k => Sys2Proof.Machine.execHashJobDone r k s
  | .laneStartupVectorsDone r cphFails hshFails => Sys2Proof.Machine.execLaneStartupVectorsDone r cphFails hshFails s
  | .cphTestRun r k res => Sys2Proof.Machine.execCphTestRun r k res s
  | .hshTestRun r k res => Sys2Proof.Machine.execHshTestRun r k res s
  | .engineJobBind r k => Sys2Proof.Machine.execEngineJobBind r k s
  | .engineJobDone r k => Sys2Proof.Machine.execEngineJobDone r k s
  | .engineStartupVectorsDone r fails => Sys2Proof.Machine.execEngineStartupVectorsDone r fails s
  | .pkeTestRun r k res => Sys2Proof.Machine.execPkeTestRun r k res s
  | .microcodeLoad r words => Sys2Proof.Machine.execMicrocodeLoad r words s
  | .microcodeLoadDone r => Sys2Proof.Machine.execMicrocodeLoadDone r s
  | .pkSign core => Sys2Proof.Machine.execPkSign core s
  | .pkVerify core => Sys2Proof.Machine.execPkVerify core s
  | .pkEcdh core => Sys2Proof.Machine.execPkEcdh core s
  | .pkKeygen core => Sys2Proof.Machine.execPkKeygen core s
  | .pkRsaDecrypt core => Sys2Proof.Machine.execPkRsaDecrypt core s
  | .pkCurveLoad core => Sys2Proof.Machine.execPkCurveLoad core s
  | .ldgCalc core => Sys2Proof.Machine.execLdgCalc core s
  | .ldgAccrue core => Sys2Proof.Machine.execLdgAccrue core s
  | .ldgPost core => Sys2Proof.Machine.execLdgPost core s
  | .oscillatorHealthFail site held => Sys2Proof.Machine.execOscillatorHealthFail site held s
  | .conditionedBlockRelease => Sys2Proof.Machine.execConditionedBlockRelease s
  | .drbgGenerateRequest r => Sys2Proof.Machine.execDrbgGenerateRequest r s
  | .drbgReseed r => Sys2Proof.Machine.execDrbgReseed r s
  | .sourceStartupDone fails => Sys2Proof.Machine.execSourceStartupDone fails s
  | .expanderInstantiated r => Sys2Proof.Machine.execExpanderInstantiated r s
  | .rngRawEnable en => Sys2Proof.Machine.execRngRawEnable en s
  | .rngRawArm sel => Sys2Proof.Machine.execRngRawArm sel s
  | .rngRawFull => Sys2Proof.Machine.execRngRawFull s
  | .rngRawPermit => Sys2Proof.Machine.execRngRawPermit s
  | .workItemDispatch core => Sys2Proof.Machine.execWorkItemDispatch core s
  | .nop core g sense => Sys2Proof.Machine.execNop core g sense s
  | .dup core g sense => Sys2Proof.Machine.execDup core g sense s
  | .drop core g sense => Sys2Proof.Machine.execDrop core g sense s
  | .swap core g sense => Sys2Proof.Machine.execSwap core g sense s
  | .over core g sense => Sys2Proof.Machine.execOver core g sense s
  | .rot core g sense => Sys2Proof.Machine.execRot core g sense s
  | .nip core g sense => Sys2Proof.Machine.execNip core g sense s
  | .tuck core g sense => Sys2Proof.Machine.execTuck core g sense s
  | .dup2 core g sense => Sys2Proof.Machine.execDup2 core g sense s
  | .drop2 core g sense => Sys2Proof.Machine.execDrop2 core g sense s
  | .swap2 core g sense => Sys2Proof.Machine.execSwap2 core g sense s
  | .pick core g sense => Sys2Proof.Machine.execPick core g sense s
  | .depth core g sense => Sys2Proof.Machine.execDepth core g sense s
  | .add core g sense => Sys2Proof.Machine.execAdd core g sense s
  | .sub core g sense => Sys2Proof.Machine.execSub core g sense s
  | .adc core g sense => Sys2Proof.Machine.execAdc core g sense s
  | .sbc core g sense => Sys2Proof.Machine.execSbc core g sense s
  | .and core g sense => Sys2Proof.Machine.execAnd core g sense s
  | .or core g sense => Sys2Proof.Machine.execOr core g sense s
  | .xor core g sense => Sys2Proof.Machine.execXor core g sense s
  | .not core g sense => Sys2Proof.Machine.execNot core g sense s
  | .neg core g sense => Sys2Proof.Machine.execNeg core g sense s
  | .abs core g sense => Sys2Proof.Machine.execAbs core g sense s
  | .mul core g sense => Sys2Proof.Machine.execMul core g sense s
  | .muls core g sense => Sys2Proof.Machine.execMuls core g sense s
  | .div core g sense => Sys2Proof.Machine.execDiv core g sense s
  | .divs core g sense => Sys2Proof.Machine.execDivs core g sense s
  | .add32 core g sense => Sys2Proof.Machine.execAdd32 core g sense s
  | .sub32 core g sense => Sys2Proof.Machine.execSub32 core g sense s
  | .inc core g sense => Sys2Proof.Machine.execInc core g sense s
  | .dec core g sense => Sys2Proof.Machine.execDec core g sense s
  | .addi core g sense n => Sys2Proof.Machine.execAddi core g sense n s
  | .shl core g sense => Sys2Proof.Machine.execShl core g sense s
  | .shr core g sense => Sys2Proof.Machine.execShr core g sense s
  | .sar core g sense => Sys2Proof.Machine.execSar core g sense s
  | .rol core g sense => Sys2Proof.Machine.execRol core g sense s
  | .ror core g sense => Sys2Proof.Machine.execRor core g sense s
  | .shl32 core g sense => Sys2Proof.Machine.execShl32 core g sense s
  | .shr32 core g sense => Sys2Proof.Machine.execShr32 core g sense s
  | .shli core g sense n => Sys2Proof.Machine.execShli core g sense n s
  | .shri core g sense n => Sys2Proof.Machine.execShri core g sense n s
  | .sari core g sense n => Sys2Proof.Machine.execSari core g sense n s
  | .roli core g sense n => Sys2Proof.Machine.execRoli core g sense n s
  | .bfx core g sense imm => Sys2Proof.Machine.execBfx core g sense imm s
  | .bfxs core g sense imm => Sys2Proof.Machine.execBfxs core g sense imm s
  | .bfi core g sense imm => Sys2Proof.Machine.execBfi core g sense imm s
  | .clz core g sense => Sys2Proof.Machine.execClz core g sense s
  | .ctz core g sense => Sys2Proof.Machine.execCtz core g sense s
  | .popc core g sense => Sys2Proof.Machine.execPopc core g sense s
  | .bperm core g sense imm => Sys2Proof.Machine.execBperm core g sense imm s
  | .eq core g sense pd => Sys2Proof.Machine.execEq core g sense pd s
  | .ne core g sense pd => Sys2Proof.Machine.execNe core g sense pd s
  | .ltu core g sense pd => Sys2Proof.Machine.execLtu core g sense pd s
  | .geu core g sense pd => Sys2Proof.Machine.execGeu core g sense pd s
  | .gtu core g sense pd => Sys2Proof.Machine.execGtu core g sense pd s
  | .leu core g sense pd => Sys2Proof.Machine.execLeu core g sense pd s
  | .lt core g sense pd => Sys2Proof.Machine.execLt core g sense pd s
  | .ge core g sense pd => Sys2Proof.Machine.execGe core g sense pd s
  | .gt core g sense pd => Sys2Proof.Machine.execGt core g sense pd s
  | .le core g sense pd => Sys2Proof.Machine.execLe core g sense pd s
  | .eqz core g sense pd => Sys2Proof.Machine.execEqz core g sense pd s
  | .nez core g sense pd => Sys2Proof.Machine.execNez core g sense pd s
  | .ltz core g sense pd => Sys2Proof.Machine.execLtz core g sense pd s
  | .gez core g sense pd => Sys2Proof.Machine.execGez core g sense pd s
  | .bit core g sense pd => Sys2Proof.Machine.execBit core g sense pd s
  | .pc core g sense pd => Sys2Proof.Machine.execPc core g sense pd s
  | .pv core g sense pd => Sys2Proof.Machine.execPv core g sense pd s
  | .pdz core g sense pd => Sys2Proof.Machine.execPdz core g sense pd s
  | .predAnd core g sense ps pd => Sys2Proof.Machine.execPredAnd core g sense ps pd s
  | .predOr core g sense ps pd => Sys2Proof.Machine.execPredOr core g sense ps pd s
  | .predXor core g sense ps pd => Sys2Proof.Machine.execPredXor core g sense ps pd s
  | .predMov core g sense ps pd => Sys2Proof.Machine.execPredMov core g sense ps pd s
  | .lit8 core g sense n => Sys2Proof.Machine.execLit8 core g sense n s
  | .lit16 core g sense n => Sys2Proof.Machine.execLit16 core g sense n s
  | .ld core g sense => Sys2Proof.Machine.execLd core g sense s
  | .st core g sense => Sys2Proof.Machine.execSt core g sense s
  | .ldb core g sense => Sys2Proof.Machine.execLdb core g sense s
  | .stb core g sense => Sys2Proof.Machine.execStb core g sense s
  | .ld32 core g sense => Sys2Proof.Machine.execLd32 core g sense s
  | .st32 core g sense => Sys2Proof.Machine.execSt32 core g sense s
  | .ldp core g sense => Sys2Proof.Machine.execLdp core g sense s
  | .stp core g sense => Sys2Proof.Machine.execStp core g sense s
  | .copy core g sense => Sys2Proof.Machine.execCopy core g sense s
  | .zero core g sense => Sys2Proof.Machine.execZero core g sense s
  | .ldw core g sense w => Sys2Proof.Machine.execLdw core g sense w s
  | .stw core g sense w => Sys2Proof.Machine.execStw core g sense w s
  | .ldc core g sense w => Sys2Proof.Machine.execLdc core g sense w s
  | .br core g sense d => Sys2Proof.Machine.execBr core g sense d s
  | .call core g sense target => Sys2Proof.Machine.execCall core g sense target s
  | .jmp core g sense target => Sys2Proof.Machine.execJmp core g sense target s
  | .loop core g sense target => Sys2Proof.Machine.execLoop core g sense target s
  | .ret core g sense => Sys2Proof.Machine.execRet core g sense s
  | .calls core g sense => Sys2Proof.Machine.execCalls core g sense s
  | .jmps core g sense => Sys2Proof.Machine.execJmps core g sense s
  | .tor core g sense => Sys2Proof.Machine.execTor core g sense s
  | .fromr core g sense => Sys2Proof.Machine.execFromr core g sense s
  | .copyr core g sense => Sys2Proof.Machine.execCopyr core g sense s
  | .rdrop core g sense => Sys2Proof.Machine.execRdrop core g sense s
  | .rdepth core g sense => Sys2Proof.Machine.execRdepth core g sense s
  | .sendCipher core g sense => Sys2Proof.Machine.execSendCipher core g sense s
  | .sendHash core g sense => Sys2Proof.Machine.execSendHash core g sense s
  | .sendEngine core g sense => Sys2Proof.Machine.execSendEngine core g sense s
  | .sendLookup core g sense => Sys2Proof.Machine.execSendLookup core g sense s
  | .sendVault core g sense => Sys2Proof.Machine.execSendVault core g sense s
  | .ctxDraw core g sense => Sys2Proof.Machine.execCtxDraw core g sense s
  | .ctxFetch core g sense => Sys2Proof.Machine.execCtxFetch core g sense s
  | .ctxCreate core g sense => Sys2Proof.Machine.execCtxCreate core g sense s
  | .ctxDelete core g sense => Sys2Proof.Machine.execCtxDelete core g sense s
  | .timerSubmit core g sense => Sys2Proof.Machine.execTimerSubmit core g sense s
  | .timerExpire core g sense => Sys2Proof.Machine.execTimerExpire core g sense s
  | .timerHeartbeat core g sense => Sys2Proof.Machine.execTimerHeartbeat core g sense s
  | .timerCancel core g sense => Sys2Proof.Machine.execTimerCancel core g sense s
  | .wait core g sense => Sys2Proof.Machine.execWait core g sense s
  | .getw core g sense => Sys2Proof.Machine.execGetw core g sense s
  | .rels core g sense => Sys2Proof.Machine.execRels core g sense s
  | .resv core g sense => Sys2Proof.Machine.execResv core g sense s
  | .rand core g sense => Sys2Proof.Machine.execRand core g sense s
  | .done core g sense => Sys2Proof.Machine.execDone core g sense s
  | .yield core g sense => Sys2Proof.Machine.execYield core g sense s
  | .sleep core g sense => Sys2Proof.Machine.execSleep core g sense s
  | .trap core g sense n => Sys2Proof.Machine.execTrap core g sense n s
  | .csrget core g sense n => Sys2Proof.Machine.execCsrget core g sense n s
  | .csrput core g sense n => Sys2Proof.Machine.execCsrput core g sense n s
  | .sleepWake r => Sys2Proof.Machine.execSleepWake r s
  | .delayTimerFire r => Sys2Proof.Machine.execDelayTimerFire r s
  | .contextExpiry r => Sys2Proof.Machine.execContextExpiry r s
  | .contextWindowWrite r off b => Sys2Proof.Machine.execContextWindowWrite r off b s
  | .submissionDoorbell r tail => Sys2Proof.Machine.execSubmissionDoorbell r tail s
  | .submissionAccept r => Sys2Proof.Machine.execSubmissionAccept r s
  | .programLoad r => Sys2Proof.Machine.execProgramLoad r s
  | .programLoadDone r => Sys2Proof.Machine.execProgramLoadDone r s
  | .ctxOpCreate r => Sys2Proof.Machine.execCtxOpCreate r s
  | .ctxOpDelete r => Sys2Proof.Machine.execCtxOpDelete r s
  | .tenantReset core => Sys2Proof.Machine.execTenantReset core s
  | .tenantResetDrainEnd t => Sys2Proof.Machine.execTenantResetDrainEnd t s
  | .tenantResetSquashDone t => Sys2Proof.Machine.execTenantResetSquashDone t s
  | .tenantResetComplete t => Sys2Proof.Machine.execTenantResetComplete t s
  | .tenCreate => Sys2Proof.Machine.execTenCreate s
  | .tenReset => Sys2Proof.Machine.execTenReset s
  | .tenRelease => Sys2Proof.Machine.execTenRelease s
  | .tenBind => Sys2Proof.Machine.execTenBind s
  | .tenUnbind => Sys2Proof.Machine.execTenUnbind s
  | .tenDoorbell user => Sys2Proof.Machine.execTenDoorbell user s
  | .mpuEntryWrite m n cfg => Sys2Proof.Machine.execMpuEntryWrite m n cfg s
  | .mpuParityError m => Sys2Proof.Machine.execMpuParityError m s
  | .pairLinkUp lanes x => Sys2Proof.Machine.execPairLinkUp lanes x s
  | .pairLinkDown abandoned => Sys2Proof.Machine.execPairLinkDown abandoned s
  | .pairJoinTimeout => Sys2Proof.Machine.execPairJoinTimeout s
  | .fullCopyDone mib copy => Sys2Proof.Machine.execFullCopyDone mib copy s
  | .pairHeartbeatLost => Sys2Proof.Machine.execPairHeartbeatLost s
  | .pairHeartbeatPresent => Sys2Proof.Machine.execPairHeartbeatPresent s
  | .epochClose bytes sent retries => Sys2Proof.Machine.execEpochClose bytes sent retries s
  | .deltaReceived d => Sys2Proof.Machine.execDeltaReceived d s
  | .deltaAckReceived e standby => Sys2Proof.Machine.execDeltaAckReceived e standby s
  | .standbyTimeout => Sys2Proof.Machine.execStandbyTimeout s
  | .partnerPromotedMsg => Sys2Proof.Machine.execPartnerPromotedMsg s
  | .partnerWithdrawMsg => Sys2Proof.Machine.execPartnerWithdrawMsg s
  | .pairSwitch => Sys2Proof.Machine.execPairSwitch s
  | .switchDrainTimeout => Sys2Proof.Machine.execSwitchDrainTimeout s
  | .pairPromote => Sys2Proof.Machine.execPairPromote s
  | .abandonState => Sys2Proof.Machine.execAbandonState s
  | .parUncorrectableError parity => Sys2Proof.Machine.execParUncorrectableError parity s
  | .tamperTrip v pulsed => Sys2Proof.Machine.execTamperTrip v pulsed s
  | .monitorRearm m => Sys2Proof.Machine.execMonitorRearm m s
  | .railFall core => Sys2Proof.Machine.execRailFall core s
  | .railFallWindowEnd => Sys2Proof.Machine.execRailFallWindowEnd s
  | .stimulusTestPeriod => Sys2Proof.Machine.execStimulusTestPeriod s
  | .tmpTestRun sel => Sys2Proof.Machine.execTmpTestRun sel s
  | .stimulusWindowClose tripped persists => Sys2Proof.Machine.execStimulusWindowClose tripped persists s
  | .blazeLogNvmWriteDone => Sys2Proof.Machine.execBlazeLogNvmWriteDone s
  | .tmpRespWrite v => Sys2Proof.Machine.execTmpRespWrite v s
  | .tmpCfgWrite v => Sys2Proof.Machine.execTmpCfgWrite v s
  | .tmpLogRead => Sys2Proof.Machine.execTmpLogRead s
  | .batteryDomainError => Sys2Proof.Machine.execBatteryDomainError s
  | .devStatus core => Sys2Proof.Machine.execDevStatus core s
  | .devUnlock core => Sys2Proof.Machine.execDevUnlock core s
  | .lcsArm => Sys2Proof.Machine.execLcsArm s
  | .lcsProgramDone partly => Sys2Proof.Machine.execLcsProgramDone partly s
  | .extest => Sys2Proof.Machine.execExtest s
  | .idcode => Sys2Proof.Machine.execIdcode s
  | .samplePreload => Sys2Proof.Machine.execSamplePreload s
  | .dtmcs => Sys2Proof.Machine.execDtmcs s
  | .dmi => Sys2Proof.Machine.execDmi s
  | .bypass => Sys2Proof.Machine.execBypass s
  | .eventRecordWrite => Sys2Proof.Machine.execEventRecordWrite s
  | .evrFreeze on => Sys2Proof.Machine.execEvrFreeze on s
  | .evrFreezeTimeout => Sys2Proof.Machine.execEvrFreezeTimeout s
  | .evrClear core => Sys2Proof.Machine.execEvrClear core s
  | .evrTimeSet => Sys2Proof.Machine.execEvrTimeSet s
  | .evrPost code => Sys2Proof.Machine.execEvrPost code s
  | .pmcZero x r => Sys2Proof.Machine.execPmcZero x r s
  | .pmcFreeze x r on => Sys2Proof.Machine.execPmcFreeze x r on s
  | .pmcHistClr x r groups => Sys2Proof.Machine.execPmcHistClr x r groups s
  | .pmcCounterWrap r c => Sys2Proof.Machine.execPmcCounterWrap r c s
  | .powerOn => Sys2Proof.Machine.execPowerOn s
  | .resetN => Sys2Proof.Machine.execResetN s
  | .rstCmd v => Sys2Proof.Machine.execRstCmd v s
  | .watchdogHalf => Sys2Proof.Machine.execWatchdogHalf s
  | .watchdogExpiry => Sys2Proof.Machine.execWatchdogExpiry s
  | .rstWdtKick => Sys2Proof.Machine.execRstWdtKick s
  | .bootFailure typ status => Sys2Proof.Machine.execBootFailure typ status s
  | .romStart f vdd vbat => Sys2Proof.Machine.execRomStart f vdd vbat s
  | .rstReady on => Sys2Proof.Machine.execRstReady on s
  | .bflTransfer => Sys2Proof.Machine.execBflTransfer s
  | .bflTransferDone r => Sys2Proof.Machine.execBflTransferDone r s
  | .bflCommand op reply => Sys2Proof.Machine.execBflCommand op reply s
  | .hbmTrainingDone ok us => Sys2Proof.Machine.execHbmTrainingDone ok us s
  | .hbmInitDone => Sys2Proof.Machine.execHbmInitDone s
  | .hbmScrubPass => Sys2Proof.Machine.execHbmScrubPass s
  | .hbmTempThreshold t => Sys2Proof.Machine.execHbmTempThreshold t s
  | .serdesPllLockLoss q => Sys2Proof.Machine.execSerdesPllLockLoss q s
  | .dieTempAlarm t => Sys2Proof.Machine.execDieTempAlarm t s
  | .i2cRead c => Sys2Proof.Machine.execI2cRead c s
  | .mgtLinkDown syncLost => Sys2Proof.Machine.execMgtLinkDown syncLost s
  | .pauseQuantaExpiry p classes => Sys2Proof.Machine.execPauseQuantaExpiry p classes s
  | .pairLaneBlockLock n lock => Sys2Proof.Machine.execPairLaneBlockLock n lock s
  | .roleMessageReceived switchover => Sys2Proof.Machine.execRoleMessageReceived switchover s
  | .railReturn core => Sys2Proof.Machine.execRailReturn core s
  | .illegalInstruction core => Sys2Proof.Machine.execIllegalInstruction core s
  | .tmpLogicParity code => Sys2Proof.Machine.execTmpLogicParity code s
  | .pmcCounterUncorrectable r c => Sys2Proof.Machine.execPmcCounterUncorrectable r c s
  | .counterWriteRefill n => Sys2Proof.Machine.execCounterWriteRefill n s
  | .cellInserted => Sys2Proof.Machine.execCellInserted s
  | .vholdCharged => Sys2Proof.Machine.execVholdCharged s
  | .holdUpExhausted => Sys2Proof.Machine.execHoldUpExhausted s

end Sys2Proof.Machine
end

