-- ==== Sys2Proof/WellFormed.lean ====
section
/-!
DEFINITION. Which commands are well formed: their operands name things the address map and the tables give some part
(R2, R40, R43, R44, R306), whatever the variant; a well-formed command may still name what the part at hand lacks.
-/
namespace Sys2Proof

/-- A Kreur core (R306). -/
def coreOk (n : Nat) : Bool := decide (n < 128)
/-- A guard predicate (R307). -/
def guardOk (n : Nat) : Bool := decide (n < 8)
/-- A destination or source predicate (R316, R317). -/
def predOk (n : Nat) : Bool := decide (n < 8)
/-- A region (R44). -/
def regionOk (n : Nat) : Bool := decide (n < 4)
/-- A host port (R44). -/
def portOk (n : Nat) : Bool := decide (n < 128)
/-- A tenant (R361). -/
def tenantOk (n : Nat) : Bool := decide (n < 1023)
/-- A position within a group of units (R44). -/
def unitOk (n k : Nat) : Bool := decide (k < n)
/-- A cause of a chip-level fault (R25). -/
def causeOk (n : Nat) : Bool := decide (1 ≤ n) && decide (n ≤ 5)
/-- A node block (R180). -/
def blockOk (n : Nat) : Bool := decide (n < 8192)
/-- An MPU (R43). -/
def mpuOk (n : Nat) : Bool := decide (n < 20)
/-- A monitor code (R402). -/
def monitorOk (n : Nat) : Bool := decide (1 ≤ n) && decide (n ≤ 16)

/-- A page of the address map (R43, R44). -/
def PageId.ok : PageId → Bool
  | .ccr c => decide (c < 10)
  | .mpu m => mpuOk m
  | .lnk p => portOk p
  | .cls r | .sch r | .ctx r | .odm r | .rnx r | .pmc r => regionOk r
  | .kcr r k => regionOk r && unitOk 36 k
  | .cph r k => regionOk r && unitOk 18 k
  | .hsh r k => regionOk r && unitOk 5 k
  | .pke r k => regionOk r && unitOk 5 k
  | .top | .clk | .pwr | .rst | .lcs | .tmp | .vlt | .rng | .evr | .ten | .htb | .tri | .par | .mgt | .bfl | .hbc | .dbg => true

/-- A host port, or the management port, which is 128 (R84, R320). -/
def anyPortOk (n : Nat) : Bool := decide (n ≤ 128)
/-- A master: a control core (R43). -/
def Master.ok : Master → Bool
  | .core c _ => decide (c < 10)
  | .pair | .debug => true

/-- A well-formed command. -/
def WellFormed (i : Instr) : Bool :=
  match i with
  | .singleBitError p _ _ | .blockUncorrectableError p _ _ _ _ | .spareAdmissionDone p _ | .cruiseTest p _
  | .sramRepairApply p | .blockEnable p _ | .blockDisable p _ | .drainReq p _ _ | .squashReq p _ _
  | .startupSettled p | .drainComplete p | .drainTimeout p | .errWrite p _ | .errinj p _ | .lock p
  | .discardZeroiseDone p _ =>
    PageId.ok p
  | .regionFatalError r _ | .brakeSet r | .brakeRelease r | .clsControlParity r _ | .brakeMirrorReloaded r
  | .heartbeatRearm r | .laneStartupVectorsDone r _ _ | .engineStartupVectorsDone r _ | .microcodeLoad r _
  | .microcodeLoadDone r | .drbgGenerateRequest r | .drbgReseed r | .expanderInstantiated r | .sleepWake r
  | .delayTimerFire r | .contextExpiry r | .submissionDoorbell r _ | .submissionAccept r | .programLoad r
  | .programLoadDone r | .ctxOpCreate r | .ctxOpDelete r =>
    regionOk r
  | .pmcZero x r | .pmcFreeze x r _ | .pmcHistClr x r _ =>
    x.ok && regionOk r
  | .chipLevelFault cause =>
    causeOk cause
  | .malformedAccess x a | .registerWrite x a _ _ =>
    x.ok && decide (a < 1099511627776)
  | .frameReceived p _ _ | .xoffRepeat p | .txholdTimeout p | .trainingTimeout p | .blockLockAcquired p | .linkDown p =>
    portOk p
  | .pauseReceived p _ _ | .responseTransmitDone p | .pauseQuantaExpiry p _ =>
    anyPortOk p
  | .brakeFilterPropagated | .fenceAssert | .fenceDeassert | .htbReadEntry | .htbWriteStatic | .htbDeleteEntry
  | .mgtFrameReceived _ _ | .mgtLinkUp _ | .mdioWrite _ _ _ | .mdioRead _ _ _ | .mdioDone _ | .mdioTimeout
  | .romReport | .romLcsRequest _ _ | .earlyEndTagVerify _ | .earlyEndVerifyTimeout _ | .rekeyPredecessorClose _
  | .deadlineExpiry _ | .triLockCopyDone | .triLockHoldRelease | .triCommit | .triDmaGo _ _ | .triDmaDone
  | .prefixLookupDone | .migrationRewrapDone | .migConfirm _ | .migrationConfirmDone | .keyCacheRemask | .bbramRemask
  | .vaultMaskReseed | .writeAllowanceRefill | .measSeal _ | .vltSeal | .vltInfo
  | .vaultDebugAccess | .conditionedBlockRelease | .sourceStartupDone _ | .rngRawEnable _ | .rngRawArm _
  | .rngRawFull | .rngRawPermit | .tenCreate | .tenReset | .tenRelease | .tenBind | .tenUnbind | .tenDoorbell _
  | .pairLinkUp _ _ | .pairLinkDown _ | .pairJoinTimeout | .fullCopyDone _ _ | .pairHeartbeatLost
  | .pairHeartbeatPresent | .epochClose _ _ _ | .deltaReceived _ | .deltaAckReceived _ _ | .standbyTimeout
  | .partnerPromotedMsg | .partnerWithdrawMsg | .pairSwitch | .switchDrainTimeout | .pairPromote | .abandonState
  | .parUncorrectableError _ | .tamperTrip _ _ | .railFall _ | .railFallWindowEnd | .stimulusTestPeriod
  | .tmpTestRun _ | .stimulusWindowClose _ _ | .blazeLogNvmWriteDone | .tmpRespWrite _ | .tmpCfgWrite _ | .tmpLogRead
  | .batteryDomainError | .lcsArm | .lcsProgramDone _ | .extest | .idcode | .samplePreload | .dtmcs | .dmi | .bypass
  | .eventRecordWrite | .evrFreeze _ | .evrFreezeTimeout | .evrTimeSet | .evrPost _ | .powerOn | .resetN | .rstCmd _
  | .watchdogHalf | .watchdogExpiry | .rstWdtKick | .bootFailure _ _ | .romStart _ _ _ | .rstReady _ | .bflTransfer
  | .bflTransferDone _ | .bflCommand _ _ | .hbmTrainingDone _ _ | .hbmInitDone | .hbmScrubPass | .hbmTempThreshold _
  | .serdesPllLockLoss _ | .dieTempAlarm _ | .i2cRead _ | .mgtLinkDown _ | .pairLaneBlockLock _ _
  | .roleMessageReceived _ | .railReturn _ | .tmpLogicParity _ | .cellInserted | .vholdCharged | .holdUpExhausted =>
    true
  | .hostEntryAgeOut h =>
    decide (h < 4096)
  | .tagVerifyDone core | .sessionHello core | .sessionFinish core | .sessionClose core | .sessionRekey core
  | .echo core | .codepageLoad core | .pinTranslate core | .pinVerifyOffset core | .pinVerifyPvv core
  | .pinGenOffset core | .pinGenPvv core | .macGenerate core | .macVerify core | .arqcVerify core
  | .arqcVerifyArpc core | .arpcGenerate core | .arqcGenerate core | .dukptPinTranslate core | .dukptMacVerify core
  | .dukptDecrypt core | .dukptTxnKey core | .dukptInit core | .keyImport core | .keyExport core | .keyGenerate core
  | .keyCheckValue core | .keyDelete core | .keyTranslate core | .tokenise core | .detokenise core
  | .tokeniseCounted core | .dataEncrypt core | .dataDecrypt core | .cscGenerate core | .cscVerify core
  | .siAuthorise core | .siIssuerState core | .siHeartbeat core | .siJournalRead core | .siJournalRelease core
  | .siRulesLoad core | .siCardUpdate core | .authSet core | .custodianSet core | .tmkGenerate core | .tmkLoad core
  | .tmkInvalidate core | .tmkSelect core | .credLoad core | .credDelete core | .firmwareMigrate core
  | .migrateCancel core | .devAttest core | .pkSign core | .pkVerify core | .pkEcdh core | .pkKeygen core
  | .pkRsaDecrypt core | .pkCurveLoad core | .ldgCalc core | .ldgAccrue core | .ldgPost core | .workItemDispatch core
  | .tenantReset core | .devStatus core | .devUnlock core | .evrClear core | .illegalInstruction core =>
    coreOk core
  | .heartbeatExpiry r t =>
    regionOk r && tenantOk t
  | .triLockSet b _ | .triLockClr b =>
    blockOk b
  | .triNodeWrite b n _ =>
    blockOk b && decide (n < 128)
  | .measWrite n w _ =>
    decide (n < 8) && decide (w < 12)
  | .cipherJobBind r k | .cipherJobDone r k | .cphTestRun r k _ =>
    regionOk r && unitOk 18 k
  | .hashJobBind r k | .hashJobDone r k | .hshTestRun r k _ | .engineJobBind r k | .engineJobDone r k
  | .pkeTestRun r k _ =>
    regionOk r && unitOk 5 k
  | .oscillatorHealthFail site _ =>
    decide (site < 40)
  | .nop core g _ | .dup core g _ | .drop core g _ | .swap core g _ | .over core g _ | .rot core g _ | .nip core g _
  | .tuck core g _ | .dup2 core g _ | .drop2 core g _ | .swap2 core g _ | .pick core g _ | .depth core g _
  | .add core g _ | .sub core g _ | .adc core g _ | .sbc core g _ | .and core g _ | .or core g _ | .xor core g _
  | .not core g _ | .neg core g _ | .abs core g _ | .mul core g _ | .muls core g _ | .div core g _ | .divs core g _
  | .add32 core g _ | .sub32 core g _ | .inc core g _ | .dec core g _ | .addi core g _ _ | .shl core g _
  | .shr core g _ | .sar core g _ | .rol core g _ | .ror core g _ | .shl32 core g _ | .shr32 core g _
  | .shli core g _ _ | .shri core g _ _ | .sari core g _ _ | .roli core g _ _ | .bfx core g _ _ | .bfxs core g _ _
  | .bfi core g _ _ | .clz core g _ | .ctz core g _ | .popc core g _ | .bperm core g _ _ 
  | .lit16 core g _ _ | .ld core g _ | .st core g _ | .ldb core g _ | .stb core g _ | .ld32 core g _ | .st32 core g _
  | .ldp core g _ | .stp core g _ | .copy core g _ | .zero core g _ | .ldw core g _ _ | .stw core g _ _
  | .ldc core g _ _ | .call core g _ _ | .jmp core g _ _ | .loop core g _ _ | .ret core g _ | .calls core g _
  | .jmps core g _ | .tor core g _ | .fromr core g _ | .copyr core g _ | .rdrop core g _ | .rdepth core g _
  | .sendCipher core g _ | .sendHash core g _ | .sendEngine core g _ | .sendLookup core g _ | .sendVault core g _
  | .ctxDraw core g _ | .ctxFetch core g _ | .ctxCreate core g _ | .ctxDelete core g _ | .timerSubmit core g _
  | .timerExpire core g _ | .timerHeartbeat core g _ | .timerCancel core g _ | .wait core g _ | .getw core g _
  | .rels core g _ | .resv core g _ | .rand core g _ | .done core g _ | .yield core g _ | .sleep core g _
  | .trap core g _ _ | .csrget core g _ _ | .csrput core g _ _ =>
    coreOk core && guardOk g
  | .eq core g _ pd | .ne core g _ pd | .ltu core g _ pd | .geu core g _ pd | .gtu core g _ pd | .leu core g _ pd
  | .lt core g _ pd | .ge core g _ pd | .gt core g _ pd | .le core g _ pd | .eqz core g _ pd | .nez core g _ pd
  | .ltz core g _ pd | .gez core g _ pd | .bit core g _ pd | .pc core g _ pd | .pv core g _ pd | .pdz core g _ pd =>
    coreOk core && guardOk g && predOk pd
  | .predAnd core g _ ps pd | .predOr core g _ ps pd | .predXor core g _ ps pd | .predMov core g _ ps pd =>
    coreOk core && guardOk g && predOk ps && predOk pd
  | .nvmBankRemask l => l.all fun n => decide (n < 400)
  | .vaultStartup l => l.all fun n => decide (n < 51200)
  | .lit8 core g _ v =>
    coreOk core && guardOk g && decide (v.toNat ≠ 0xFF)
  | .br core g _ d =>
    coreOk core && guardOk g && (decide (d.toNat < 0x80) || decide (0x88 ≤ d.toNat))
  | .contextWindowWrite r off _ =>
    regionOk r && decide (off < 16777216)
  | .tenantResetDrainEnd t | .tenantResetSquashDone t | .tenantResetComplete t =>
    tenantOk t
  | .mpuEntryWrite m i _ =>
    mpuOk m && decide (i < 16)
  | .mpuParityError m =>
    mpuOk m
  | .monitorRearm m =>
    monitorOk m
  | .pmcCounterWrap r c | .pmcCounterUncorrectable r c =>
    regionOk r && decide (c < 16)
  | .counterWriteRefill n =>
    decide (n < 8192)

end Sys2Proof
end

