-- ==== Sys2Proof/Certificates/Slice0/Obligations.lean ====
section
/-!
DEFINITION. The statements about this model, for the provers.  The first part names what several statements share.
-/
namespace Sys2Proof.Claims
open Sys2Proof.Machine

/-- A Kreur instruction as a command: core, guard predicate and SENSE still open. -/
abbrev Guarded := Nat → Nat → Bool → Instr

/-- Core `k` is about to run an instruction of the task of item `i`: its page runs, it does not wait, the word at its PC
may be fetched, and no injected error is armed on its cells (R48, R325, R326, R332, R339). -/
def TaskReady (s : State) (k : Nat) (i : Item) : Prop :=
  (s.core k).run.bind s.item = some i ∧ coreRuns s k = true ∧ (s.core k).wait = none ∧
    fetchTrap s (coreRegion k) i (s.core k).pc = none ∧ (s.auxOf (corePage k)).inject = none

/-- The guard is open: P[g] differs from SENSE, and it is not the pair that is an ILLEGAL trap (R307). -/
def GuardOpen (c : Core) (g : Nat) (sense : Bool) : Prop := ¬ (g = 0 ∧ sense = true) ∧ predGet c g ≠ sense

/-- The core after `len` words have been passed and `cyc` cycles spent, and nothing else (R308, R335). -/
def passed (c : Core) (len cyc : Nat) : Core :=
  { c with pc := c.pc + BitVec.ofNat 16 len, cycles := (c.cycles + cyc) % 65536, busy := c.busy + cyc }

/-- With the guard open and the cells `pops` on top of the data stack (top first), and room for `pushes`, the
instruction puts `pushes` in their place and changes nothing else but the PC and the cycle counts. -/
def StackResult (ins : Guarded) (cyc : Nat) (pops pushes : List Cell) : Prop :=
  ∀ s k g sense i l, TaskReady s k i → GuardOpen (s.core k) g sense → (s.core k).ds = pops ++ l →
    l.length + pushes.length ≤ 32 →
    exec (ins k g sense) s = .next (s.setCore k { passed (s.core k) 1 cyc with ds := pushes ++ l })

/-- As `StackResult`, with the flags the instruction writes; one that sets V while TRAPCTL.V is set, or DZ while
TRAPCTL.DZ is set, takes the V or DZ trap (R311, R312). -/
def AluResult (ins : Core → Guarded) (cyc : Nat) (pops : List Cell) (pushes : Core → List Cell) (w : Core → FlagWrite) :
    Prop :=
  ∀ s k g sense i l, TaskReady s k i → GuardOpen (s.core k) g sense → (s.core k).ds = pops ++ l →
    l.length + (pushes (s.core k)).length ≤ 32 →
    let c := s.core k
    let f := w c
    (f.v = some true → c.trapV = true → exec (ins c k g sense) s = .next (trapTask s k i 0x06)) ∧
    (f.v ≠ some true → f.dz = some true → c.trapDz = true → exec (ins c k g sense) s = .next (trapTask s k i 0x05)) ∧
    (¬ (f.v = some true ∧ c.trapV = true) → ¬ (f.dz = some true ∧ c.trapDz = true) →
      exec (ins c k g sense) s = .next (s.setCore k { passed c 1 cyc with
        ds := pushes c ++ l, c := f.c.getD c.c, v := f.v.getD c.v, dz := f.dz.getD c.dz }))

/-- A signed result outside 16 bits. -/
def over16 (z : Int) : Bool := decide (z < -32768 ∨ 32767 < z)
/-- A signed result outside 32 bits. -/
def over32 (z : Int) : Bool := decide (z < -2147483648 ∨ 2147483647 < z)
/-- C and V written. -/
def cv (c v : Bool) : FlagWrite := { c := some c, v := some v, dz := none }
/-- No flag written. -/
def keepFlags : FlagWrite := { c := none, v := none, dz := none }

/-- The control complex acts: there is power and no chip-level fault has halted it (R25). -/
def ComplexActs (s : State) : Prop := complexRuns s = true

/-- A master acts, and its MPU admits its access to `n` bytes at `a` (R372, R375); the vault and the PMC pages turn nobody
away (R215, R446). -/
def Reaches (s : State) (x : Master) (kind : AccessKind) (a n : Nat) : Prop :=
  masterRuns s x = true ∧ pageReach s x kind (pageOfAddr a) a n = .ok s

/-- No injected error is armed on a page (R48). -/
def Unarmed (s : State) (p : PageId) : Prop := (s.auxOf p).inject = none

/-- The three memories, the registers, the entries of the protection units and the two copies of the prefix table are in
canonical form. -/
def Canonical (s : State) : Prop :=
  Memory.wf s.hbm = true ∧ Memory.wf s.sram = true ∧ Memory.wf s.fb = true ∧ mwf resetWord s.regs = true ∧
    mwf (fun _ => none) s.mpus = true ∧ mwf (fun _ => 0) s.tri.active = true ∧ mwf (fun _ => 0) s.tri.shadow = true

end Sys2Proof.Claims

open Sys2Proof Sys2Proof.Machine Sys2Proof.Claims

/-! ## The Kreur core -/

/-- R310: class 0x0 rearranges the data stack (cells shown top first). -/
def Obligations.StackClassRearrangesCells : Prop :=
  (StackResult .nop 1 [] [] ∧ (∀ a, StackResult .dup 1 [a] [a, a]) ∧ (∀ a, StackResult .drop 1 [a] []) ∧
    (∀ a b, StackResult .swap 1 [b, a] [a, b]) ∧ (∀ a b, StackResult .over 1 [b, a] [a, b, a]) ∧
    (∀ a b c, StackResult .rot 1 [c, b, a] [a, c, b]) ∧ (∀ a b, StackResult .nip 1 [b, a] [b]) ∧
    (∀ a b, StackResult .tuck 1 [b, a] [b, a, b]) ∧ (∀ a b, StackResult .dup2 1 [b, a] [b, a, b, a]) ∧
    (∀ a b, StackResult .drop2 1 [b, a] []) ∧ (∀ a b c d, StackResult .swap2 1 [d, c, b, a] [b, a, d, c])) ∧
  (∀ s k g sense i u l, TaskReady s k i → GuardOpen (s.core k) g sense → (s.core k).ds = u :: l →
    (∀ x, l[u.toNat]? = some x →
      exec (.pick k g sense) s = .next (s.setCore k { passed (s.core k) 1 1 with ds := x :: l })) ∧
    (l.length ≤ u.toNat → exec (.pick k g sense) s = .next (trapTask s k i 0x02))) ∧
  (∀ s k g sense i, TaskReady s k i → GuardOpen (s.core k) g sense → (s.core k).ds.length < 32 →
    exec (.depth k g sense) s = .next (s.setCore k { passed (s.core k) 1 1 with
      ds := BitVec.ofNat 16 (s.core k).ds.length :: (s.core k).ds }))

/-- R324: class 0x9 moves cells between the stacks; TOR's entry has its link bit clear, FROMR drops the bit. -/
def Obligations.ReturnStackClassMovesCells : Prop :=
  ∀ s k g sense i, TaskReady s k i → GuardOpen (s.core k) g sense →
    let c := s.core k
    (∀ a l, c.ds = a :: l → c.rs.length < 16 →
      exec (.tor k g sense) s = .next (s.setCore k { passed c 1 1 with ds := l, rs := (a, false) :: c.rs })) ∧
    (∀ a b r, c.rs = (a, b) :: r → c.ds.length < 32 →
      exec (.fromr k g sense) s = .next (s.setCore k { passed c 1 1 with ds := a :: c.ds, rs := r }) ∧
      exec (.copyr k g sense) s = .next (s.setCore k { passed c 1 1 with ds := a :: c.ds })) ∧
    (∀ e r, c.rs = e :: r → exec (.rdrop k g sense) s = .next (s.setCore k { passed c 1 1 with rs := r })) ∧
    (c.ds.length < 32 → exec (.rdepth k g sense) s = .next (s.setCore k { passed c 1 1 with
      ds := BitVec.ofNat 16 c.rs.length :: c.ds }))

/-- R311, R312: the results and flags of the additions, subtractions, logic and increments, in 16 and 32 bits. -/
def Obligations.ArithmeticGivesResultAndFlags : Prop :=
  (∀ a b : Cell,
    AluResult (fun _ => .add) 1 [b, a] (fun _ => [a + b])
      (fun _ => cv (decide (65536 ≤ a.toNat + b.toNat)) (over16 (a.toInt + b.toInt))) ∧
    AluResult (fun _ => .sub) 1 [b, a] (fun _ => [a - b])
      (fun _ => cv (decide (a.toNat < b.toNat)) (over16 (a.toInt - b.toInt))) ∧
    AluResult (fun _ => .adc) 1 [b, a] (fun c => [a + b + BitVec.ofNat 16 c.c.toNat])
      (fun c => cv (decide (65536 ≤ a.toNat + b.toNat + c.c.toNat)) (over16 (a.toInt + b.toInt + c.c.toNat))) ∧
    AluResult (fun _ => .sbc) 1 [b, a] (fun c => [a - b - BitVec.ofNat 16 c.c.toNat])
      (fun c => cv (decide (a.toNat < b.toNat + c.c.toNat)) (over16 (a.toInt - b.toInt - c.c.toNat))) ∧
    AluResult (fun _ => .and) 1 [b, a] (fun _ => [a &&& b]) (fun _ => keepFlags) ∧
    AluResult (fun _ => .or) 1 [b, a] (fun _ => [a ||| b]) (fun _ => keepFlags) ∧
    AluResult (fun _ => .xor) 1 [b, a] (fun _ => [a ^^^ b]) (fun _ => keepFlags)) ∧
  (∀ a : Cell,
    AluResult (fun _ => .not) 1 [a] (fun _ => [~~~ a]) (fun _ => keepFlags) ∧
    AluResult (fun _ => .neg) 1 [a] (fun _ => [- a])
      (fun _ => { c := none, v := some (decide (a = 0x8000)), dz := none }) ∧
    AluResult (fun _ => .abs) 1 [a] (fun _ => [if a.toInt < 0 then - a else a])
      (fun _ => { c := none, v := some (decide (a = 0x8000)), dz := none }) ∧
    AluResult (fun _ => .inc) 1 [a] (fun _ => [a + 1])
      (fun _ => cv (decide (a = 0xFFFF)) (decide (a = 0x7FFF))) ∧
    AluResult (fun _ => .dec) 1 [a] (fun _ => [a - 1]) (fun _ => cv (decide (a = 0)) (decide (a = 0x8000))) ∧
    ∀ n : BitVec 7, AluResult (fun _ => (.addi · · · n)) 1 [a] (fun _ => [a + n.signExtend 16])
      (fun _ => cv (decide (65536 ≤ a.toNat + (n.signExtend 16).toNat)) (over16 (a.toInt + n.toInt)))) ∧
  (∀ al ah bl bh : Cell,
    let a := ah ++ al
    let b := bh ++ bl
    AluResult (fun _ => .add32) 1 [bh, bl, ah, al] (fun _ => [(a + b).extractLsb' 16 16, (a + b).extractLsb' 0 16])
      (fun _ => cv (decide (4294967296 ≤ a.toNat + b.toNat)) (over32 (a.toInt + b.toInt))) ∧
    AluResult (fun _ => .sub32) 1 [bh, bl, ah, al] (fun _ => [(a - b).extractLsb' 16 16, (a - b).extractLsb' 0 16])
      (fun _ => cv (decide (a.toNat < b.toNat)) (over32 (a.toInt - b.toInt))))

/-- R311, R312: products in 2 cycles, and divisions in 17 whatever the operands; a zero divisor leaves quotient 0 and
remainder a. -/
def Obligations.MultiplyAndDivideGiveDoubleResults : Prop :=
  ∀ a b : Cell,
    AluResult (fun _ => .mul) 2 [b, a]
      (fun _ => [BitVec.ofNat 16 (a.toNat * b.toNat / 65536), BitVec.ofNat 16 (a.toNat * b.toNat)])
      (fun _ => keepFlags) ∧
    AluResult (fun _ => .muls) 2 [b, a]
      (fun _ => [BitVec.ofInt 16 (a.toInt * b.toInt / 65536), BitVec.ofInt 16 (a.toInt * b.toInt)])
      (fun _ => keepFlags) ∧
    AluResult (fun _ => .div) 17 [b, a]
      (fun _ => if b = 0 then [0, a] else [BitVec.ofNat 16 (a.toNat / b.toNat), BitVec.ofNat 16 (a.toNat % b.toNat)])
      (fun _ => { c := none, v := none, dz := some (decide (b = 0)) }) ∧
    AluResult (fun _ => .divs) 17 [b, a]
      (fun _ => if b = 0 then [0, a]
        else [BitVec.ofInt 16 (a.toInt.tdiv b.toInt), BitVec.ofInt 16 (a.toInt.tmod b.toInt)])
      (fun _ => { c := none, v := some (decide (a = 0x8000 ∧ b = 0xFFFF)), dz := some (decide (b = 0)) })

/-- R313: shifts write no flags; a register count is the whole cell, a rotate count is taken mod 16. -/
def Obligations.ShiftsFollowTheirCount : Prop :=
  (∀ a n : Cell,
    StackResult .shl 1 [n, a] [if n.toNat < 16 then BitVec.ofNat 16 (a.toNat * 2 ^ n.toNat) else 0] ∧
    StackResult .shr 1 [n, a] [if n.toNat < 16 then BitVec.ofNat 16 (a.toNat / 2 ^ n.toNat) else 0] ∧
    StackResult .sar 1 [n, a]
      [if n.toNat < 16 then BitVec.ofInt 16 (a.toInt / 2 ^ n.toNat) else if a.toInt < 0 then 0xFFFF else 0] ∧
    StackResult .rol 1 [n, a]
      [BitVec.ofNat 16 (a.toNat * 2 ^ (n.toNat % 16) + a.toNat / 2 ^ (16 - n.toNat % 16))] ∧
    StackResult .ror 1 [n, a]
      [BitVec.ofNat 16 (a.toNat / 2 ^ (n.toNat % 16) + a.toNat * 2 ^ (16 - n.toNat % 16))] ∧
    ∀ hi lo : Cell,
      let x := hi.toNat * 65536 + lo.toNat
      StackResult .shl32 1 [n, hi, lo] (if n.toNat < 32 then
        [BitVec.ofNat 16 (x * 2 ^ n.toNat / 65536), BitVec.ofNat 16 (x * 2 ^ n.toNat)] else [0, 0]) ∧
      StackResult .shr32 1 [n, hi, lo] (if n.toNat < 32 then
        [BitVec.ofNat 16 (x / 2 ^ n.toNat / 65536), BitVec.ofNat 16 (x / 2 ^ n.toNat)] else [0, 0])) ∧
  (∀ (a : Cell) (n : BitVec 4),
    StackResult (.shli · · · n) 1 [a] [BitVec.ofNat 16 (a.toNat * 2 ^ n.toNat)] ∧
    StackResult (.shri · · · n) 1 [a] [BitVec.ofNat 16 (a.toNat / 2 ^ n.toNat)] ∧
    StackResult (.sari · · · n) 1 [a] [BitVec.ofInt 16 (a.toInt / 2 ^ n.toNat)] ∧
    StackResult (.roli · · · n) 1 [a] [BitVec.ofNat 16 (a.toNat * 2 ^ n.toNat + a.toNat / 2 ^ (16 - n.toNat))])

/-- The next state of an instruction with an immediate word: two words and two cycles (R314). -/
def Sys2Proof.Claims.ImmResult (ins : Guarded) (pops pushes : List Cell) : Prop :=
  ∀ s k g sense i l, TaskReady s k i → GuardOpen (s.core k) g sense → (s.core k).ds = pops ++ l →
    l.length + pops.length ≤ 32 →
    exec (ins k g sense) s = .next (s.setCore k { passed (s.core k) 2 2 with ds := pushes ++ l })

/-- R314, R315: bit fields by position and width, bit counts, the byte permutation, and the ILLEGAL trap of an immediate
that names no field or no permutation. -/
def Obligations.BitFieldsSelectTheirBits : Prop :=
  (∀ pos w : Nat, 0 < w → pos + w ≤ 16 → ∀ a b : Cell,
    let imm := BitVec.ofNat 16 (pos + 16 * (w - 1))
    let f := a.toNat / 2 ^ pos % 2 ^ w
    ImmResult (.bfx · · · imm) [a] [BitVec.ofNat 16 f] ∧
    ImmResult (.bfxs · · · imm) [a] [BitVec.ofInt 16 (if f < 2 ^ (w - 1) then f else f - 2 ^ w)] ∧
    ImmResult (.bfi · · · imm) [b, a]
      [BitVec.ofNat 16 (a.toNat - f * 2 ^ pos + b.toNat % 2 ^ w * 2 ^ pos)]) ∧
  (∀ a : Cell,
    StackResult .clz 1 [a] [BitVec.ofNat 16 (16 - (if a = 0 then 0 else Nat.log2 a.toNat + 1))] ∧
    (∀ n : Nat, n ≤ 16 → (∀ j < n, a.getLsbD j = false) → (n < 16 → a.getLsbD n = true) →
      StackResult .ctz 1 [a] [BitVec.ofNat 16 n]) ∧
    StackResult .popc 1 [a] [BitVec.ofNat 16 ((List.range 16).countP fun j => a.getLsbD j)]) ∧
  (∀ (imm lo hi : Cell), imm.toNat < 256 →
    let src := fun n => ((hi ++ lo).extractLsb' (8 * (imm.extractLsb' (2 * n) 2).toNat) 8 : Byte)
    ImmResult (.bperm · · · imm) [hi, lo] [src 3 ++ src 2, src 1 ++ src 0]) ∧
  (∀ s k g sense i (imm : Cell), TaskReady s k i → 256 ≤ imm.toNat ∨ 16 < imm.toNat % 16 + (imm.toNat / 16 % 16 + 1) →
    exec (.bfx k g sense imm) s = .next (trapTask s k i 0x01) ∧
    exec (.bfxs k g sense imm) s = .next (trapTask s k i 0x01) ∧
    exec (.bfi k g sense imm) s = .next (trapTask s k i 0x01)) ∧
  (∀ s k g sense i (imm : Cell), TaskReady s k i → 256 ≤ imm.toNat →
    exec (.bperm k g sense imm) s = .next (trapTask s k i 0x01))

/-- A predicate after a write: P0 ignores it (R316, R317). -/
def Sys2Proof.Claims.withPred (c : Core) (pd : Nat) (b : Bool) (c' : Core) : Prop :=
  ∃ m : Byte, c' = { c with preds := m } ∧
    ∀ n, n < 8 → predGet c' n = if n = pd ∧ pd ≠ 0 then b else predGet c n

/-- R316, R317, R318: a compare pops its operands and writes its condition to Pd, P0 discarding it; a predicate
instruction leaves the stack alone; a literal is pushed, OP 0xFF of class 0x6 being LIT16 with the word that follows. -/
def Obligations.ComparesAndPredicatesWriteTheirPredicate : Prop :=
  ∀ s k g sense i pd, TaskReady s k i → GuardOpen (s.core k) g sense → pd < 8 →
    let c := s.core k
    let cmp := fun (ins : Instr) (l : List Cell) (b : Bool) =>
      ∃ c', withPred { passed c 1 1 with ds := l } pd b c' ∧ exec ins s = .next (s.setCore k c')
    (∀ a b l, c.ds = b :: a :: l →
      cmp (.eq k g sense pd) l (decide (a = b)) ∧ cmp (.ne k g sense pd) l (decide (a ≠ b)) ∧
      cmp (.ltu k g sense pd) l (decide (a.toNat < b.toNat)) ∧
      cmp (.geu k g sense pd) l (decide (b.toNat ≤ a.toNat)) ∧
      cmp (.gtu k g sense pd) l (decide (b.toNat < a.toNat)) ∧
      cmp (.leu k g sense pd) l (decide (a.toNat ≤ b.toNat)) ∧
      cmp (.lt k g sense pd) l (decide (a.toInt < b.toInt)) ∧
      cmp (.ge k g sense pd) l (decide (b.toInt ≤ a.toInt)) ∧
      cmp (.gt k g sense pd) l (decide (b.toInt < a.toInt)) ∧
      cmp (.le k g sense pd) l (decide (a.toInt ≤ b.toInt)) ∧
      cmp (.bit k g sense pd) l (a.getLsbD (b.toNat % 16))) ∧
    (∀ a l, c.ds = a :: l →
      cmp (.eqz k g sense pd) l (decide (a = 0)) ∧ cmp (.nez k g sense pd) l (decide (a ≠ 0)) ∧
      cmp (.ltz k g sense pd) l (decide (a.toInt < 0)) ∧ cmp (.gez k g sense pd) l (decide (0 ≤ a.toInt))) ∧
    (cmp (.pc k g sense pd) c.ds c.c ∧ cmp (.pv k g sense pd) c.ds c.v ∧ cmp (.pdz k g sense pd) c.ds c.dz) ∧
    (∀ ps, ps < 8 →
      cmp (.predAnd k g sense ps pd) c.ds (predGet c pd && predGet c ps) ∧
      cmp (.predOr k g sense ps pd) c.ds (predGet c pd || predGet c ps) ∧
      cmp (.predXor k g sense ps pd) c.ds (xor (predGet c pd) (predGet c ps)) ∧
      cmp (.predMov k g sense ps pd) c.ds (predGet c ps)) ∧
    (c.ds.length < 32 →
      (∀ n : Byte, n ≠ 0xFF →
        exec (.lit8 k g sense n) s = .next (s.setCore k { passed c 1 1 with ds := n.zeroExtend 16 :: c.ds })) ∧
      exec (.lit8 k g sense 0xFF) s = .next (s.setCore k { passed c 2 2 with
        ds := mget (fun _ => 0) s.prog (c.pc + 1).toNat :: c.ds }) ∧
      (∀ n, exec (.lit16 k g sense n) s = .next (s.setCore k { passed c 2 2 with ds := n :: c.ds })))

/-- R319, R321: loads push the big-endian cell or the byte at the address; an odd cell address is an ALIGN trap and an
address a read may not reach a MEM trap. -/
def Obligations.LoadsReadLocalSpaceBigEndian : Prop :=
  ∀ s k g sense i, TaskReady s k i → GuardOpen (s.core k) g sense →
    let c := s.core k
    (∀ a l, c.ds = a :: l → l.length < 32 →
      (∀ h b, a.toNat % 2 = 0 → localByte i c a.toNat = some h → localByte i c (a.toNat + 1) = some b →
        exec (.ld k g sense) s = .next (s.setCore k { passed c 1 1 with ds := (h ++ b) :: l }) ∧
        (l.length < 31 → exec (.ldp k g sense) s = .next (s.setCore k { passed c 1 1 with ds := (a + 2) :: (h ++ b) :: l })) ∧
        ∀ h2 b2, localByte i c (a.toNat + 2) = some h2 → localByte i c (a.toNat + 3) = some b2 → l.length < 31 →
          exec (.ld32 k g sense) s = .next (s.setCore k { passed c 1 2 with ds := (h ++ b) :: (h2 ++ b2) :: l })) ∧
      (∀ b, localByte i c a.toNat = some b →
        exec (.ldb k g sense) s = .next (s.setCore k { passed c 1 1 with ds := b.zeroExtend 16 :: l })) ∧
      (a.toNat % 2 = 1 → exec (.ld k g sense) s = .next (trapTask s k i 0x03)) ∧
      (a.toNat % 2 = 0 → localByte i c a.toNat = none → exec (.ld k g sense) s = .next (trapTask s k i 0x04)) ∧
      (localByte i c a.toNat = none → exec (.ldb k g sense) s = .next (trapTask s k i 0x04))) ∧
    (c.ds.length < 32 →
      (∀ w : BitVec 5, exec (.ldw k g sense w) s = .next (s.setCore k { passed c 1 1 with
        ds := ((itemWindow i c).getD (2 * w.toNat) 0 ++ (itemWindow i c).getD (2 * w.toNat + 1) 0) :: c.ds })) ∧
      (∀ w : BitVec 7, i.ctxId ≠ 0 → exec (.ldc k g sense w) s = .next (s.setCore k { passed c 1 1 with
        ds := (c.ctx.getD (2 * w.toNat) 0 ++ c.ctx.getD (2 * w.toNat + 1) 0) :: c.ds })) ∧
      (∀ w : BitVec 7, i.ctxId = 0 → exec (.ldc k g sense w) s = .next (trapTask s k i 0x04)))

/-- R319, R321: stores write the bytes of the cell, high byte first, and leave the rest of the local space alone; an
odd cell address is an ALIGN trap, a read-only or absent byte a MEM trap, and an n above 4,096 a MEM trap. -/
def Obligations.StoresWriteLocalSpaceBigEndian : Prop :=
  ∀ s k g sense i, TaskReady s k i → GuardOpen (s.core k) g sense →
    let c := s.core k
    let ok := fun a n => ∀ j < n, localWritable i (a + j) = true
    (∀ x a l, c.ds = a :: x :: l →
      let c1 := { passed c 1 1 with ds := l }
      (a.toNat % 2 = 0 → ok a.toNat 2 →
        let c2 := localPut (localPut c1 a.toNat (x.extractLsb' 8 8)) (a.toNat + 1) (x.extractLsb' 0 8)
        exec (.st k g sense) s = .next (s.setCore k c2) ∧
        (l.length < 32 → exec (.stp k g sense) s = .next (s.setCore k { c2 with ds := (a + 2) :: l }))) ∧
      (ok a.toNat 1 → exec (.stb k g sense) s = .next (s.setCore k (localPut c1 a.toNat (x.extractLsb' 0 8)))) ∧
      (a.toNat % 2 = 1 → exec (.st k g sense) s = .next (trapTask s k i 0x03)) ∧
      (localWritable i a.toNat = false → exec (.stb k g sense) s = .next (trapTask s k i 0x04))) ∧
    (∀ hi lo a l, c.ds = a :: hi :: lo :: l → a.toNat % 2 = 0 → ok a.toNat 4 →
      exec (.st32 k g sense) s = .next (s.setCore k (localPut (localPut (localPut (localPut
        { passed c 1 2 with ds := l } a.toNat (hi.extractLsb' 8 8)) (a.toNat + 1) (hi.extractLsb' 0 8))
        (a.toNat + 2) (lo.extractLsb' 8 8)) (a.toNat + 3) (lo.extractLsb' 0 8)))) ∧
    (∀ x l (w : BitVec 5), c.ds = x :: l →
      (16 ≤ w.toNat → exec (.stw k g sense w) s = .next (s.setCore k
        (localPut (localPut { passed c 1 1 with ds := l } (0x4100 + 2 * w.toNat) (x.extractLsb' 8 8))
          (0x4101 + 2 * w.toNat) (x.extractLsb' 0 8)))) ∧
      (w.toNat < 16 → exec (.stw k g sense w) s = .next (trapTask s k i 0x04))) ∧
    (∀ n dst src l, c.ds = n :: dst :: src :: l →
      (∀ b, n.toNat ≤ 4096 → localRead i c src.toNat n.toNat = .ok b → ok dst.toNat n.toNat →
        exec (.copy k g sense) s = .next (s.setCore k ((List.range n.toNat).foldl (fun c j =>
          localPut c (dst.toNat + j) (b.getD j 0)) { passed c 1 (1 + (n.toNat + 1) / 2) with ds := l }))) ∧
      (4096 < n.toNat → exec (.copy k g sense) s = .next (trapTask s k i 0x04))) ∧
    (∀ n a l, c.ds = n :: a :: l →
      (n.toNat ≤ 4096 → ok a.toNat n.toNat →
        exec (.zero k g sense) s = .next (s.setCore k ((List.range n.toNat).foldl (fun c j =>
          localPut c (a.toNat + j) 0) { passed c 1 (1 + (n.toNat + 1) / 2) with ds := l }))) ∧
      (4096 < n.toNat → exec (.zero k g sense) s = .next (trapTask s k i 0x04)))

/-- R323, R324, R325: transfers stay in their segment, save calls of a gate; a link is pushed with its link bit, RET
needs that bit set and LOOP needs it clear. -/
def Obligations.ControlTransfersFollowSegmentsAndLinks : Prop :=
  ∀ s k g sense i, TaskReady s k i → GuardOpen (s.core k) g sense →
    let c := s.core k
    (∀ d : BitVec 8, ¬ (0x80 ≤ d.toNat ∧ d.toNat < 0x88) →
      let t := c.pc + 1 + d.signExtend 16
      (segOf t = segOf c.pc → exec (.br k g sense d) s = .next (s.setCore k { passed c 1 2 with pc := t })) ∧
      (segOf t ≠ segOf c.pc → exec (.br k g sense d) s = .next (trapTask s k i 0x0A))) ∧
    (∀ t, (segOf t = segOf c.pc → exec (.jmp k g sense t) s = .next (s.setCore k { passed c 2 2 with pc := t })) ∧
      (segOf t ≠ segOf c.pc → exec (.jmp k g sense t) s = .next (trapTask s k i 0x0A)) ∧
      (segOf t = segOf c.pc ∨ t.toNat < 0x100 → c.rs.length < 16 →
        exec (.call k g sense t) s = .next (s.setCore k { passed c 2 2 with pc := t, rs := (c.pc + 2, true) :: c.rs })) ∧
      (segOf t ≠ segOf c.pc → 0x100 ≤ t.toNat → exec (.call k g sense t) s = .next (trapTask s k i 0x0A))) ∧
    (∀ t l, c.ds = t :: l →
      (segOf t = segOf c.pc →
        exec (.jmps k g sense) s = .next (s.setCore k { passed c 1 2 with pc := t, ds := l })) ∧
      (segOf t = segOf c.pc ∨ t.toNat < 0x100 → c.rs.length < 16 →
        exec (.calls k g sense) s = .next (s.setCore k { passed c 1 2 with pc := t, ds := l, rs := (c.pc + 1, true) :: c.rs }))) ∧
    (∀ a r, (c.rs = (a, true) :: r → exec (.ret k g sense) s = .next (s.setCore k { passed c 1 2 with pc := a, rs := r })) ∧
      (c.rs = (a, false) :: r → exec (.ret k g sense) s = .next (trapTask s k i 0x0B))) ∧
    (∀ n r t, (c.rs = (n, true) :: r → exec (.loop k g sense t) s = .next (trapTask s k i 0x0B)) ∧
      (c.rs = (n, false) :: r → n ≠ 1 → segOf t = segOf c.pc →
        exec (.loop k g sense t) s = .next (s.setCore k { passed c 2 2 with pc := t, rs := (n - 1, false) :: r })) ∧
      (c.rs = (1, false) :: r →
        exec (.loop k g sense t) s = .next (s.setCore k { passed c 2 2 with rs := r })))

/-- R326, R328: what WAIT, GETW and RELS do on a slot that is FREE, PENDING or DONE. -/
def Obligations.SlotInstructionsFollowSlotState : Prop :=
  ∀ s k g sense i x l, TaskReady s k i → GuardOpen (s.core k) g sense → x.toNat < 8 →
    let c := s.core k
    let slot := c.slots.getD x.toNat .free
    (c.ds = x :: l →
      (∀ d, slot = .done d →
        exec (.wait k g sense) s = .next (s.setCore k { passed c 1 1 with ds := l }) ∧
        exec (.rels k g sense) s = .next (s.setCore k { passed c 1 1 with ds := l, slots := c.slots.set x.toNat .free })) ∧
      (slot = .pending →
        exec (.wait k g sense) s = .next (s.setCore k { passed c 1 1 with ds := l, wait := some (.slot x.toNat) }) ∧
        exec (.rels k g sense) s = .next (trapTask s k i 0x08)) ∧
      (slot = .free →
        exec (.wait k g sense) s = .next (trapTask s k i 0x08) ∧
        exec (.rels k g sense) s = .next (trapTask s k i 0x08))) ∧
    (∀ w, c.ds = w :: x :: l → w.toNat < 16 →
      (∀ d, slot = .done d → 2 * w.toNat + 2 ≤ d.length →
        exec (.getw k g sense) s = .next (s.setCore k { passed c 1 1 with
          ds := (d.getD (2 * w.toNat) 0 ++ d.getD (2 * w.toNat + 1) 0) :: l })) ∧
      (slot = .pending ∨ slot = .free → exec (.getw k g sense) s = .next (trapTask s k i 0x08)))

/-- The core after a SEND has taken slot `n`: its number pushed in place of the address, C clear (R327). -/
def Sys2Proof.Claims.sentCore (c : Core) (n : Nat) (l : List Cell) : Core :=
  { passed c 1 2 with ds := BitVec.ofNat 16 n :: l, c := false, slots := c.slots.set n .pending }

/-- A SEND is accepted: the address is on the stack, slot `n` is the lowest FREE one, the segment may use the target,
its queue has room, and the descriptor `d` of `len` bytes can be read (R327). -/
def Sys2Proof.Claims.SendAccepted (s : State) (k : Nat) (i : Item) (seg : Nat → Bool) (full : State → Bool) (len n : Nat)
    (d : Bytes) (l : List Cell) : Prop :=
  let c := s.core k
  (∃ a, c.ds = a :: l ∧ localRead i (passed c 1 2) a.toNat len = .ok d) ∧ seg (segOf c.pc) = true ∧
    full (s.setCore k (passed c 1 2)) = false ∧
    n < 8 ∧ c.slots.getD n .free = .free ∧ ∀ m < n, c.slots.getD m .free ≠ .free

/-- A SEND finds no FREE slot, or a full queue, and its segment may use the target. -/
def Sys2Proof.Claims.SendBusy (s : State) (k : Nat) (seg : Nat → Bool) (full : State → Bool) (l : List Cell) : Prop :=
  let c := s.core k
  (∃ a, c.ds = a :: l) ∧ seg (segOf c.pc) = true ∧
    ((∀ m < 8, c.slots.getD m .free ≠ .free) ∨ full (s.setCore k (passed c 1 2)) = true)

/-- Every segment. -/
def Sys2Proof.Claims.everySeg (_ : Nat) : Bool := true
/-- The platform segment. -/
def Sys2Proof.Claims.platformSeg (n : Nat) : Bool := decide (n = 0)
/-- A target without a queue. -/
def Sys2Proof.Claims.neverFull (_ : State) : Bool := false

/-- R327: an accepted SEND to a lane, hash or engine queue takes the lowest FREE slot, pushes its number, clears C and
puts one job with the item's tenant and the segment at the tail of that queue; a lookup enters the prefix pipeline; no
FREE slot or a full queue pushes BUSY, sets C and sends nothing; a target outside its segments is a PRIV trap. -/
def Obligations.SendTakesASlotAndQueuesOneJob : Prop :=
  ∀ s k g sense i, TaskReady s k i → GuardOpen (s.core k) g sense →
    let c := s.core k
    let r := coreRegion k
    (∀ p ∈ [(UnitKind.cipher, Instr.sendCipher k g sense), (.hash, .sendHash k g sense), (.engine, .sendEngine k g sense)],
      (∀ n d l, SendAccepted s k i everySeg (queueFull p.1 k) 64 n d l →
        let s1 := s.setCore k (sentCore c n l)
        let j : Job := { unit := p.1, core := k, slot := n, item := i.stamp, tenant := i.tenant, seg := segOf c.pc,
                         desc := d, key := none, alg := 0, parentGen := 0, resv := c.words ≠ [], words := [] }
        let s2 := s1.setQueue r p.1 (s.queue r p.1 ++ [j])
        exec p.2 s = .next (if p.1 = .engine ∧ queueCap .engine ≤ (s.queue r .engine).length + 1
          then setIrq s2 (.odm r) 18 else s2)) ∧
      (∀ l, SendBusy s k everySeg (queueFull p.1 k) l →
        exec p.2 s = .next (s.setCore k { passed c 1 2 with ds := 0x0402 :: l, c := true }))) ∧
    (∀ n d l, SendAccepted s k i everySeg neverFull 16 n d l →
      exec (.sendLookup k g sense) s = .next { s.setCore k (sentCore c n l) with
        lookups := s.lookups ++ [lookupOf (s.setCore k (sentCore c n l)) k n d] }) ∧
    (∀ n d l, SendAccepted s k i platformSeg neverFull 0 n d l →
      ∃ w : Bytes, w.length = 32 ∧
      exec (.sendVault k g sense) s = .next (complete (s.setCore k (sentCore c n l)).takeFresh k n w)) ∧
    (∀ a l, c.ds = a :: l → segOf c.pc ≠ 0 → exec (.sendVault k g sense) s = .next (trapTask s k i 0x07))

/-- R327, R345, R349: a descriptor whose first byte is the operation's number, sent to the context store or the delay
list, is carried out on the slot it took; the delay list is closed to tenant segments and HEARTBEAT to all but the
platform. -/
def Obligations.ContextStoreAndDelayListServeSends : Prop :=
  ∀ s k g sense i n d l, TaskReady s k i → GuardOpen (s.core k) g sense →
    let c := s.core k
    let s1 := s.setCore k (sentCore c n l)
    (SendAccepted s k i everySeg neverFull 16 n d l →
      (byteAt d 0 = 1 → exec (.ctxDraw k g sense) s = .next (storeDraw s1 k n i d)) ∧
      (byteAt d 0 = 2 → exec (.ctxFetch k g sense) s = .next (storeFetch s1 k n i d)) ∧
      (byteAt d 0 = 3 → exec (.ctxCreate k g sense) s = .next (storeCreate s1 k n (segOf c.pc) i d)) ∧
      (byteAt d 0 = 4 → exec (.ctxDelete k g sense) s = .next (storeDelete s1 k n (segOf c.pc) i d))) ∧
    (SendAccepted s k i notTenant neverFull 16 n d l →
      (byteAt d 0 = 1 → exec (.timerSubmit k g sense) s = .next (timerSubmit s1 k n i d)) ∧
      (byteAt d 0 = 2 → exec (.timerExpire k g sense) s = .next (timerExpire s1 k n i d)) ∧
      (byteAt d 0 = 4 → exec (.timerCancel k g sense) s = .next (timerCancel s1 k n i d))) ∧
    (SendAccepted s k i platformSeg neverFull 16 n d l → byteAt d 0 = 3 →
      exec (.timerHeartbeat k g sense) s = .next (timerHeartbeat s1 k n i d))

/-- R331, R332, R333: RESV reserves whole or not at all, RAND writes one reserved word, DONE commits once no slot is
PENDING, and YIELD and SLEEP suspend a task that holds nothing, or trap. -/
def Obligations.ReservationAndTaskEndInstructions : Prop :=
  ∀ s k g sense i, TaskReady s k i → GuardOpen (s.core k) g sense →
    let c := s.core k
    let r := coreRegion k
    (∀ x l, c.ds = x :: l →
      let c1 := passed c 1 2
      let s1 := s.setCore k c1
      (1 ≤ x.toNat → x.toNat ≤ 64 → boomServes s1 r x.toNat = true →
        exec (.resv k g sense) s = .next ((boomDraw s1 r x.toNat (some i.tenant)).2.setCore k
          { c1 with ds := l, c := false, words := c.words ++ (s.boom r).words.take x.toNat })) ∧
      (1 ≤ x.toNat → x.toNat ≤ 64 → boomServes s1 r x.toNat = false →
        exec (.resv k g sense) s = .next ((boomDraw s1 r x.toNat (some i.tenant)).2.setCore k
          { c1 with ds := l, c := true })) ∧
      (∀ w ws, c.words = w :: ws → x.toNat + 8 ≤ 0x4000 →
        exec (.rand k g sense) s = .next (s.setCore k ((List.range 8).foldl (fun c j =>
          localPut c (x.toNat + j) ((fitR 8 w).getD j 0)) { c1 with ds := l, words := ws }))) ∧
      (c.words = [] → exec (.rand k g sense) s = .next (trapTask s k i 0x08))) ∧
    (∀ st n a l, c.ds = st :: n :: a :: l →
      let c1 := { passed c 1 4 with ds := l }
      (statusKind st.toNat = some .completed ∨ statusKind st.toNat = some .refused → n.toNat ≤ 12288 →
        a.toNat + n.toNat ≤ 0x4000 →
        ((∀ x ∈ c.slots, x ≠ .pending) → exec (.done k g sense) s = .next (settle settleBound
          (commitDone (s.setCore k c1) k i a.toNat n.toNat st.toNat))) ∧
        ((∃ x ∈ c.slots, x = .pending) → exec (.done k g sense) s = .next (s.setCore k
          { c1 with wait := some (.done a.toNat n.toNat st.toNat) }))) ∧
      (statusKind st.toNat = none ∨ statusKind st.toNat = some .discarded →
        exec (.done k g sense) s = .next (trapTask s k i 0x07))) ∧
    (let c1 := passed c 1 4
     let s1 := s.setCore k c1
     let may := fun ds : List Cell => c.rs = [] ∧ ds.length ≤ 16 ∧ (∀ x ∈ c.slots, x = .free) ∧ c.words = [] ∧ c.ctxDirty = false
     (may c.ds → exec (.yield k g sense) s = .next (joinReady (saveTask s1 k i c1 false) i)) ∧
     (¬ may c.ds → exec (.yield k g sense) s = .next (trapTask s k i 0x09)) ∧
     ∀ x l, c.ds = x :: l →
       (may l → x = 0 → exec (.sleep k g sense) s = .next (joinReady (saveTask s1 k i { c1 with ds := l } false) i)) ∧
       (∀ id s2, may l → x ≠ 0 → setTimer s1 i.region x.toNat (.wake i.stamp) = some (id, s2) →
         exec (.sleep k g sense) s = .next (saveTask s2 k i { c1 with ds := l } true)) ∧
       (¬ may l → exec (.sleep k g sense) s = .next (trapTask s k i 0x09)))

/-- R335, R336: what each CSR reads, what CSRPUT writes, and the PROGRAM and ILLEGAL traps. -/
def Obligations.ControlRegistersReadAndWrite : Prop :=
  ∀ s k g sense i, TaskReady s k i → GuardOpen (s.core k) g sense →
    let c := s.core k
    let bits := fun b n => if b then 2 ^ n else 0
    (c.ds.length < 32 →
      (∀ p ∈ ([(0, bits c.dz 2 + bits c.v 1 + bits c.c 0), (1, (c.preds ||| 1).toNat),
          (2, bits c.trapV 1 + bits c.trapDz 0), (3, c.ds.length), (4, c.rs.length), (5, k), (6, i.tenant),
          (7, segOf c.pc), (9, c.tickHi.toNat), (10, min (i.deadline - s.time.tick) 65535), (12, c.words.length),
          (13, (c.cycles + 1) % 65536)] : List (BitVec 6 × Nat)),
        exec (.csrget k g sense p.1) s = .next (s.setCore k { passed c 1 1 with ds := BitVec.ofNat 16 p.2 :: c.ds })) ∧
      exec (.csrget k g sense 8) s = .next (s.setCore k { passed c 1 1 with
        ds := BitVec.ofNat 16 s.time.tick :: c.ds, tickHi := BitVec.ofNat 16 (s.time.tick / 65536) })) ∧
    (∀ x l, c.ds = x :: l →
      exec (.csrput k g sense 0) s = .next (s.setCore k { passed c 1 1 with
        ds := l, dz := x.getLsbD 2, v := x.getLsbD 1, c := x.getLsbD 0 }) ∧
      exec (.csrput k g sense 1) s = .next (s.setCore k { passed c 1 1 with ds := l, preds := x.extractLsb' 0 8 ||| 1 }) ∧
      exec (.csrput k g sense 2) s = .next (s.setCore k { passed c 1 1 with
        ds := l, trapV := x.getLsbD 1, trapDz := x.getLsbD 0 }) ∧
      ∀ n : BitVec 6, 3 ≤ n.toNat → n.toNat ≤ 13 → exec (.csrput k g sense n) s = .next (trapTask s k i 0x07)) ∧
    (∀ n : BitVec 6, 14 ≤ n.toNat →
      exec (.csrget k g sense n) s = .next (trapTask s k i 0x01) ∧
      exec (.csrput k g sense n) s = .next (trapTask s k i 0x01)) ∧
    (∀ n : BitVec 6, exec (.trap k g sense n) s = .next (trapTask s k i (0x40 + n.toNat))) ∧
    exec (.illegalInstruction k) s = .next (trapTask s k i 0x01)

/-- The instructions without an operand of their own, with their words and cycles (R310 to R315, R321, R323, R324, R326). -/
def Sys2Proof.Claims.PlainTiming (s : State) (k : Nat) (f : Guarded) (len cyc : Nat) : Prop :=
  (len = 1 ∧ cyc = 1 ∧ f ∈ ([.nop, .dup, .drop, .swap, .over, .rot, .nip, .tuck, .dup2, .drop2, .swap2, .pick, .depth, .add,
    .sub, .adc, .sbc, .and, .or, .xor, .not, .neg, .abs, .add32, .sub32, .inc, .dec, .shl, .shr, .sar, .rol, .ror, .shl32,
    .shr32, .clz, .ctz, .popc, .ld, .st, .ldb, .stb, .ldp, .stp, .tor, .fromr, .copyr, .rdrop, .rdepth, .wait, .getw,
    .rels] : List Guarded)) ∨
  (len = 1 ∧ cyc = 2 ∧ f ∈ ([.mul, .muls, .ld32, .st32, .ret, .calls, .jmps, .sendCipher, .sendHash, .sendEngine,
    .sendLookup, .sendVault, .ctxDraw, .ctxFetch, .ctxCreate, .ctxDelete, .timerSubmit, .timerExpire, .timerHeartbeat,
    .timerCancel, .resv, .rand] : List Guarded)) ∨
  (len = 1 ∧ cyc = 4 ∧ f ∈ ([.done, .yield, .sleep] : List Guarded)) ∨
  (len = 1 ∧ cyc = 17 ∧ f ∈ ([.div, .divs] : List Guarded)) ∨
  (len = 1 ∧ cyc = 1 + (((s.core k).ds.headD 0).toNat + 1) / 2 ∧ f ∈ ([.copy, .zero] : List Guarded))

/-- R308: with its guard false an instruction passes its words and spends its cycles, and changes nothing else. -/
def Obligations.FalseGuardOnlySpendsWordsAndCycles : Prop :=
  ∀ s k g sense i, TaskReady s k i → ¬ (g = 0 ∧ sense = true) → predGet (s.core k) g = sense →
    let skip := fun ins len cyc => exec ins s = .next (s.setCore k (passed (s.core k) len cyc))
    (∀ f len cyc, PlainTiming s k f len cyc → skip (f k g sense) len cyc) ∧
    (∀ pd, skip (.eq k g sense pd) 1 1 ∧ skip (.ne k g sense pd) 1 1 ∧ skip (.ltu k g sense pd) 1 1 ∧
      skip (.geu k g sense pd) 1 1 ∧ skip (.gtu k g sense pd) 1 1 ∧ skip (.leu k g sense pd) 1 1 ∧
      skip (.lt k g sense pd) 1 1 ∧ skip (.ge k g sense pd) 1 1 ∧ skip (.gt k g sense pd) 1 1 ∧
      skip (.le k g sense pd) 1 1 ∧ skip (.eqz k g sense pd) 1 1 ∧ skip (.nez k g sense pd) 1 1 ∧
      skip (.ltz k g sense pd) 1 1 ∧ skip (.gez k g sense pd) 1 1 ∧ skip (.bit k g sense pd) 1 1 ∧
      skip (.pc k g sense pd) 1 1 ∧ skip (.pv k g sense pd) 1 1 ∧ skip (.pdz k g sense pd) 1 1) ∧
    (∀ ps pd, skip (.predAnd k g sense ps pd) 1 1 ∧ skip (.predOr k g sense ps pd) 1 1 ∧
      skip (.predXor k g sense ps pd) 1 1 ∧ skip (.predMov k g sense ps pd) 1 1) ∧
    (∀ n, skip (.addi k g sense n) 1 1) ∧
    (∀ n, skip (.shli k g sense n) 1 1 ∧ skip (.shri k g sense n) 1 1 ∧ skip (.sari k g sense n) 1 1 ∧
      skip (.roli k g sense n) 1 1) ∧
    (∀ n, (n ≠ 0xFF → skip (.lit8 k g sense n) 1 1) ∧ (n = 0xFF → skip (.lit8 k g sense n) 2 2)) ∧
    (∀ n, skip (.lit16 k g sense n) 2 2 ∧ skip (.call k g sense n) 2 2 ∧ skip (.jmp k g sense n) 2 2 ∧
      skip (.loop k g sense n) 2 2) ∧
    (∀ w, skip (.ldw k g sense w) 1 1 ∧ skip (.stw k g sense w) 1 1) ∧ (∀ w, skip (.ldc k g sense w) 1 1) ∧
    (∀ n : BitVec 6, skip (.trap k g sense n) 1 1 ∧
      (n.toNat < 14 → skip (.csrget k g sense n) 1 1 ∧ skip (.csrput k g sense n) 1 1)) ∧
    (∀ d : BitVec 8, ¬ (0x80 ≤ d.toNat ∧ d.toNat < 0x88) → skip (.br k g sense d) 1 2) ∧
    (∀ imm : Cell, imm.toNat < 256 → skip (.bperm k g sense imm) 2 2 ∧
      (imm.toNat % 16 + (imm.toNat / 16 + 1) ≤ 16 → skip (.bfx k g sense imm) 2 2 ∧ skip (.bfxs k g sense imm) 2 2 ∧
        skip (.bfi k g sense imm) 2 2))

/-- R309: an instruction that finds too few cells, or no room for its net growth, takes the STACK trap from the
unchanged state. -/
def Obligations.StackShortageTrapsWithoutEffect : Prop :=
  ∀ s k g sense i, TaskReady s k i → GuardOpen (s.core k) g sense →
    let c := s.core k
    let trap := fun (f : Guarded) => exec (f k g sense) s = .next (trapTask s k i 0x02)
    (c.ds.length < 1 → ∀ f ∈ ([.dup, .drop, .pick, .not, .neg, .abs, .inc, .dec, .clz, .ctz, .popc, .ld, .ldb, .ldp, .ld32,
        .tor, .calls, .jmps, .wait, .rels, .resv, .rand, .sleep, .sendCipher, .sendHash, .sendEngine, .sendLookup,
        .sendVault] : List Guarded), trap f) ∧
    (c.ds.length < 2 → ∀ f ∈ ([.swap, .over, .nip, .tuck, .dup2, .drop2, .add, .sub, .adc, .sbc, .and, .or, .xor, .mul, .muls,
        .div, .divs, .shl, .shr, .sar, .rol, .ror, .st, .stb, .stp, .zero, .getw] : List Guarded), trap f) ∧
    (c.ds.length < 3 → ∀ f ∈ ([.rot, .shl32, .shr32, .st32, .copy, .done] : List Guarded), trap f) ∧
    (c.ds.length < 4 → ∀ f ∈ ([.swap2, .add32, .sub32] : List Guarded), trap f) ∧
    (c.ds.length = 32 → ∀ f ∈ ([.dup, .over, .tuck, .dup2, .depth, .rdepth] : List Guarded), trap f) ∧
    (c.ds.length = 31 → trap .dup2) ∧
    (c.rs.length = 16 → trap .tor) ∧
    (c.rs = [] → ∀ f ∈ ([.fromr, .copyr, .rdrop, .ret] : List Guarded), trap f)

/-! ## Pages: errors, locks and the state machine of a block -/

/-- R46 to R49: ERR flags written 1 clear, and CODE with the last of them; ERRINJ arms the strongest injection and needs
TEST_EN; LOCK is set; and R42: a malformed access of a master whose MPU admits it sets ERR.ACCESS on a page the part has, and
does nothing elsewhere.  A halted control complex writes none of these (R25). -/
def Obligations.ErrorRegistersClearArmAndLock : Prop :=
  ∀ s : State,
    (ComplexActs s →
      (∀ p v, live s p = true →
        let kept := s.reg p 0x010 &&& ~~~ (v &&& 0x80001F00)
        (kept &&& 0x80001F00 = 0 → exec (.errWrite p v) s = .next (s.setReg p 0x010 0)) ∧
        (kept &&& 0x80001F00 ≠ 0 → exec (.errWrite p v) s = .next (s.setReg p 0x010 kept))) ∧
      (∀ p v, live s p = true →
        (s.flag p CTRL_TEST_EN = false → exec (.errinj p v) s = .next s) ∧
        (s.flag p CTRL_TEST_EN = true →
          (v.getLsbD 10 = true →
            exec (.errinj p v) s = .next (s.setAux p { s.auxOf p with inject := some .parity })) ∧
          (v.getLsbD 10 = false → v.getLsbD 9 = true →
            exec (.errinj p v) s = .next (s.setAux p { s.auxOf p with inject := some .uncorr })) ∧
          (v.getLsbD 10 = false → v.getLsbD 9 = false → v.getLsbD 8 = true →
            exec (.errinj p v) s = .next (s.setAux p { s.auxOf p with inject := some .corr })) ∧
          (v.getLsbD 10 = false → v.getLsbD 9 = false → v.getLsbD 8 = false → exec (.errinj p v) s = .next s))) ∧
      (∀ p, live s p = true → exec (.lock p) s = .next (s.setFld p LOCK_LOCK 1))) ∧
    (¬ ComplexActs s → ∀ p v, exec (.errWrite p v) s = .next s ∧ exec (.errinj p v) s = .next s ∧ exec (.lock p) s = .next s) ∧
    (∀ x a p, Reaches s x .read a 1 → pageOfAddr a = some p → present s p = true →
      exec (.malformedAccess x a) s = .next (raiseErrs s p [12] (accessCode p) 0xFFFFFFFF 0)) ∧
    (∀ x a, Reaches s x .read a 1 → pageOfAddr a = none → exec (.malformedAccess x a) s = .next s)

/-- R46, R439: an error whose class is unmasked, on a page with no error flag set, keeps its code, sets its flag and
IRQST.ERR, and queues one class 0x1 record; on a page with a flag set it sets MULTIPLE and the first code stays. -/
def Obligations.ErrorsKeepTheFirstCodeAndReport : Prop :=
  ∀ (s : State) p cls code tenant addr, mwf resetWord s.regs = true → 8 ≤ cls → cls ≤ 12 → code < 256 →
    let t := raiseErr s p cls code tenant addr
    t.flag p ⟨0x010, cls, 1⟩ = true ∧
    ((s.reg p 0x010).toNat / 256 % 32 = 0 → s.flag p ERR_MULTIPLE = false →
      t.fld p ERR_CODE = code ∧ t.flag p ERR_MULTIPLE = false) ∧
    ((s.reg p 0x010).toNat / 256 % 32 ≠ 0 → t.fld p ERR_CODE = s.fld p ERR_CODE ∧ t.flag p ERR_MULTIPLE = true) ∧
    (s.flag p ⟨0x014, cls, 1⟩ = true → t.evr = s.evr) ∧
    (s.flag p ⟨0x014, cls, 1⟩ = false → stateOf s .evr = stRunning → s.flag .evr EVR_CTRL_FREEZE = false →
      (s.evr.queue.filter fun q => q.source = sourceOf p).length < 16 →
      ∃ e, t.evr.queue = s.evr.queue ++ [e] ∧ e.code = 0x1000 + code ∧ e.source = sourceOf p ∧ e.p2 = tenant ∧ e.p3 = addr)

/-- R44, R50 to R54, R255, R302, R496: the moves of STAT.STATE that commands and start-up events make.  A CTRL write stores
DRAIN_TO, TEST_EN and SPARE_ALLOW; on a page that follows EN, DRAIN_REQ and SQUASH_REQ it starts a block that is OFF or
STOPPED, drains one that is STARTING or RUNNING, or squashes it; EN = 1 is ignored on a FAILED page to which no spare comes
and on an expander in raw mode; a CTX page takes no drain while its scheduler works.  A start-up that settles leaves the
block RUNNING, or a spare STOPPED in its pool.
Completes: blockEnable, blockDisable, drainReq, squashReq, startupSettled, drainComplete, drainTimeout. -/
def Obligations.BlockStateMovesAsTheTableSays : Prop :=
  ∀ (s : State) p, live s p = true → mwf resetWord s.regs = true →
    (ComplexActs s → ∀ c : CtrlPlain,
      let s1 := storeCtrl s p c
      (ignoresCtrl s p = true → exec (.blockEnable p c) s = .next s1) ∧
      (ignoresCtrl s p = false →
        let s2 := s1.setFlag p CTRL_DRAIN_REQ false
        let on := s2.setFlag p CTRL_EN true
        let raw := pageBtype p = 0x0205 ∧ rawMode s = true
        (raw → exec (.blockEnable p c) s = .next (accessErr s2 p)) ∧
        (¬ raw → stateOf s p = stOff ∨ stateOf s p = stStopped →
          exec (.blockEnable p c) s = .next (startHook (on.setFld p STAT_STATE stStarting) p)) ∧
        (¬ raw → stateOf s p = stStarting ∨ stateOf s p = stRunning ∨ stateOf s p = stDraining →
          exec (.blockEnable p c) s = .next on) ∧
        (¬ raw → stateOf s p = stFailed →
          ((s.auxOf p).admitted = none → exec (.blockEnable p c) s = .next s2) ∧
          ((s.auxOf p).admitted ≠ none → exec (.blockEnable p c) s = .next on))) ∧
      (ctxRefuses s p = true →
        exec (.blockDisable p c) s = .next (accessErr s p) ∧ (∀ en, exec (.drainReq p c en) s = .next (accessErr s p)) ∧
        ∀ d, exec (.squashReq p c d) s = .next (accessErr s p)) ∧
      (ctxRefuses s p = false → ignoresCtrl s p = true →
        exec (.blockDisable p c) s = .next s1 ∧ (∀ en, exec (.drainReq p c en) s = .next s1) ∧
        ∀ d, exec (.squashReq p c d) s = .next s1) ∧
      (ctxRefuses s p = false → ignoresCtrl s p = false →
        exec (.blockDisable p c) s = .next (disableHook (enterDraining
          ((s1.setFlag p CTRL_DRAIN_REQ false).setFlag p CTRL_EN false) p) p) ∧
        (∀ en, exec (.drainReq p c en) s = .next (enterDraining (storeEn s1 p en true) p)) ∧
        ∀ d,
          let off := (s1.setFlag p CTRL_DRAIN_REQ d).setFlag p CTRL_EN false
          (stateOf s p = stStarting ∨ stateOf s p = stRunning ∨ stateOf s p = stDraining →
            exec (.squashReq p c d) s = .next (disableHook (squashBlock (drainHook off p) p) p)) ∧
          (stateOf s p = stOff ∨ stateOf s p = stStopped ∨ stateOf s p = stFailed →
            exec (.squashReq p c d) s = .next off))) ∧
    (stateOf s p = stDraining → inflight s p = 0 → exec (.drainComplete p) s = .next (enterStopped s p)) ∧
    (stateOf s p = stDraining → inflight s p ≠ 0 → exec (.drainComplete p) s = .next s) ∧
    (stateOf s p ≠ stDraining → exec (.drainComplete p) s = .next s ∧ exec (.drainTimeout p) s = .next s) ∧
    (stateOf s p = stDraining → exec (.drainTimeout p) s =
      .next (squashBlock (advanceTo s ((s.auxOf p).drainAt + (s.auxOf p).drainTo)) p)) ∧
    (stateOf s p = stStarting →
      (ucodeMatches s p = true → isSparePage p = false → p ≠ .rng → pageBtype p ≠ 0x0205 → p ≠ .vlt → p ≠ .hbc →
        exec (.startupSettled p) s = .next (heartbeatOut ((settleHook s p).setFld p STAT_STATE stRunning))) ∧
      (ucodeMatches s p = true → isSparePage p = true → (s.auxOf p).cruise = false → underAdmission s p = false →
        exec (.startupSettled p) s = .next (offerSpare (sparePasses s p) p)) ∧
      (ucodeMatches s p = false → isSparePage p = false →
        exec (.startupSettled p) s = .next (afterFailure (unitFails s p 0) p)) ∧
      (ucodeMatches s p = false → isSparePage p = true → exec (.startupSettled p) s = .next (unitFails s p 0))) ∧
    (stateOf s p ≠ stStarting → exec (.startupSettled p) s = .next s)

/-- R13, R14, R16, R17, R21, R25, R31, R33, R34, R179, R247, R472: corrected errors, what an uncorrectable error costs at
each level (a block, an access, a region, the chip), the end of a spare's admission check, cruise tests and repairs.
Completes: singleBitError, blockUncorrectableError, regionFatalError, chipLevelFault, spareAdmissionDone, cruiseTest,
sramRepairApply. -/
def Obligations.FaultLevelsTakeTheirEffect : Prop :=
  ∀ s : State,
    (∀ p (code : Byte) (addr : BitVec 40), live s p = true →
      let t := raiseErr (s.bumpSat p HEALTH_CORR) p 8 code.toNat 0xFFFFFFFF (addr.setWidth 32)
      (pageRegion p = none → p ≠ .hbc → exec (.singleBitError p code addr) s = .next t) ∧
      (p = .hbc → exec (.singleBitError p code addr) s = .next (t.bump .hbc HBC_CORR)) ∧
      (∀ r, p = .lnk r → exec (.singleBitError p code addr) s = .next (pmcEvent t (r / 32) 0x11 none)) ∧
      (∀ r, p = .ctx r → exec (.singleBitError p code addr) s =
        .next (pmcEvent (t.setFld p CTX_ERRIDX addr.toNat) r 0x11 none))) ∧
    (∀ p (code : Byte) parity v (addr : BitVec 40), live s p = true → stateOf s p ≠ stOff → stateOf s p ≠ stFailed →
      let a : Word := addr.setWidth 32
      let run := exec (.blockUncorrectableError p code parity v addr) s
      (∀ r k, p = .kcr r k ∨ p = .cph r k ∨ p = .hsh r k ∨ p = .pke r k → run = .next (failBlock s p code.toNat parity a)) ∧
      (∀ r, p = .ctx r ∨ p = .sch r →
        let t := failPage s p code.toNat parity 0xFFFFFFFF a
        run = .next (isolateRegion t r (t.reg p 0x010))) ∧
      (p = .vlt ∨ p = .ten → run = .next (chipLevelFault (failPage s p code.toNat parity 0xFFFFFFFF a) 2)) ∧
      (p = .hbc → code = 0xF6 →
        let t := (s.setFld .hbc HBC_ERRADDR_LO addr.toNat).setFld .hbc HBC_ERRADDR_HI (addr.toNat / 2 ^ 32)
        run = .next (failAccess (setIrq ((reportUncorrected t .hbc 0xF6 a).bump .hbc HBC_UNCORR) .hbc 18) v)) ∧
      (∀ r, p = .odm r → code = 0x68 →
        let t := (s.setFld p ODM_ERRADDR_LO addr.toNat).setFld p ODM_ERRADDR_HI (addr.toNat / 2 ^ 32)
        run = .next (failAccess (reportUncorrected t p 0x68 a) v)) ∧
      (∀ r stamp, p = .cls r → parity = false → v = .frame stamp →
        run = .next (dropFrame (reportUncorrected s p code.toNat a) stamp))) ∧
    (∀ r p1, isolated s r = true → exec (.regionFatalError r p1) s = .next s) ∧
    (∀ r p1, isolated s r = false → regionFitted s r = true → ∃ t, exec (.regionFatalError r p1) s = .next t ∧
      (∀ i < 65536, t.ctxAt r i = Ctx.free) ∧ (∀ e ∈ t.booms, e.1 ≠ r) ∧ (∀ e ∈ t.laneQ, e.1 / 3 ≠ r)) ∧
    (∀ cause, s.chipFault = none → ∃ t, exec (.chipLevelFault cause) s = .next t ∧
      t.chipFault = some cause ∧ t.balls.fault = true ∧ t.balls.ready = false ∧ t.balls.hbOut = false ∧ t.shut = true ∧
      t.held = []) ∧
    (∀ cause, s.chipFault ≠ none → exec (.chipLevelFault cause) s = .next s) ∧
    (∀ p q k, (s.auxOf p).admitted = some k → p ≠ .rng → (sparesOf p).find? (fun q => unitPos q = k) = some q →
      let s1 := s.setAux p { s.auxOf p with admitted := none }
      live s1 p = true →
      (ucodeMatches s1 q = true →
        (stateOf s1 p = stFailed →
          let s2 := swapSites s1 p q stFailed
          (s2.flag p CTRL_EN = true → s2.flag p CTRL_DRAIN_REQ = false →
            exec (.spareAdmissionDone p none) s = .next (s2.setFld p STAT_STATE stStarting)) ∧
          (s2.flag p CTRL_EN = false ∨ s2.flag p CTRL_DRAIN_REQ = true →
            exec (.spareAdmissionDone p none) s = .next (setState s2 p stStopped))) ∧
        (stateOf s1 p ≠ stFailed → inflight s1 p = 0 →
          let s2 := swapSites s1 p q stStarting
          exec (.spareAdmissionDone p none) s = .next (s2.setAux q { s2.auxOf q with cruise := true })) ∧
        (stateOf s1 p ≠ stFailed → inflight s1 p ≠ 0 → exec (.spareAdmissionDone p none) s = .next (sparePasses s1 q)) ∧
        ∀ v, exec (.spareAdmissionDone p (some v)) s = .next (coreLost (coppice (unitFails s1 q v.toNat) p) p)) ∧
      (ucodeMatches s1 q = false →
        ∀ res, exec (.spareAdmissionDone p res) s = .next (coreLost (coppice (unitFails s1 q 0) p) p))) ∧
    (∀ res, exec (.spareAdmissionDone .rng res) s = .next (oscAdmission s res.isNone)) ∧
    (∀ p, ComplexActs s → live s p = true →
      (stateOf s p ≠ stFailed → (s.auxOf p).cruise = false → (s.auxOf p).admitted = none →
        let began := s.setAux p { s.auxOf p with cruise := true }
        (isSparePage p = true → stateOf s p = stStopped →
          exec (.cruiseTest p .start) s = .next (refreshSpares (began.setFld p STAT_STATE stStarting) p)) ∧
        (isSparePage p = false → stateOf s p ≠ stStarting → stateOf s p ≠ stDraining →
          (s.flag p CTRL_SPARE_ALLOW = true → sparesFor s p ≠ [] → exec (.cruiseTest p .start) s = .next (coppice s p)) ∧
          (s.flag p CTRL_SPARE_ALLOW = false ∨ sparesFor s p = [] → inflight s p = 0 →
            exec (.cruiseTest p .start) s = .next began))) ∧
      ((s.auxOf p).cruise = true →
        let s1 := s.setAux p { s.auxOf p with cruise := false }
        (isSparePage p = true → exec (.cruiseTest p .pass) s = .next (sparePasses (cruiseCount s1 p true) p)) ∧
        (isSparePage p = false → inflight s1 p = 0 → exec (.cruiseTest p .pass) s = .next (cruiseCount s1 p true)) ∧
        (isSparePage p = true ∨ inflight s1 p = 0 →
          (∀ v, exec (.cruiseTest p (.fail v)) s = .next (cruiseFail (cruiseCount s1 p false) p v)) ∧
          ∀ bank line, exec (.cruiseTest p (.uncoverable bank line)) s = .next (meetError (postEvent
            (cruiseCount s1 p false) p 0x2002 (BitVec.ofNat 32 ((cruiseCount s1 p false).fld p SPARE_SITE))
            (BitVec.ofNat 32 bank)) p (faultCodes p).1 false .none 0)) ∧
        (isSparePage p = false → inflight s1 p = 0 → ∀ bank line,
          let x : Repair := { bank := bank, line := line }
          let s2 := cruiseCount s1 p true
          let s3 := { s2 with repairMap := s2.repairMap ++ [(pageBase (sitePage p (s1.fld p SPARE_SITE)), x)] }
          exec (.cruiseTest p (.repair bank line)) s = .next (postEvent
            (s3.setAux p { s3.auxOf p with repairs := (s3.auxOf p).repairs ++ [x] })
            p 0x2003 (BitVec.ofNat 32 bank) (BitVec.ofNat 32 line))))) ∧
    (∀ p, inflight s p = 0 →
      let x := s.auxOf p
      exec (.sramRepairApply p) s =
        .next (s.setAux p { x with repairs := x.repairs.drop 1, applied := x.applied ++ x.repairs.take 1 }))

/-- R40 to R42, R48, R49, R54, R372, R446, R469: a master's write that its MPU admits.  To control SRAM or to HBM that is
ready it stores the word and nothing else; to a page that answers it is stored field by field, frozen words and refused
values aside, and a stopped-only field that takes none sets ERR.ACCESS; a 64-bit write of a control core is two words, the
lower address first; a misaligned one is malformed, and one outside the map a fault.  A write that the MPU refuses, and one to
a PMC page without privilege, stores nothing.
Completes: registerWrite. -/
def Obligations.RegisterWriteGoesWhereTheMapSays : Prop :=
  ∀ (s : State) x (a : Nat) (v : Word),
    (0x10000000 ≤ a → a + 4 ≤ 0x10800000 → Reaches s x .write a 4 →
      ∃ t, exec (.registerWrite x a v none) s = .next t ∧ t = { s with sram := t.sram } ∧
        (Memory.wf s.sram = true → physRead t a 4 =
          [v.extractLsb' 0 8, v.extractLsb' 8 8, v.extractLsb' 16 8, v.extractLsb' 24 8]) ∧
        ∀ b, b < a - 0x10000000 ∨ a - 0x10000000 + 4 ≤ b → memGet t.sram b = memGet s.sram b) ∧
    (0x1000000000 ≤ a → a + 4 ≤ 0x1000000000 + s.fuse.variant.hbmBytes → Reaches s x .write a 4 → Unarmed s .hbc →
      running s .hbc = true → exec (.registerWrite x a v none) s =
        .next { s with hbm := memWrite s.hbm (a - 0x1000000000) (leBytes 4 v.toNat) }) ∧
    (∀ p, a % 4 = 0 → pageOfAddr a = some p → Reaches s x .write a 4 → Unarmed s p → p ≠ .ten → p ≠ .tmp → p ≠ .vlt →
      (pageBtype p = 0x0112 → x ≠ .debug) →
      let off := a % 0x1000
      let run := exec (.registerWrite x a v none) s
      (live s p = false → run = .next s) ∧
      (live s p = true → frozen s p off = true → run = .next s) ∧
      (live s p = true → frozen s p off = false → pageBtype p ≠ 0x0112 → pageBtype p ≠ 0x0202 →
        (valueRefused s p off v = true → run = .next (accessErr s p)) ∧
        (valueRefused s p off v = false → stopRefused s p off = true →
          run = .next (writeHook (writeRows (accessErr s p) p off v) p off)) ∧
        (valueRefused s p off v = false → stopRefused s p off = false →
          run = .next (writeHook (writeRows s p off v) p off)))) ∧
    (∀ p c u w, a % 8 = 0 → pageOfAddr a = some p → x = .core c u → Reaches s x .write a 8 →
      exec (.registerWrite x a v (some w)) s =
        .next (masterPage (masterPage s x p (a % 0x1000) v) x p (a % 0x1000 + 4) w)) ∧
    (a % 4 ≠ 0 → (∃ p, pageOfAddr a = some p) → Reaches s x .write a 4 →
      exec (.registerWrite x a v none) s = .next (malformed s a)) ∧
    (0x1400000000 ≤ a → Reaches s x .write a 4 → exec (.registerWrite x a v none) s = .fault .unassignedAddress) ∧
    (masterRuns s x = true → ∀ t hi, pageReach s x .write (pageOfAddr a) a (4 * (v :: hi.toList).length) = .error t →
      exec (.registerWrite x a v hi) s = .next t) ∧
    (∀ r, pageOfAddr a = some (.pmc r) → masterPriv x = false → masterRuns s x = true → live s (.pmc r) = true → ∀ hi,
      exec (.registerWrite x a v hi) s = .next (accessErr s (.pmc r)))

/-! ## Host ports, the host table, the control path and the management port -/

/-- R56 to R59, R66, R70, R75: link state, flow control and fencing of a host port that runs or drains, and the end of a
transmission; training belongs to XLAUI alone.
Completes: blockLockAcquired, linkDown, trainingTimeout, xoffRepeat, pauseReceived, pauseQuantaExpiry, txholdTimeout,
responseTransmitDone, fenceAssert, fenceDeassert. -/
def Obligations.PortEventsChangeLinkAndQueue : Prop :=
  ∀ (s : State) p, p < 128 →
    (portAlive s p = true →
      (let up := (s.setFlag (.lnk p) LNK_STATUS_BLOCK_LOCK true).setFlag (.lnk p) LNK_STATUS_LINK_UP true
       let trains := up.flag (.lnk p) LNK_MODE_TRAIN_EN = true ∧ up.fld (.lnk p) LNK_MODE_PHY = 0
       (¬ trains → exec (.blockLockAcquired p) s = .next up) ∧
       (trains → exec (.blockLockAcquired p) s = .next (up.setFlag (.lnk p) LNK_STATUS_TRAINED true))) ∧
      (let down := discardTx false
         ((s.setFlag (.lnk p) LNK_STATUS_BLOCK_LOCK false).setFlag (.lnk p) LNK_STATUS_LINK_UP false) p
       (s.flag (.lnk p) LNK_STATUS_LINK_UP = true → exec (.linkDown p) s =
         .next (postEvent (setIrq down (.lnk p) 16) (.lnk p) 0x4003 (BitVec.ofNat 32 p))) ∧
       (s.flag (.lnk p) LNK_STATUS_LINK_UP = false → exec (.linkDown p) s = .next down)) ∧
      (∀ hold resume, exec (.pauseReceived p hold resume) s =
        .next (startTx (setPaused s p (((s.port p).paused ||| hold) &&& ~~~ resume)) p)) ∧
      (∀ classes, exec (.pauseQuantaExpiry p classes) s =
        .next (startTx (setPaused s p ((s.port p).paused &&& ~~~ classes)) p))) ∧
    (portAlive s p = false → exec (.blockLockAcquired p) s = .next s ∧ exec (.linkDown p) s = .next s ∧
      (∀ hold resume, exec (.pauseReceived p hold resume) s = .next s) ∧
      ∀ classes, exec (.pauseQuantaExpiry p classes) s = .next s) ∧
    (running s (.lnk p) = true →
      (s.flag (.lnk p) LNK_MODE_TRAIN_EN = true → s.fld (.lnk p) LNK_MODE_PHY = 0 → exec (.trainingTimeout p) s =
        .next (raiseErrs (setIrq (s.setFlag (.lnk p) LNK_STATUS_TRAINED false) (.lnk p) 19) (.lnk p) [11] 0x11)) ∧
      (s.fld (.lnk p) LNK_MODE_PHY ≠ 0 → exec (.trainingTimeout p) s = .next s) ∧
      (s.flag (.lnk p) LNK_STATUS_XOFF = true → exec (.xoffRepeat p) s =
        .next (if xoffWanted s p then sendPause s p 0xFFFF else xonCheck s p)) ∧
      (s.flag (.lnk p) LNK_STATUS_XOFF = false → exec (.xoffRepeat p) s = .next (xoffCheck s p))) ∧
    (∀ x l, (s.port p).sending = false → (s.port p).tx = x :: l → held s p x.cls = true →
      exec (.txholdTimeout p) s = .next (countDisc (s.setPort p { s.port p with tx := l }) p)) ∧
    (∀ x y l, (s.port p).sending = true → (s.port p).tx = x :: y :: l → held s p y.cls = true →
      exec (.txholdTimeout p) s = .next (countDisc (s.setPort p { s.port p with tx := x :: l }) p)) ∧
    (∀ x l, Unarmed s (.lnk p) → (s.port p).sending = true → (s.port p).tx = x :: l → exec (.responseTransmitDone p) s =
      .next (startTx ((s.setPort p { s.port p with tx := l, sending := false, link := [] }).bump (.lnk p) LNK_CNT_TXFRM) p)) ∧
    ((s.port p).sending = false → exec (.responseTransmitDone p) s = .next s) ∧
    (∃ t, exec .fenceAssert s = .next t ∧ t.balls.fence = true) ∧
    exec .fenceDeassert s = .next { s with balls := { s.balls with fence := false } }

/-- R60, R63 to R65, R75, R81: what becomes of a frame at a RUNNING host port whose link is up and on which no injected error
is armed: dropped and counted when the port is fenced, the classifier stopped, or the frame bad, unmatched or misformed; a
neighbour's question answered; and else classified.
Completes: frameReceived. -/
def Obligations.ReceivedFramesAreCheckedInOrder : Prop :=
  ∀ (s : State) p frame fcsOk, p < 128 → running s (.lnk p) = true → s.flag (.lnk p) LNK_STATUS_LINK_UP = true →
    Unarmed s (.lnk p) →
    let r := p / 32
    let run := exec (.frameReceived p frame fcsOk) s
    (fenced s = true → run = .next (s.bump (.cls r) CLS_DROP_BRAKE)) ∧
    (fenced s = false → running s (.cls r) = false → run = .next (clsDrop s r CLS_DROP_STOPPED)) ∧
    (fenced s = false → running s (.cls r) = true →
      (parseFrame s p fcsOk frame = .bad → run = .next (pmcEvent (s.bump (.lnk p) LNK_CNT_BADFRM) r 0x02 none)) ∧
      (∀ a, parseFrame s p fcsOk frame = .neighbour a →
        run = .next (s.setPort p { s.port p with link := (s.port p).link ++ [a] })) ∧
      (parseFrame s p fcsOk frame = .noMatch → run = .next (clsDrop s r CLS_DROP_NOMATCH)) ∧
      (∀ src vlan b pad clean, parseFrame s p fcsOk frame = .adetra src vlan b pad clean →
        (headerOk p vlan b pad clean (frame.length + 4) = false → run = .next (clsDrop s r CLS_DROP_FORMAT)) ∧
        (headerOk p vlan b pad clean (frame.length + 4) = true → Unarmed s (.cls r) →
          run = .next (classify s p r (frameClass p vlan b) (frame.length + 4) src vlan b))))

/-- R64, R65, R89, R340, R447: an item that passes every check of admission joins the tail of its ready level under the next
stamp; tagging gives it at most its time stamps. -/
def Obligations.AdmittedItemJoinsTheTailOfItsLevel : Prop :=
  ∀ (s : State) (i : Item),
    let j := { i with stamp := s.nextItem, place := .ready }
    ∃ t m, admitItem s i = t ∧ m = (tagItem s j).1 ∧ m = { j with stamps := m.stamps } ∧
      (s.flag (.pmc i.ingress) PMC_TAG_EN = false → m = j) ∧
      t.nextItem = s.nextItem + 1 ∧ t.item s.nextItem = some m ∧
      t.readyList i.region i.level = s.readyList i.region i.level ++ [s.nextItem] ∧
      (∀ n, n ≠ s.nextItem → t.item n = s.item n) ∧
      ∀ r l, 8 * r + l ≠ 8 * i.region + i.level → t.readyList r l = s.readyList r l

/-- R62, R76, R82: ageing and the three operations on the host table.
Completes: hostEntryAgeOut, htbReadEntry, htbWriteStatic, htbDeleteEntry. -/
def Obligations.HostTableOperationsActOnTheirEntry : Prop :=
  ∀ s : State,
    (∀ h e, s.host h = some e → e.isStatic = false → e.valid = true → s.fld .htb HTB_CFG_AGE ≠ 0 → hostSessions s h = 0 →
      running s .htb = true →
      exec (.hostEntryAgeOut h) s =
        .next ((advanceTo s (e.lastFrame + 1000000 * s.fld .htb HTB_CFG_AGE)).setHost h none)) ∧
    (∀ h e, s.host h = some e → e.isStatic = true → exec (.hostEntryAgeOut h) s = .next s) ∧
    (ComplexActs s → mwf resetWord s.regs = true →
      let idx := s.fld .htb HTB_IDX
      let ok := fun (t : State) => (t.setFld .htb HTB_OP_STATUS stOK).setFlag .htb HTB_OP_BUSY false
      (s.host idx = none →
        (∃ t, exec .htbReadEntry s = .next t ∧ t.hosts = s.hosts ∧ t.reg .htb 0x05C = 0 ∧ t.reg .htb 0x060 = 0) ∧
        exec .htbDeleteEntry s =
          .next (accessErr ((s.setFld .htb HTB_OP_STATUS stOPERAND_RANGE).setFlag .htb HTB_OP_BUSY false) .htb)) ∧
      (∀ e, s.host idx = some e →
        (∃ t, exec .htbReadEntry s = .next t ∧ t.hosts = s.hosts ∧ t.flag .htb HTB_ENT_0_VALID = e.valid ∧
          t.flag .htb HTB_ENT_0_STATIC = e.isStatic ∧ t.fld .htb HTB_ENT_0_TENANT = e.tenant % 2 ^ HTB_ENT_0_TENANT.width ∧
          t.fld .htb HTB_ENT_0_PORT = e.port % 2 ^ HTB_ENT_0_PORT.width) ∧
        exec .htbDeleteEntry s = .next (ok ((unbindHost s idx).setHost idx none)) ∧
        ∀ n se, (unbindHost s idx).session n = some se → se.host ≠ some idx) ∧
      (let t := s.fld .htb HTB_ENT_0_TENANT
       let p := s.fld .htb HTB_ENT_0_PORT
       let new : HostEntry := { tenant := t, key := windowKey s, port := p, isStatic := true, valid := true
                                lastFrame := s.time.tick, lastMove := none }
       (portFitted s p = false ∨ isolated s (p / 32) = true ∨ s.fuse.variant.tenMax < t → exec .htbWriteStatic s =
         .next (accessErr ((s.setFld .htb HTB_OP_STATUS stNOT_FITTED).setFlag .htb HTB_OP_BUSY false) .htb)) ∧
       (portFitted s p = true → isolated s (p / 32) = false → t ≤ s.fuse.variant.tenMax → (s.tenant t).state ≠ 0 →
         (findHost s t (windowKey s) = none →
           (∀ e, s.host idx = some e → ¬ (e.tenant = t ∧ sameHost e.key (windowKey s) = true)) →
           exec .htbWriteStatic s = .next (ok ((unbindHost s idx).setHost idx (some new)))) ∧
         ∀ h e, findHost s t (windowKey s) = some (h, e) → s.host h = some e →
           exec .htbWriteStatic s = .next (ok (s.setHost h (some new))))))

/-- R71 to R73, R81, R493: the control path takes the oldest BRAKE frame of its region, verifies it and starts the set
or release it asks for, which is answered once every port has it; a second set of a filter in force changes nothing; parity
drops the frame hit; frames that ended early are answered when their tag verifies and dropped when it does not, or after
1 ms.  A second release of a filter that has gone is answered FORMAT (the model's choice, log 102).
Completes: brakeSet, brakeRelease, brakeFilterPropagated, clsControlParity, brakeMirrorReloaded, earlyEndTagVerify,
earlyEndVerifyTimeout. -/
def Obligations.ControlPathAnswersBrakeAndEarlyFrames : Prop :=
  ∀ s : State,
    (∀ r i q, live s (.cls r) = true → stateOf s (.cls r) ≠ stStopped → lget s.brakeQ r = i :: q →
      let t := { s with brakeQ := lset s.brakeQ r q }
      (verifyItem t i = none →
        exec (.brakeSet r) s = .next (controlDrop (countAuth t r i.tenant) i) ∧
        exec (.brakeRelease r) s = .next (controlDrop (countAuth t r i.tenant) i)) ∧
      (∀ j u, verifyItem t i = some (j, u) →
        (∀ kind value, brakeReq j = some (.set kind value) → requestRefused u j = none → (u.tenant j.tenant).state ≠ 2 →
          brakeRefused u j.tenant (.set kind value) = none →
          exec (.brakeSet r) s = .next (brakeStart u j (.set kind value)) ∧ exec (.brakeRelease r) s = .next s) ∧
        (∀ f, brakeReq j = some (.release f) → requestRefused u j = none → dupAnswer u j = none →
          brakeRefused u j.tenant (.release f) = none →
          exec (.brakeRelease r) s = .next { dupEnter u j with
            brakeOps := (dupEnter u j).brakeOps ++ [{ filter := f, set := false, item := j }] } ∧
          exec (.brakeSet r) s = .next s))) ∧
    (∀ o l b, s.brakeOps = o :: l → oget s.brakes o.filter = some b →
      let s1 := { s with brakeOps := l }
      let t := postEvent s1 (.cls o.item.ingress) 0x4002 (BitVec.ofNat 32 o.filter)
        (BitVec.ofNat 32 b.kind) (BitVec.ofNat 32 b.value) (BitVec.ofNat 32 o.item.tenant)
      (o.set = true → b.active = false →
        let u := { t with brakes := oset t.brakes o.filter (some { b with active := true }) }
        exec .brakeFilterPropagated s = .next (controlAnswer
          (brakeDiscard (mirrorBrake u o.filter (some b)) b) o.item stOK (filterElem o.filter) false false)) ∧
      (o.set = true → b.active = true →
        exec .brakeFilterPropagated s = .next (controlAnswer s1 o.item stOK (filterElem o.filter) false false)) ∧
      (o.set = false → ∃ u, exec .brakeFilterPropagated s = .next (controlAnswer u o.item stOK
        (filterElem o.filter ++ elemBytes 5 (beBytes 8 (brakeCount s1 o.filter))) false true) ∧
        u.brakes = oset s.brakes o.filter none)) ∧
    (∀ o l, s.brakeOps = o :: l → oget s.brakes o.filter = none → exec .brakeFilterPropagated s =
      .next (controlAnswer (dupRemove { s with brakeOps := l } o.item) o.item stFORMAT [] false false)) ∧
    (∀ r, live s (.cls r) = true → stateOf s (.cls r) ≠ stOff →
      let t := clsDrop (raiseErrs (s.bumpSat (.cls r) HEALTH_UNCORR) (.cls r) [9, 10] 0x21) r CLS_DROP_BRAKE
      (s.mirrorBad.contains r = false →
        exec (.clsControlParity r true) s = .next { t with mirrorBad := t.mirrorBad ++ [r] }) ∧
      (∀ i q, lget t.brakeQ r = i :: q →
        exec (.clsControlParity r false) s = .next (controlDrop { t with brakeQ := lset t.brakeQ r q } i))) ∧
    (∀ r, exec (.brakeMirrorReloaded r) s = .next { s with mirrorBad := s.mirrorBad.filter (· ≠ r) }) ∧
    (∀ n i, s.early.find? (fun i => i.stamp = n) = some i →
      let t := { s with early := s.early.filter fun j => j.stamp ≠ n }
      exec (.earlyEndVerifyTimeout n) s = .next (controlDrop (countAuth t i.ingress i.tenant) i) ∧
      (lget s.brakeQ i.ingress = [] → verifyItem t i = none →
        exec (.earlyEndTagVerify n) s = .next (controlDrop (countAuth t i.ingress i.tenant) i)) ∧
      (∀ j u, lget s.brakeQ i.ingress = [] → verifyItem t i = some (j, u) →
        exec (.earlyEndTagVerify n) s = .next (controlAnswer u i (i.early.getD stABORTED_FAULT) [] false false)))

/-- R83 to R88: the management port's link, its frames, and the MDIO engine that the control complex commands.
Completes: mgtLinkUp, mgtLinkDown, mgtFrameReceived, mdioWrite, mdioRead, mdioDone, mdioTimeout. -/
def Obligations.ManagementPortFollowsPhyAndMdio : Prop :=
  ∀ s : State,
    (running s .mgt = true →
      exec (.mgtLinkUp 1000) s = .next ((s.setFlag .mgt MGT_STATUS_SYNC true).setFlag .mgt MGT_STATUS_LINK_UP true) ∧
      (∀ m, m ≠ 1000 → exec (.mgtLinkUp m) s =
        .next (((s.setFlag .mgt MGT_STATUS_SYNC true).setFlag .mgt MGT_STATUS_LINK_UP false).bump .mgt MGT_CNT_SPEED)) ∧
      (s.flag .mgt MGT_STATUS_LINK_UP = true → s.chipFault = none → Unarmed s .mgt →
        (∀ frame ok, s.flag .mgt MGT_STATUS_ROM_SVC = true → exec (.mgtFrameReceived frame ok) s = .next (romFrame s frame ok)) ∧
        (∀ frame ok, s.flag .mgt MGT_STATUS_ROM_SVC = false →
          parseFrame s 128 ok frame = .bad ∨ parseFrame s 128 ok frame = .noMatch →
          exec (.mgtFrameReceived frame ok) s = .next (s.bump .mgt MGT_CNT_BADFRM)) ∧
        (∀ frame ok a, s.flag .mgt MGT_STATUS_ROM_SVC = false → parseFrame s 128 ok frame = .neighbour a →
          exec (.mgtFrameReceived frame ok) s = .next (s.setPort 128 { s.port 128 with link := (s.port 128).link ++ [a] })) ∧
        (∀ frame ok src vlan b pad clean, s.flag .mgt MGT_STATUS_ROM_SVC = false →
          parseFrame s 128 ok frame = .adetra src vlan b pad clean →
          (headerOk 128 vlan b pad clean (frame.length + 4) = false →
            exec (.mgtFrameReceived frame ok) s = .next (s.bump .mgt MGT_CNT_BADFRM)) ∧
          (headerOk 128 vlan b pad clean (frame.length + 4) = true →
            (mgmtRegion s = none → exec (.mgtFrameReceived frame ok) s = .next (s.bump .mgt MGT_CNT_DROP)) ∧
            ∀ r, mgmtRegion s = some r → Unarmed s (.cls r) → exec (.mgtFrameReceived frame ok) s =
              .next (classify s 128 r (frameClass 128 vlan b) (frame.length + 4) src vlan b))))) ∧
    (portAlive s 128 = true → ∀ lost : Bool,
      let down := s.setFlag .mgt MGT_STATUS_LINK_UP false
      let t := if lost = true then down.setFlag .mgt MGT_STATUS_SYNC false else down
      (s.flag .mgt MGT_STATUS_LINK_UP = true → exec (.mgtLinkDown lost) s = .next (setIrq (discardTx false t 128) .mgt 16)) ∧
      (s.flag .mgt MGT_STATUS_LINK_UP = false → exec (.mgtLinkDown lost) s = .next t)) ∧
    (∀ (phy regad : BitVec 5) (data : BitVec 16), ComplexActs s → s.mdio = none →
      let t := (((s.setFld .mgt MGT_MDIO_PHYAD phy.toNat).setFld .mgt MGT_MDIO_REGAD regad.toNat).setFld .mgt
        MGT_MDIO_DATA data.toNat).setFlag .mgt MGT_MDIO_BUSY true
      exec (.mdioWrite phy regad data) s =
        .next { t with mdio := some { write := true, phy := phy.toNat, regad := regad.toNat, data := data.toNat } } ∧
      exec (.mdioRead phy regad data) s =
        .next { t with mdio := some { write := false, phy := phy.toNat, regad := regad.toNat, data := data.toNat } }) ∧
    (∀ (phy regad : BitVec 5) (data : BitVec 16), s.mdio ≠ none →
      exec (.mdioWrite phy regad data) s = .next s ∧ exec (.mdioRead phy regad data) s = .next s) ∧
    (∀ o (data : BitVec 16), s.mdio = some o →
      let t := { s with mdio := none }.setFlag .mgt MGT_MDIO_BUSY false
      (o.write = true → exec (.mdioDone data) s = .next (setIrq t .mgt 17)) ∧
      (o.write = false → exec (.mdioDone data) s = .next ((setIrq t .mgt 17).setFld .mgt MGT_MDIO_DATA data.toNat)) ∧
      exec .mdioTimeout s = .next (raiseErr t .mgt 11 0x16))

/-! ## Scheduling, contexts and the control complex's work -/

/-- R306, R341, R342, R344, R347: a running core of a dispatching scheduler takes the item it has prefetched: it runs at its
entry point with its argument cells, the data and return stacks empty, and LOCK set on its context, or as its suspended task
left it; a frame that is still to be opened waits for its decrypt job; an item whose deadline has passed ends with TIMEOUT
instead, and a held item ends so when its deadline comes.
Completes: workItemDispatch, deadlineExpiry. -/
def Obligations.DispatchStartsThePrefetchedItem : Prop :=
  ∀ (s : State),
    (∀ k, k < 128 → running s (corePage k) = true → schDispatches s (coreRegion k) = true →
      Unarmed s (.sch (coreRegion k)) → Unarmed s (.ctx (coreRegion k)) →
      let t := fillPrefetch s k
      ((t.core k).run ≠ none → exec (.workItemDispatch k) s = .next t) ∧
      ((t.core k).prefetch.bind t.item = none → exec (.workItemDispatch k) s = .next t) ∧
      (∀ i, (t.core k).run = none → (t.core k).prefetch.bind t.item = some i →
        (i.deadline ≤ t.time.tick → exec (.workItemDispatch k) s = .next (endItem t i stTIMEOUT)) ∧
        (t.time.tick < i.deadline → ∃ u, exec (.workItemDispatch k) s = .next u ∧ u = startItem t k i ∧
          (t.savedTask i.stamp = none → (startCore t k i).pc = i.entry ∧ (startCore t k i).args = fitR 32 i.args ∧
            (startCore t k i).ds = [] ∧ (startCore t k i).rs = [] ∧ (startCore t k i).preds = 1) ∧
          (awaitsTag i = false → { u.core k with ctx := [] } = { startCore t k i with ctx := [] }) ∧
          ∀ idx, ownCtx t i = some idx → (u.ctxAt i.region idx).lock = true))) ∧
    (∀ k, k < 128 → running s (corePage k) = false ∨ schDispatches s (coreRegion k) = false →
      Unarmed s (.sch (coreRegion k)) → Unarmed s (.ctx (coreRegion k)) → exec (.workItemDispatch k) s = .next s) ∧
    (∀ j i, s.item j = some i →
      exec (.deadlineExpiry j) s = .next (endItem (advanceTo s i.deadline) i stTIMEOUT)) ∧
    ∀ j, s.item j = none → exec (.deadlineExpiry j) s = .next s

/-- R37, R348, R349, R354: the timer at the head of a region's delay list fires by its kind, when its scheduler is RUNNING or
DRAINING: a SLEEP ends, a SUBMIT item joins its ready level in its home region or waits one tick for a full region, and a
context expires.
Completes: sleepWake, delayTimerFire, contextExpiry. -/
def Obligations.TimersFireFromTheHeadOfTheDelayList : Prop :=
  ∀ (s : State) r x l, timersFire s r = true → s.timerList r = x :: l →
    let t := advanceTo s x.due
    let u := fireTimer t r x
    (∀ id, x.kind = .wake id →
      (u.item id = none → exec (.sleepWake r) s = .next u) ∧
      (∀ i, u.item id = some i → ∃ v, exec (.sleepWake r) s = .next v ∧
        v.readyList i.region i.level = u.readyList i.region i.level ++ [id] ∧
        ∀ y ∈ v.saved, y.item = id → y.asleep = false)) ∧
    (∀ level entry ctxId arg tenant, x.kind = .submit level entry ctxId arg tenant →
      let home := homeRegion t r ctxId
      let rest := (t.timerList r).filter fun y => y.id ≠ x.id
      (8192 ≤ heldCount t home → exec (.delayTimerFire r) s =
        .next ((t.setTimers r rest).setTimers r (insertTimer { x with due := t.time.tick + 1 } ((t.setTimers r rest).timerList r)))) ∧
      (heldCount t home < 8192 → exec (.delayTimerFire r) s = .next (admitItem u { Item.blank with
        region := home, ingress := r, entry := entry, tenant := tenant, level := level, ctxId := ctxId
        args := fitR 32 arg, deadline := deadlineFrom u tenant 0 }))) ∧
    (∀ id, x.kind = .expire id → exec (.contextExpiry r) s = .next (ctxExpire u id)) ∧
    ((∀ id, x.kind ≠ .wake id) → exec (.sleepWake r) s = .next s) ∧
    ((∀ level entry ctxId arg tenant, x.kind ≠ .submit level entry ctxId arg tenant) →
      exec (.delayTimerFire r) s = .next s) ∧
    ((∀ id, x.kind ≠ .expire id) → exec (.contextExpiry r) s = .next s)

/-- R355: the doorbell moves the tail of a region's submission ring; an entry accepted advances the head and becomes a
work item, or completes at once with the status that refuses it.  R337, R358: a load of program words reaches every
region's store when it lies in its segment, and once the segment is sealed only when it writes the whole of it with words of
the digest recorded.
Completes: submissionDoorbell, submissionAccept, programLoad, programLoadDone. -/
def Obligations.SubmissionsAndProgramLoads : Prop :=
  ∀ (s : State) r, live s (.sch r) = true →
    (ComplexActs s → ∀ tail, exec (.submissionDoorbell r tail) s = .next (s.setFld (.sch r) SCH_SQ_TAIL tail.toNat)) ∧
    (let head := s.fld (.sch r) SCH_SQ_HEAD
     let n := ringSize s r
     (head = s.fld (.sch r) SCH_SQ_TAIL % n → exec (.submissionAccept r) s = .next s) ∧
     (schTakes s r = true → head ≠ s.fld (.sch r) SCH_SQ_TAIL % n → ringRoom s r = true →
       let i := submitItem s r head (physRead s (addr40 s (.sch r) SCH_SQ_LO SCH_SQ_HI + head * 64) 64)
       let t := s.setFld (.sch r) SCH_SQ_HEAD ((head + 1) % n)
       let u := { t with rings := lset t.rings r (lget t.rings r ++ [({ index := head, tag := i.tag } : RingEntry)]) }
       (submitStatus u i = none → exec (.submissionAccept r) s = .next (admitItem u i)) ∧
       (∀ st, submitStatus u i = some st → exec (.submissionAccept r) s =
         .next (postCompletion (countAdmitRefusal u i.region i.tenant st) r (some head) i.tag st [])))) ∧
    (let p := PageId.sch r
     let seg := s.fld p SCH_PRG_SEG
     let base := s.fld p SCH_PRG_BASE
     let n := s.fld p SCH_PRG_WORDS
     let lo := (segRange seg).1
     let size := (segRange seg).2
     let words := (chunks 2 (physRead s (addr40 s p SCH_PRG_SRC_LO SCH_PRG_SRC_HI) (2 * n))).map fun w =>
       BitVec.ofNat 16 (beNat w)
     let m := putWords s.prog base words
     let t := ((s.setFlag p SCH_PRG_GO true).setFlag p SCH_PRG_DONE false).setFlag p SCH_PRG_REFUSED false
     let refused := setIrq (raiseErr ((t.setFlag p SCH_PRG_GO false).setFlag p SCH_PRG_REFUSED true) p 12 0x93) p 17
     let repair := base = lo ∧ n = size ∧ sha384 (segBytes m seg) = mget (fun _ => []) s.progHash seg
     (ComplexActs s → seg < 3 → lo ≤ base → base + n ≤ lo + size → segSealed s seg = false ∨ repair →
       exec (.programLoad r) s = .next { t with prog := m }) ∧
     (ComplexActs s → seg = 3 ∨ base < lo ∨ lo + size < base + n → exec (.programLoad r) s = .next refused) ∧
     (ComplexActs s → segSealed s seg = true → ¬ repair → exec (.programLoad r) s = .next refused) ∧
     (s.flag p SCH_PRG_GO = true → exec (.programLoadDone r) s =
       .next (setIrq ((s.setFlag p SCH_PRG_GO false).setFlag p SCH_PRG_DONE true) p 16)) ∧
     (s.flag p SCH_PRG_GO = false → exec (.programLoadDone r) s = .next s))

/-- R6, R345, R351, R352, R354, R360: the control complex creates an extension context with a zeroed body, deletes one that
no task holds, or once its lock clears, and writes only the body of a valid, unlocked context.
Completes: ctxOpCreate, ctxOpDelete, contextWindowWrite. -/
def Obligations.ContextOperationsOfTheControlComplex : Prop :=
  ∀ (s : State) r, ComplexActs s → live s (.ctx r) = true →
    (let id := BitVec.ofNat 32 (s.fld (.ctx r) CTX_OP_ID)
     let t := s.fld (.ctx r) CTX_OP_TEN
     (∀ st, ctxCreateStatus s id t ctxTypeExt = some st →
       exec (.ctxOpCreate r) s = .next (ctxOpDone (quotaCounted s t st) r st)) ∧
     (ctxIdStatus s id = none → s.fuse.variant.tenMax < t →
       exec (.ctxOpCreate r) s = .next (ctxOpDone s r stNOT_FITTED)) ∧
     (ctxCreateStatus s id t ctxTypeExt = none →
       exec (.ctxOpCreate r) s = .next (ctxOpDone (s.setCtx (ctxRegion id) (ctxIndex id) { Ctx.free with
         valid := true, typ := ctxTypeOf id, tenant := t, gen := (s.ctxAt (ctxRegion id) (ctxIndex id)).gen + 1
         body := zeros 248 }) r stOK)) ∧
     (∀ st, ctxIdStatus s id = some st → exec (.ctxOpDelete r) s = .next (ctxOpDone s r st)) ∧
     (ctxIdStatus s id = none → ctxNamed s id = none → exec (.ctxOpDelete r) s = .next (ctxOpDone s r stKEY_NOT_FOUND)) ∧
     (∀ c, ctxNamed s id = some c → c.lock = false → exec (.ctxOpDelete r) s =
       .next (settle settleBound (ctxOpDone (wipeAnswer s (ctxRegion id) (ctxIndex id)) r stOK))) ∧
     (∀ c, ctxNamed s id = some c → c.lock = true →
       exec (.ctxOpDelete r) s = .next ((s.setCtx (ctxRegion id) (ctxIndex id)
         { c with wipe := true, waiters := c.waiters ++ [(128 + r, 0)] }).setFlag (.ctx r) CTX_OP_BUSY true))) ∧
    (∀ idx o b, idx < s.fuse.variant.ctxPerRegion → o + b.length ≤ 248 → b ≠ [] →
      let c := s.ctxAt r idx
      (c.valid = true → c.lock = false → exec (.contextWindowWrite r (256 * idx + 8 + o) b) s =
        .next (s.setCtx r idx { c with body := patch (fitR 248 c.body) o b, gen := c.gen + 1 })) ∧
      (c.valid = false ∨ c.lock = true → exec (.contextWindowWrite r (256 * idx + 8 + o) b) s =
        .next (accessErr s (.ctx r)))) ∧
    (∀ idx b, idx < s.fuse.variant.ctxPerRegion → 0 < b.length → b.length ≤ 256 →
      exec (.contextWindowWrite r (256 * idx) b) s = .next (accessErr s (.ctx r)))

/-! ## Protection units, tenants, the prefix table and the recorder -/

/-- R371, R378, R380: an entry of a protection unit comes into effect with its CFG word, when its base is aligned to its
size, its size is in range and it is not both tenant-relative and for any tenant; otherwise ERR.ACCESS is set with 0xAA and
nothing is written; a locked unit takes no entry.  A parity error fails the unit, which then refuses every access.
Completes: mpuEntryWrite, mpuParityError. -/
def Obligations.ProtectionEntriesComeIntoEffectWhole : Prop :=
  ∀ (s : State) m, Canonical s → present s (.mpu m) = true →
    (ComplexActs s →
      (∀ i cfg, i < 16 → locked s (.mpu m) = false →
        let w := cfg &&& 0xBFFC03FF
        let e := entryOf (s.reg (.mpu m) (0x100 + 16 * i)) (s.reg (.mpu m) (0x104 + 16 * i)) w
        (e.all entryOk = true → ∃ t, exec (.mpuEntryWrite m i cfg) s = .next t ∧ mpuEntry t m i = e ∧
          (∀ j, j ≠ 16 * m + i → oget t.mpus j = oget s.mpus j) ∧ t.regs = (s.setReg (.mpu m) (0x108 + 16 * i) w).regs) ∧
        (e.all entryOk = false → exec (.mpuEntryWrite m i cfg) s = .next (raiseErr s (.mpu m) 12 0xAA))) ∧
      (∀ i cfg, locked s (.mpu m) = true → exec (.mpuEntryWrite m i cfg) s = .next s)) ∧
    (stateOf s (.mpu m) = stFailed → exec (.mpuParityError m) s = .next s) ∧
    (stateOf s (.mpu m) ≠ stFailed → live s (.mpu m) = true → ∃ t, exec (.mpuParityError m) s = .next t ∧
      t = failPage s (.mpu m) 0xA8 true ∧ ∀ x a, stateOf t (.mpu m) = stFailed → mpuAllows t m x a = false)

/-- R6, R160, R361, R362, R367 to R370, R379: the operations of the tenant page on the tenant it selects, the tenant
doorbell, and the three phases of a tenant's reset.
Completes: tenCreate, tenReset, tenRelease, tenBind, tenUnbind, tenDoorbell, tenantResetDrainEnd, tenantResetSquashDone,
tenantResetComplete. -/
def Obligations.TenantOperationsFollowItsState : Prop :=
  ∀ s : State,
    (ComplexActs s →
      let t := s.fld .ten TEN_SEL
      let a := s.fld .ten TEN_ASID_ASID
      (s.fuse.variant.tenMax < t → exec .tenCreate s = .next (tenRefused s stNOT_FITTED) ∧
        exec .tenReset s = .next (tenRefused s stNOT_FITTED) ∧ exec .tenRelease s = .next (tenRefused s stNOT_FITTED) ∧
        exec .tenBind s = .next (tenRefused s stNOT_FITTED) ∧ exec .tenUnbind s = .next (tenRefused s stNOT_FITTED)) ∧
      (t ≤ s.fuse.variant.tenMax → t ≠ 0 →
        ((s.tenant t).state = 0 →
          let u := (s.setTenant t { Tenant.free with state := 1, jrnBase := (s.tenant t).jrnBase, resets := (s.tenant t).resets
                                                     refused := (s.tenant t).refused }).setSi t
            { s.siOf t with reachable := true, cause := 0 }
          (s.fuse.variant.standIn = false → exec .tenCreate s = .next (tenStatus u stOK)) ∧
          (s.fuse.variant.standIn = true → exec .tenCreate s = .next (tenStatus (armHeartbeat u t) stOK))) ∧
        ((s.tenant t).state ≠ 0 → exec .tenCreate s = .next (tenRefused s stOPERAND_RANGE)) ∧
        ((s.tenant t).state = 1 →
          exec .tenReset s = .next (tenStatus (startReset s t false) stOK) ∧
          exec .tenRelease s = .next (tenStatus (startReset s t true) stOK) ∧
          exec .tenUnbind s = .next (tenStatus (s.setTenant t { s.tenant t with asid := none }) stOK) ∧
          ((∀ e ∈ s.tenants, e.1 ≠ t → e.2.asid ≠ some a) →
            exec .tenBind s = .next (tenStatus (s.setTenant t { s.tenant t with asid := some a }) stOK)) ∧
          (∀ e ∈ s.tenants, e.1 ≠ t → e.2.asid = some a →
            exec .tenBind s = .next (accessErr (tenStatus s stOPERAND_RANGE) .ten))) ∧
        ((s.tenant t).state ≠ 1 → exec .tenReset s = .next (tenRefused s stOPERAND_RANGE) ∧
          exec .tenRelease s = .next (tenRefused s stOPERAND_RANGE) ∧ exec .tenBind s = .next (tenRefused s stOPERAND_RANGE) ∧
          exec .tenUnbind s = .next (tenRefused s stOPERAND_RANGE))) ∧
      (∀ user n, accessTag s user = some n → exec (.tenDoorbell user) s =
        .next (setIrq (s.setFlag .ten ⟨0x0A0 + 4 * (n / 32), n % 32, 1⟩ true) .ten 17)) ∧
      (∀ user, accessTag s user = none → exec (.tenDoorbell user) s = .next s)) ∧
    (∀ t, (s.tenant t).state = 2 →
      ((s.tenant t).phase = 1 → tenantItems s t = [] → exec (.tenantResetDrainEnd t) s = .next (squashTenant s t)) ∧
      ((s.tenant t).phase = 1 → tenantItems s t ≠ [] → exec (.tenantResetDrainEnd t) s =
        .next (squashTenant (advanceTo s ((s.tenant t).resetAt + s.fld .ten TEN_DRAIN_TIMEOUT)) t)) ∧
      ((s.tenant t).phase = 2 → tenantZeroising s t = false → exec (.tenantResetSquashDone t) s = .next (wipeTenant s t)) ∧
      ((s.tenant t).phase = 2 → tenantZeroising s t = true → exec (.tenantResetSquashDone t) s = .next s) ∧
      ((s.tenant t).phase = 3 → exec (.tenantResetComplete t) s = .next (completeReset s t))) ∧
    (∀ t, (s.tenant t).state ≠ 2 → exec (.tenantResetDrainEnd t) s = .next s ∧ exec (.tenantResetSquashDone t) s = .next s ∧
      exec (.tenantResetComplete t) s = .next s)

/-- R177 to R180, R329: a lock copies a block's active slots into its shadow, one of a block swapped just now once it is
released; a slot write and a DMA load reach the shadow of a locked block alone; clearing the lock, or a commit, exchanges the
two copies of the locked blocks; a lookup completes into its slot and is counted, or reports the uncorrectable slot it met.
Completes: triLockSet, triLockHoldRelease, triLockCopyDone, triNodeWrite, triLockClr, triCommit, triDmaGo, triDmaDone,
prefixLookupDone. -/
def Obligations.PrefixTableLocksCopyAndSwap : Prop :=
  ∀ s : State, Canonical s →
    (ComplexActs s →
      (∀ b, b < s.fuse.variant.triBlocks → ∃ t, exec (.triLockSet b false) s = .next t ∧ b ∈ t.tri.locks ∧
        (∀ n, n < 128 → triShadow t b n = triSlot s b n) ∧ t.tri.active = s.tri.active ∧
        (∀ c n, c ≠ b → n < 128 → triShadow t c n = triShadow s c n)) ∧
      (∀ b, b < s.fuse.variant.triBlocks → ∃ t, exec (.triLockSet b true) s = .next t ∧
        t.tri.hold = s.tri.hold ++ [b] ∧ t.tri.shadow = s.tri.shadow ∧ t.tri.locks = s.tri.locks) ∧
      (∀ b recent, s.fuse.variant.triBlocks ≤ b → exec (.triLockSet b recent) s = .next (accessErr s .tri)) ∧
      (∀ b n v, b < s.fuse.variant.triBlocks → n < 128 → b ∈ s.tri.locks →
        ∃ t, exec (.triNodeWrite b n v) s = .next t ∧ triShadow t b n = v ∧ t.tri.active = s.tri.active ∧ t.regs = s.regs ∧
          ∀ c m, m < 128 → ¬ (c = b ∧ m = n) → triShadow t c m = triShadow s c m) ∧
      (∀ b n v, b < s.fuse.variant.triBlocks → n < 128 → b ∉ s.tri.locks →
        exec (.triNodeWrite b n v) s = .next (accessErr s .tri)) ∧
      (∀ b, b ∈ s.tri.locks → ∃ t, exec (.triLockClr b) s = .next t ∧ b ∉ t.tri.locks ∧
        (∀ n, n < 128 → triSlot t b n = triShadow s b n ∧ triShadow t b n = triSlot s b n) ∧
        (∀ x ∈ t.tri.bad, x / 128 ≠ b) ∧
        ∀ c n, c ≠ b → n < 128 → triSlot t c n = triSlot s c n ∧ triShadow t c n = triShadow s c n) ∧
      (s.tri.locks.Nodup → ∃ t, exec .triCommit s = .next t ∧ t.tri.locks = [] ∧
        (∀ b n, b ∈ s.tri.locks → n < 128 → triSlot t b n = triShadow s b n ∧ triShadow t b n = triSlot s b n) ∧
        ∀ b n, b ∉ s.tri.locks → n < 128 → triSlot t b n = triSlot s b n ∧ triShadow t b n = triShadow s b n) ∧
      (∀ first count, s.flag .tri TRI_DMA_GO = false → exec (.triDmaGo first count) s = .next (((s.setFld .tri TRI_DMA_FIRST
        first.toNat).setFld .tri TRI_DMA_COUNT count.toNat).setFlag .tri TRI_DMA_GO true))) ∧
    (∀ b l, s.tri.hold = b :: l → ∃ t, exec .triLockHoldRelease s = .next t ∧ t.tri.hold = l ∧ b ∈ t.tri.locks ∧
      ∀ n, n < 128 → triShadow t b n = triSlot s b n) ∧
    exec .triLockCopyDone s = .next (s.setFlag .tri TRI_STATUS_COPYING false) ∧
    (let first := s.fld .tri TRI_DMA_FIRST
     let count := s.fld .tri TRI_DMA_COUNT
     let src := (s.fld .tri TRI_DMA_SRC_LO + s.fld .tri TRI_DMA_SRC_HI * 2 ^ 32) / 1024 * 1024
     s.flag .tri TRI_DMA_GO = true →
      ((∀ k, k < count → first + k ∈ s.tri.locks) → ∃ t, exec .triDmaDone s = .next t ∧ t.tri.active = s.tri.active ∧
        t.tri.locks = s.tri.locks ∧ t.flag .tri TRI_DMA_GO = false ∧
        ∀ k n, k < count → n < 128 → triShadow t (first + k) n =
          BitVec.ofNat 64 (beNat (memRead s.hbm (src + 1024 * k + 8 * n) 8))) ∧
      (count ≠ 0 → first ∉ s.tri.locks →
        exec .triDmaDone s = .next ((setIrq (accessErr s .tri) .tri 17).setFlag .tri TRI_DMA_GO false))) ∧
    (s.flag .tri TRI_DMA_GO = false → exec .triDmaDone s = .next s) ∧
    (s.lookups = [] → exec .prefixLookupDone s = .next s) ∧
    (∀ x l, s.lookups = x :: l → Unarmed s .tri →
      let t := { s with lookups := l }
      (∀ slot, x.fault = some slot → exec .prefixLookupDone s = .next (complete (triFault t slot) x.core x.slot x.word)) ∧
      (x.fault = none → x.counted = true →
        exec .prefixLookupDone s = .next (complete (triCount t x.miss x.bad) x.core x.slot x.word)) ∧
      (x.fault = none → x.counted = false → exec .prefixLookupDone s = .next (complete t x.core x.slot x.word)))

/-- R437 to R446, R449 to R451: records are written in order, lost ones first; freezing, its limit, a clear, the device
time, posted codes, and the counters, whose registers only a privileged master reaches.
Completes: eventRecordWrite, evrFreeze, evrFreezeTimeout, evrTimeSet, evrPost, evrClear, pmcFreeze, pmcZero, pmcHistClr,
pmcCounterWrap, pmcCounterUncorrectable. -/
def Obligations.RecorderAndCountersFollowTheirControls : Prop :=
  ∀ s : State,
    (running s .evr = true → s.flag .evr EVR_CTRL_FREEZE = false → Unarmed s .evr →
      (s.evr.lostSince ≠ 0 → exec .eventRecordWrite s = .next (writeEvent { s with evr := { s.evr with lostSince := 0 } }
        (evrRecord s 0x0003 s.evr.lostSince 0 0 0))) ∧
      (∀ e q, s.evr.lostSince = 0 → s.evr.queue = e :: q →
        exec .eventRecordWrite s = .next (writeEvent { s with evr := { s.evr with queue := q } } e)) ∧
      (s.evr.lostSince = 0 → s.evr.queue = [] → exec .eventRecordWrite s = .next s)) ∧
    (s.flag .evr EVR_CTRL_FREEZE = false →
      (ComplexActs s → exec (.evrFreeze true) s = .next { s.setFlag .evr EVR_CTRL_FREEZE true with
        evr := { s.evr with frozenAt := s.time.ns, missedSince := 0 } } ∧ exec (.evrFreeze false) s = .next s) ∧
      exec .evrFreezeTimeout s = .next s) ∧
    (s.flag .evr EVR_CTRL_FREEZE = true →
      (ComplexActs s → exec (.evrFreeze false) s = .next (unfreeze s) ∧ exec (.evrFreeze true) s = .next s) ∧
      exec .evrFreezeTimeout s = .next (setIrq (unfreeze (advance s
        ((s.evr.frozenAt + 1000000 * s.fld .evr EVR_FREEZE_MAX - s.time.ns + 999) / 1000))) .evr 16)) ∧
    (ComplexActs s → ∃ t, exec .evrTimeSet s = .next t ∧
      t.time.ns = s.fld .evr EVR_TIME_SET_LO + s.fld .evr EVR_TIME_SET_HI * 2 ^ 32 ∧ t.time.tick = s.time.tick) ∧
    (ComplexActs s → ∀ code, exec (.evrPost code) s = .next (postEvent s .evr (0xF000 + code.toNat) (s.reg .evr 0x074)
      (s.reg .evr 0x078) (s.reg .evr 0x07C) (s.reg .evr 0x080))) ∧
    (∀ core i, hostItem s core 0x0F05 = some i → s.devLocked = false →
      (i.tenant ≠ 0 → exec (.evrClear core) s = .next (answerStatus s i stNOT_AUTHORISED)) ∧
      (i.tenant = 0 → i.fixed = false → i.payload = [] → i.ctxId = 0 →
        (s.flag .evr EVR_CTRL_FREEZE = true → exec (.evrClear core) s = .next (answerStatus s i stBUSY)) ∧
        (s.flag .evr EVR_CTRL_FREEZE = false → exec (.evrClear core) s =
          .next (answerCommit (clearEvents s i).2 i (beBytes 4 s.evr.next) [])))) ∧
    (∀ r, live s (.pmc r) = true →
      (∀ x, Reaches s x .write (pageBase (.pmc r) + PMC_CTRL_FREEZE.off) 4 → masterPriv x = true →
        pageOfAddr (pageBase (.pmc r) + PMC_CTRL_FREEZE.off) = some (.pmc r) →
        (∀ on, exec (.pmcFreeze x r on) s = .next (s.setFlag (.pmc r) PMC_CTRL_FREEZE on)) ∧
        exec (.pmcZero x r) s = .next (zeroWords (zeroWords ((((List.range 16).foldl (fun u c => zeroCounter u r c) s).setFld
          (.pmc r) PMC_OVF 0).setFld (.pmc r) PMC_TAG_HEAD 0) (.pmc r) 0x400 512) (.pmc r) 0xC00 256)) ∧
      (∀ x, Reaches s x .write (pageBase (.pmc r) + PMC_HIST_CLR.off) 4 → masterPriv x = true →
        pageOfAddr (pageBase (.pmc r) + PMC_HIST_CLR.off) = some (.pmc r) →
        ∀ groups, exec (.pmcHistClr x r groups) s = .next ((List.range 16).foldl (fun u g =>
          if groups.toNat.testBit g then zeroWords u (.pmc r) (0x400 + 128 * g) 32 else u) s)) ∧
      (∀ x, masterRuns s x = true → masterPriv x = false →
        (∀ on, exec (.pmcFreeze x r on) s = .next (accessErr s (.pmc r))) ∧
        exec (.pmcZero x r) s = .next (accessErr s (.pmc r)) ∧
        ∀ groups, exec (.pmcHistClr x r groups) s = .next (accessErr s (.pmc r))) ∧
      (∀ c, c < 16 → s.flag (.pmc r) (PMC_SEL_EN c) = true → s.flag (.pmc r) PMC_CTRL_FREEZE = false →
        running s (.pmc r) = true → exec (.pmcCounterWrap r c) s = .next (pmcAdd s r c (2 ^ 48 - pmcCount s r c))) ∧
      (∀ c, c < 16 → exec (.pmcCounterUncorrectable r c) s = .next ((zeroCounter (raiseErr (s.bumpSat (.pmc r) HEALTH_UNCORR)
        (.pmc r) 9 0xE8) r c).setFlag (.pmc r) ⟨0x044, c, 1⟩ true)))

/-! ## Host commands -/

/-- A host command: its core is still open. -/
abbrev Sys2Proof.Claims.OnCore := Nat → Instr

/-- The verified item that core `k` runs carries the command, and the device serves it (R89, R95). -/
def Sys2Proof.Claims.Served (s : State) (k code : Nat) (i : Item) : Prop :=
  hostItem s k code = some i ∧ (s.devLocked = false ∨ servedLocked code = true)

/-- The command `code` is the checks and the execution `m` of its item: a status refuses it, and an answer ends it with a
status and a payload (R103, R105, R106). -/
def Sys2Proof.Claims.Answers (ins : OnCore) (code : Nat) (m : Item → Cmd Answer) : Prop :=
  ∀ s k i, Served s k code i →
    (∀ st p t, (m i).run s = (.ok (st, p), t) → exec (ins k) s = .next (endItem t i st p)) ∧
    (∀ st t, (m i).run s = (.error st, t) → exec (ins k) s = .next (endItem t i st))

/-- As `Answers`, for a state-changing command: its duplicate-tag entry takes OK and its result word (R106, R107). -/
def Sys2Proof.Claims.Commits (ins : OnCore) (code : Nat) (m : Item → Cmd (Bytes × Bytes)) : Prop :=
  ∀ s k i, Served s k code i →
    (∀ w p t, (m i).run s = (.ok (w, p), t) → exec (ins k) s = .next (endItem (dupCommit t i stOK (fitR 8 w)) i stOK p)) ∧
    (∀ st t, (m i).run s = (.error st, t) → exec (ins k) s = .next (endItem t i st))

/-! ### When a host command completes

Conditions on the item and the state that R89 to R116 and the command's own rules name, and the answer that follows.  -/

/-- The payload passes steps 2 and 3 of R116: shape, Context field, what must be present, lengths and values (R100, R115). -/
def Sys2Proof.Claims.Fits (s : State) (i : Item) (defs : List ElemDef) (layout : List FixField) (present : List Elem → Bool)
    (l : List Elem) : Prop :=
  payElems s i defs layout = .ok l ∧ present l = true ∧ elemLens defs l = none ∧ payValues s l = none

/-- An element names a key of the item's tenant that resolves, with the attributes asked for; the resolution is counted
(R112, R114, R190, R216). -/
def Sys2Proof.Claims.Serves (s : State) (i : Item) (l : List Elem) (e : Nat) (usages : List Nat) (algs modes : List Char)
    (k : KeyVal) (u : State) : Prop :=
  handleTenant (handleOf l e) = i.tenant ∧ resolveKey s (handleOf l e) = (.ok k, u) ∧ keyFits k usages algs modes = true

/-- `n` random bytes `r` come from the boom of the item's region, where any are asked for (R116, R297). -/
def Sys2Proof.Claims.Draws (s : State) (i : Item) (n : Nat) (r : Bytes) (t : State) : Prop :=
  if n = 0 then r = [] ∧ t = s else boomBytes s i.region n (some i.tenant) = (some r, t)

/-- An element names a valid context of the item's tenant and of a type (R116, R351). -/
def Sys2Proof.Claims.NamesCtx (s : State) (i : Item) (l : List Elem) (e typ : Nat) (c : Ctx) : Prop :=
  ctxNamed s (handleOf l e) = some c ∧ c.tenant = i.tenant ∧ c.typ = typ

/-- A counter context gives the value `v` (R121). -/
def Sys2Proof.Claims.Gives (s : State) (l : List Elem) (v : Nat) (t : State) : Prop :=
  ctxDraw s (ctxRegion (handleOf l eCTX)) (ctxIndex (handleOf l eCTX)) = (.ok v, t)

/-- The payload of an OK answer. -/
def Sys2Proof.Claims.payloadOf (l : List Elem) : Bytes := (okElems l).2

/-- An answer in the form of the request (R157). -/
def Sys2Proof.Claims.inForm (s : State) (i : Item) (l : List Elem) (field : Bytes) : Bytes :=
  if i.fixed then untranslate (pageFor s i) field else payloadOf l

/-- A PIN comes out of a block of the format FMT_IN of the item under the key that KEY_A names (R123, R124). -/
def Sys2Proof.Claims.PinComes (s : State) (i : Item) (l : List Elem) (pin : List Nat) (u : State) : Prop :=
  ∃ a, Serves s i l eKEY_A [usage 'P' '0'] (fmtAlg (elemNat l eFMT_IN)) ['B', 'D'] a u ∧
    (elemD l ePIN_BLOCK).length = pinBlockLen (elemNat l eFMT_IN) ∧
    openPin (elemNat l eFMT_IN) a.bits (elemD l ePIN_BLOCK) (panOf l) = some pin

/-- R125 to R130, R155, R156: the PIN and card code commands. -/
def Sys2Proof.Claims.PinCommandsComplete : Prop :=
  ∀ (s : State) (k : Nat) (i : Item) (l : List Elem),
    (∀ pin b r u v t, Served s k 0x0101 i →
      Fits s i [req eKEY_A, req eKEY_B, req eFMT_IN, req eFMT_OUT, req ePIN_BLOCK, opt ePAN]
        [fixKey eKEY_A, fixKey eKEY_B, fixN eFMT_IN 2, fixN eFMT_OUT 2, fixPan, fixPinBlock]
        (fun l => panPresent [elemNat l eFMT_IN, elemNat l eFMT_OUT] l) l →
      PinComes s i l pin u → (elemNat l eFMT_OUT = 1 → elemNat l eFMT_IN = 1) →
      Serves u i l eKEY_B [usage 'P' '0'] (fmtAlg (elemNat l eFMT_OUT)) ['B', 'E'] b v →
      (elemNat l eFMT_IN = 4 → elemNat l eFMT_OUT = 4 ∨ (v.tenant i.tenant).pinDowngrade = true) →
      Draws v i (if elemNat l eFMT_OUT = 0 then 0 else 8) r t →
      let out := sealPin (elemNat l eFMT_OUT) b.bits pin (panOf l) r
      exec (.pinTranslate k) s = .next (endItem t i stOK
        (inForm t i [(ePIN_BLOCK, out)] (fitR 32 (hexBytes out ++ List.replicate 16 0x30))))) ∧
    (let defs := [req eKEY_A, req eKEY_B, req eFMT_IN, req ePIN_BLOCK, opt ePAN, req eDECTAB, req eVAL_DATA, req eCHECK_LEN]
     let n := elemNat l eCHECK_LEN
     let natural := fun (b : KeyVal) => naturalPin b.bits (elemD l eVAL_DATA) (digitsOf (elemD l eDECTAB)) n
     (∀ pin b u v, Served s k 0x0102 i →
       Fits s i (defs ++ [req eOFFSET]) [fixKey eKEY_A, fixKey eKEY_B, fixN eFMT_IN 2, fixPan, fixPinBlock, fixN eDECTAB 16,
         { elem := eVAL_DATA, ty := .h, width := 16 }, fixN eCHECK_LEN 2, { elem := eOFFSET, ty := .c, width := 12 }]
         (fun l => panPresent [elemNat l eFMT_IN] l) l →
       PinComes s i l pin u → (elemD l eOFFSET).length = n → dectabOk (digitsOf (elemD l eDECTAB)) = true →
       Serves u i l eKEY_B [usage 'V' '1'] ['T'] ['C', 'V'] b v →
       exec (.pinVerifyOffset k) s = .next (endItem v i (if n ≤ pin.length ∧ pin.take n =
         List.zipWith (fun a b => (a + b) % 10) (natural b) (digitsOf (elemD l eOFFSET)) then stOK else stPIN_FAIL) [])) ∧
     (∀ pin b u v, Served s k 0x0104 i → Fits s i defs [] (fun l => panPresent [elemNat l eFMT_IN] l) l →
       PinComes s i l pin u → n ≤ pin.length → dectabOk (digitsOf (elemD l eDECTAB)) = true →
       Serves u i l eKEY_B [usage 'V' '1'] ['T'] ['C', 'G'] b v →
       exec (.pinGenOffset k) s = .next (endItem v.takeFresh i stOK (payloadOf [(eOFFSET,
         digitBytes (List.zipWith (fun c m => (c + 10 - m) % 10) (pin.take n) (natural b)))])))) ∧
    (let defs := [req eKEY_A, req eKEY_B, req eFMT_IN, req ePIN_BLOCK, req ePAN, req ePVKI]
     let value := fun b pin n => verificationValue b (beNat (elemD l ePVKI) - 0x30) pin (panOf l) n
     (∀ pin b u v, Served s k 0x0103 i →
       Fits s i (defs ++ [req eVV]) [fixKey eKEY_A, fixKey eKEY_B, fixN eFMT_IN 2, fixPan, fixPinBlock, fixN ePVKI 1,
         { elem := eVV, ty := .c, width := 6 }] anyElems l →
       PinComes s i l pin u → hasElem l eCHECK_LEN = false → Serves u i l eKEY_B [usage 'V' '0'] ['T', 'A'] ['C', 'V'] b v →
       exec (.pinVerifyPvv k) s = .next (endItem v i
         (if value b pin (elemD l eVV).length = digitsOf (elemD l eVV) then stOK else stPIN_FAIL) [])) ∧
     (∀ pin b u v, Served s k 0x0105 i → Fits s i (defs ++ [opt eCHECK_LEN]) [] anyElems l → PinComes s i l pin u →
       (hasElem l eCHECK_LEN = true → elemNat l eCHECK_LEN ≤ 6) → Serves u i l eKEY_B [usage 'V' '0'] ['T', 'A'] ['C', 'G'] b v →
       exec (.pinGenPvv k) s = .next (endItem v i stOK (payloadOf [(eVV,
         digitBytes (value b pin (if hasElem l eCHECK_LEN then elemNat l eCHECK_LEN else 4)))])))) ∧
    (∀ b v, Served s k 0x0701 i → Fits s i [req eKEY_A, req ePAN, req eEXPIRY, req eSVC, req eCSC_LEN]
        [fixKey eKEY_A, fixPan, fixN eEXPIRY 4, fixN eSVC 3, fixN eCSC_LEN 1] anyElems l →
      Serves s i l eKEY_A [usage 'C' '0'] ['T', 'A'] ['C', 'G'] b v →
      let c := digitBytes (itemCode l b (elemNat l eCSC_LEN))
      exec (.cscGenerate k) s = .next (endItem v i stOK (inForm v i [(eCSC, c)] (c ++ List.replicate (4 - c.length) 0x20)))) ∧
    (∀ b v, Served s k 0x0702 i → Fits s i [req eKEY_A, req ePAN, req eEXPIRY, req eSVC, req eCSC]
        [fixKey eKEY_A, fixPan, fixN eEXPIRY 4, fixN eSVC 3, { elem := eCSC, ty := .c, width := 4 }] anyElems l →
      Serves s i l eKEY_A [usage 'C' '0'] ['T', 'A'] ['C', 'V'] b v →
      exec (.cscVerify k) s = .next (endItem v i
        (if itemCode l b (elemD l eCSC).length = digitsOf (elemD l eCSC) then stOK else stVERIFY_FAIL) []))

/-- R131, R134: the key of a MAC command and what it computes over DATA or the selected fields. -/
def Sys2Proof.Claims.MacChecked (s : State) (i : Item) (l : List Elem) (verify : Bool) (m : Bytes) (v : State) : Prop :=
  let alg := elemNat l eMAC_ALG
  let n := elemNat l eMAC_LEN
  ∃ x k, Fits s i ([req eKEY_A, req eMAC_ALG, opt eMAC_PAD, req eMAC_LEN, opt eDATA, opt eMSG, opt eMACSEL, opt eFIELDFMT] ++
      (if verify then [req eMAC] else [])) [] macPresent l ∧
    macInput l = .ok x ∧ x ≠ [] ∧ (alg = 6 → hasElem l eMAC_PAD = false) ∧ 4 ≤ n ∧ n ≤ (if alg = 6 then 16 else 8) ∧
    (verify = true → (elemD l eMAC).length = n) ∧
    Serves s i l eKEY_A [if alg = 1 then usage 'M' '1' else if alg = 3 then usage 'M' '3' else usage 'M' '6']
      (if alg = 6 then ['A'] else ['T']) (if verify then ['C', 'V'] else ['C', 'G']) k v ∧
    m = (macBlock alg (elemNat l eMAC_PAD) k.bits x).take n

/-- R135, R136: the session key of an issuer's EMV command. -/
def Sys2Proof.Claims.EmvChecked (s : State) (i : Item) (l : List Elem) (defs : List ElemDef) (arpc aes : Bool) (sk : Bytes)
    (v : State) : Prop :=
  ∃ k, Fits s i ([req eKEY_A, req ePAN, req ePSN, req eATC, req eARQC, opt eMK_METHOD] ++ defs ++
      (if arpc then [req eARPC_METHOD, opt eARC, opt eCSU, opt ePROP_DATA] else [])) []
      (if arpc then arpcPresent else anyElems) l ∧
    Serves s i l eKEY_A [usage 'E' '0'] ['T', 'A'] ['X'] k v ∧ k.bound = 0 ∧ aes = decide (k.alg = chr 'A') ∧
    (arpc = true → aes = true → elemNat l eARPC_METHOD ≠ 1) ∧ (aes = true → hasElem l eMK_METHOD = false) ∧
    sk = emvSession aes (iccKey k (digitsOf (elemD l ePAN)) ((elemD l ePSN).getD 0 0) (elemNat l eMK_METHOD)) (elemD l eATC)

/-- R131 to R139: the MAC and EMV commands. -/
def Sys2Proof.Claims.MacCommandsComplete : Prop :=
  ∀ (s : State) (k : Nat) (i : Item) (l : List Elem),
    (∀ m v, Served s k 0x0201 i → MacChecked s i l false m v →
      exec (.macGenerate k) s = .next (endItem v i stOK (payloadOf [(eMAC, m)]))) ∧
    (∀ m v, Served s k 0x0202 i → MacChecked s i l true m v →
      exec (.macVerify k) s = .next (endItem v i (if m = elemD l eMAC then stOK else stVERIFY_FAIL) [])) ∧
    (∀ aes sk v, Served s k 0x0301 i → EmvChecked s i l [req eTXN_DATA] false aes sk v →
      exec (.arqcVerify k) s = .next (endItem v i
        (if (emvMac aes sk (elemD l eTXN_DATA)).take 8 = elemD l eARQC then stOK else stCRYPTOGRAM_FAIL) [])) ∧
    (∀ aes sk v, Served s k 0x0302 i → EmvChecked s i l [req eTXN_DATA] true aes sk v →
      ((emvMac aes sk (elemD l eTXN_DATA)).take 8 = elemD l eARQC →
        exec (.arqcVerifyArpc k) s = .next (endItem v i stOK (payloadOf [(eARPC, arpcOf aes sk l)]))) ∧
      ((emvMac aes sk (elemD l eTXN_DATA)).take 8 ≠ elemD l eARQC →
        exec (.arqcVerifyArpc k) s = .next (endItem v i stCRYPTOGRAM_FAIL))) ∧
    (∀ aes sk v, Served s k 0x0303 i → EmvChecked s i l [] true aes sk v →
      exec (.arpcGenerate k) s = .next (endItem v i stOK (payloadOf [(eARPC, arpcOf aes sk l)]))) ∧
    (∀ c b u v t, Served s k 0x0304 i → Fits s i [req eCTX, req eTXN_DATA] [] anyElems l → NamesCtx s i l eCTX 4 c →
      resolveKey s c.bound = (.ok b, u) → keyFits b [usage 'E' '0'] ['T', 'A'] ['X'] = true → b.bound = handleOf l eCTX →
      Gives u l v t →
      let aes := decide (b.alg = chr 'A')
      exec (.arqcGenerate k) s = .next (endItem t i stOK (payloadOf [(eATC, beBytes 2 v),
        (eARQC, (emvMac aes (emvSession aes b.bits (beBytes 2 v)) (elemD l eTXN_DATA ++ beBytes 2 v)).take 8)])))

/-- R140 to R142: the elements and the base key of a receiving DUKPT command. -/
def Sys2Proof.Claims.DukptChecked (s : State) (i : Item) (l : List Elem) (defs : List ElemDef) (b : KeyVal) (u : State) : Prop :=
  Fits s i ([req eKEY_A, req eKSN, opt eDK_ALG] ++ defs) [] dkAlgPresent l ∧ ksnOk (elemD l eKSN) = true ∧
    Serves s i l eKEY_A [usage 'B' '0'] ['T', 'A'] ['X'] b u ∧ (b.alg = chr 'A' ∨ b.bits.length = 16) ∧
    (elemD l eKSN).length = (if b.alg = chr 'A' then 12 else 10)

/-- R141 to R145: the DUKPT commands. -/
def Sys2Proof.Claims.DukptCommandsComplete : Prop :=
  ∀ (s : State) (k : Nat) (i : Item) (l : List Elem) (b : KeyVal) (u : State),
    (∀ o r v t pin, Served s k 0x0401 i → DukptChecked s i l [req eKEY_B, req eFMT_IN, req eFMT_OUT, req ePIN_BLOCK, req ePAN] b u →
      let fin := elemNat l eFMT_IN
      let fout := elemNat l eFMT_OUT
      (elemD l ePIN_BLOCK).length = pinBlockLen fin → (fout = 1 → fin = 1) →
      (if (elemD l eKSN).length = 12 then fin = 4 ∧ requestAes l = true else fin = 0 ∨ fin = 3) →
      Serves u i l eKEY_B [usage 'P' '0'] (fmtAlg fout) ['B', 'E'] o v →
      (fin = 4 → fout = 4 ∨ (v.tenant i.tenant).pinDowngrade = true) → Draws v i (if fout = 0 then 0 else 8) r t →
      openPin fin (requestKey l b 1) (elemD l ePIN_BLOCK) (panOf l) = some pin →
      exec (.dukptPinTranslate k) s =
        .next (endItem t i stOK (payloadOf [(ePIN_BLOCK, sealPin fout o.bits pin (panOf l) r)]))) ∧
    (Served s k 0x0402 i → DukptChecked s i l [req eDATA, req eMAC, req eMAC_LEN] b u →
      let n := elemNat l eMAC_LEN
      4 ≤ n → n ≤ (if requestAes l then 16 else 8) → (elemD l eMAC).length = n →
      exec (.dukptMacVerify k) s = .next (endItem u i
        (if (wkMac (requestAes l) (requestKey l b 2) (elemD l eDATA)).take n = elemD l eMAC then stOK else stVERIFY_FAIL) [])) ∧
    (Served s k 0x0403 i → DukptChecked s i l [req eDATA, req eIV] b u → blocksOk (requestAes l) l = true →
      exec (.dukptDecrypt k) s = .next (endItem u i stOK
        (payloadOf [(eDATA, wkDec (requestAes l) (requestKey l b 3) (elemD l eIV) (elemD l eDATA))]))) ∧
    (∀ c v t, Served s k 0x0404 i →
      Fits s i [req eCTX, req eDK_USE, opt eDK_ALG, opt ePIN_BLOCK, opt eKEY_A, opt eFMT_IN, opt ePAN, opt eDATA, opt eMAC_LEN, opt eIV]
        [] (txnPresent s i.tenant) l →
      let use := elemNat l eDK_USE
      let aes := hasElem l eDK_ALG && decide (2 ≤ elemNat l eDK_ALG)
      NamesCtx s i l eCTX 5 c → keyFits b [usage 'B' '1'] ['T', 'A'] ['X'] = true → b.bound = handleOf l eCTX →
      (hasElem l eKEY_A = true → handleTenant (handleOf l eKEY_A) = i.tenant) →
      (use = 2 → resolveKey s c.bound = (.ok b, u) → 4 ≤ txnMacLen aes l → txnMacLen aes l ≤ (if aes then 16 else 8) →
        Gives u l v t →
        ∀ out, txnResult c l b.bits none [] v = some out →
          exec (.dukptTxnKey k) s = .next (endItem t i stOK (payloadOf out))) ∧
      (use = 3 → resolveKey s c.bound = (.ok b, u) → txnBlocks aes l = true → Gives u l v t →
        ∀ out, txnResult c l b.bits none [] v = some out →
        exec (.dukptTxnKey k) s = .next (endItem t i stOK (payloadOf out))) ∧
      (∀ a r w x out, use = 1 → (elemD l ePIN_BLOCK).length = pinBlockLen (elemNat l eFMT_IN) →
        (hasElem l eDK_ALG = true → aes = true) →
        Serves s i l eKEY_A [usage 'P' '0'] (fmtAlg (elemNat l eFMT_IN)) ['B', 'D'] a w →
        resolveKey w c.bound = (.ok b, u) → (elemNat l eFMT_IN = 4 → aes = true ∨ (u.tenant i.tenant).pinDowngrade = true) →
        Draws u i (if aes then 8 else 0) r x → Gives x l v t → txnResult c l b.bits (some a) r v = some out →
        exec (.dukptTxnKey k) s = .next (endItem t i stOK (payloadOf out))))

/-- R151 to R154: the token and data protection commands. -/
def Sys2Proof.Claims.TokenCommandsComplete : Prop :=
  ∀ (s : State) (k : Nat) (i : Item) (l : List Elem) (b : KeyVal) (u : State),
    (Served s k 0x0601 i → Fits s i [req eKEY_A, req ePAN, req eKEEP, opt eTWEAK] [] anyElems l → keepOk l ePAN = true →
      Serves s i l eKEY_A [usage 'D' '0'] ['A'] modesOut b u → exec (.tokenise k) s =
        .next (endItem u i stOK (payloadOf [(eTOKEN, onMiddle l ePAN (ff1Enc b.bits (elemD l eTWEAK)))]))) ∧
    (Served s k 0x0602 i → Fits s i [req eKEY_A, req eTOKEN, req eKEEP, opt eTWEAK] [] anyElems l → keepOk l eTOKEN = true →
      Serves s i l eKEY_A [usage 'D' '0'] ['A'] modesIn b u → exec (.detokenise k) s =
        .next (endItem u i stOK (payloadOf [(ePAN, onMiddle l eTOKEN (ff1Dec b.bits (elemD l eTWEAK)))]))) ∧
    (∀ c v t, Served s k 0x0603 i →
      Fits s i [req eKEY_A, req eCTX, req ePAN, req eKEEP, may eTWEAK fun n => decide (n ≤ 8)] [] anyElems l →
      keepOk l ePAN = true → NamesCtx s i l eCTX 6 c → Serves s i l eKEY_A [usage 'D' '0'] ['A'] modesOut b u → Gives u l v t →
      let tweak := elemD l eTWEAK ++ beBytes 8 v
      exec (.tokeniseCounted k) s = .next (endItem t i stOK (payloadOf [(eTOKEN, onMiddle l ePAN (ff1Enc b.bits tweak)),
        (eCOUNTER, beBytes 8 v), (eTWEAK, tweak)]))) ∧
    (∀ c v t, Served s k 0x0604 i → Fits s i [req eKEY_A, req eCTX, req eCIPHER_MODE, req eDATA, opt eAAD] []
        (fun l => isGcm l || ! hasElem l eAAD) l → (isGcm l = false → (elemD l eDATA).length % 16 = 0) →
      NamesCtx s i l eCTX 7 c → Serves s i l eKEY_A [usage 'D' '0'] ['A'] modesOut b u → c.bound = handleOf l eKEY_A → Gives u l v t →
      let n := dataNonce (handleOf l eCTX) v
      let e := aesEncK (aesKeys b.bits)
      let r := gcmSeal e n (elemD l eAAD) (elemD l eDATA)
      (isGcm l = true → exec (.dataEncrypt k) s =
        .next (endItem t i stOK (payloadOf [(eDATA, r.1), (eNONCE, n), (eTAG, r.2)]))) ∧
      (isGcm l = false → exec (.dataEncrypt k) s = .next (endItem t i stOK
        (payloadOf [(eDATA, cbcEnc e 16 (dataIv b.bits n) (elemD l eDATA)), (eNONCE, n)])))) ∧
    (Served s k 0x0605 i → Fits s i [req eKEY_A, req eCIPHER_MODE, req eNONCE, req eDATA, opt eTAG, opt eAAD] []
        (fun l => hasElem l eTAG == isGcm l && (isGcm l || ! hasElem l eAAD)) l →
      (isGcm l = false → (elemD l eDATA).length % 16 = 0) → Serves s i l eKEY_A [usage 'D' '0'] ['A'] modesIn b u →
      let e := aesEncK (aesKeys b.bits)
      let opened := gcmOpen e (elemD l eNONCE) (elemD l eAAD) (elemD l eDATA) (elemD l eTAG)
      (∀ m, isGcm l = true → opened = some m → exec (.dataDecrypt k) s = .next (endItem u i stOK (payloadOf [(eDATA, m)]))) ∧
      (isGcm l = true → opened = none → exec (.dataDecrypt k) s = .next (endItem u i stVERIFY_FAIL)) ∧
      (isGcm l = false → exec (.dataDecrypt k) s = .next (endItem u i stOK (payloadOf
        [(eDATA, cbcDec (aesDecK (aesKeys b.bits)) 16 (dataIv b.bits (elemD l eNONCE)) (elemD l eDATA))]))))

/-- R147: a key may leave in a block under a K1 key. -/
def Sys2Proof.Claims.MayLeave (k1 : KeyVal) (x : BlockKey) : Prop :=
  byteAt x.attr 4 = chr 'E' ∧ stronger (byteAt x.attr 2) (byteAt x.attr 3) x.bits.length k1 = false ∧
    (sealBlock k1 x (zeros (blockFill k1 x.bits.length))).length ≤ 2048

/-- R147 to R149: the key commands that change nothing. -/
def Sys2Proof.Claims.KeyReadsComplete : Prop :=
  ∀ (s : State) (k : Nat) (i : Item) (l : List Elem) (r : Bytes) (u v t : State),
    (∀ x k1, Served s k 0x0502 i → Fits s i [req eHANDLE, req eKEY_B] [] anyElems l →
      handleTenant (handleOf l eHANDLE) = i.tenant → resolveKey s (handleOf l eHANDLE) = (.ok x, u) →
      Serves u i l eKEY_B [usage 'K' '1'] ['T', 'A'] modesOut k1 v →
      let y : BlockKey := { attr := x.attr, bits := x.bits, opt := keyOpts x }
      MayLeave k1 y → Draws v i (blockFill k1 x.bits.length) r t →
      exec (.keyExport k) s = .next (endItem t i stOK (payloadOf [(eKEYBLOCK, sealBlock k1 y r)]))) ∧
    (∀ x, Served s k 0x0504 i → Fits s i [req eHANDLE, opt eKCV_LEN] [] anyElems l →
      handleTenant (handleOf l eHANDLE) = i.tenant → resolveKey s (handleOf l eHANDLE) = (.ok x, u) →
      x.alg = chr 'T' ∨ x.alg = chr 'A' → lengthFits x = true → (elemNat l eKCV_LEN = 5 → x.alg = chr 'A') →
      exec (.keyCheckValue k) s = .next (endItem u i stOK
        (payloadOf [(eKCV, keyCheck x.alg x.bits (if hasElem l eKCV_LEN then elemNat l eKCV_LEN else 5))]))) ∧
    (∀ a b x, Served s k 0x0506 i → Fits s i [req eKEY_A, req eKEYBLOCK, req eKEY_B] [] anyElems l →
      Serves s i l eKEY_A [usage 'K' '1'] ['T', 'A'] modesIn a u →
      Serves u i l eKEY_B [usage 'K' '1'] ['T', 'A'] modesOut b v → boomServes v i.region 1 = true →
      openBlock a (elemD l eKEYBLOCK) = .ok x →
      let y : BlockKey := { x with opt := x.opt.drop (keyExtra (byteAt x.attr 2) (byteAt x.attr 3) x.bits).length }
      MayLeave b y → Draws v i (blockFill b x.bits.length) r t →
      exec (.keyTranslate k) s = .next (endItem t i stOK (payloadOf [(eKEYBLOCK, sealBlock b y r)])))

/-- The state after a state-changing command is answered OK: its window entry takes the result word `w` (R106, R107). -/
def Sys2Proof.Claims.committed (t : State) (i : Item) (w p : Bytes) : State := endItem (dupCommit t i stOK (fitR 8 w)) i stOK p

/-- The context that BIND_CTX asks for may be created, and there is room for a key of `len` bytes (R120, R150). -/
def Sys2Proof.Claims.HasRoom (s : State) (i : Item) (l : List Elem) (init : Bool) (len : Nat) : Prop :=
  (hasElem l eBIND_CTX = true → ctxCreateStatus s (handleOf l eBIND_CTX) i.tenant (bindTypes init) = none) ∧
    placeStatus s (elemNat l eKEY_CLASS) i.tenant len = none

/-- A key takes its place under the tenant's active TMK as `h`, and its context is made with it (R120, R194). -/
def Sys2Proof.Claims.Placed (u : State) (i : Item) (l : List Elem) (x : BlockKey) (body : Bytes) (h : Word) (v : State) : Prop :=
  (activeTmk u i.tenant).isSome = true ∧ placeStatus u (elemNat l eKEY_CLASS) i.tenant x.bits.length = none ∧
    ∃ w, placeKey u (elemNat l eKEY_CLASS) i.tenant x.attr x.bits x.opt
        (if hasElem l eBIND_CTX then handleOf l eBIND_CTX else 0) = some (h, w) ∧
      v = if hasElem l eBIND_CTX then ctxMake w (handleOf l eBIND_CTX) i.tenant body h else w

/-- The check value of a key that a block brought: of one that is neither TDES nor AES a free value (R149, log 23). -/
def Sys2Proof.Claims.Kcv (v : State) (x : BlockKey) (kcv : Bytes) (t : State) : Prop :=
  if byteAt x.attr 2 = chr 'T' ∨ byteAt x.attr 2 = chr 'A' then kcv = keyCheck (byteAt x.attr 2) x.bits 5 ∧ t = v
  else kcv = beBytes 3 (Config.hmacKcv v.fresh).toNat ∧ t = v.takeFresh

/-- R141, R148, R150: the key commands that commit. -/
def Sys2Proof.Claims.KeyChangesComplete : Prop :=
  ∀ (s : State) (k : Nat) (i : Item) (l : List Elem) (h : Word) (kcv : Bytes) (u v t : State),
    (∀ k1 x, Served s k 0x0501 i →
      Fits s i [req eKEY_A, req eKEYBLOCK, opt eKEY_CLASS, opt eBIND_CTX, opt ePAN, opt ePSN] [] bindPresent l →
      HasRoom s i l false 1 → (activeTmk s i.tenant).isSome = true →
      Serves s i l eKEY_A [usage 'K' '1'] ['T', 'A'] modesIn k1 u → openBlock k1 (elemD l eKEYBLOCK) = .ok x →
      Placed u i l x (counterBody l) h v → Kcv v x kcv t →
      exec (.keyImport k) s = .next (committed t i (keyResult h kcv) (handleElem h ++ elemBytes eKCV kcv))) ∧
    (∀ k1 x, Served s k 0x0405 i → Fits s i [req eKEY_A, req eKEYBLOCK, req eKSN, req eBIND_CTX, opt eKEY_CLASS] [] anyElems l →
      ksnOk (elemD l eKSN) = true → HasRoom s i l true 1 → (activeTmk s i.tenant).isSome = true →
      Serves s i l eKEY_A [usage 'K' '1'] ['T', 'A'] modesIn k1 u → openBlock k1 (elemD l eKEYBLOCK) = .ok x →
      field x.attr 0 2 = usage 'B' '1' → (byteAt x.attr 2 = chr 'T' → x.bits.length = 16) →
      (elemD l eKSN).length = (if byteAt x.attr 2 = chr 'T' then 10 else 12) →
      Placed u i l x (beBytes 8 (ksnCounter (elemD l eKSN)) ++ [if byteAt x.attr 2 = chr 'T' then 1 else 2] ++ elemD l eKSN) h v →
      Kcv v x kcv t →
      exec (.dukptInit k) s = .next (committed t i (keyResult h kcv) (handleElem h ++ elemBytes eKCV kcv))) ∧
    (let a := elemD l eKEY_SPEC
     let n := byteAt a 5
     ∀ r, Served s k 0x0503 i →
      Fits s i [req eKEY_SPEC, opt eKEY_CLASS, opt eKEY_B, opt eBIND_CTX, opt ePAN, opt ePSN] [] bindPresent l →
      specZero l = true → specOk a = true → HasRoom s i l false n → (activeTmk s i.tenant).isSome = true →
      let x : BlockKey := { attr := a, bits := parityFor (byteAt a 2) (r.take n), opt := [] }
      let answer := handleElem h ++ elemBytes eKCV (keyCheck (byteAt a 2) x.bits 5)
      let result := keyResult h (keyCheck (byteAt a 2) x.bits 5)
      (hasElem l eKEY_B = false → boomBytes s i.region n (some i.tenant) = (some r, v) → Placed v i l x (counterBody l) h t →
        exec (.keyGenerate k) s = .next (committed t i result answer)) ∧
      (∀ k1, hasElem l eKEY_B = true → Serves s i l eKEY_B [usage 'K' '1'] ['T', 'A'] modesOut k1 u →
        boomBytes u i.region (n + blockFill k1 n) (some i.tenant) = (some r, v) → Placed v i l x (counterBody l) h t →
        exec (.keyGenerate k) s =
          .next (committed t i result (answer ++ elemBytes eKEYBLOCK (sealBlock k1 x (r.drop n)))))) ∧
    (∀ x, Served s k 0x0505 i → Fits s i [req eHANDLE] [] anyElems l → handleTenant (handleOf l eHANDLE) = i.tenant →
      deleteWrites s (handleOf l eHANDLE) ≤ allowance s →
      resolveKey s (handleOf l eHANDLE) = (.ok x, u) ∨ resolveKey s (handleOf l eHANDLE) = (.error stKEY_ORPHANED, u) →
      deletable u (handleOf l eHANDLE) = true → exec (.keyDelete k) s =
        .next (committed (deleteKey u (handleOf l eHANDLE)) i (beBytes 4 (handleOf l eHANDLE).toNat ++ zeros 4) []))

/-- An engine of the item's region takes a job of a function (R239, R252, R272). -/
def Sys2Proof.Claims.EngineTakes (s : State) (i : Item) (f : Nat) : Prop :=
  odmGrants s i.region = true ∧ enginesRunning s i.region ≠ [] ∧
    ((oget s.ucode i.region).any fun u => u.funcs.testBit f) = true

/-- The codes, digest and salt of a signature command stand (R267). -/
def Sys2Proof.Claims.DigestStands (l : List Elem) : Prop :=
  1 ≤ elemNat l ePK_ALG ∧ elemNat l ePK_ALG ≤ 4 ∧
    (hasElem l eHASH_ALG = true → 1 ≤ elemNat l eHASH_ALG ∧ elemNat l eHASH_ALG ≤ 3) ∧
    (hasElem l eDIGEST = true → (elemD l eDIGEST).length = pkHashLen (elemNat l eHASH_ALG)) ∧
    (hasElem l eSALT_LEN = true → elemNat l ePK_ALG = 4 ∨ elemNat l eSALT_LEN ≤ pkHashLen (elemNat l eHASH_ALG))

/-- How a command ends by what its engine function gives on the state `v`: its outputs, a status, or a result check that fails
the engine (R251, R258). -/
def Sys2Proof.Claims.EndsBy (c : Instr) (s v : State) (i : Item) (r : EngRes) (done : EngOut → State) : Prop :=
  (∀ o, r = .ok o → exec c s = .next (done o)) ∧
    (∀ st, r = .error (.status st) → exec c s = .next (endItem v i st)) ∧
    (r = .error .mismatch → exec c s = .next
      (endItem (((enginesRunning v i.region).head?.map fun p => resultMismatch v p).getD v) i stABORTED_FAULT))

/-- R263 to R270: the public-key commands, by what the engine function gives. -/
def Sys2Proof.Claims.PkCommandsComplete : Prop :=
  ∀ (s : State) (k : Nat) (i : Item) (l : List Elem) (x : KeyVal) (r : Bytes) (u v : State),
    (Served s k 0x0801 i →
      Fits s i [req eKEY_A, pkReq ePK_ALG, pkOpt eHASH_ALG, pkOpt eDIGEST, opt eDATA, pkOpt eSALT_LEN] [] digestPresent l →
      DigestStands l → handleTenant (handleOf l eKEY_A) = i.tenant → resolveKey s (handleOf l eKEY_A) = (.ok x, u) →
      x.usage = usage 'S' '0' → x.mode = chr 'S' → pkAlgFits (elemNat l ePK_ALG) x = true →
      boomBytes u i.region (64 + if elemNat l ePK_ALG = 2 then saltLen l else 0) (some i.tenant) = (some r, v) →
      let bits := rsaBits x.bits
      (elemNat l ePK_ALG ≤ 2 → EngineTakes v i 0x10 → 2048 ≤ bits → bits ≤ 8192 →
        EndsBy (.pkSign k) s v i
          (rsaPriv { func := 0x10, seed := r.take 64 } x.bits (field x.opt 0 32) true (beNat (rsaEncoded l bits (r.drop 64))))
          fun o => endItem v i stOK (payloadOf [(eSIGNATURE, beBytes ((bits + 7) / 8) (o.out 3))])) ∧
      (∀ c, elemNat l ePK_ALG = 3 → EngineTakes v i 0x20 → curveFor v i.tenant x.curve = some c →
        EndsBy (.pkSign k) s v i (ecSign c { func := 0x20, seed := r.take 64 } (beNat x.bits) (pkDigest l))
          fun o => endItem v i stOK
            (payloadOf [(eSIGNATURE, beBytes (scalarLen c) (o.out 3) ++ beBytes (scalarLen c) (o.out 4))])) ∧
      (elemNat l ePK_ALG = 4 → EngineTakes v i 0x30 →
        EndsBy (.pkSign k) s v i (edSignFn { func := 0x30, seed := r.take 64 } x.bits (elemD l eDATA))
          fun o => endItem v i stOK (payloadOf [(eSIGNATURE, beBytes 32 (o.out 3) ++ beBytes 32 (o.out 4))]))) ∧
    (Served s k 0x0802 i → Fits s i [opt eKEY_A, pkOpt ePK_ALG, pkOpt eHASH_ALG, pkOpt eDIGEST, opt eDATA, pkOpt eSIGNATURE,
        pkOpt eSALT_LEN, pkOpt ePOINT, pkOpt eCURVE_ID, pkOpt eMODULUS, pkOpt ePUB_EXP] [] verifyPresent l →
      (∀ es, hasElem l ePK_ALG = false → hasElem l eHASH_ALG = false → handleTenant (handleOf l eKEY_A) = i.tenant →
        resolveKey s (handleOf l eKEY_A) = (.ok x, u) → verifies x 'E' = true ∨ verifies x 'R' = true →
        publicElems s x = some es → exec (.pkVerify k) s = .next (endItem u i stOK (payloadOf es))) ∧
      (∀ n e, hasElem l ePK_ALG = true → DigestStands l → hasElem l eKEY_A = false → hasElem l eMODULUS = true →
        n = beNat (elemD l eMODULUS) → e = beNat (elemD l ePUB_EXP) → (elemD l eSIGNATURE).length = (bitLen n + 7) / 8 →
        1024 ≤ bitLen n → 3 ≤ e → e % 2 = 1 → n % 2 = 1 → elemNat l ePK_ALG ≤ 2 → EngineTakes s i 0x11 →
        let m := powMod (beNat (elemD l eSIGNATURE)) e n
        let len := (bitLen n + 6) / 8
        let good := 0 < beNat (elemD l eSIGNATURE) ∧ beNat (elemD l eSIGNATURE) < n ∧
          (if elemNat l ePK_ALG = 1 then beBytes ((bitLen n + 7) / 8) m =
              emPkcs1 ((bitLen n + 7) / 8) (elemNat l eHASH_ALG) (pkDigest l)
           else m < 2 ^ (8 * len) ∧
             pssOk (bitLen n - 1) (elemNat l eHASH_ALG) (saltLen l) (pkDigest l) (beBytes len m) = true)
        (good → exec (.pkVerify k) s = .next (endItem s i stOK)) ∧
        (¬ good → exec (.pkVerify k) s = .next (endItem s i stVERIFY_FAIL)))) ∧
    (∀ k1 c q, Served s k 0x0803 i → Fits s i [req eKEY_A, pkReq ePOINT, req eKEY_B, req eKEY_SPEC, pkOpt eKDF_INFO] [] anyElems l →
      let a := elemD l eKEY_SPEC
      let n := byteAt a 5
      (∀ y, peekKey s (handleOf l eKEY_A) = some y → ∀ d, curveFor s i.tenant y.curve = some d →
        pointForm d.size (elemD l ePOINT) = none) →
      specZero l = true → specOk a = true → Serves u i l eKEY_B [usage 'K' '1'] ['T', 'A'] modesOut k1 v →
      handleTenant (handleOf l eKEY_A) = i.tenant → resolveKey s (handleOf l eKEY_A) = (.ok x, u) →
      keyIs x (usage 'K' '3') 'E' 'X' = true → stronger (byteAt a 2) (byteAt a 3) n k1 = false →
      ∀ w, boomBytes v i.region (64 + blockFill k1 n) (some i.tenant) = (some r, w) → EngineTakes w i 0x22 →
      curveFor s i.tenant x.curve = some c → curveFor w i.tenant x.curve = some c → sec1Point c (elemD l ePOINT) = some q →
      EndsBy (.pkEcdh k) s w i (ecDh c { func := 0x22, seed := r.take 64 } (beNat x.bits) q) fun o =>
        let bits := parityFor (byteAt a 2) (kdf56c (beBytes c.size (o.out 3)) (elemD l eKDF_INFO) n)
        endItem w i stOK (payloadOf [
          (eKEYBLOCK, sealBlock k1 { attr := a, bits := bits, opt := [] } (r.drop 64)), (eKCV, keyCheck (byteAt a 2) bits 5)])) ∧
    (Served s k 0x0805 i → Fits s i [req eKEY_A, pkReq ePK_ALG, pkReq eHASH_ALG, pkReq eCIPHERTEXT, pkOpt eLABEL] [] anyElems l →
      elemNat l ePK_ALG = 5 → 1 ≤ elemNat l eHASH_ALG → elemNat l eHASH_ALG ≤ 2 →
      (∀ y, peekKey s (handleOf l eKEY_A) = some y → y.alg = chr 'R' →
        (elemD l eCIPHERTEXT).length = (rsaBits y.bits + 7) / 8) →
      handleTenant (handleOf l eKEY_A) = i.tenant → resolveKey s (handleOf l eKEY_A) = (.ok x, u) →
      keyIs x (usage 'D' '1') 'R' 'D' = true → boomBytes u i.region 64 (some i.tenant) = (some r, v) → EngineTakes v i 0x10 →
      2048 ≤ rsaBits x.bits → rsaBits x.bits ≤ 8192 →
      EndsBy (.pkRsaDecrypt k) s v i
        (rsaPriv { func := 0x10, seed := r } x.bits (field x.opt 0 32) false (beNat (elemD l eCIPHERTEXT))) fun o =>
          match oaepDecode (elemNat l eHASH_ALG) (elemD l eLABEL) (beBytes ((rsaBits x.bits + 7) / 8) (o.out 3)) with
          | some m => if m = [] then endItem v i stFORMAT else endItem v i stOK (payloadOf [(ePLAINTEXT, m)])
          | none => endItem v i stFORMAT)

/-- A generated key takes its place and is answered with its handle and the public key, or its claim is refused (R250, R267). -/
def Sys2Proof.Claims.generated (v : State) (i : Item) (l : List Elem) (id : Nat) (o : EngOut) (pub : Bytes) (es : List Elem) : State :=
  let x := o.key.getD ([], [])
  match placeGenerated v (elemNat l eKEY_CLASS) i.tenant (elemD l eKEY_SPEC) id x.1 x.2 with
  | .ok (h, t) => committed t i (beBytes 4 h.toNat ++ (sha256 pub).take 4) (handleElem h ++ payloadOf es)
  | .error st => endItem (quotaCounted v i.tenant st) i st

/-- R261, R262, R268, R269: key generation and the curve table. -/
def Sys2Proof.Claims.PkChangesComplete : Prop :=
  ∀ (s : State) (k : Nat) (i : Item) (l : List Elem) (r : Bytes) (v : State),
    (Served s k 0x0804 i →
      Fits s i [req eKEY_SPEC, pkOpt eCURVE_ID, pkOpt eRSA_BITS, pkOpt ePUB_EXP, opt eKEY_CLASS] [] keygenPresent l →
      let a := elemD l eKEY_SPEC
      let id := elemNat l eCURVE_ID
      let bits := elemNat l eRSA_BITS
      let e := if hasElem l ePUB_EXP then elemNat l ePUB_EXP else 65537
      slice a 5 3 = [0, 0, 0] → placeStatus s (elemNat l eKEY_CLASS) i.tenant (keygenLen s i.tenant l) = none →
      (activeTmk s i.tenant).isSome = true → boomBytes s i.region 64 (some i.tenant) = (some r, v) →
      (hasElem l eRSA_BITS = true → bits ∈ [2048, 3072, 4096, 6144, 8192] → e % 2 = 1 → 65536 < e → e < 2 ^ 256 →
        genSpecOk 0x12 a = true → EngineTakes v i 0x12 →
        EndsBy (.pkKeygen k) s v i (rsaKeygen { func := 0x12, seed := r } bits e) fun o =>
          let pub := beBytes (bits / 8) (o.out 2)
          generated v i l id o pub [(eMODULUS, pub), (ePUB_EXP, minBytes e)]) ∧
      (hasElem l eRSA_BITS = false → id = idED → curveNamed s i.tenant id = true → genSpecOk 0x32 a = true → EngineTakes v i 0x32 →
        EndsBy (.pkKeygen k) s v i (edKeygen { func := 0x32, seed := r }) fun o =>
          let pub := beBytes 32 (o.out 3)
          generated v i l id o pub [(ePOINT, pub), (eCURVE_ID, beBytes 2 id)]) ∧
      (∀ c, hasElem l eRSA_BITS = false → id ≠ idED → curveNamed s i.tenant id = true → genSpecOk 0x23 a = true →
        EngineTakes v i 0x23 → curveFor s i.tenant id = some c →
        EndsBy (.pkKeygen k) s v i (ecKeygen c { func := 0x23, seed := r } (curveHash s i.tenant id)) fun o =>
          let pub := sec1Bytes c (o.out 3, o.out 4)
          generated v i l id o pub [(ePOINT, pub), (eCURVE_ID, beBytes 2 id)])) ∧
    (Served s k 0x0806 i → Fits s i [pkReq eCURVE_ID, pkReq eCURVE_PARAMS] [] anyElems l →
      let id := elemNat l eCURVE_ID
      let e := paramsEntry (elemD l eCURVE_PARAMS)
      let key := 16 * i.tenant + (id - 0x100)
      let word := beBytes 2 id ++ zeros 6
      let answer := elemBytes eCURVE_ID (beBytes 2 id)
      (elemD l eCURVE_PARAMS).length = 3 + 6 * e.lf → 0x100 ≤ id → id ≤ 0x10F → paramsOk e = true →
      (∀ y, oget s.curves key = some y → y.hash = e.hash →
        exec (.pkCurveLoad k) s = .next (committed s i word answer)) ∧
      (oget s.curves key = none → boomBytes s i.region 64 (some i.tenant) = (some r, v) → EngineTakes v i 0x25 →
        EndsBy (.pkCurveLoad k) s v i (curveCheck (curveOfEntry e) { func := 0x25, seed := r }) fun _ =>
          committed (putCurve v key (some e)) i word answer))

/-- The tenant `t` that a stand-in command is for (R161). -/
def Sys2Proof.Claims.ForTenant (s : State) (i : Item) (l : List Elem) (t : Nat) : Prop :=
  (hasElem l 0x1103 = false ∧ t = i.tenant) ∨
    (hasElem l 0x1103 = true ∧ i.tenant = 0 ∧ t = elemNat l 0x1103 ∧ targetTenant s i.tenant t = none)

/-- R160 to R174: the stand-in commands, on a part that fits the service. -/
def Sys2Proof.Claims.StandInCommandsComplete : Prop :=
  ∀ (s : State) (k : Nat) (i : Item) (l : List Elem), s.fuse.variant.standIn = true →
    (∀ t, Served s k 0x0902 i → Fits s i [must 0x1101 (lenIs 1), may 0x1102 (lenIs 4), may 0x1103 (lenIs 2)] [] anyElems l →
      ForTenant s i l t → elemNat l 0x1102 = 0 ∨ (10 ≤ elemNat l 0x1102 ∧ elemNat l 0x1102 ≤ 60000) →
      let u := if hasElem l 0x1102 then armHeartbeat (s.setSi t { s.siOf t with period := elemNat l 0x1102 }) t else s
      let ends := fun (v : State) => Host.Outcome.next (endItem v i stOK (issuerAnswer v t).2)
      (elemNat l 0x1101 = 0 → exec (.siIssuerState k) s = ends s) ∧
      (elemNat l 0x1101 = 1 → exec (.siIssuerState k) s = ends (setIssuer u t true 0)) ∧
      (elemNat l 0x1101 = 2 → exec (.siIssuerState k) s = ends (setIssuer u t false 1))) ∧
    (∀ t, Served s k 0x0907 i → Fits s i [may 0x1103 (lenIs 2)] [] anyElems l → ForTenant s i l t →
      let u := armHeartbeat s t
      let v := if (u.siOf t).reachable = false ∧ (u.siOf t).cause = 2 then setIssuer u t true 0 else u
      exec (.siHeartbeat k) s = .next (endItem v i stOK (issuerAnswer v t).2)) ∧
    (∀ x u, Served s k 0x0903 i → Fits s i [req eKEY_A, must 0x1108 (lenIs 8), must 0x110E (lenIs 2)] [] anyElems l →
      1 ≤ elemNat l 0x110E → elemNat l 0x110E ≤ 128 → Serves s i l eKEY_A [usage 'M' '6'] ['A'] ['C', 'G'] x u →
      let es := ((u.siOf i.tenant).journal.filter fun e => decide (elemNat l 0x1108 ≤ field e 0 8)).take (elemNat l 0x110E)
      exec (.siJournalRead k) s = .next (endItem u i stOK
        (payloadOf [(0x110F, es.flatten), (0x1110, aesCmac x.bits es.flatten)]))) ∧
    (Served s k 0x0904 i → Fits s i [must 0x1108 (lenIs 8)] [] anyElems l → exec (.siJournalRelease k) s =
      .next (committed (journalLay s i.tenant ((s.siOf i.tenant).journal.filter fun e => decide (elemNat l 0x1108 < field e 0 8)))
        i (elemD l 0x1108) [])) ∧
    (Served s k 0x0905 i →
      Fits s i [may 0x1109 (lenIs 2), may 0x110A (lenIs 64), may 0x110B (lenIs 1), may 0x110C (lenIs 8)] [] rulesPresent l →
      (let n := elemNat l 0x1109
       hasElem l 0x1109 = true → n < 1024 → rulesOk (elemD l 0x110A) = true → exec (.siRulesLoad k) s = .next (committed
        { s with rules := oset s.rules (1024 * i.tenant + n) (some (elemD l 0x110A)) } i (beBytes 2 n ++ zeros 6) [])) ∧
      (let n := elemNat l 0x110B
       let z := elemD l 0x110C
       let h := BitVec.ofNat 32 (field z 0 4)
       ∀ x u, hasElem l 0x1109 = false → zoneCodes z = true → handleTenant h = i.tenant → resolveKey s h = (.ok x, u) →
        keyFits x [usage 'E' '0'] ['T', 'A'] ['X'] = true → x.bound = 0 →
        (x.alg = chr 'A' → byteAt z 4 = 2 ∧ byteAt z 5 = 0) → exec (.siRulesLoad k) s =
          .next (committed { u with zones := oset u.zones (256 * i.tenant + n) (some z) } i (beBytes 2 n ++ [1] ++ zeros 5) []))) ∧
    (Served s k 0x0906 i → Fits s i [opt eCTX, opt eBIND_CTX, opt ePAN, opt ePSN, may 0x110D (lenIs 8)] [] cardPresent l →
      (hasElem l 0x110D = true → cardCodes (elemD l 0x110D) = true) →
      (let id := handleOf l eBIND_CTX
       let b := fitR 248 (panBcd (elemD l ePAN) ++ elemD l ePSN)
       hasElem l eBIND_CTX = true → ctxCreateStatus s id i.tenant (fun t => decide (t = 8)) = none →
        exec (.siCardUpdate k) s = .next (committed
          (ctxMake s id i.tenant (if hasElem l 0x110D then cardApply b (elemD l 0x110D) else b) 0) i (beBytes 4 id.toNat ++ zeros 4) [])) ∧
      (let id := handleOf l eCTX
       ∀ x, hasElem l eBIND_CTX = false → NamesCtx s i l eCTX 8 x → cardMatches x.body l = true →
        exec (.siCardUpdate k) s = .next (committed (s.setCtx (ctxRegion id) (ctxIndex id)
          (ctxPatch x 0 (cardApply (fitR 248 x.body) (elemD l 0x110D)))) i (beBytes 4 id.toNat ++ zeros 4) []))) ∧
    (∀ t, Served s k 0x0901 i → Fits s i [req ePAN, must 0x1104 (lenIs 8), must 0x1105 (lenIs 2), opt eCTX, opt ePSN, opt eATC,
        opt eTXN_DATA, opt eARQC] [] arqcPresent l →
      let f := triFind s (panOf l)
      let u := triCount s f.route.isNone f.bad
      let route := f.route.map Prod.fst
      f.fault = none → t = ((route.map fun w => w.toNat / 2 ^ 22).getD i.tenant) →
      t = i.tenant ∨ (i.tenant = 0 ∧ (u.tenant t).siOwnerSubmit = true) →
      (u.siOf t).journal.length < 1024 * (u.tenant t).jrnQuota → hasElem l eARQC = false →
      ∀ card : Option Ctx,
        (if hasElem l eCTX then ∃ c, card = some c ∧ NamesCtx u { i with tenant := t } l eCTX 8 c ∧ cardMatches c.body l = true
         else card = none) →
        (route.isSome = true → (u.siOf t).reachable = true → exec (.siAuthorise k) s =
          .next (committed u i (beBytes 2 0x0300 ++ zeros 6) (elemBytes 0x1106 (beBytes 2 0x0300)))) ∧
        (route.isNone = true ∨ (u.siOf t).reachable = false → (jseqLow u t = true → ctrReady u (jseqCtr t) = true) →
          leaseAllows u (leaseJseq t) (jseqNext u t) = true →
          let rs := (route.map fun w => w.toNat / 2 ^ 12 % 1024).getD 0
          let rules := route.bind fun _ => ruleSet u t rs
          let d : Deciding := {
            route := route, rules := rules, arqc := false, good := false, atc := elemNat l eATC
            amount := elemNat l 0x1104, currency := elemD l 0x1105
            card := card.map fun c => match rules with
              | some x => winsAdvance x (fitR 248 c.body) (u.time.ns / 1000000000)
              | none => fitR 248 c.body }
          let j := jseqNext u t
          ∃ v, (v.siOf t).next = j + 1 ∧ (v.siOf t).journal.length = (u.siOf t).journal.length + 1 ∧
            (reasonOf d = 0 → exec (.siAuthorise k) s = .next (committed v i (beBytes 2 0x0100 ++ beBytes 6 (j % 2 ^ 48))
              (elemBytes 0x1106 (beBytes 2 0x0100) ++ elemBytes 0x1107 (digitBytes (strRadix 6 (j % 1000000))) ++
                elemBytes 0x1108 (beBytes 8 j)))) ∧
            (reasonOf d ≠ 0 → exec (.siAuthorise k) s = .next (committed v i (beBytes 2 (0x0200 + reasonOf d) ++
              beBytes 6 (j % 2 ^ 48)) (elemBytes 0x1106 (beBytes 2 (0x0200 + reasonOf d)) ++ elemBytes 0x1108 (beBytes 8 j))))))

/-- R281 to R287: the ledger commands, on a part that fits the service. -/
def Sys2Proof.Claims.LedgerCommandsComplete : Prop :=
  ∀ (s : State) (k : Nat) (i : Item) (l : List Elem) (x : KeyVal) (u : State) (v : Int), s.fuse.variant.ledger = true →
    let key := Serves s i l eKEY_A [usage '5' '2'] ['A'] ['C', 'G'] x u
    let a := decInt (elemD l eDEC_A)
    let b := decInt (elemD l eDEC_B)
    let ctl := ctlFor l
    (let lop := elemNat l eLOP
     Served s k 0x0A01 i → l.findSome? ldgValue = none → key →
      Fits s i [req eKEY_A, ldgReq eLOP, ldgOpt eDEC_A, ldgOpt eDEC_B, ldgOpt eLSCALE, ldgOpt eRES_LEN, opt eCTX] [] calcPresent l →
      (lop ≠ 7 → EngineTakes u i (lopFn lop) → ldgRun (lopFn lop) a b ctl = some v →
        (lop = 5 → exec (.ldgCalc k) s = .next (endItem u i stOK (payloadOf [(eCMP_R, beBytes 1 v.toNat),
          (eLMAC, lmac x.bits i lop ctl.round ctl.sr v.toNat (zeros 32) 0 0)]))) ∧
        (lop ≠ 5 → exec (.ldgCalc k) s = .next (endItem u i stOK (payloadOf [(eDEC_R, decPack (resLen l) v),
          (eLMAC, lmac x.bits i lop ctl.round ctl.sr 0 (decPack 32 v) 0 0)])))) ∧
      (∀ c, lop = 7 → NamesCtx s i l eCTX 9 c →
        let bal := slice (fitR 248 c.body) 0 32
        exec (.ldgCalc k) s = .next (endItem u i stOK (payloadOf [(eDEC_R, bal), (ePOST_SEQ, beBytes 8 (acctSeq c)),
          (eLMAC, lmac x.bits i 7 (acctRound c) (acctScale c) 0 bal (handleOf l eCTX) (acctSeq c))])))) ∧
    (Served s k 0x0A02 i → l.findSome? ldgValue = none → key →
      Fits s i [req eKEY_A, ldgReq eDEC_A, ldgReq eDEC_B, ldgReq eDAYS, ldgReq eBASIS, ldgReq eLSCALE, ldgOpt eRES_LEN] [] anyElems l →
      EngineTakes u i 0x46 → ldgRun 0x46 a b ctl = some v → exec (.ldgAccrue k) s = .next (endItem u i stOK
        (payloadOf [(eDEC_R, decPack (resLen l) v), (eLMAC, lmac x.bits i 8 ctl.round ctl.sr 0 (decPack 32 v) 0 0)]))) ∧
    (Served s k 0x0A03 i → l.findSome? ldgValue = none → key →
      Fits s i [req eKEY_A, ldgReq eDEC_A, ldgReq eLSCALE, ldgOpt eRES_LEN, opt eCTX, opt eBIND_CTX, ldgOpt eFLOOR] [] postPresent l →
      (let id := handleOf l eBIND_CTX
       let floor := if hasElem l eFLOOR then decInt (elemD l eFLOOR) else 0
       let p := postAnswer i l x.bits id ctl.sr ctl.round v 1
       hasElem l eBIND_CTX = true → ctxCreateStatus s id i.tenant (fun t => decide (t = 9)) = none → EngineTakes u i 0x45 →
        ldgRun 0x45 a 0 ctl = some v → floor ≤ v →
        exec (.ldgPost k) s = .next (committed (ctxMake u id i.tenant (acctBody v ctl.sr ctl.round floor 1) 0) i p.1 p.2)) ∧
      (let id := handleOf l eCTX
       ∀ c, hasElem l eBIND_CTX = false → NamesCtx s i l eCTX 9 c → lscale l 2 = acctScale c → lscale l 3 = acctRound c →
        EngineTakes u i 0x40 → ldgRun 0x40 a (acctBalance c) { ctl with sb := acctScale c } = some v → acctFloor c ≤ v →
        let seq := (acctSeq c + 1) % 2 ^ 64
        let p := postAnswer i l x.bits id (acctScale c) (acctRound c) v seq
        exec (.ldgPost k) s = .next (committed (u.setCtx (ctxRegion id) (ctxIndex id)
          (ctxPatch (u.ctxAt (ctxRegion id) (ctxIndex id)) 0 (acctBody v (acctScale c) (acctRound c) (acctFloor c) seq))) i p.1 p.2)))

/-- R211, R417, R419: attestation, the device status (its second element is a free value, R417 gives none; the model's
choice) and the unlock of a device. -/
def Sys2Proof.Claims.DeviceCommandsComplete : Prop :=
  ∀ (s : State) (k : Nat) (i : Item) (l : List Elem),
    (∀ r t, Served s k 0x0F01 i → elemsOf [must 0x1202 (lenIs 32), may 0x1103 (lenIs 2)] i = .ok l →
      let n := if hasElem l 0x1103 then elemNat l 0x1103 else i.tenant
      (hasElem l 0x1103 = true → i.tenant = 0) → targetTenant s i.tenant n = none →
      boomBytes s i.region 48 (some i.tenant) = (some r, t) →
      let b := attestBody t n (elemD l 0x1202)
      exec (.devAttest k) s = .next (endItem t i stOK (payloadOf [
        (0x1203, b ++ ecdsaBytes curveP384 (identPriv t) (scalarOf curveP384 r) (sha384 b)), (0x0108, t.fuse.cert)]))) ∧
    (Served s k 0x0F02 i → elemsOf [] i = .ok l → ∃ e, exec (.devStatus k) s =
      .next (endItem s.takeFresh i stOK (payloadOf [(0x1504, tamperState s), e]))) ∧
    (let cs := (l.filter fun e => e.1 = 0x1503).map fun e => (byteAt e.2 0, e.2.drop 1)
     Served s k 0x0F06 i → elemsOf unlockDefs i = .ok l → i.tenant = 0 ∨ i.port = 0x80 → s.devLocked = true → logFull s = false →
      elemNat l 0x1501 = ctrValue s lockCtr → elemD l 0x1502 = logHead s → 2 ≤ cs.length → cs.length ≤ 8 →
      custodiansOk s 0 cs (unlockDigest s) = true → conditionHolds s = false →
      rootValid s = true ∨ (∃ b u, vaultRandom s 192 = (some b, u)) → ∃ t, t.devLocked = false ∧
        exec (.devUnlock k) s = .next (committed t i (beBytes 8 (ctrValue s lockCtr)) (elemBytes 0x1504 (tamperState t))))

/-- The host table with the entry that a host's first HELLO reserves (R77, R95). -/
def Sys2Proof.Claims.hostReserved (v : State) (i : Item) (host : Option Nat) : State :=
  match host with
  | some h =>
    if (v.host h).isSome then v
    else v.setHost h (some { tenant := i.tenant, key := i.source, port := i.port, isStatic := false, valid := false
                             lastFrame := v.time.tick, lastMove := none })
  | none => v

/-- R93, R95, R99: the checks of SESSION_HELLO and SESSION_REKEY pass; `q` is the host's point, `rand` what the boom gives. -/
def Sys2Proof.Claims.HelloStands (s : State) (i : Item) (c : Curve) (l : List Elem) (q : Nat × Nat) (rand : Bytes)
    (u v : State) : Prop :=
  (i.port = 0x80 → i.tenant = 0) ∧ actingTenant s i.tenant = none ∧ helloElems i = .ok (c, l) ∧ sessionCount s < 4096 ∧
    2 ≤ cacheFree s ∧ (i.port = 0x80 → mgmtSessions s < 16) ∧ tenantSessions s i.tenant < (s.tenant i.tenant).qSess ∧
    (∃ key, credKey s i.tenant (BitVec.ofNat 32 (elemNat l 0x0104)) = (.ok key, u)) ∧
    boomBytes u i.region (c.size + 80) (some i.tenant) = (some rand, v) ∧ pointOf c (elemD l 0x0102) = some q ∧ ecValid c q = true

/-- R93 to R95, R99: a HELLO and a REKEY open a session. -/
def Sys2Proof.Claims.HelloCommandsComplete : Prop :=
  ∀ (s : State) (k : Nat) (i : Item) (host : Option Nat) (c : Curve) (l : List Elem) (q : Nat × Nat) (rand : Bytes) (u v : State)
    (o : Opened), HelloStands s i c l q rand u v →
    (Served s k 0x0E01 i → (i.port = 0x80 ∧ host = none) ∨ (i.port ≠ 0x80 ∧ ∃ h, host = some h ∧ helloHost s i = .ok h) →
      openSession (hostReserved v i host) i c l q host none rand = some o →
      exec (.sessionHello k) s = .next (settle settleBound
        (tagEgress (respondPlain (releaseItem o.state i) i o.id 0 stOK o.payload) i stOK))) ∧
    (∀ se p, Served s k 0x0E04 i → s.session i.session = some se → se.host = host →
      openSession (hostReserved v i host) i c l q host (some (i.session, se.window)) rand = some o →
      o.state.session i.session = some p →
      exec (.sessionRekey k) s = .next (committed (o.state.setSession i.session (some { p with successor := some o.id })) i
        (beBytes 4 o.id) o.payload))

/-- R116 to R157: the PIN, MAC, EMV, DUKPT, key, token, data protection and card code commands that change nothing.
Completes: pinTranslate, pinVerifyOffset, pinVerifyPvv, pinGenOffset, pinGenPvv, macGenerate, macVerify, arqcVerify,
arqcVerifyArpc, arpcGenerate, arqcGenerate, dukptPinTranslate, dukptMacVerify, dukptDecrypt, dukptTxnKey, keyExport,
keyCheckValue, keyTranslate, tokenise, detokenise, tokeniseCounted, dataEncrypt, dataDecrypt, cscGenerate, cscVerify. -/
def Obligations.PaymentCommandsAnswerTheirItem : Prop :=
  Answers (.pinTranslate ·) 0x0101 pinTranslate ∧ Answers (.pinVerifyOffset ·) 0x0102 pinVerifyOffset ∧
  Answers (.pinVerifyPvv ·) 0x0103 pinVerifyPvv ∧ Answers (.pinGenOffset ·) 0x0104 pinGenOffset ∧
  Answers (.pinGenPvv ·) 0x0105 pinGenPvv ∧ Answers (.macGenerate ·) 0x0201 macGenerate ∧
  Answers (.macVerify ·) 0x0202 macVerify ∧ Answers (.arqcVerify ·) 0x0301 arqcVerify ∧
  Answers (.arqcVerifyArpc ·) 0x0302 arqcVerifyArpc ∧ Answers (.arpcGenerate ·) 0x0303 arpcGenerate ∧
  Answers (.arqcGenerate ·) 0x0304 arqcGenerate ∧ Answers (.dukptPinTranslate ·) 0x0401 dukptPinTranslate ∧
  Answers (.dukptMacVerify ·) 0x0402 dukptMacVerify ∧ Answers (.dukptDecrypt ·) 0x0403 dukptDecrypt ∧
  Answers (.dukptTxnKey ·) 0x0404 dukptTxnKey ∧ Answers (.keyExport ·) 0x0502 keyExport ∧
  Answers (.keyCheckValue ·) 0x0504 keyCheckValue ∧ Answers (.keyTranslate ·) 0x0506 keyTranslate ∧
  Answers (.tokenise ·) 0x0601 (fun i => tokenMap i ePAN eTOKEN modesOut ff1Enc) ∧
  Answers (.detokenise ·) 0x0602 (fun i => tokenMap i eTOKEN ePAN modesIn ff1Dec) ∧
  Answers (.tokeniseCounted ·) 0x0603 tokeniseCounted ∧ Answers (.dataEncrypt ·) 0x0604 dataEncrypt ∧
  Answers (.dataDecrypt ·) 0x0605 dataDecrypt ∧ Answers (.cscGenerate ·) 0x0701 cscGenerate ∧
  Answers (.cscVerify ·) 0x0702 cscVerify ∧
  PinCommandsComplete ∧ MacCommandsComplete ∧ DukptCommandsComplete ∧ TokenCommandsComplete ∧ KeyReadsComplete

/-- R160 to R174, R264 to R268, R285, R211 and R417: the public key, stand-in, ledger and device commands that change no
lasting state, the ledger's on a part that fits it, and when each completes.
Completes: pkSign, pkVerify, pkEcdh, pkRsaDecrypt, siAuthorise, siIssuerState, siJournalRead, siJournalRelease, siRulesLoad,
siCardUpdate, siHeartbeat, ldgCalc, ldgAccrue, ldgPost, devAttest, devStatus, devUnlock. -/
def Obligations.ServiceCommandsAnswerTheirItem : Prop :=
  Answers (.pkSign ·) 0x0801 pkSign ∧ Answers (.pkVerify ·) 0x0802 pkVerify ∧ Answers (.pkEcdh ·) 0x0803 pkEcdh ∧
  Answers (.pkRsaDecrypt ·) 0x0805 pkRsaDecrypt ∧ Answers (.siIssuerState ·) 0x0902 siIssuerState ∧
  Answers (.siJournalRead ·) 0x0903 siJournalRead ∧ Answers (.siHeartbeat ·) 0x0907 siHeartbeat ∧
  Answers (.devAttest ·) 0x0F01 devAttest ∧ Answers (.devStatus ·) 0x0F02 devStatus ∧
  (∀ s k i, Served s k 0x0A01 i → (s.fuse.variant.ledger = false → exec (.ldgCalc k) s = .next (endItem s i stNOT_FITTED)) ∧
    (s.fuse.variant.ledger = true → exec (.ldgCalc k) s = .next (runCmd s i (ldgCalc i)))) ∧
  (∀ s k i, Served s k 0x0A02 i → (s.fuse.variant.ledger = false → exec (.ldgAccrue k) s = .next (endItem s i stNOT_FITTED)) ∧
    (s.fuse.variant.ledger = true → exec (.ldgAccrue k) s = .next (runCmd s i (ldgAccrue i)))) ∧
  (∀ s k i, Served s k 0x0A03 i → (s.fuse.variant.ledger = false → exec (.ldgPost k) s = .next (endItem s i stNOT_FITTED)) ∧
    (s.fuse.variant.ledger = true → exec (.ldgPost k) s = .next (runCommit s i (ldgPost i)))) ∧
  PkCommandsComplete ∧ StandInCommandsComplete ∧ LedgerCommandsComplete ∧ DeviceCommandsComplete

/-- R107, R141, R146 to R150, R171 to R174, R264, R419: the state-changing commands commit with the result word of their
entry, or answer the status that refuses them; an SI_AUTHORISE whose tenant's lease has no journal sequence number left waits
(R391).
Completes: keyImport, keyGenerate, keyDelete, dukptInit, pkKeygen, pkCurveLoad. -/
def Obligations.StateChangingCommandsCommit : Prop :=
  Commits (.keyImport ·) 0x0501 keyImport ∧ Commits (.keyGenerate ·) 0x0503 keyGenerate ∧
  Commits (.keyDelete ·) 0x0505 keyDelete ∧ Commits (.dukptInit ·) 0x0405 dukptInit ∧
  Commits (.pkKeygen ·) 0x0804 pkKeygen ∧ Commits (.pkCurveLoad ·) 0x0806 pkCurveLoad ∧
  (∀ s k i, Served s k 0x0901 i →
    (∀ w p t, (siAuthorise i).run s = (.ok (w, p), t) → exec (.siAuthorise k) s = .next (committed t i w p)) ∧
    (∀ st t, (siAuthorise i).run s = (.error st, t) → st ≠ siWaits → exec (.siAuthorise k) s = .next (endItem t i st)) ∧
    (∀ t, (siAuthorise i).run s = (.error siWaits, t) → exec (.siAuthorise k) s = .next s)) ∧
  Commits (.siJournalRelease ·) 0x0904 siJournalRelease ∧
  Commits (.siRulesLoad ·) 0x0905 siRulesLoad ∧ Commits (.siCardUpdate ·) 0x0906 siCardUpdate ∧
  Commits (.devUnlock ·) 0x0F06 devUnlock ∧ KeyChangesComplete ∧ PkChangesComplete

/-- The update command of an operation: a message of that operation that passes every check raises its tenant's counter
as it is applied, and is answered with that counter (R198, R216). -/
def Sys2Proof.Claims.Updates (ins : OnCore) (op : Nat) : Prop :=
  ∀ s k i l u, Served s k 0x0F03 i → elemsOf [must 0x1201 (lenIn 136 4096)] i = .ok l →
    parseUpd (elemD l 0x1201) = .ok u → u.op = op →
    (∀ step st, updChecks s i u = some (step, st) → exec (ins k) s =
      .next (endItem (quotaCounted (updRefused s u.tenant op step) u.tenant st) i st)) ∧
    (updChecks s i u = none →
      let ends := fun rand v =>
        let t := ctrWrite (updApply (takeAllowance v (updRecords v u).2) u rand) u.signTenant u.counter
        let t := postEvent (t.bump .vlt VLT_UPD_ACCEPTED) .vlt 0x8001 (BitVec.ofNat 32 u.tenant) (BitVec.ofNat 32 op)
          (BitVec.ofNat 32 u.counter)
        answerCommit t i (beBytes 8 u.counter) [(0x1204, beBytes 8 u.counter)]
      (op ≠ 0x0201 → exec (ins k) s = .next (ends [] s)) ∧
      (op = 0x0201 → ∀ rand t, boomBytes s i.region 32 (some i.tenant) = (some rand, t) →
        exec (ins k) s = .next (ends rand t)))

/-- R198, R199, R216: the ten operations of DEV_UPDATE.
Completes: authSet, custodianSet, tmkGenerate, tmkLoad, tmkInvalidate, tmkSelect, credLoad, credDelete, firmwareMigrate,
migrateCancel. -/
def Obligations.UpdateMessagesApplyOrCountTheirRefusal : Prop :=
  Updates (.authSet ·) 0x0101 ∧ Updates (.custodianSet ·) 0x0102 ∧ Updates (.tmkGenerate ·) 0x0201 ∧
  Updates (.tmkLoad ·) 0x0202 ∧ Updates (.tmkInvalidate ·) 0x0203 ∧ Updates (.tmkSelect ·) 0x0204 ∧
  Updates (.credLoad ·) 0x0205 ∧ Updates (.credDelete ·) 0x0206 ∧ Updates (.firmwareMigrate ·) 0x0301 ∧
  Updates (.migrateCancel ·) 0x0302

/-- A host command, with its code, that a locked device does not serve (R95). -/
def Sys2Proof.Claims.NotServedLocked (code : Nat) (ins : OnCore) : Prop :=
  (code, ins) ∈ ([
    (0x0101, (.pinTranslate ·)), (0x0102, (.pinVerifyOffset ·)), (0x0103, (.pinVerifyPvv ·)), (0x0104, (.pinGenOffset ·)),
    (0x0105, (.pinGenPvv ·)), (0x0201, (.macGenerate ·)), (0x0202, (.macVerify ·)), (0x0301, (.arqcVerify ·)),
    (0x0302, (.arqcVerifyArpc ·)), (0x0303, (.arpcGenerate ·)), (0x0304, (.arqcGenerate ·)),
    (0x0401, (.dukptPinTranslate ·)), (0x0402, (.dukptMacVerify ·)), (0x0403, (.dukptDecrypt ·)),
    (0x0404, (.dukptTxnKey ·)), (0x0405, (.dukptInit ·)), (0x0501, (.keyImport ·)), (0x0502, (.keyExport ·)),
    (0x0503, (.keyGenerate ·)), (0x0504, (.keyCheckValue ·)), (0x0505, (.keyDelete ·)), (0x0506, (.keyTranslate ·)),
    (0x0601, (.tokenise ·)), (0x0602, (.detokenise ·)), (0x0603, (.tokeniseCounted ·)), (0x0604, (.dataEncrypt ·)),
    (0x0605, (.dataDecrypt ·)), (0x0701, (.cscGenerate ·)), (0x0702, (.cscVerify ·)), (0x0801, (.pkSign ·)),
    (0x0802, (.pkVerify ·)), (0x0803, (.pkEcdh ·)), (0x0804, (.pkKeygen ·)), (0x0805, (.pkRsaDecrypt ·)),
    (0x0806, (.pkCurveLoad ·)), (0x0901, (.siAuthorise ·)), (0x0902, (.siIssuerState ·)), (0x0903, (.siJournalRead ·)),
    (0x0904, (.siJournalRelease ·)), (0x0905, (.siRulesLoad ·)), (0x0906, (.siCardUpdate ·)), (0x0907, (.siHeartbeat ·)),
    (0x0A01, (.ldgCalc ·)), (0x0A02, (.ldgAccrue ·)), (0x0A03, (.ldgPost ·)), (0x0E04, (.sessionRekey ·)),
    (0x0E05, (.echo ·)), (0x0F03, (.authSet ·)), (0x0F03, (.credDelete ·)), (0x0F03, (.credLoad ·)),
    (0x0F03, (.custodianSet ·)), (0x0F03, (.firmwareMigrate ·)), (0x0F03, (.migrateCancel ·)), (0x0F03, (.tmkGenerate ·)),
    (0x0F03, (.tmkInvalidate ·)), (0x0F03, (.tmkLoad ·)), (0x0F03, (.tmkSelect ·)), (0x0F04, (.tenantReset ·)),
    (0x0F05, (.evrClear ·)), (0x0F07, (.codepageLoad ·))] : List (Nat × OnCore))

/-- R95: a locked device answers every command that R95 does not list with DEVICE_LOCKED, and does nothing else for it. -/
def Obligations.LockedDeviceRefusesCommands : Prop :=
  ∀ s k i code ins, NotServedLocked code ins → s.devLocked = true → hostItem s k code = some i →
    exec (ins k) s = .next (endItem s i stDEVICE_LOCKED)

/-- R131, R137, R142, R128, R130, R156: a verify command whose checks pass reports OK exactly when the value that comes is
the value computed, and its own failure status otherwise; neither is an error of the command. -/
def Obligations.VerifyCommandsReportTheMatch : Prop :=
  ∀ s k i,
    (∀ l m t, Served s k 0x0202 i → (macOf i true).run s = (.ok (l, m), t) →
      exec (.macVerify k) s = .next (endItem t i (if m = elemD l eMAC then stOK else stVERIFY_FAIL) [])) ∧
    (∀ l aes sk t, Served s k 0x0301 i → (emvKey i [req eTXN_DATA] false).run s = (.ok (l, aes, sk), t) →
      exec (.arqcVerify k) s = .next (endItem t i
        (if (emvMac aes sk (elemD l eTXN_DATA)).take 8 = elemD l eARQC then stOK else stCRYPTOGRAM_FAIL) [])) ∧
    (∀ l key t, Served s k 0x0702 i → (cscKey i true).run s = (.ok (l, key), t) →
      exec (.cscVerify k) s = .next (endItem t i
        (if itemCode l key (elemD l eCSC).length = digitsOf (elemD l eCSC) then stOK else stVERIFY_FAIL) [])) ∧
    (∀ l p b t, Served s k 0x0103 i → (pvvPin i true).run s = (.ok (l, some p, b), t) →
      exec (.pinVerifyPvv k) s = .next (endItem t i (if verificationValue b (beNat (elemD l ePVKI) - 0x30) p (panOf l)
        (elemD l eVV).length = digitsOf (elemD l eVV) then stOK else stPIN_FAIL) [])) ∧
    (∀ l b t, Served s k 0x0103 i → (pvvPin i true).run s = (.ok (l, none, b), t) →
      exec (.pinVerifyPvv k) s = .next (endItem t i stFORMAT)) ∧
    (∀ l p nat t, Served s k 0x0102 i → (offsetPins i true).run s = (.ok (l, some p, nat), t) →
      exec (.pinVerifyOffset k) s = .next (endItem t i (if elemNat l eCHECK_LEN ≤ p.length ∧ p.take (elemNat l eCHECK_LEN) =
        List.zipWith (fun a b => (a + b) % 10) nat (digitsOf (elemD l eOFFSET)) then stOK else stPIN_FAIL) []))

/-- R92 to R99, R102, R368, R491, R492: the dispatcher's tag check on the lane that has its decrypt job, the session
commands, ECHO, the code page and the command that resets a tenant.
Completes: tagVerifyDone, sessionHello, sessionFinish, sessionClose, sessionRekey, rekeyPredecessorClose, echo, codepageLoad,
tenantReset. -/
def Obligations.SessionCommandsOpenAndCloseSessions : Prop :=
  ∀ s k i,
    (∀ j, coreRuns s k = true → (s.core k).run.bind s.item = some j → awaitsTag j = true →
      (decryptLane s k j = none → exec (.tagVerifyDone k) s = .next s) ∧
      (∀ p job, decryptLane s k j = some (p, job) → Unarmed s p →
        let n := j.payload.length
        let ended := fun u st => endJob u p j.region job st (gcmBlocks n) n [] 0x07 0x08
        let se := frameSession s (decide (j.port = 0x80)) j.session j.tenant
        (verifyItem s j = none → exec (.tagVerifyDone k) s = .next (dropItem (countAuth
          (ended s (if (se.bind fun x => openItem s x j).isNone then stVERIFY_FAIL else stOK)) j.ingress j.tenant) j)) ∧
        (∀ m t, verifyItem s j = some (m, t) →
          let u := ended { t.setItem j.stamp (some m) with fb := memWrite t.fb (j.region * fbSize + j.fbOff) m.payload } stOK
          exec (.tagVerifyDone k) s = .next (dispatchRequest u ((u.item j.stamp).getD m))))) ∧
    (Served s k 0x0E01 i →
      (∀ st t, helloRun s i none = .error (st, t) → exec (.sessionHello k) s = .next (endItem t i st)) ∧
      (∀ o, helloRun s i none = .ok o → exec (.sessionHello k) s = .next (settle settleBound
        (tagEgress (respondPlain (releaseItem o.state i) i o.id 0 stOK o.payload) i stOK)))) ∧
    (∀ se, Served s k 0x0E02 i → s.session i.session = some se →
      (se.stage ≠ .hello → exec (.sessionFinish k) s = .next (endItem s i stOPERAND_RANGE)) ∧
      (∀ l c q t, se.stage = .hello → elemsOf [must 0x010A (fun n => decide (n = 64 ∨ n = 96))] i = .ok l →
        credKey s i.tenant se.cred = (.ok (c, q), t) → (elemD l 0x010A).length = 2 * c.size →
        (ecdsaCheck c q se.transcript (elemD l 0x010A) = false →
          exec (.sessionFinish k) s = .next (endItem t i stNOT_AUTHORISED)) ∧
        (ecdsaCheck c q se.transcript (elemD l 0x010A) = true →
          let u := t.setSession i.session (some { se with stage := .opened })
          let ends := fun v => Host.Outcome.next (answerCommit v i (beBytes 4 i.session)
            [(0x010B, beBytes 8 (2 ^ 36)), (0x010C, beBytes 4 65536)])
          (se.host = none → exec (.sessionFinish k) s = ends u) ∧
          (∀ h e, se.host = some h → u.host h = some e →
            exec (.sessionFinish k) s = ends (u.setHost h (some { e with valid := true })))))) ∧
    (∀ se, Served s k 0x0E03 i → s.session i.session = some se → elemsOf [] i = .ok [] →
      (se.stage = .closing → exec (.sessionClose k) s = .next (endItem s i stOPERAND_RANGE)) ∧
      (se.stage ≠ .closing → exec (.sessionClose k) s = .next (settle settleBound (settleClose
        ((dupCommit (releaseItem s i) i stOK (fitR 8 (beBytes 4 i.session))).setSession i.session
          (some { se with stage := .closing, closeItem := some i })) i.session)))) ∧
    (∀ se, Served s k 0x0E04 i → s.session i.session = some se →
      (∀ st t, helloRun s i (some (i.session, se)) = .error (st, t) → exec (.sessionRekey k) s = .next (endItem t i st)) ∧
      (∀ o p, helloRun s i (some (i.session, se)) = .ok o → o.state.session i.session = some p →
        exec (.sessionRekey k) s = .next (endItem (dupCommit (o.state.setSession i.session (some { p with successor := some o.id }))
          i stOK (fitR 8 (beBytes 4 o.id))) i stOK o.payload))) ∧
    (∀ id se n x t, s.session id = some se → se.successor = some n → s.session n = some x → x.seen = some t →
      exec (.rekeyPredecessorClose id) s = .next (closeSession (advanceTo s (t + 1000000)) id)) ∧
    (∀ l, Served s k 0x0E05 i → elemsOf [may 0x1010 (lenIn 1 8192)] i = .ok l →
      exec (.echo k) s = .next (answer s i stOK l)) ∧
    (∀ l, Served s k 0x0F07 i → elemsOf [must 0x1701 (lenIs 256)] i = .ok l →
      (pageOk (elemD l 0x1701) = false → exec (.codepageLoad k) s = .next (endItem s i stFORMAT)) ∧
      (pageOk (elemD l 0x1701) = true → exec (.codepageLoad k) s = .next (answerCommit (s.setTenant i.tenant
        { s.tenant i.tenant with codePages := (s.nextItem, elemD l 0x1701) :: (s.tenant i.tenant).codePages }) i (zeros 8) []))) ∧
    (∀ l, Served s k 0x0F04 i → i.tenant = 0 → elemsOf [must eTENANT (lenIs 2)] i = .ok l →
      let t := elemNat l eTENANT
      (s.fuse.variant.tenMax < t → exec (.tenantReset k) s = .next (endItem s i stNOT_FITTED)) ∧
      (t ≤ s.fuse.variant.tenMax → t ≠ 0 → (s.tenant t).state = 1 → exec (.tenantReset k) s =
        .next (answerCommit (startReset s t false) i (beBytes 2 t ++ zeros 6) [])) ∧
      (t ≤ s.fuse.variant.tenMax → t ≠ 0 → (s.tenant t).state = 2 →
        exec (.tenantReset k) s = .next (endItem s i stTENANT_RESETTING))) ∧
    HelloCommandsComplete

/-- R159 to R161: the issuer of a tenant whose heartbeat timer comes due becomes unreachable by heartbeat, and the
timers of an isolated region go to a surviving one.
Completes: heartbeatExpiry, heartbeatRearm. -/
def Obligations.HeartbeatTimersSetTheIssuerState : Prop :=
  ∀ s r t,
    (∀ x, (s.timerList r).find? (fun y => isHeartbeat t y.kind) = some x → timersFire s r = true →
      let u := fireTimer (advanceTo s x.due) r x
      ((u.siOf t).reachable = true → exec (.heartbeatExpiry r t) s = .next (setIssuer u t false 2)) ∧
      ((u.siOf t).reachable = false → exec (.heartbeatExpiry r t) s = .next u)) ∧
    (isolated s r = false ∨ s.fuse.variant.standIn = false → exec (.heartbeatRearm r) s = .next s) ∧
    (ComplexActs s → isolated s r = true → s.fuse.variant.standIn = true → exec (.heartbeatRearm r) s = .next
      ((List.range 1023).foldl (fun u n => if n % 4 = r ∧ (u.tenant n).state = 1 then armHeartbeat u n else u) s))

/-! ## Lanes, engines, random numbers and the vault -/

/-- A running lane's prefetch slot is filled from its region's queue (R230). -/
def Sys2Proof.Claims.prefetched (s : State) (p : PageId) : State :=
  if running s p && ! isSparePage p then fillUnit s p fun _ => true else s

/-- A free lane takes the next job and checks it: one that passes is bound and its item stamped, one that does not is
refused with its status (R220, R230, R235, R447). -/
def Sys2Proof.Claims.TakesNext (ins : Instr) (s : State) (p : PageId) (r : Nat) (check : State → Nat → Job → BindRes) : Prop :=
  (laneReady s p = false → exec ins s = .next (prefetched s p)) ∧
  (laneReady s p = true → takeJob s p (fun _ => true) = none → exec ins s = .next (prefetched s p)) ∧
  (∀ j t, laneReady s p = true → takeJob s p (fun _ => true) = some (j, t) →
    let u := (check t r j).2
    (∀ i, (check t r j).1 = .ok i → exec ins s = .next (prefetched (stampItem
      (u.setLane p { u.lane p with cur := some { i with bound := u.time.ns } }) i.item
        fun x => (x.1, some (x.2.1.getD u.time.ns), x.2.2)) p)) ∧
    (∀ st, (check t r j).1 = .error st → exec ins s = .next (prefetched (refuseJob u p j st) p)))

/-- A test of a stopped page's site: TEST_EN lets it run and its result is kept; a page in any other state refuses it (R48,
R54, R232). -/
def Sys2Proof.Claims.TestRuns (ins : Option Byte → Instr) (s : State) (p : PageId) (pass vec fail : Fld) (code : Nat) : Prop :=
  ComplexActs s → live s p = true → ∀ res : Option Byte,
    (stateOf s p ≠ stOff → stateOf s p ≠ stStopped → exec (ins res) s = .next (accessErr s p)) ∧
    (stateOf s p = stOff ∨ stateOf s p = stStopped →
      (s.flag p CTRL_TEST_EN = false → exec (ins res) s = .next s) ∧
      (s.flag p CTRL_TEST_EN = true → exec (ins res) s = .next (katResult s p pass vec fail code (res.map BitVec.toNat))))

/-- R92, R220, R227, R228, R230, R232, R235, R240, R241: a free lane takes the next job and checks it, a cipher lane an egress
seal job first, and its prefetch slot is filled; a job that ends leaves its lane free and writes what it computed; the vectors
of a site pass or fail it.
Completes: cipherJobBind, hashJobBind, cipherJobDone, hashJobDone, discardZeroiseDone, cphTestRun, hshTestRun,
laneStartupVectorsDone. -/
def Obligations.LaneJobsBindCheckAndEnd : Prop :=
  ∀ (s : State) r k,
    (s.seals r = [] → TakesNext (.cipherJobBind r k) s (.cph r k) r cipherCheck) ∧
    (∀ x l, s.seals r = x :: l →
      (laneReady s (.cph r k) = true → exec (.cipherJobBind r k) s = .next (prefetched
        ((s.setSeals r l).setLane (.cph r k) { s.lane (.cph r k) with sealing := some x }) (.cph r k))) ∧
      (laneReady s (.cph r k) = false → exec (.cipherJobBind r k) s = .next (prefetched s (.cph r k)))) ∧
    TakesNext (.hashJobBind r k) s (.hsh r k) r hashCheck ∧
    (Unarmed s (.cph r k) → live s (.cph r k) = true →
      (∀ x, (s.lane (.cph r k)).sealing = some x → exec (.cipherJobDone r k) s = .next (endSeal s (.cph r k) r x)) ∧
      (∀ j, (s.lane (.cph r k)).sealing = none → (s.lane (.cph r k)).cur = some j → j.slot ≠ noSlot →
        let d := j.desc
        let o := cipherRun s r j
        let ends := fun u st n out => Host.Outcome.next (endJob u (.cph r k) r j st o.blocks n out 0x07 0x08)
        let compares := dOp d = 3 ∨ (dOp d = 1 ∧ dMode d = 6)
        (o.status = 0 → dLast d = true → compares → fabricRead s r j.core (dCmp d) (dTag d) ≠ o.out16 →
          (dMode d ≤ 6 → exec (.cipherJobDone r k) s =
            ends (jobWrite s r j (dDst d) (zeros o.out.length)) stVERIFY_FAIL 0 []) ∧
          (6 < dMode d → exec (.cipherJobDone r k) s = ends s stVERIFY_FAIL 0 [])) ∧
        (o.status ≠ 0 ∨ dLast d = false ∨ ¬ compares ∨ fabricRead s r j.core (dCmp d) (dTag d) = o.out16 →
          ∀ out, (compares → out = []) → (¬ compares → out = o.out16) →
          (dMode d ≤ 6 → exec (.cipherJobDone r k) s =
            ends (writeArea (jobWrite s r j (dDst d) o.out) r j o.chain) o.status o.out.length out) ∧
          (6 < dMode d → exec (.cipherJobDone r k) s = ends (writeArea s r j o.chain) o.status o.out.length out)))) ∧
    (∀ j, (s.lane (.cph r k)).sealing = none → (s.lane (.cph r k)).cur = some j → j.slot = noSlot → Unarmed s (.cph r k) →
      exec (.cipherJobDone r k) s = .next s) ∧
    (∀ j, Unarmed s (.hsh r k) → (s.lane (.hsh r k)).cur = some j → live s (.hsh r k) = true →
      let d := j.desc
      let ch := if dFirst d then Chain.start [] else (jobChain s r j j.parentGen).getD (Chain.start [])
      let o := hashSeg (dMode d) j.key (dFirst d) (dLast d) ch (fabricRead s r j.core (dSrc d) (dLen d))
      let res := if dTag d = 0 then o.out else o.out.take (dTag d)
      let ends := fun u st out => Host.Outcome.next (endJob u (.hsh r k) r j st o.blocks 0 out 0x09 0)
      (dLast d = false → exec (.hashJobDone r k) s = ends (writeArea s r j o.chain) stOK []) ∧
      (dLast d = true → dOp d = 3 → exec (.hashJobDone r k) s =
        ends s (if fabricRead s r j.core (dCmp d) (dTag d) = res then stOK else stVERIFY_FAIL) []) ∧
      (dLast d = true → dOp d ≠ 3 →
        (res.length ≤ 16 → exec (.hashJobDone r k) s = ends s stOK (res.take 16)) ∧
        (16 < res.length → exec (.hashJobDone r k) s = ends (jobWrite s r j (dCmp d) res) stOK (res.take 16)))) ∧
    ((s.lane (.cph r k)).cur = none → (s.lane (.cph r k)).sealing = none → exec (.cipherJobDone r k) s = .next s) ∧
    ((s.lane (.hsh r k)).cur = none → exec (.hashJobDone r k) s = .next s) ∧
    (∀ p written u j st l, unitOf p = some (r, u) → (s.lane p).discard = (j, st) :: l →
      let v := s.setLane p { s.lane p with discard := l }
      let w := if u = .engine then zeroOutputs v r j written
        else if u = .cipher ∧ dMode j.desc ≤ 6 then jobWrite v r j (dDst j.desc) (zeros (min written (dLen j.desc))) else v
      (st = none → exec (.discardZeroiseDone p written) s = .next w) ∧
      (∀ c, st = some c → j.slot ≠ noSlot →
        exec (.discardZeroiseDone p written) s = .next (complete w j.core j.slot (laneWord c 0 0 []))) ∧
      (∀ c, st = some c → j.slot = noSlot → exec (.discardZeroiseDone p written) s = .next (endItems w [j.item] c))) ∧
    TestRuns (.cphTestRun r k ·) s (.cph r k) CPH_KAT_PASS CPH_KAT_VECTOR CPH_KAT_FAIL 0x53 ∧
    TestRuns (.hshTestRun r k ·) s (.hsh r k) HSH_KAT_PASS HSH_KAT_VECTOR HSH_KAT_FAIL 0x5B ∧
    (∀ a b, live s (.cls r) = true →
      let t := poolVectors s (logicalPages s r .cipher) [.cph r 16, .cph r 17] a CPH_KAT_PASS CPH_KAT_VECTOR CPH_KAT_FAIL 0x53
      exec (.laneStartupVectorsDone r a b) s = .next
        (poolVectors t (logicalPages t r .hash) [.hsh r 4] b HSH_KAT_PASS HSH_KAT_VECTOR HSH_KAT_FAIL 0x5B))

/-- R242, R245 to R253, R255, R258, R272, R274: an engine takes a job that the dispatcher may grant, checks it, runs its
function on the operands loaded for it and posts its completion, and a result check that fails fails the engine; microcode is
loaded before MEAS_4 is sealed, and the vectors of a site pass or fail it.
Completes: engineJobBind, engineJobDone, microcodeLoad, microcodeLoadDone, engineStartupVectorsDone, pkeTestRun. -/
def Obligations.EngineJobsRunAndMicrocodeLoads : Prop :=
  ∀ (s : State) r k,
    (laneReady s (.pke r k) = false ∨ odmGrants s r = false → exec (.engineJobBind r k) s = .next s) ∧
    (laneReady s (.pke r k) = true → odmGrants s r = true → pickJob s r .engine (mayBind s r) = none →
      (pickJob s r .engine (fun _ => true) = none → exec (.engineJobBind r k) s = .next s) ∧
      (∀ j, pickJob s r .engine (fun _ => true) = some j →
        exec (.engineJobBind r k) s = .next (s.bump (.odm r) ODM_PASSED))) ∧
    (∀ j, laneReady s (.pke r k) = true → odmGrants s r = true → pickJob s r .engine (mayBind s r) = some j →
      let u := if pickJob s r .engine (fun _ => true) = some j then s else s.bump (.odm r) ODM_PASSED
      let x := engineCheck (grantJob u r .engine j) r j
      (∀ st, x.1 = .error st → exec (.engineJobBind r k) s =
        .next (complete (x.2.bump (.pke r k) PKE_REFUSED) j.core j.slot (engWord st 0 0))) ∧
      (∀ i, x.1 = .ok i →
        let v := x.2.bump (.odm r) ODM_BYTES_IN (opTotal i.ops 0)
        let w := stampItem (v.setLane (.pke r k) { v.lane (.pke r k) with cur := some i }) i.item
          fun t => (t.1, some (t.2.1.getD v.time.ns), t.2.2)
        Unarmed w (.odm r) → exec (.engineJobBind r k) s = .next w)) ∧
    (∀ j, (s.lane (.pke r k)).cur = some j → live s (.pke r k) = true → odmGrants s r = true → Unarmed s (.pke r k) →
      (engineRun s j = .error .mismatch → exec (.engineJobDone r k) s = .next (failBlock s (.pke r k) 0x64 false)) ∧
      (∀ st, engineRun s j = .error (.status st) → exec (.engineJobDone r k) s = .next (endEngine s (.pke r k) r j st 0 0)) ∧
      (∀ o, engineRun s j = .ok o → o.key = none → exec (.engineJobDone r k) s =
        .next (endEngine (copyOut s r j o.outs) (.pke r k) r j stOK 0 (opTotal j.ops 1))) ∧
      (∀ o bits opt, engineRun s j = .ok o → o.key = some (bits, opt) →
        let x := placeGenerated s 0 j.tenant (eSpec j.desc) (genCurve j.desc) bits opt
        (∀ st, x = .error st → exec (.engineJobDone r k) s =
          .next (endEngine (quotaCounted s j.tenant st) (.pke r k) r j st 0 0)) ∧
        (∀ h t, x = .ok (h, t) → exec (.engineJobDone r k) s =
          .next (endEngine (copyOut t r j o.outs) (.pke r k) r j stOK h (opTotal j.ops 1))))) ∧
    (odmGrants s r = false → Unarmed s (.pke r k) → exec (.engineJobDone r k) s = .next s) ∧
    ((s.lane (.pke r k)).cur = none → exec (.engineJobDone r k) s = .next s) ∧
    (∀ words : BitVec 15, ComplexActs s → live s (.odm r) = true →
      let refused := setIrq (raiseErr (s.setFlag (.odm r) ODM_UC_REFUSED true) (.odm r) 12 0x6B) (.odm r) 17
      (s.fld .vlt VLT_MEAS_SEAL / 16 % 2 = 1 ∨ words = 0 ∨ 16384 < words.toNat →
        exec (.microcodeLoad r words) s = .next refused) ∧
      (s.fld .vlt VLT_MEAS_SEAL / 16 % 2 = 0 → words ≠ 0 → words.toNat ≤ 16384 → exec (.microcodeLoad r words) s =
        .next ((((s.setFld (.odm r) ODM_UC_WORDS words.toNat).setFlag (.odm r) ODM_UC_REFUSED false).setFlag (.odm r)
          ODM_UC_GO true).setFlag (.odm r) ODM_UC_DONE false))) ∧
    (live s (.odm r) = true → s.flag (.odm r) ODM_UC_GO = true →
      let a := s.fld (.odm r) ODM_UC_SRC_LO + s.fld (.odm r) ODM_UC_SRC_HI * 2 ^ 32
      let head := physRead s a 64
      let code := physRead s (a + 64) (8 * s.fld (.odm r) ODM_UC_WORDS)
      let u : Ucode := { code := code, funcs := beNat (slice head 16 16), version := field head 8 4 }
      let t := (({ s with ucode := oset s.ucode r (some u) }.setFlag (.odm r) ODM_UC_GO false).setFlag (.odm r)
        ODM_UC_DONE true).setFld (.odm r) ODM_UC_CRC (crc32 code)
      exec (.microcodeLoadDone r) s = .next (setIrq ((enginePages t r).foldl (fun v q =>
        (v.setFld q PKE_UC_VER u.version).setFld q PKE_UC_CRC (crc32 code)) t) (.odm r) 16)) ∧
    (s.flag (.odm r) ODM_UC_GO = false → exec (.microcodeLoadDone r) s = .next s) ∧
    (∀ a, live s (.odm r) = true → exec (.engineStartupVectorsDone r a) s = .next (poolVectors s (logicalPages s r .engine)
      [.pke r 4] a PKE_KAT_PASS PKE_KAT_VECTOR PKE_KAT_FAIL 0x65)) ∧
    TestRuns (.pkeTestRun r k ·) s (.pke r k) PKE_KAT_PASS PKE_KAT_VECTOR PKE_KAT_FAIL 0x65

/-- R293 to R300, R302: the entropy source, its seed queue and raw mode, and the expanders it seeds.
Completes: sourceStartupDone, conditionedBlockRelease, oscillatorHealthFail, expanderInstantiated, drbgGenerateRequest,
drbgReseed, rngRawEnable, rngRawArm, rngRawFull, rngRawPermit. -/
def Obligations.RandomSourceSeedsTheExpanders : Prop :=
  ∀ s : State,
    (∀ fails, stateOf s .rng = stStarting →
      let bad := fails.filter (· < 40)
      let t := setSites (setSites s RNG_OSC_FAIL_LO RNG_OSC_FAIL_HI (siteMask bad)) RNG_OSC_USE_LO RNG_OSC_USE_HI
        (siteMask (((List.range 40).filter fun i => ! bad.contains i).take 32))
      let u := t.setFlag .rng RNG_SRC_STATUS_STARTUP_DONE true
      exec (.sourceStartupDone fails) s = .next (setState (refreshSource
        ((u.setAux .rng { u.auxOf .rng with waiting := [] }).setFlag .rng STAT_SPARE_IN_USE false)) .rng stRunning)) ∧
    (∀ fails, stateOf s .rng ≠ stStarting → exec (.sourceStartupDone fails) s = .next s) ∧
    (running s .rng = true → s.flag .rng RNG_SRC_STATUS_STARTUP_DONE = true → rawMode s = false → Unarmed s .rng →
      let n := (sitesOf (oscUse s)).length
      let q := s.seedQ ++ (List.range n).map fun i => sha384 (beBytes 128 (Config.rawEntropy (s.fresh + i)).toNat)
      exec .conditionedBlockRelease s = .next (setSeedQ (s.takeFresh n) (q.drop (q.length - 32)))) ∧
    (∀ site held, running s .rng = true → (oscUse s).testBit site = true → site < 40 →
      let t := s.bump .rng RNG_HT_FAILS
      let u := setSites t RNG_OSC_FAIL_LO RNG_OSC_FAIL_HI (siteMask (site :: sitesOf (oscFail t)))
      let v := setSites u RNG_OSC_USE_LO RNG_OSC_USE_HI (siteMask ((sitesOf (oscUse u)).filter (· ≠ site)))
      let w := raiseErrs (v.bumpSat .rng HEALTH_UNCORR) .rng [9] 0x70
      let x := setIrq (w.bump .rng RNG_DISCARDS (if rawMode s then 0 else min held 32)) .rng 16
      exec (.oscillatorHealthFail site held) s =
        .next (refreshSource (oscAwait (postEvent x .rng 0xB001 (BitVec.ofNat 32 site)) site))) ∧
    (∀ site held, (oscUse s).testBit site = false → exec (.oscillatorHealthFail site held) s = .next s) ∧
    (∀ r, takeSeed s = none →
      (exec (.expanderInstantiated r) s = .next s) ∧ (exec (.drbgReseed r) s = .next s)) ∧
    (∀ r b t, live s (.rnx r) = true → stateOf s (.rnx r) = stStarting → s.flag .rng RNG_SRC_STATUS_STARTUP_DONE = true →
      takeSeed s = some (b, t) →
      let g := drbgStart t r b
      let u := (freshSeed (t.bump (.rnx r) RNG_KAT_PASS) r).setFlag (.rnx r) RNG_DRBG_STATUS_SEEDED true
      let boom := fun k v => { key := k, v := v, words := [], tag := [], filling := true : Boom }
      let key := mget (fun _ => []) u.stateKeys r
      (key ≠ [] → exec (.expanderInstantiated r) s = .next (setState (u.setBoom r (boom g.1 g.2)) (.rnx r) stRunning)) ∧
      (key = [] →
        let k := drbgGen g.1 g.2 32
        exec (.expanderInstantiated r) s = .next (setState
          ({ u with stateKeys := mset (fun _ => []) u.stateKeys r k.1 }.setBoom r (boom k.2.1 k.2.2)) (.rnx r) stRunning))) ∧
    (∀ r, running s (.rnx r) = true → s.flag (.rnx r) RNG_DRBG_STATUS_SEEDED = true →
      s.flag (.rnx r) RNG_DRBG_STATUS_LIMIT = false → boomFills s r = true →
      (s.boom r).words.length + wordsReserved s r + 128 ≤ 8192 → Unarmed s (.rnx r) →
      let g := drbgGen (s.boom r).key (s.boom r).v 1024
      ∃ t, exec (.drbgGenerateRequest r) s = .next t ∧ t.booms = (s.setBoom r { s.boom r with
        key := g.2.1, v := g.2.2, words := (s.boom r).words ++ chunks 8 g.1,
        filling := ! decide (8192 < (s.boom r).words.length + wordsReserved s r + 256) }).booms) ∧
    (∀ r, Unarmed s (.rnx r) → s.flag (.rnx r) RNG_DRBG_STATUS_SEEDED = false ∨ boomFills s r = false →
      exec (.drbgGenerateRequest r) s = .next s) ∧
    (∀ r b t, running s (.rnx r) = true → s.flag (.rnx r) RNG_DRBG_STATUS_SEEDED = true →
      4096 ≤ s.fld (.rnx r) RNG_DRBG_STATUS_REQS → takeSeed s = some (b, t) →
      exec (.drbgReseed r) s = .next (freshSeed ((t.setBoom r { t.boom r with
        key := (drbgReseed (t.boom r).key (t.boom r).v b).1, v := (drbgReseed (t.boom r).key (t.boom r).v b).2 }).bump
          (.rnx r) RNG_RESEEDS) r)) ∧
    (rawMode s = false → exec .rngRawFull s = .next s) ∧
    (ComplexActs s → rawMode s = false →
      (lifeOpen s = true ∨ s.flag .rng RNG_RAW_PERMIT = true → expandersIdle s = true → exec (.rngRawEnable true) s =
        .next ((s.setFlag .rng RNG_RAW_CTRL_EN true).setFlag .rng RNG_SRC_STATUS_RAW true)) ∧
      ((lifeOpen s = false ∧ s.flag .rng RNG_RAW_PERMIT = false) ∨ expandersIdle s = false →
        exec (.rngRawEnable true) s = .next (accessErr s .rng)) ∧
      exec (.rngRawEnable false) s = .next s) ∧
    (ComplexActs s → rawMode s = true → exec (.rngRawEnable true) s = .next s ∧
      (let t := (((s.setFlag .rng RNG_RAW_CTRL_EN false).setFlag .rng RNG_SRC_STATUS_RAW false).setFlag .rng
          RNG_RAW_CTRL_ARM false).setFlag .rng RNG_RAW_STATUS_FULL false
       let u := (setSeedQ { t.setFld .rng RNG_RAW_STATUS_WORDS 0 with rawWin := [] } []).setFlag .rng
          RNG_SRC_STATUS_STARTUP_DONE false
       exec (.rngRawEnable false) s = .next (if running u .rng then setState u .rng stStarting else u))) ∧
    (∀ sel : BitVec 6, ComplexActs s → let t := s.setFld .rng RNG_RAW_CTRL_SEL sel.toNat
      (rawMode t = true → sel.toNat < 40 ∨ sel.toNat = 63 → exec (.rngRawArm sel) s =
        .next ((t.setFlag .rng RNG_RAW_CTRL_ARM true).setFlag .rng RNG_RAW_STATUS_FULL false)) ∧
      (rawMode t = false ∨ (40 ≤ sel.toNat ∧ sel.toNat ≠ 63) → exec (.rngRawArm sel) s = .next t)) ∧
    (rawMode s = true → s.flag .rng RNG_RAW_CTRL_ARM = true →
      ∃ t, exec .rngRawFull s = .next t ∧ t.rawWin.length = 4096 ∧ t.fresh = s.fresh + 1 ∧
        t.flag .rng RNG_RAW_CTRL_ARM = false ∧ t.fld .rng RNG_RAW_STATUS_WORDS = 1024) ∧
    (ComplexActs s → (s.fld .vlt VLT_MEAS_SEAL).testBit 5 = false →
      exec .rngRawPermit s = .next (s.setFlag .rng RNG_RAW_PERMIT true)) ∧
    (ComplexActs s → (s.fld .vlt VLT_MEAS_SEAL).testBit 5 = true → exec .rngRawPermit s = .next (accessErr s .rng))

/-- R186, R199 to R209, R212, R213, R215: measurements and their seal, migration, masks, refills, the vault's start and its own
operations.
Completes: measWrite, measSeal, migConfirm, migrationRewrapDone, migrationConfirmDone, keyCacheRemask, nvmBankRemask,
bbramRemask, vaultMaskReseed, writeAllowanceRefill, counterWriteRefill, vaultStartup, vltSeal, vltInfo, vaultDebugAccess. -/
def Obligations.VaultKeepsMeasurementsMigrationAndMasks : Prop :=
  ∀ s : State,
    (∀ n w v, ComplexActs s → n < 8 → w < 12 →
      (measOpen s n = true → exec (.measWrite n w v) s = .next (s.setReg .vlt (0x100 + 48 * n + 4 * w) v)) ∧
      (measOpen s n = false → exec (.measWrite n w v) s = .next (accessErr s .vlt))) ∧
    (∀ v : Byte, ComplexActs s → let t := s.setFld .vlt VLT_MEAS_SEAL (Nat.lor (s.fld .vlt VLT_MEAS_SEAL) v.toNat)
      (v.toNat.testBit 4 = true → (s.fld .vlt VLT_MEAS_SEAL).testBit 4 = false → exec (.measSeal v) s = .next (deriveRoot t)) ∧
      (v.toNat.testBit 4 = false ∨ (s.fld .vlt VLT_MEAS_SEAL).testBit 4 = true → exec (.measSeal v) s = .next t)) ∧
    (∀ v, v ≠ 0xA5 → exec (.migConfirm v) s = .next s) ∧
    (ComplexActs s →
      (s.sys.mig ≠ mgTRIAL ∨ vaultStatus s ≠ none ∨ (s.sys.raise = true ∧ ctrReady s floorCtr = false) →
        exec (.migConfirm 0xA5) s = .next (accessErr s .vlt)) ∧
      (s.sys.mig = mgTRIAL → vaultStatus s = none →
        let t := { s with sys := { s.sys with
          curWrap := 1 - s.sys.curWrap, slot := 1 - s.sys.slot, cur := s.sys.target, target := s.sys.cur
          versions := s.sys.newVers, newVers := [], raise := false
          toRewrap := (validTmks s).length, rewrapped := 0 } }
        (s.sys.raise = false → exec (.migConfirm 0xA5) s = .next (setMig t mgCONFIRMING)) ∧
        (s.sys.raise = true → ctrReady s floorCtr = true → exec (.migConfirm 0xA5) s =
          .next (setMig (ctrWrite t floorCtr (field s.sys.newVers 0 4)) mgCONFIRMING)))) ∧
    (s.sys.mig = mgREWRAP → vaultStatus s = none →
      let t := mapOther s fun x i key => wrapTmk x i key (otherRoot s)
      exec .migrationRewrapDone s = .next (setMig { t with sys := { t.sys with rewrapped := t.sys.toRewrap } } mgARMED)) ∧
    (s.sys.mig = mgCONFIRMING → vaultStatus s = none →
      let t := mapOther s fun _ _ _ => []
      exec .migrationConfirmDone s =
        .next (setMig { t with sys := { t.sys with target := [], toRewrap := 0, rewrapped := 0 } } mgIDLE)) ∧
    (s.sys.mig = mgIDLE → exec .migrationRewrapDone s = .next s ∧ exec .migrationConfirmDone s = .next s) ∧
    (∀ fails, remasks s = false → exec .keyCacheRemask s = .next s ∧ exec (.nvmBankRemask fails) s = .next s ∧
      exec .vaultMaskReseed s = .next s) ∧
    (remasks s = true →
      exec .keyCacheRemask s = .next (((opresent s.keys).foldl (fun u e => remaskSlot u e.1) s).bump .vlt VLT_REMASK_CACHE) ∧
      (∀ fails,
        let t := (opresent s.recs).foldl (fun u e => settleRec u e.1 e.2) s
        let b := (t.sys.bank + 1) % 4
        let seed := (maskBytes t 32).1
        let u := (maskBytes t 32).2
        let v := if u.root.a = [] then u else
          { remaskRoot u (patch (rootData u) (80 + 32 * b) seed) with
            nvm := { u.nvm with cells := copyBank u u.sys.bank b seed } }
        let w := (fails.filter fun x => decide (x < 400)).foldl (fun w x => retireSector w (400 * b + x)) v
        exec (.nvmBankRemask fails) s = .next ({ w with sys := { w.sys with bank := b } }.bump .vlt VLT_REMASK_NVM)) ∧
      (∀ k t, vaultRandom s 32 = (some k, t) → exec .vaultMaskReseed s = .next ({ t with
        maskGen := { key := k, ctr := 0, seeded := t.time.tick } }.setFlag .vlt VLT_STATUS_MASK_STALE false)) ∧
      (∀ t, vaultRandom s 32 = (none, t) →
        (t.time.tick < t.maskGen.seeded + 60000000 ∨ t.flag .vlt VLT_STATUS_MASK_STALE = true →
          exec .vaultMaskReseed s = .next t) ∧
        (t.maskGen.seeded + 60000000 ≤ t.time.tick → t.flag .vlt VLT_STATUS_MASK_STALE = false →
          exec .vaultMaskReseed s = .next (setIrq (t.setFlag .vlt VLT_STATUS_MASK_STALE true) .vlt 20)))) ∧
    (s.root.a = [] → exec .bbramRemask s = .next s) ∧
    (s.root.a ≠ [] → exec .bbramRemask s = .next (remaskRoot s (rootData s))) ∧
    exec .writeAllowanceRefill s = .next (s.setFld .vlt VLT_NVM_ALLOW (min 60000 (allowance s + 1))) ∧
    (∀ n, n < 8192 → exec (.counterWriteRefill n) s = .next (s.setCtr n { s.ctr n with used := (s.ctr n).used - 1 })) ∧
    (∀ bad, stateOf s .vlt ≠ stStarting → exec (.vaultStartup bad) s = .next s) ∧
    (∀ bad, stateOf s .vlt = stStarting → (s.fld .vlt VLT_MEAS_SEAL).testBit 4 = true →
      let t : State := { s with keys := [] }
      let u := applyMig (firstRoot (if rootValid t then reconcile t bad else t))
      (rootValid u = true → exec (.vaultStartup bad) s =
        .next (setState (deriveRoot (if u.nvm.fell then fellAll u else u)) .vlt stRunning)) ∧
      (rootValid u = false → exec (.vaultStartup bad) s = .next (setState (deriveRoot
        ((fellAll u).setFlag .vlt VLT_STATUS_ERASED (decide (u.sys.cur ≠ [])))) .vlt stRunning))) ∧
    (ComplexActs s → handleTenant (s.reg .vlt 0x060) ≠ s.fld .vlt VLT_EXT_TEN →
      exec .vltSeal s = .next (vltOpDone s stNOT_AUTHORISED) ∧ exec .vltInfo s = .next (vltOpDone s stNOT_AUTHORISED)) ∧
    (ComplexActs s → handleTenant (s.reg .vlt 0x060) = s.fld .vlt VLT_EXT_TEN →
      let h := s.reg .vlt 0x060
      (∀ k t i tmk, s.fld .vlt VLT_OP_INDEX < (s.tenant (s.fld .vlt VLT_EXT_TEN)).extCount →
        resolveKey s h = (.ok k, t) → handleClass h = 0 → k.bits.length ≤ 32 →
        activeTmk t (s.fld .vlt VLT_EXT_TEN) = some i → tmkOf t (s.fld .vlt VLT_EXT_TEN) i = some tmk →
        exec .vltSeal s = .next (vltOpDone { t with
          hbm := memWrite t.hbm ((t.tenant (s.fld .vlt VLT_EXT_TEN)).extBase * 4096 + 128 * s.fld .vlt VLT_OP_INDEX)
            (extBlock t (s.fld .vlt VLT_EXT_TEN) (s.fld .vlt VLT_OP_INDEX) i tmk k) } stOK)) ∧
      (∀ st, vaultStatus s = some st → exec .vltInfo s = .next (vltOpDone s st)) ∧
      (∀ st, vaultStatus s = none → infoOf s h = none → resolveRaw s h = .error st →
        exec .vltInfo s = .next (vltOpDone s st)) ∧
      (∀ a n st p g, vaultStatus s = none → infoOf s h = some (a, n, st, p, g) →
        let t := (s.setReg .vlt 0x068 (BitVec.ofNat 32 (field a 0 4))).setReg .vlt 0x06C
          (BitVec.ofNat 32 (byteAt a 4 * 2 ^ 24 + n % 256 * 2 ^ 16 + st * 256 + p))
        exec .vltInfo s = .next (vltOpDone ((t.setReg .vlt 0x070 (BitVec.ofNat 32 g)).setReg .vlt 0x074
          (BitVec.ofNat 32 (if p = 255 then 0 else tmkGen s (handleTenant h) p))) stOK))) ∧
    exec .vaultDebugAccess s = .next ((setIrq (accessErr s .vlt) .vlt 21).bumpSat .vlt VLT_DBG_REFUSED)

/-! ## The pair link, roles and epochs -/

/-- R381, R382, R384 to R386, R400: the link opens for the partner that every check of R382 admits, and closes; a copy ends
SYNCING, and a heartbeat changes no role.
Completes: pairLinkUp, pairLinkDown, pairLaneBlockLock, pairJoinTimeout, fullCopyDone, pairHeartbeatLost,
pairHeartbeatPresent, parUncorrectableError. -/
def Obligations.PairLinkAdmitsItsPartnerAlone : Prop :=
  ∀ s : State,
    (running s .par = true → ∀ (lanes : Byte) x, lanes ≠ 0 →
      let t := ((s.setFld .par PAIR_STATUS_LANES lanes.toNat).setFlag .par PAIR_STATUS_ID_REFUSED
        (! partnerKnown (s.setFld .par PAIR_STATUS_LANES lanes.toNat) x)).setFlag .par PAIR_STATUS_FMT_MISMATCH (! x.format)
      (partnerKnown t x = false ∨ x.format = false → exec (.pairLinkUp lanes x) s = .next (raiseErr t .par 12 0xB2)) ∧
      (partnerKnown t x = true → x.format = true → exec (.pairLinkUp lanes x) s = .next (meetPartner
        { t.setFlag .par PAIR_STATUS_LINK_UP true with pair := { t.pair with partner := x.role } } x))) ∧
    (∀ x : Partner, x.devid ≠ peerId s ∨ x.cert = false ∨ x.life ≠ lifeState s → partnerKnown s x = false) ∧
    (running s .par = false → ∀ lanes x, exec (.pairLinkUp lanes x) s = .next s) ∧
    (∀ a, s.flag .par PAIR_STATUS_LINK_UP = false → exec (.pairLinkDown a) s = .next s) ∧
    (s.flag .par PAIR_STATUS_LINK_UP = true →
      exec (.pairLinkDown true) s = .next (linkDown (raiseErr s .par 9 0xB0)) ∧
      exec (.pairLinkDown false) s = .next (linkDown (s.setFld .par PAIR_STATUS_LANES 0))) ∧
    (running s .par = true → ∀ (n : BitVec 3) lock, let t := s.setFlag .par ⟨0x048, 16 + n.toNat, 1⟩ lock
      (t.fld .par PAIR_STATUS_LANES ≠ 0 → exec (.pairLaneBlockLock n lock) s = .next t) ∧
      (t.fld .par PAIR_STATUS_LANES = 0 → t.flag .par PAIR_STATUS_LINK_UP = true →
        exec (.pairLaneBlockLock n lock) s = .next (linkDown t)) ∧
      (t.flag .par PAIR_STATUS_LINK_UP = false → exec (.pairLaneBlockLock n lock) s = .next t)) ∧
    (s.role = roNONE → exec .pairJoinTimeout s = .next { s with pair := { s.pair with joining := false } }) ∧
    (s.role ≠ roNONE → exec .pairJoinTimeout s = .next s) ∧
    (∀ mib copy, s.role = roSYNCING → s.flag .par PAIR_STATUS_LINK_UP = true →
      let t := ((copy.foldl applyItem s).setFld .par PAIR_COPY_TOTAL mib.toNat).setFld .par PAIR_COPY_DONE mib.toNat
      let u := setIrq (setRole t.takeFresh roSTANDBY (openCause t)) .par 18
      exec (.fullCopyDone mib copy) s = .next { u with pair := { u.pair with lastDelta := u.time.tick } }) ∧
    (∀ mib copy, s.role ≠ roSYNCING → exec (.fullCopyDone mib copy) s = .next s) ∧
    (let t := { s.setFlag .par PAIR_STATUS_PEER_HB false with balls := { s.balls with hbIn := false } }
     exec .pairHeartbeatLost s = .next (if s.flag .par PAIR_STATUS_PEER_HB then setIrq t .par 21 else t)) ∧
    exec .pairHeartbeatPresent s = .next
      { s.setFlag .par PAIR_STATUS_PEER_HB true with balls := { s.balls with hbIn := true } } ∧
    (∀ parity, stateOf s .par ≠ stOff → stateOf s .par ≠ stFailed →
      exec (.parUncorrectableError parity) s = .next (parFail s 0xB1 parity)) ∧
    (∀ parity, stateOf s .par = stOff ∨ stateOf s .par = stFailed → exec (.parUncorrectableError parity) s = .next s)

/-- R387 to R398: an active unit closes its epochs, makes its lease bounds usable as they are acknowledged, and is fenced
or left alone when four epochs pass in silence; a standby applies deltas in epoch order and is promoted when they stop.
Completes: epochClose, deltaReceived, deltaAckReceived, standbyTimeout, roleMessageReceived, pairPromote, partnerPromotedMsg,
partnerWithdrawMsg, pairSwitch, switchDrainTimeout, abandonState. -/
def Obligations.PairRolesFollowEpochsAndMessages : Prop :=
  ∀ s : State,
    (∀ (bytes sent : BitVec 24) retries, s.role = roACTIVE → Unarmed s .par →
      let t := closeEpoch s bytes.toNat sent.toNat retries.toNat
      (t.pair.paired = false → exec (.epochClose bytes sent retries) s = .next t) ∧
      (t.pair.paired = true → t.pair.heard = true → exec (.epochClose bytes sent retries) s =
        .next { t with pair := { t.pair with heard := false, silent := 0 } }) ∧
      (t.pair.paired = true → t.pair.heard = false →
        let u := { t with pair := { t.pair with silent := t.pair.silent + 1 } }
        (t.pair.silent < 3 → exec (.epochClose bytes sent retries) s = .next u) ∧
        (3 ≤ t.pair.silent → t.balls.hbIn = true → exec (.epochClose bytes sent retries) s = .next (becomeFenced u 1)) ∧
        (3 ≤ t.pair.silent → t.balls.hbIn = false → exec (.epochClose bytes sent retries) s = .next (becomeAlone u 4)))) ∧
    (∀ bytes sent : Nat, ∀ retries, s.pair.paired = true →
      let t := (setEpoch s (s.epoch + 1)).setFld .par PAIR_DELTA_LAST bytes
      let u := if s.flag .par PAIR_STATUS_LINK_UP then t.bump .par PAIR_RETRY retries else t
      let d : Delta := { epoch := s.epoch, bytes := bytes, time := s.time.ns, items := changed u }
      (closeEpoch s bytes sent retries).pair.unacked = s.pair.unacked ++ [d]) ∧
    (∀ bytes sent retries, s.role ≠ roACTIVE → exec (.epochClose bytes sent retries) s = .next s) ∧
    (∀ d e, s.pair.applied = some e → d.epoch ≤ e → exec (.deltaReceived d) s = .next s) ∧
    (∀ d, s.role = roSYNCING ∨ s.role = roSTANDBY → s.flag .par PAIR_STATUS_LINK_UP = true →
      (∀ e, s.pair.applied = some e → e < d.epoch) →
      exec (.deltaReceived d) s = .next (applyStaged false (stageDelta d s.pair.staged) s)) ∧
    (∀ d e, s.pair.applied = some e → d.epoch = e + 1 → applyStaged false [d] s =
      { applyDelta s d with pair := { (applyDelta s d).pair with staged := [] } } ∧
      (applyDelta s d).pair.applied = some d.epoch ∧ (applyDelta s d).time.ns = d.time) ∧
    (∀ d e, s.pair.applied = some e → e + 1 < d.epoch →
      applyStaged false [d] s = { s with pair := { s.pair with staged := [d] } }) ∧
    (∀ e standby, s.epoch ≤ e → exec (.deltaAckReceived e standby) s = .next s) ∧
    (∀ e standby, s.role = roACTIVE → s.pair.paired = true → s.flag .par PAIR_STATUS_LINK_UP = true → e < s.epoch →
      let t := s.setFld .par PAIR_ACKED_LO e
      let acked := fun l : Lease => if l.epoch ≤ e then { l with acked := l.bound } else l
      let u := { t with
        leases := mmap (fun _ => none) (fun x : Option Lease => x.map acked) t.leases
        pair := { t.pair with
          unacked := t.pair.unacked.filter (fun d => e < d.epoch), silent := 0, heard := true
          partner := if standby then roSTANDBY else roSYNCING } }
      exec (.deltaAckReceived e standby) s = .next (releaseHeld (refreshBacklog u (u.fld .par PAIR_BACKLOG)) (some e))) ∧
    (s.role = roSTANDBY →
      exec .standbyTimeout s = .next (promote (advanceTo s (s.pair.lastDelta + 200)) 1) ∧
      exec (.roleMessageReceived false) s = .next (promote s 3) ∧
      exec (.roleMessageReceived true) s = .next (takePartner
        { promote s 3 with pair := { (promote s 3).pair with partner := roSTANDBY } }) ∧
      (ComplexActs s → running s .par = true → exec .pairPromote s = .next (promote s 2))) ∧
    (s.role ≠ roSTANDBY → exec .standbyTimeout s = .next s ∧ ∀ x, exec (.roleMessageReceived x) s = .next s) ∧
    (ComplexActs s → running s .par = false → exec .pairPromote s = .next (pairRefused s)) ∧
    (ComplexActs s → s.role = roNONE → running s .par = true →
      exec .pairPromote s = .next (setRole { s with pair := { s.pair with joining := false } } roALONE 2)) ∧
    (s.role = roACTIVE →
      exec .partnerPromotedMsg s = .next (becomeFenced s 3) ∧ exec .partnerWithdrawMsg s = .next (becomeAlone s 3) ∧
      (ComplexActs s → exec .pairPromote s = .next (pairRefused s)) ∧
      (ComplexActs s → s.pair.paired = true → s.flag .par PAIR_STATUS_LINK_UP = true → s.pair.partner = roSTANDBY →
        exec .pairSwitch s = .next { s with pair := { s.pair with switching := true } }) ∧
      (s.pair.switching = true → ∃ t, exec .switchDrainTimeout s = .next t ∧ t.pair.partner = roACTIVE ∧
        t.pair.staged = []) ∧
      (s.pair.switching = false → exec .switchDrainTimeout s = .next s)) ∧
    (s.role ≠ roACTIVE → exec .partnerPromotedMsg s = .next s ∧ exec .partnerWithdrawMsg s = .next s ∧
      (ComplexActs s → exec .pairSwitch s = .next (pairRefused s)) ∧ exec .switchDrainTimeout s = .next s) ∧
    (ComplexActs s →
      let t := becomeNone (discardLasting (discardHeld (endAllItems s none))) 2
      exec .abandonState s = .next { t.setFlag .par PAIR_STATUS_CONFLICT false with
       pair := { t.pair with joining := running t .par } })

/-! ## Tamper, supplies, the test port, resets and the boot -/

/-- R404 to R416, R420, R487, R488: a trip is logged and answered, re-arms when its condition has been absent, and the
stimulus tests, the log, the response registers and the cell behave as their rules say.
Completes: tamperTrip, monitorRearm, tmpRespWrite, tmpCfgWrite, blazeLogNvmWriteDone, tmpLogRead, stimulusTestPeriod,
tmpTestRun, stimulusWindowClose, tmpLogicParity, batteryDomainError, cellInserted, vholdCharged, holdUpExhausted. -/
def Obligations.TamperMonitorsTripRearmAndLog : Prop :=
  ∀ s : State,
    (∀ (v : BitVec 16) pulsed,
      let w := v &&& ~~~ (monBit 5 ||| monBit 7)
      let t := { s with tmp := { s.tmp with
        present := s.tmp.present ||| w, cell := s.tmp.cell && ! decide (monIn w 0x10) } }
      let stops := tripping s w ≠ [] ∧ (bufFull t = true ∨ ∃ m ∈ tripping s w, 1 ≤ respOf t m) ∧ pulsed = false ∧ s.tmp.power = true
      (stops → exec (.tamperTrip v pulsed) s = .next (tripMonitors (stopTransition t) (tripping s w) false)) ∧
      (¬ stops → exec (.tamperTrip v pulsed) s = .next (tripMonitors t (tripping s w) (pulsed && s.lcs.prog.isSome)))) ∧
    (∀ m, 1 ≤ m → m ≤ 16 → exec (.monitorRearm m) s = .next { s with tmp := { s.tmp with
      present := s.tmp.present &&& ~~~ monBit m, disarmed := s.tmp.disarmed &&& ~~~ monBit m } }) ∧
    (∀ m, m = 0 ∨ 16 < m → exec (.monitorRearm m) s = .next s) ∧
    (∀ v, ComplexActs s →
      let sealed := (s.fld .vlt VLT_MEAS_SEAL).testBit 5
      let lowers := ∃ k < 16, respField (floored s v) (k + 1) < respField (floored s s.tmp.resp) (k + 1)
      let w := cfgStored s v
      let old := cfgStored s s.tmp.cfg
      let weakens := (cfgLoopA old = true ∧ cfgLoopA w = false) ∨ (cfgLoopB old = true ∧ cfgLoopB w = false) ∨
        cfgFail w < cfgFail old ∨ cfgPeriod w < cfgPeriod old
      (sealed = false ∨ ¬ lowers → exec (.tmpRespWrite v) s = .next { s with tmp := { s.tmp with resp := floored s v } }) ∧
      (sealed = true → lowers → exec (.tmpRespWrite v) s = .next (accessErr s .tmp)) ∧
      (sealed = false ∨ ¬ weakens → exec (.tmpCfgWrite v) s = .next { s with tmp := { s.tmp with cfg := w } }) ∧
      (sealed = true → weakens → exec (.tmpCfgWrite v) s = .next (accessErr s .tmp))) ∧
    (∀ e l, s.tmp.power = true → s.tmp.buf = e :: l → s.tmp.log.length < 4096 →
      exec .blazeLogNvmWriteDone s = .next (logAppend { s with tmp := { s.tmp with buf := l } } e)) ∧
    (s.tmp.power = false ∨ s.tmp.buf = [] → exec .blazeLogNvmWriteDone s = .next s) ∧
    (ComplexActs s → exec .tmpLogRead s = .next (s.bump .tmp TMP_LOG_CURSOR)) ∧
    (s.tmp.power = true → exec .stimulusTestPeriod s = .next
      (queueTest { s with tmp := { s.tmp with nextTest := s.tmp.nextTest % 16 + 1 } } s.tmp.nextTest false)) ∧
    (s.tmp.power = false → exec .stimulusTestPeriod s = .next s) ∧
    (∀ sel : BitVec 5, s.flag .tmp TMP_TEST_RUN = true → exec (.tmpTestRun sel) s = .next s) ∧
    (∀ sel : BitVec 5, ComplexActs s → s.flag .tmp TMP_TEST_RUN = false → sel.toNat = 0 ∨ 16 < sel.toNat →
      exec (.tmpTestRun sel) s = .next (s.setFld .tmp TMP_TEST_SEL sel.toNat)) ∧
    (∀ sel : BitVec 5, ComplexActs s → s.flag .tmp TMP_TEST_RUN = false → 1 ≤ sel.toNat → sel.toNat ≤ 16 → exec (.tmpTestRun sel) s =
      .next (queueTest ((((s.setFld .tmp TMP_TEST_SEL sel.toNat).setFlag .tmp TMP_TEST_RUN true).setFlag .tmp TMP_TEST_DONE
        false).setFlag .tmp TMP_TEST_FAIL false) sel.toNat true)) ∧
    (∀ a b, s.tmp.tests = [] → exec (.stimulusWindowClose a b) s = .next s) ∧
    (∀ m sw l tripped persists, s.tmp.tests = (m, sw) :: l →
      let t := markTesting { s with tmp := { s.tmp with tests := l } }
      let u := if sw then ((t.setFlag .tmp TMP_TEST_RUN false).setFlag .tmp TMP_TEST_DONE true).setFlag .tmp TMP_TEST_FAIL
        (! tripped) else t
      let v := if tripped then u.bump .tmp TMP_TESTS else testFailed u m
      let real := (persists = true ∨ (monIn s.tmp.present m = true ∧ monIn s.tmp.disarmed m = false)) ∧ monRuns v m = true ∧
        monIn v.tmp.disarmed m = false
      (real → exec (.stimulusWindowClose tripped persists) s = .next (tripMonitors v [m] false)) ∧
      (¬ real → exec (.stimulusWindowClose tripped persists) s = .next v)) ∧
    (∀ code : Byte, exec (.tmpLogicParity code) s = .next ((List.range 16).foldl (fun u k => queueTest u (k + 1) false)
      (reportUncorrected s .tmp code.toNat))) ∧
    (s.tmp.power = true → exec .batteryDomainError s = .next (eraseNow (enterLock (reportUncorrected s .tmp 0xC3)))) ∧
    (s.tmp.power = false → exec .batteryDomainError s = .next (respond s 2 false) ∧
      ∃ t, exec .batteryDomainError s = .next t ∧ t.root.a = [] ∧ t.root.b = [] ∧ t.tmp.pending = true) ∧
    exec .cellInserted s = .next { s with tmp := { s.tmp with cell := true, vhold := false } } ∧
    (s.tmp.cell = true → exec .vholdCharged s = .next { s with tmp := { s.tmp with vhold := true } }) ∧
    (s.tmp.cell = false → exec .vholdCharged s = .next s) ∧
    (s.tmp.power = true ∨ s.tmp.cell = true → exec .holdUpExhausted s = .next s) ∧
    (s.tmp.power = false → s.tmp.cell = false → ∃ t, exec .holdUpExhausted s = .next t ∧ t.root.a = [] ∧ t.root.b = [] ∧
      t.dr = none ∧ t.time.rtcUs = 0 ∧ t.recs = s.recs)

/-- R25, R403, R433, R454, R458, R460, R465 to R473, R484: a rail that falls closes the vault and the key bus at once and
trips at the end of its window; the test port keeps the instruction that the life-cycle state allows; the boot flash, the
HBM controller, the clocks and the I2C target.
Completes: railFall, railReturn, railFallWindowEnd, idcode, bypass, extest, samplePreload, dtmcs, dmi, bflTransfer,
bflTransferDone, bflCommand, hbmTrainingDone, hbmInitDone, hbmScrubPass, hbmTempThreshold, serdesPllLockLoss, dieTempAlarm,
i2cRead. -/
def Obligations.SuppliesTestPortFlashAndHbm : Prop :=
  ∀ s : State,
    (∀ core, s.tmp.power = true → ∃ t, exec (.railFall core) s = .next t ∧ t.shut = true ∧ t.tmp.window.isSome = true ∧
      t.tmp.core = (s.tmp.core && ! core) ∧ t.tmp.io = (s.tmp.io && core) ∧ t.recs = s.recs) ∧
    (∀ core, s.tmp.power = false → exec (.railFall core) s = .next s ∧ exec (.railReturn core) s = .next s) ∧
    (s.tmp.power = true → exec (.railReturn true) s = .next (reopen { s with tmp := { s.tmp with core := true } }) ∧
      exec (.railReturn false) s = .next (reopen { s with tmp := { s.tmp with io := true } })) ∧
    (s.tmp.window = none → exec .railFallWindowEnd s = .next s) ∧
    (∀ x y, s.tmp.window = some (x, y, true) →
      exec .railFallWindowEnd s = .next (powerLoss { s with tmp := { s.tmp with window := none } })) ∧
    (∀ x y, s.tmp.window = some (x, y, false) →
      let t := { s with tmp := { s.tmp with window := none } }
      let v := (if x then monBit 5 else 0) ||| (if y then monBit 7 else 0)
      exec .railFallWindowEnd s = .next (reopen (tripMonitors t (tripping t v) s.lcs.prog.isSome))) ∧
    (∀ core, s.shut = true → s.devLocked = true → ∀ t, exec (.railReturn core) s = .next t → t.shut = true) ∧
    (let keep := fun (c : Byte) => { s with balls := { s.balls with tapIr := c } }
     let act := { s.bumpSat .dbg DBG_REFUSED with balls := { s.balls with tapIr := 0xFF } }
     exec .idcode s = .next (keep 0x01) ∧ exec .bypass s = .next (keep 0xFF) ∧
     (scanAllowed (lifeState s) = true → exec .extest s = .next (keep 0x00) ∧ exec .samplePreload s = .next (keep 0x02)) ∧
     (scanAllowed (lifeState s) = false → exec .extest s = .next act ∧ exec .samplePreload s = .next act) ∧
     (debugAllowed (lifeState s) = true → exec .dtmcs s = .next (keep 0x10) ∧ exec .dmi s = .next (keep 0x11)) ∧
     (debugAllowed (lifeState s) = false → exec .dtmcs s = .next act ∧ exec .dmi s = .next act)) ∧
    (s.flag .bfl BFL_XFER_GO = true → exec .bflTransfer s = .next s) ∧
    (ComplexActs s → running s .bfl = true → s.flag .bfl BFL_XFER_GO = false → exec .bflTransfer s =
      .next (((s.setFlag .bfl BFL_XFER_GO true).setFlag .bfl BFL_XFER_DONE false).setFlag .bfl BFL_XFER_ERR false)) ∧
    (s.flag .bfl BFL_XFER_GO = false → ∀ x, exec (.bflTransferDone x) s = .next s) ∧
    (s.flag .bfl BFL_XFER_GO = true →
      let t := setIrq ((s.setFlag .bfl BFL_XFER_GO false).setFlag .bfl BFL_XFER_DONE true) .bfl 16
      (∀ b, exec (.bflTransferDone (.data b)) s = .next (setDigest (physWrite t (addr40 t .bfl BFL_DST_LO BFL_DST_HI)
        (fitR (t.fld .bfl BFL_LEN) b)) (sha384 (fitR (t.fld .bfl BFL_LEN) b)))) ∧
      exec (.bflTransferDone .timeout) s =
        .next (raiseErr (setDigest (t.setFlag .bfl BFL_XFER_ERR true) []) .bfl 11 0xFD) ∧
      exec (.bflTransferDone .uncorrectable) s =
        .next (raiseErr (setDigest (t.setFlag .bfl BFL_XFER_ERR true) []) .bfl 9 0xFC)) ∧
    (∀ op reply, ComplexActs s → running s .bfl = true →
      let guarded := (lifeState s = lcSHIPPED ∨ lifeState s = lcOWNED) ∧ flashGuarded s op = true
      (guarded → exec (.bflCommand op reply) s = .next (accessErr s .bfl)) ∧
      (¬ guarded → flashWrites op = true → exec (.bflCommand op reply) s = .next s) ∧
      (¬ guarded → flashWrites op = false →
        let n := min (min (s.fld .bfl BFL_CMD_LEN) 256) reply.length
        let window := fun (u : State) w =>
          let new := slice (reply.take n) (4 * w) 4
          u.setReg .bfl (0x100 + 4 * w) (BitVec.ofNat 32 (leNat (new ++ (wordLe (u.reg .bfl (0x100 + 4 * w))).drop new.length)))
        exec (.bflCommand op reply) s = .next ((List.range ((n + 3) / 4)).foldl window s))) ∧
    (∀ us : BitVec 24, stateOf s .hbc = stStarting →
      exec (.hbmTrainingDone false us) s =
        .next (setState (raiseErr (s.setFld .hbc HBC_TRAIN_US us.toNat) .hbc 9 0xF4) .hbc stFailed) ∧
      (∀ k t, vaultRandom ((s.setFld .hbc HBC_TRAIN_US us.toNat).setFlag .hbc HBC_STATUS_TRAINED true) 64 = (some k, t) →
        exec (.hbmTrainingDone true us) s = .next (setState ({ t with hbcKeys := k, hbm := [] }.setFlag .hbc
          HBC_STATUS_KEYED true) .hbc stRunning)) ∧
      (∀ t, vaultRandom ((s.setFld .hbc HBC_TRAIN_US us.toNat).setFlag .hbc HBC_STATUS_TRAINED true) 64 = (none, t) →
        exec (.hbmTrainingDone true us) s = .next t)) ∧
    (running s .hbc = true → exec .hbmInitDone s =
      .next ((s.setFlag .hbc HBC_STATUS_INIT_DONE true).setFlag .hbc HBC_STATUS_SCRUBBING true)) ∧
    (running s .hbc = true → s.flag .hbc HBC_STATUS_SCRUBBING = true →
      exec .hbmScrubPass s = .next (setIrq (s.bump .hbc HBC_SCRUB_PASSES) .hbc 16)) ∧
    (∀ t : BitVec 16,
      let u := (s.setFld .hbc HBC_TEMP t.toNat).setFlag .hbc HBC_STATUS_HOT (decide (340 < t.toInt))
      let rises := 380 < t.toInt ∧ (BitVec.ofNat 16 (s.fld .hbc HBC_TEMP)).toInt ≤ 380
      (rises → exec (.hbmTempThreshold t) s = .next (setIrq u .hbc 17)) ∧
      (¬ rises → exec (.hbmTempThreshold t) s = .next u)) ∧
    (∀ q : BitVec 6, exec (.serdesPllLockLoss q) s = .next (setIrq (raiseErr ((if q.toNat < 32 then
      s.setFlag .clk ⟨0x044, q.toNat, 1⟩ false else s.setFlag .clk CLK_STATUS_PAIR_LOCK false).bumpSat .clk CLK_SD_LOSS)
        .clk 9 0xF0) .clk 16)) ∧
    (∀ t : BitVec 16, let u := s.setFld .pwr PWR_TEMP t.toNat
      (4 * (u.fld .pwr PWR_TALARM : Int) < t.toInt → exec (.dieTempAlarm t) s = .next (setIrq u .pwr 16)) ∧
      (t.toInt ≤ 4 * (u.fld .pwr PWR_TALARM : Int) → exec (.dieTempAlarm t) s = .next u)) ∧
    (∀ c, s.tmp.power = true → exec (.i2cRead c) s = .next { s with balls := { s.balls with i2cOut := i2cByte s c } }) ∧
    (∀ c, s.tmp.power = false → exec (.i2cRead c) s = .next s)

/-- R425 to R432, R455 to R457, R461 to R464, R467, R86: the causes of a chip reset, the watchdog, the boot, READY, the ROM
and its service, and the life-cycle transitions.
Completes: powerOn, resetN, rstCmd, rstReady, watchdogHalf, watchdogExpiry, rstWdtKick, bootFailure, lcsArm, lcsProgramDone,
romStart, romReport, romLcsRequest. -/
def Obligations.ResetsBootAndTransitionsFollowTheirCauses : Prop :=
  ∀ s : State,
    exec .powerOn s = .next (chipReset { s with tmp := { s.tmp with power := true, core := true, io := true, window := none } }
      rcPOWER) ∧
    (s.tmp.power = true → exec .resetN s = .next (chipReset s rcRESETN)) ∧ (s.tmp.power = false → exec .resetN s = .next s) ∧
    (complexRuns s = true →
      exec (.rstCmd 0x000000C1) s = .next (chipReset s rcSOFT) ∧
      (∀ v, v ≠ 0x000000C1 → exec (.rstCmd v) s = .next (accessErr s .rst)) ∧
      (readyAllowed s = true → exec (.rstReady true) s =
        .next { s.setFlag .rst RST_READY true with balls := { s.balls with ready := true } }) ∧
      (readyAllowed s = false → exec (.rstReady true) s = .next (accessErr s .rst)) ∧
      exec (.rstReady false) s = .next { s.setFlag .rst RST_READY false with balls := { s.balls with ready := false } } ∧
      (s.fld .rst RST_WDT ≠ 0 →
        exec .watchdogHalf s = .next (setIrq (advanceTo s (s.time.wdt + 500 * s.fld .rst RST_WDT)) .rst 16) ∧
        exec .watchdogExpiry s = .next (chipReset (advanceTo s (s.time.wdt + 1000 * s.fld .rst RST_WDT)) rcWDT)) ∧
      (∀ typ status, s.lcs.stage = sgRUN → exec (.bootFailure typ status) s = .next (chipReset ((s.setFld .rst RST_BOOT_TYPE
        typ.toNat).setFld .rst RST_BOOT_STATUS status.toNat) rcBOOT)) ∧
      (s.fld .lcs LCS_REQ_LEN ≠ 0 → exec .lcsArm s = .next (chipReset s rcARM)) ∧
      (s.fld .lcs LCS_REQ_LEN = 0 → exec .lcsArm s = .next s) ∧
      (∀ f a b, s.lcs.stage = sgROM →
        let t := measure (applyRepairs s) 0 (beBytes 48 Config.romDigest.toNat)
        let u := debugSetup (tamperStart (romEnable (romEnable (finishErase t) .mgt) .bfl))
        let v := u.setFld .bfl BFL_SLOT_CUR u.sys.slot
        let staged := v.fld .rst RST_CAUSE = rcARM ∧ v.fld .lcs LCS_REQ_LEN ≠ 0
        let req := stagedReq v
        (¬ staged → exec (.romStart f a b) s = .next (romBoot v f)) ∧
        (∀ q, staged → reqRefused (clearReq v) req a b = .ok q →
          exec (.romStart f a b) s = .next (beginTransition (clearReq v) q)) ∧
        (∀ step st, staged → reqRefused (clearReq v) req a b = .error (step, st) → exec (.romStart f a b) s =
          .next (romBoot (postResult (clearReq v) st step (byteAt req 6) (byteAt req 7)) f))) ∧
      (∀ f a b, s.lcs.stage ≠ sgROM → exec (.romStart f a b) s = .next s)) ∧
    (s.fld .rst RST_WDT = 0 → exec .watchdogHalf s = .next s ∧ exec .watchdogExpiry s = .next s) ∧
    (ComplexActs s → exec .rstWdtKick s = .next { s with time := { s.time with wdt := s.time.tick } }) ∧
    (∀ x, s.lcs.prog = none → exec (.lcsProgramDone x) s = .next s) ∧
    (∀ t pub, s.lcs.prog = some (t, pub) →
      let u := s.setFlag .lcs LCS_STATUS_BUSY false
      exec (.lcsProgramDone none) s = .next (postResult (slotWritten { u with lcs := { u.lcs with stage := sgROM } } t pub)
        stOK 0 (lifeState s) t) ∧
      (∀ w, exec (.lcsProgramDone (some w)) s = .next (slotStopped (raiseErr { u with lcs := { u.lcs with stage := sgROM } }
        .lcs 9 0xD1) w))) ∧
    (∀ x y, (slotWritten s x y).fuse.slots = s.fuse.slots ++ [codeWord x]) ∧
    (∀ i t l, romTake s 0x0F10 = some (i, t) → elemsOf [may 0x1602 (lenIs 2)] i = .ok l → hasElem l 0x1602 = false →
      exec .romReport s = .next (romAnswer t i stOK [(0x1601, romInfo t)])) ∧
    (∀ i t l, romTake s 0x0F10 = some (i, t) → elemsOf [may 0x1602 (lenIs 2)] i = .ok l → hasElem l 0x1602 = true →
      (elemNat l 0x1602 < 4096 → exec .romReport s = .next (romAnswer t i stOK
        [(0x1601, romInfo t), (0x1603, ((t.tmp.log.drop (elemNat l 0x1602)).take 64).flatten)])) ∧
      (4096 ≤ elemNat l 0x1602 → exec .romReport s = .next (romAnswer t i stOPERAND_RANGE []))) ∧
    (∀ i t l a b, romTake s 0x0F11 = some (i, t) → elemsOf [must 0x1604 (lenIn 312 1088)] i = .ok l →
      (∀ q, reqRefused t (elemD l 0x1604) a b = .ok q → exec (.romLcsRequest a b) s = .next (beginTransition t q)) ∧
      (∀ step st, reqRefused t (elemD l 0x1604) a b = .error (step, st) → exec (.romLcsRequest a b) s = .next (romAnswer
        (postResult t st step (byteAt (elemD l 0x1604) 6) (byteAt (elemD l 0x1604) 7)) i st []))) ∧
    (s.romQ = [] → exec .romReport s = .next s ∧ ∀ a b, exec (.romLcsRequest a b) s = .next s)

/-! ## The block as a whole -/

/-- The command at the front of the queue leaves it and runs on the rest; with an empty queue 1 µs passes (log 1). -/
def Obligations.StepRunsTheFrontCommand : Prop :=
  (∀ (s : State) (c : Instr) (l : List Instr), s.pending = c :: l → step s = exec c { s with pending := l }) ∧
  (∀ s : State, s.pending = [] → step s = .next (idle s)) ∧
  ∀ (s : State) n w, s.withFetchWord n w = s

/-- The machine right after reset: nothing waits, every table is in canonical form, the cause of reset is power-on, the
drained blocks are OFF, the vault STARTING, the pair role is NONE and tenant 0 alone exists (R46, R50, R212, R379, R384, R455,
R456; the fused identity is the model's choice, log 2). -/
def Obligations.ResetLeavesTheBlockOffAndEmpty : Prop :=
  State.reset.pending = [] ∧ Canonical State.reset ∧ State.reset.fld .rst RST_CAUSE = 1 ∧
    stateOf State.reset .vlt = stStarting ∧
    (∀ p ∈ [PageId.rng, .htb, .tri, .par, .mgt, .bfl, .hbc, .lnk 0, .lnk 127, .cls 0, .sch 3, .ctx 0, .odm 0, .rnx 0, .pmc 0,
      .kcr 0 0, .kcr 3 31, .cph 0 0, .hsh 0 0, .pke 0 0], present State.reset p = true ∧ stateOf State.reset p = stOff) ∧
    (∀ p ∈ [PageId.top, .clk, .pwr, .rst, .lcs, .tmp, .evr, .ten, .dbg, .mpu 0], stateOf State.reset p = stRunning) ∧
    State.reset.role = roNONE ∧ (State.reset.tenant 0).state = 1 ∧ (State.reset.tenant 1).state = 0 ∧
    State.reset.chipFault = none ∧ State.reset.items = [] ∧ State.reset.sessions = [] ∧ State.reset.booms = []

/-- R40, R43, R44: every address of a page of the part names that page, so that no two pages share an address. -/
def Obligations.AddressesNameTheirPage : Prop :=
  ∀ (s : State) p o, present s p = true → o < 0x1000 → pageOfAddr (pageBase p + o) = some p

/-- R121, R143, R345, R495: a counter context gives out rising values and then none: the value drawn is the one it
holds, and afterwards it holds a higher one or is EXHAUSTED. -/
def Obligations.CounterContextsNeverRepeatAValue : Prop :=
  ∀ (s t : State) r idx v,
    (ctxCounter (s.ctxAt r idx) ≤ counterLast (s.ctxAt r idx).typ (ctxScheme (s.ctxAt r idx)) →
      ctxDraw s r idx = (.ok v, t) →
      v = ctxCounter (s.ctxAt r idx) ∧ (t.ctxAt r idx).typ = (s.ctxAt r idx).typ ∧
        (ctxExhausted (t.ctxAt r idx) = true ∨ v < ctxCounter (t.ctxAt r idx))) ∧
    ((s.ctxAt r idx).valid = true → 4 ≤ (s.ctxAt r idx).typ → (s.ctxAt r idx).typ ≤ 7 → ctxExhausted (s.ctxAt r idx) = true →
      ctxDraw s r idx = (.error stCOUNTER_EXHAUSTED, s))

/-- R151, R152: the detokenising map undoes the tokenising one on every string of decimal digits, under every key and
tweak. -/
def Obligations.DetokeniseUndoesTokenise : Prop :=
  ∀ (key tweak : Bytes) (x : List Nat), (∀ d ∈ x, d < 10) → ff1Dec key tweak (ff1Enc key tweak x) = x

/-- Every step keeps the memories, the registers, the protection entries and the prefix table in canonical form. -/
def Obligations.StepKeepsTheTablesCanonical : Prop :=
  ∀ s t : State, Canonical s → step s = .next t → Canonical t

/-- R55: what the FITTED registers read, and the rest of the part's fused identity, never changes; OTP life-cycle slots are
only added to; and a step takes the front command off the queue and leaves the rest as it was. -/
def Obligations.StepKeepsTheFusedIdentityAndTheQueue : Prop :=
  ∀ s t : State, step s = .next t →
    t.pending = s.pending.tail ∧ t.fuse.variant = s.fuse.variant ∧ t.fuse.devid = s.fuse.devid ∧ t.fuse.step = s.fuse.step ∧
      t.fuse.mgtMac = s.fuse.mgtMac ∧ t.fuse.uds = s.fuse.uds ∧ t.fuse.cert = s.fuse.cert ∧ t.fuse.tokens = s.fuse.tokens ∧
      ∃ l, t.fuse.slots = s.fuse.slots ++ l
end

