-- ==== Sys2Proof/Laws/SMap.lean ====
section
/-!
SUPPORT. The sparse map and the memories: reading after writing, other keys left alone, and the canonical form kept by
every operation.
-/
namespace Sys2Proof.Machine

/-! ## Reading after writing -/

/-- A key set to a value other than its default reads that value, in any map. -/
theorem mget_mset_of_ne {α : Type} [DecidableEq α] (d : Nat → α) (m : SMap α) (k : Nat) (v : α) (h : v ≠ d k) :
    mget d (mset d m k v) k = v := by
  induction m with
  | nil => simp [mset, h, mget]
  | cons e m ih =>
    obtain ⟨k', v'⟩ := e
    simp only [mset, h, if_false]
    by_cases h1 : k < k'
    · simp [h1, mget]
    · by_cases h2 : k = k'
      · simp [h2, mget]
      · simp [h1, h2, mget, ih]

/-- Another key keeps what it reads. -/
theorem mget_mset_other {α : Type} [DecidableEq α] (d : Nat → α) (m : SMap α) (k j : Nat) (v : α) (h : j ≠ k) :
    mget d (mset d m k v) j = mget d m j := by
  induction m with
  | nil =>
    by_cases hv : v = d k
    · simp [mset, hv]
    · simp [mset, hv, mget, h]
  | cons e m ih =>
    obtain ⟨k', v'⟩ := e
    simp only [mset]
    by_cases h1 : k < k'
    · by_cases hv : v = d k
      · simp [h1, hv]
      · simp [h1, hv, mget, h]
    · by_cases h2 : k = k'
      · subst h2
        by_cases hv : v = d k
        · simp [hv, mget, h]
        · simp [hv, mget, h]
      · simp [h1, h2, mget, ih]

/-- Writing a key twice leaves the second value, where the first is not the default. -/
theorem mset_mset_of_ne {α : Type} [DecidableEq α] (d : Nat → α) (m : SMap α) (k : Nat) (v w : α) (h : v ≠ d k) :
    mset d (mset d m k v) k w = mset d m k w := by
  induction m with
  | nil => simp [mset, h]
  | cons e m ih =>
    obtain ⟨k', v'⟩ := e
    by_cases h1 : k < k'
    · simp [mset, h1, h]
    · by_cases h2 : k = k'
      · simp [mset, h2, h2 ▸ h]
      · simp [mset, h1, h2, ih]

/-! ## The canonical form -/

/-- A lower bound may be weakened. -/
theorem mwfFrom_mono {α : Type} [DecidableEq α] (d : Nat → α) (m : SMap α) {lo hi : Nat} (h : lo ≤ hi)
    (hm : mwfFrom d hi m = true) : mwfFrom d lo m = true := by
  cases m with
  | nil => rfl
  | cons e m =>
    obtain ⟨k, v⟩ := e
    simp only [mwfFrom, Bool.and_eq_true, decide_eq_true_eq] at hm ⊢
    exact ⟨⟨le_trans h hm.1.1, hm.1.2⟩, hm.2⟩

/-- Below the keys of a map in canonical form every key reads its default. -/
theorem mget_below {α : Type} [DecidableEq α] (d : Nat → α) (m : SMap α) {lo k : Nat}
    (hm : mwfFrom d lo m = true) (h : k < lo) : mget d m k = d k := by
  induction m generalizing lo with
  | nil => rfl
  | cons e m ih =>
    obtain ⟨k', v'⟩ := e
    simp only [mwfFrom, Bool.and_eq_true, decide_eq_true_eq] at hm
    have h3 : k ≠ k' := by omega
    simp only [mget, h3, if_false]
    exact ih hm.2 (by omega)

/-- Writing keeps the canonical form above a bound. -/
theorem mwfFrom_mset {α : Type} [DecidableEq α] (d : Nat → α) (m : SMap α) (lo k : Nat) (v : α) (hk : lo ≤ k)
    (hm : mwfFrom d lo m = true) : mwfFrom d lo (mset d m k v) = true := by
  induction m generalizing lo with
  | nil =>
    by_cases hv : v = d k
    · simp [mset, hv, mwfFrom]
    · simp [mset, hv, mwfFrom, hk]
  | cons e m ih =>
    obtain ⟨k', v'⟩ := e
    simp only [mwfFrom, Bool.and_eq_true, decide_eq_true_eq] at hm
    simp only [mset]
    by_cases h1 : k < k'
    · by_cases hv : v = d k
      · simp [h1, hv, mwfFrom, hm]
      · simp only [h1, hv, mwfFrom, if_true, if_false, Bool.and_eq_true, decide_eq_true_eq]
        exact ⟨⟨hk, hv⟩, ⟨by omega, hm.1.2⟩, hm.2⟩
    · by_cases h2 : k = k'
      · subst h2
        by_cases hv : v = d k
        · simp only [lt_irrefl, hv, if_true, if_false]
          exact mwfFrom_mono d m (by omega) hm.2
        · simp only [lt_irrefl, hv, if_true, if_false, mwfFrom, Bool.and_eq_true, decide_eq_true_eq]
          exact ⟨⟨hk, hv⟩, hm.2⟩
      · simp only [h1, h2, if_false, mwfFrom, Bool.and_eq_true, decide_eq_true_eq]
        exact ⟨hm.1, ih (k' + 1) (by omega) hm.2⟩

/-- Writing keeps the canonical form. -/
theorem mwf_mset {α : Type} [DecidableEq α] (d : Nat → α) (m : SMap α) (k : Nat) (v : α) (hm : mwf d m = true) :
    mwf d (mset d m k v) = true := mwfFrom_mset d m 0 k v (Nat.zero_le k) hm

/-- In a map in canonical form a key reads what was written to it last, its default included. -/
theorem mget_mset_self {α : Type} [DecidableEq α] (d : Nat → α) (m : SMap α) (k : Nat) (v : α)
    (hm : mwf d m = true) : mget d (mset d m k v) k = v := by
  by_cases hv : v = d k
  · subst hv
    suffices H : ∀ lo, mwfFrom d lo m = true → mget d (mset d m k (d k)) k = d k from H 0 hm
    clear hm
    induction m with
    | nil => intro lo _; simp [mset, mget]
    | cons e m ih =>
      obtain ⟨k', v'⟩ := e
      intro lo hm
      simp only [mwfFrom, Bool.and_eq_true, decide_eq_true_eq] at hm
      by_cases h1 : k < k'
      · have h3 : k ≠ k' := by omega
        simp only [mset, h1, if_true, mget, h3, if_false]
        exact mget_below d m hm.2 (by omega)
      · by_cases h2 : k = k'
        · subst h2
          simp only [mset, lt_irrefl, if_true, if_false]
          exact mget_below d m hm.2 (by omega)
        · simp only [mset, h1, h2, if_false, mget]
          exact ih (k' + 1) hm.2
  · exact mget_mset_of_ne d m k v hv

/-- Dropping entries keeps the canonical form. -/
theorem mwfFrom_filter {α : Type} [DecidableEq α] (d : Nat → α) (m : SMap α) (lo : Nat) (p : Nat × α → Bool)
    (hm : mwfFrom d lo m = true) : mwfFrom d lo (m.filter p) = true := by
  induction m generalizing lo with
  | nil => rfl
  | cons e m ih =>
    obtain ⟨k, v⟩ := e
    simp only [mwfFrom, Bool.and_eq_true, decide_eq_true_eq] at hm
    by_cases h : p (k, v) = true
    · simp only [List.filter_cons, h, if_true, mwfFrom, Bool.and_eq_true, decide_eq_true_eq]
      exact ⟨hm.1, ih (k + 1) hm.2⟩
    · simp only [List.filter_cons, h]
      exact mwfFrom_mono d _ (by omega) (ih (k + 1) hm.2)

/-! ## Memories -/

/-- A stored byte keeps a memory's form. -/
theorem memSet_wf (m : SMap Byte) (a : Nat) (v : Byte) (h : Memory.wf m = true) : Memory.wf (memSet m a v) = true :=
  mwf_mset _ m a v h

/-- A stored string keeps a memory's form. -/
theorem memWrite_wf (m : SMap Byte) (a : Nat) (b : Bytes) (h : Memory.wf m = true) :
    Memory.wf (memWrite m a b) = true := by
  induction b generalizing m a with
  | nil => exact h
  | cons x b ih => exact ih (memSet m a x) (a + 1) (memSet_wf m a x h)

/-- A zeroed range keeps a memory's form. -/
theorem memZero_wf (m : SMap Byte) (a n : Nat) (h : Memory.wf m = true) : Memory.wf (memZero m a n) = true :=
  mwfFrom_filter _ m 0 _ h

/-- A byte outside a stored string reads as before. -/
theorem memGet_memWrite_outside (m : SMap Byte) (a : Nat) (b : Bytes) (x : Nat) (h : x < a ∨ a + b.length ≤ x) :
    memGet (memWrite m a b) x = memGet m x := by
  induction b generalizing m a with
  | nil => rfl
  | cons y b ih =>
    simp only [List.length_cons] at h
    rw [memWrite, ih _ _ (by omega)]
    exact mget_mset_other _ m a x y (by omega)

end Sys2Proof.Machine
end

