-- ==== Sys2Proof/Laws/Kreur.lean ====
section
/-!
SUPPORT. What the shared operations of the Kreur instructions can do: an instruction that may run passes its words,
spends its cycles and then applies its effect or takes its trap; a stack operation replaces the cells it pops.
-/
namespace Sys2Proof.Machine

/-- A core written twice holds the second value, where the first is not the empty core. -/
theorem State.setCore_setCore {s : State} {k : Nat} {c c' : Core} (h : c ≠ Core.empty) :
    (s.setCore k c).setCore k c' = s.setCore k c' := by
  simp only [State.setCore, mset_mset_of_ne (fun _ => Core.empty) s.cores k c c' h]

/-- A core written reads back, where it is not the empty core. -/
theorem State.core_setCore {s : State} {k : Nat} {c : Core} (h : c ≠ Core.empty) : (s.setCore k c).core k = c := by
  simp only [State.setCore, State.core, mget_mset_of_ne (fun _ => Core.empty) s.cores k c h]

/-- Another core is left alone. -/
theorem State.core_setCore_other {s : State} {k j : Nat} {c : Core} (h : j ≠ k) : (s.setCore k c).core j = s.core j :=
  mget_mset_other (fun _ => Core.empty) s.cores k j c h

/-- A core that runs a task is not the empty core. -/
theorem Core.ne_empty_of_run {c : Core} {n : Nat} (h : c.run = some n) : c ≠ Core.empty := by
  intro e
  rw [e] at h
  cases h

/-- An access to cells that hold no armed error is what it is without one (R48). -/
theorem touch_of_none {s : State} {p : PageId} {v : Victim} (h : (s.auxOf p).inject = none) : touch s p v = s := by
  simp [touch, h]

/-- An instruction on a core whose cells hold no armed error is its step. -/
theorem kRun_eq_kStep {s : State} {k g : Nat} {sense : Bool} {len cyc : Nat} {illegal : Bool}
    {f : State → Item → Core → Except Nat State} (hn : (s.auxOf (corePage k)).inject = none) :
    kRun s k g sense len cyc illegal f = kStep s k g sense len cyc illegal f := by
  simp [kRun, touch_of_none hn]

/-- What an instruction does whose task may run it and whose guard is open: its effect on the core that has passed its
words and cycles, or the trap that the effect answers, taken in the state before. -/
theorem kRun_open {s : State} {k g : Nat} {sense : Bool} {len cyc : Nat} {i : Item}
    {f : State → Item → Core → Except Nat State} {c' : Core}
    (hn : (s.auxOf (corePage k)).inject = none)
    (hi : (s.core k).run.bind s.item = some i) (hr : coreRuns s k = true) (hw : (s.core k).wait = none)
    (hf : fetchTrap s (coreRegion k) i (s.core k).pc = none) (hg : ¬ (g = 0 ∧ sense = true))
    (hp : predGet (s.core k) g ≠ sense)
    (hc : c' = { s.core k with pc := (s.core k).pc + BitVec.ofNat 16 len
                               cycles := ((s.core k).cycles + cyc) % 65536, busy := (s.core k).busy + cyc }) :
    kRun s k g sense len cyc false f = (match f (s.setCore k c') i c' with
      | .ok t => .next t
      | .error t => .next (trapTask s k i t)) := by
  subst hc
  rw [kRun_eq_kStep hn]
  simp [kStep, hi, hr, hw, hf, hg, hp] <;> rfl

/-- With its guard closed the words are passed and the cycles spent, and nothing else changes. -/
theorem kRun_closed {s : State} {k g : Nat} {sense : Bool} {len cyc : Nat} {i : Item}
    {f : State → Item → Core → Except Nat State}
    (hn : (s.auxOf (corePage k)).inject = none)
    (hi : (s.core k).run.bind s.item = some i) (hr : coreRuns s k = true) (hw : (s.core k).wait = none)
    (hf : fetchTrap s (coreRegion k) i (s.core k).pc = none) (hg : ¬ (g = 0 ∧ sense = true))
    (hp : predGet (s.core k) g = sense) :
    kRun s k g sense len cyc false f = .next (s.setCore k
      { s.core k with pc := (s.core k).pc + BitVec.ofNat 16 len
                      cycles := ((s.core k).cycles + cyc) % 65536, busy := (s.core k).busy + cyc }) := by
  rw [kRun_eq_kStep hn]
  simp [kStep, hi, hr, hw, hf, hg, hp]

/-- A reserved word, or the guard of the ILLEGAL trap, takes that trap whatever the rest of the instruction says. -/
theorem kRun_illegal {s : State} {k g : Nat} {sense : Bool} {len cyc : Nat} {i : Item} {illegal : Bool}
    {f : State → Item → Core → Except Nat State}
    (hn : (s.auxOf (corePage k)).inject = none)
    (hi : (s.core k).run.bind s.item = some i) (hr : coreRuns s k = true) (hw : (s.core k).wait = none)
    (hf : fetchTrap s (coreRegion k) i (s.core k).pc = none) (h : illegal = true ∨ (g = 0 ∧ sense = true)) :
    kRun s k g sense len cyc illegal f = .next (trapTask s k i trILLEGAL) := by
  rw [kRun_eq_kStep hn]
  simp [kStep, hi, hr, hw, hf, h]

/-- A stack operation with its cells there and room for its results replaces the cells and keeps the rest. -/
theorem stackOp_ok {n p : Nat} {f : List Cell → List Cell} {l pops pushes : List Cell} {c : Core} (hn : pops.length = n)
    (hds : c.ds = pops ++ l) (hp : pushes.length = p) (hr : l.length + p ≤ 32) (hf : f pops = pushes) :
    stackOp n p f c = .ok { c with ds := pushes ++ l } := by
  subst hn hp
  have h : ¬ c.ds.length < pops.length := by rw [hds]; simp
  simp [stackOp, hds, hf]
  omega

/-- A stack operation with too few cells takes the STACK trap. -/
theorem stackOp_short {n p : Nat} {f : List Cell → List Cell} {c : Core} (h : c.ds.length < n) :
    stackOp n p f c = .error trSTACK := by
  simp [stackOp, h]

end Sys2Proof.Machine
end

