-- ==== Sys2Proof/Laws/Regs.lean ====
section
/-!
SUPPORT. Registers and their fields: reading after writing, the other words of the map left alone, and the canonical
form of the register map.
-/
namespace Sys2Proof.Machine

/-- The number that a word with a field replaced stands for. -/
theorem Fld.toNat_put (f : Fld) (w : Word) (n : Nat) (hf : f.lo + f.width ≤ 32) :
    (f.put w n).toNat = w.toNat - f.get w * 2 ^ f.lo + n % 2 ^ f.width * 2 ^ f.lo := by
  have hw : w.toNat < 2 ^ 32 := w.isLt
  have h1 : n % 2 ^ f.width < 2 ^ f.width := Nat.mod_lt _ (Nat.two_pow_pos _)
  have h2 : n % 2 ^ f.width * 2 ^ f.lo + 2 ^ f.lo ≤ 2 ^ f.width * 2 ^ f.lo := by
    calc n % 2 ^ f.width * 2 ^ f.lo + 2 ^ f.lo = (n % 2 ^ f.width + 1) * 2 ^ f.lo := by ring
      _ ≤ 2 ^ f.width * 2 ^ f.lo := Nat.mul_le_mul_right _ h1
  -- the word is its part above the field, the field and its part below it
  obtain ⟨q, hq⟩ : ∃ q, q = w.toNat / 2 ^ f.lo / 2 ^ f.width := ⟨_, rfl⟩
  have e1 : w.toNat = 2 ^ f.lo * (w.toNat / 2 ^ f.lo) + w.toNat % 2 ^ f.lo := (Nat.div_add_mod _ _).symm
  have e2 : w.toNat / 2 ^ f.lo = 2 ^ f.width * q + f.get w := by rw [hq]; exact (Nat.div_add_mod _ _).symm
  have h3 : w.toNat % 2 ^ f.lo < 2 ^ f.lo := Nat.mod_lt _ (Nat.two_pow_pos _)
  have e3 : w.toNat - f.get w * 2 ^ f.lo = 2 ^ f.lo * 2 ^ f.width * q + w.toNat % 2 ^ f.lo := by
    have : w.toNat = 2 ^ f.lo * 2 ^ f.width * q + f.get w * 2 ^ f.lo + w.toNat % 2 ^ f.lo := by
      calc w.toNat = 2 ^ f.lo * (2 ^ f.width * q + f.get w) + w.toNat % 2 ^ f.lo := by rw [← e2]; exact e1
        _ = _ := by ring
    omega
  have hp : 2 ^ f.lo * 2 ^ f.width ∣ 2 ^ 32 := by
    rw [← pow_add]; exact pow_dvd_pow 2 hf
  obtain ⟨m, hm⟩ := hp
  have hqm : q + 1 ≤ m := by
    have : 2 ^ f.lo * 2 ^ f.width * q < 2 ^ f.lo * 2 ^ f.width * m := by
      rw [← hm]; omega
    exact Nat.lt_of_mul_lt_mul_left this
  have h4 : 2 ^ f.lo * 2 ^ f.width * (q + 1) ≤ 2 ^ 32 := by
    rw [hm]; exact Nat.mul_le_mul_left _ hqm
  have h5 : w.toNat - f.get w * 2 ^ f.lo + n % 2 ^ f.width * 2 ^ f.lo < 2 ^ 32 := by
    have : 2 ^ f.lo * 2 ^ f.width * (q + 1) = 2 ^ f.lo * 2 ^ f.width * q + 2 ^ f.width * 2 ^ f.lo := by ring
    omega
  simp only [Fld.put, BitVec.toNat_ofNat]
  exact Nat.mod_eq_of_lt h5

/-- A field reads the low bits of what was put into it. -/
theorem Fld.get_put (f : Fld) (w : Word) (n : Nat) (hf : f.lo + f.width ≤ 32) : f.get (f.put w n) = n % 2 ^ f.width := by
  have e : (f.put w n).toNat = w.toNat - f.get w * 2 ^ f.lo + n % 2 ^ f.width * 2 ^ f.lo := Fld.toNat_put f w n hf
  have e1 : w.toNat = 2 ^ f.lo * (w.toNat / 2 ^ f.lo) + w.toNat % 2 ^ f.lo := (Nat.div_add_mod _ _).symm
  have e2 : w.toNat / 2 ^ f.lo = 2 ^ f.width * (w.toNat / 2 ^ f.lo / 2 ^ f.width) + f.get w := (Nat.div_add_mod _ _).symm
  generalize hq : w.toNat / 2 ^ f.lo / 2 ^ f.width = q at e2
  have e3 : w.toNat = 2 ^ f.lo * (2 ^ f.width * q) + f.get w * 2 ^ f.lo + w.toNat % 2 ^ f.lo := by
    calc w.toNat = 2 ^ f.lo * (2 ^ f.width * q + f.get w) + w.toNat % 2 ^ f.lo := by rw [← e2]; exact e1
      _ = _ := by ring
  have e4 : (f.put w n).toNat = w.toNat % 2 ^ f.lo + 2 ^ f.lo * (2 ^ f.width * q + n % 2 ^ f.width) := by
    have : 2 ^ f.lo * (2 ^ f.width * q + n % 2 ^ f.width) = 2 ^ f.lo * (2 ^ f.width * q) + n % 2 ^ f.width * 2 ^ f.lo := by ring
    omega
  have h3 : w.toNat % 2 ^ f.lo < 2 ^ f.lo := Nat.mod_lt _ (Nat.two_pow_pos _)
  rw [Fld.get, e4, Nat.add_mul_div_left _ _ (Nat.two_pow_pos _), Nat.div_eq_of_lt h3, Nat.zero_add,
    Nat.mul_add_mod, Nat.mod_mod]

/-- A stored word reads back. -/
theorem State.reg_setReg (s : State) (p : PageId) (off : Nat) (v : Word) (h : mwf resetWord s.regs = true) :
    (s.setReg p off v).reg p off = v := mget_mset_self resetWord s.regs (pageBase p + off) v h

/-- A stored word leaves every other address alone. -/
theorem State.reg_setReg_other (s : State) (p q : PageId) (off o : Nat) (v : Word) (h : pageBase q + o ≠ pageBase p + off) :
    (s.setReg p off v).reg q o = s.reg q o := mget_mset_other resetWord s.regs _ _ v h

/-- A stored field reads back its low bits. -/
theorem State.fld_setFld (s : State) (p : PageId) (f : Fld) (n : Nat) (h : mwf resetWord s.regs = true)
    (hf : f.lo + f.width ≤ 32) : (s.setFld p f n).fld p f = n % 2 ^ f.width := by
  rw [State.setFld, State.fld, State.reg_setReg s p f.off _ h, Fld.get_put f _ n hf]

/-- A stored flag reads back. -/
theorem State.flag_setFlag (s : State) (p : PageId) (off lo : Nat) (b : Bool) (h : mwf resetWord s.regs = true)
    (hf : lo < 32) : (s.setFlag p ⟨off, lo, 1⟩ b).flag p ⟨off, lo, 1⟩ = b := by
  rw [State.flag, State.setFlag, State.fld_setFld s p _ _ h (by show lo + 1 ≤ 32; omega)]
  cases b <;> rfl

/-- A field of another word is left alone. -/
theorem State.fld_setFld_other (s : State) (p q : PageId) (f g : Fld) (n : Nat)
    (h : pageBase q + g.off ≠ pageBase p + f.off) : (s.setFld p f n).fld q g = s.fld q g := by
  rw [State.fld, State.fld, State.setFld, State.reg_setReg_other s p q _ _ _ h]

end Sys2Proof.Machine
end

