-- ==== Sys2Proof/Laws/State.lean ====
section
/-!
SUPPORT. What each named update of the state leaves alone: for every field it does not write, that the field stays.
-/
namespace Sys2Proof.Machine

/-- `setReg` writes `regs` alone. -/
@[simp] theorem State.setReg_keeps (s : State) (p : PageId) (off : Nat) (v : Word) :
    (s.setReg p off v).pending = s.pending ∧ (s.setReg p off v).fresh = s.fresh ∧ (s.setReg p off v).fuse = s.fuse ∧ (s.setReg p off v).aux = s.aux ∧
    (s.setReg p off v).balls = s.balls ∧ (s.setReg p off v).time = s.time ∧ (s.setReg p off v).repairMap = s.repairMap ∧
    (s.setReg p off v).chipFault = s.chipFault ∧ (s.setReg p off v).evr = s.evr ∧ (s.setReg p off v).ports = s.ports ∧
    (s.setReg p off v).brakeOps = s.brakeOps ∧ (s.setReg p off v).mirrorBad = s.mirrorBad ∧ (s.setReg p off v).hosts = s.hosts ∧
    (s.setReg p off v).mdio = s.mdio ∧ (s.setReg p off v).sessions = s.sessions ∧ (s.setReg p off v).windows = s.windows ∧
    (s.setReg p off v).items = s.items ∧ (s.setReg p off v).nextItem = s.nextItem ∧ (s.setReg p off v).ready = s.ready ∧
    (s.setReg p off v).cores = s.cores ∧ (s.setReg p off v).saved = s.saved ∧ (s.setReg p off v).prog = s.prog ∧
    (s.setReg p off v).progHash = s.progHash ∧ (s.setReg p off v).rings = s.rings ∧ (s.setReg p off v).timers = s.timers ∧
    (s.setReg p off v).ctxs = s.ctxs ∧ (s.setReg p off v).hbm = s.hbm ∧ (s.setReg p off v).sram = s.sram ∧ (s.setReg p off v).fb = s.fb ∧
    (s.setReg p off v).early = s.early ∧ (s.setReg p off v).laneQ = s.laneQ ∧ (s.setReg p off v).sealQ = s.sealQ ∧
    (s.setReg p off v).lanes = s.lanes ∧ (s.setReg p off v).tenants = s.tenants ∧ (s.setReg p off v).booms = s.booms ∧
    (s.setReg p off v).answers = s.answers ∧ (s.setReg p off v).leases = s.leases ∧ (s.setReg p off v).held = s.held ∧
    (s.setReg p off v).lookups = s.lookups ∧ (s.setReg p off v).devLocked = s.devLocked ∧ (s.setReg p off v).shut = s.shut ∧
    (s.setReg p off v).keys = s.keys ∧ (s.setReg p off v).recs = s.recs ∧ (s.setReg p off v).nvm = s.nvm ∧ (s.setReg p off v).ctrs = s.ctrs ∧
    (s.setReg p off v).root = s.root ∧ (s.setReg p off v).dr = s.dr ∧ (s.setReg p off v).maskGen = s.maskGen ∧
    (s.setReg p off v).cellGen = s.cellGen ∧ (s.setReg p off v).sys = s.sys ∧ (s.setReg p off v).activeTmks = s.activeTmks ∧
    (s.setReg p off v).mpus = s.mpus ∧ (s.setReg p off v).grants = s.grants ∧ (s.setReg p off v).stateKeys = s.stateKeys ∧
    (s.setReg p off v).sealed = s.sealed ∧ (s.setReg p off v).seedQ = s.seedQ ∧ (s.setReg p off v).rawWin = s.rawWin ∧
    (s.setReg p off v).pair = s.pair ∧ (s.setReg p off v).brakes = s.brakes ∧ (s.setReg p off v).brakeQ = s.brakeQ ∧
    (s.setReg p off v).romQ = s.romQ ∧ (s.setReg p off v).tmp = s.tmp ∧ (s.setReg p off v).lcs = s.lcs ∧ (s.setReg p off v).tri = s.tri ∧
    (s.setReg p off v).si = s.si ∧ (s.setReg p off v).rules = s.rules ∧ (s.setReg p off v).zones = s.zones ∧ (s.setReg p off v).ucode = s.ucode ∧
    (s.setReg p off v).curves = s.curves ∧ (s.setReg p off v).hbcKeys = s.hbcKeys :=
  ⟨rfl, rfl, rfl, rfl, rfl, rfl, rfl, rfl, rfl, rfl, rfl, rfl, rfl, rfl, rfl, rfl, rfl, rfl, rfl, rfl, rfl, rfl, rfl, rfl, rfl, rfl, rfl, rfl, rfl,
  rfl, rfl, rfl, rfl, rfl, rfl, rfl, rfl, rfl, rfl, rfl, rfl, rfl, rfl, rfl, rfl, rfl, rfl, rfl, rfl, rfl, rfl, rfl, rfl, rfl, rfl, rfl, rfl, rfl,
  rfl, rfl, rfl, rfl, rfl, rfl, rfl, rfl, rfl, rfl, rfl, rfl⟩

/-- `setAux` writes `aux` alone. -/
@[simp] theorem State.setAux_keeps (s : State) (p : PageId) (x : PageAux) :
    (s.setAux p x).pending = s.pending ∧ (s.setAux p x).fresh = s.fresh ∧ (s.setAux p x).fuse = s.fuse ∧ (s.setAux p x).regs = s.regs ∧
    (s.setAux p x).balls = s.balls ∧ (s.setAux p x).time = s.time ∧ (s.setAux p x).repairMap = s.repairMap ∧ (s.setAux p x).chipFault = s.chipFault ∧
    (s.setAux p x).evr = s.evr ∧ (s.setAux p x).ports = s.ports ∧ (s.setAux p x).brakeOps = s.brakeOps ∧ (s.setAux p x).mirrorBad = s.mirrorBad ∧
    (s.setAux p x).hosts = s.hosts ∧ (s.setAux p x).mdio = s.mdio ∧ (s.setAux p x).sessions = s.sessions ∧ (s.setAux p x).windows = s.windows ∧
    (s.setAux p x).items = s.items ∧ (s.setAux p x).nextItem = s.nextItem ∧ (s.setAux p x).ready = s.ready ∧ (s.setAux p x).cores = s.cores ∧
    (s.setAux p x).saved = s.saved ∧ (s.setAux p x).prog = s.prog ∧ (s.setAux p x).progHash = s.progHash ∧ (s.setAux p x).rings = s.rings ∧
    (s.setAux p x).timers = s.timers ∧ (s.setAux p x).ctxs = s.ctxs ∧ (s.setAux p x).hbm = s.hbm ∧ (s.setAux p x).sram = s.sram ∧
    (s.setAux p x).fb = s.fb ∧ (s.setAux p x).early = s.early ∧ (s.setAux p x).laneQ = s.laneQ ∧ (s.setAux p x).sealQ = s.sealQ ∧
    (s.setAux p x).lanes = s.lanes ∧ (s.setAux p x).tenants = s.tenants ∧ (s.setAux p x).booms = s.booms ∧ (s.setAux p x).answers = s.answers ∧
    (s.setAux p x).leases = s.leases ∧ (s.setAux p x).held = s.held ∧ (s.setAux p x).lookups = s.lookups ∧ (s.setAux p x).devLocked = s.devLocked ∧
    (s.setAux p x).shut = s.shut ∧ (s.setAux p x).keys = s.keys ∧ (s.setAux p x).recs = s.recs ∧ (s.setAux p x).nvm = s.nvm ∧
    (s.setAux p x).ctrs = s.ctrs ∧ (s.setAux p x).root = s.root ∧ (s.setAux p x).dr = s.dr ∧ (s.setAux p x).maskGen = s.maskGen ∧
    (s.setAux p x).cellGen = s.cellGen ∧ (s.setAux p x).sys = s.sys ∧ (s.setAux p x).activeTmks = s.activeTmks ∧ (s.setAux p x).mpus = s.mpus ∧
    (s.setAux p x).grants = s.grants ∧ (s.setAux p x).stateKeys = s.stateKeys ∧ (s.setAux p x).sealed = s.sealed ∧ (s.setAux p x).seedQ = s.seedQ ∧
    (s.setAux p x).rawWin = s.rawWin ∧ (s.setAux p x).pair = s.pair ∧ (s.setAux p x).brakes = s.brakes ∧ (s.setAux p x).brakeQ = s.brakeQ ∧
    (s.setAux p x).romQ = s.romQ ∧ (s.setAux p x).tmp = s.tmp ∧ (s.setAux p x).lcs = s.lcs ∧ (s.setAux p x).tri = s.tri ∧ (s.setAux p x).si = s.si ∧
    (s.setAux p x).rules = s.rules ∧ (s.setAux p x).zones = s.zones ∧ (s.setAux p x).ucode = s.ucode ∧ (s.setAux p x).curves = s.curves ∧
    (s.setAux p x).hbcKeys = s.hbcKeys :=
  ⟨rfl, rfl, rfl, rfl, rfl, rfl, rfl, rfl, rfl, rfl, rfl, rfl, rfl, rfl, rfl, rfl, rfl, rfl, rfl, rfl, rfl, rfl, rfl, rfl, rfl, rfl, rfl, rfl, rfl,
  rfl, rfl, rfl, rfl, rfl, rfl, rfl, rfl, rfl, rfl, rfl, rfl, rfl, rfl, rfl, rfl, rfl, rfl, rfl, rfl, rfl, rfl, rfl, rfl, rfl, rfl, rfl, rfl, rfl,
  rfl, rfl, rfl, rfl, rfl, rfl, rfl, rfl, rfl, rfl, rfl, rfl⟩

/-- `setItem` writes `items` alone. -/
@[simp] theorem State.setItem_keeps (s : State) (i : Nat) (v : Option Item) :
    (s.setItem i v).pending = s.pending ∧ (s.setItem i v).fresh = s.fresh ∧ (s.setItem i v).fuse = s.fuse ∧ (s.setItem i v).regs = s.regs ∧
    (s.setItem i v).aux = s.aux ∧ (s.setItem i v).balls = s.balls ∧ (s.setItem i v).time = s.time ∧ (s.setItem i v).repairMap = s.repairMap ∧
    (s.setItem i v).chipFault = s.chipFault ∧ (s.setItem i v).evr = s.evr ∧ (s.setItem i v).ports = s.ports ∧ (s.setItem i v).brakeOps = s.brakeOps ∧
    (s.setItem i v).mirrorBad = s.mirrorBad ∧ (s.setItem i v).hosts = s.hosts ∧ (s.setItem i v).mdio = s.mdio ∧
    (s.setItem i v).sessions = s.sessions ∧ (s.setItem i v).windows = s.windows ∧ (s.setItem i v).nextItem = s.nextItem ∧
    (s.setItem i v).ready = s.ready ∧ (s.setItem i v).cores = s.cores ∧ (s.setItem i v).saved = s.saved ∧ (s.setItem i v).prog = s.prog ∧
    (s.setItem i v).progHash = s.progHash ∧ (s.setItem i v).rings = s.rings ∧ (s.setItem i v).timers = s.timers ∧ (s.setItem i v).ctxs = s.ctxs ∧
    (s.setItem i v).hbm = s.hbm ∧ (s.setItem i v).sram = s.sram ∧ (s.setItem i v).fb = s.fb ∧ (s.setItem i v).early = s.early ∧
    (s.setItem i v).laneQ = s.laneQ ∧ (s.setItem i v).sealQ = s.sealQ ∧ (s.setItem i v).lanes = s.lanes ∧ (s.setItem i v).tenants = s.tenants ∧
    (s.setItem i v).booms = s.booms ∧ (s.setItem i v).answers = s.answers ∧ (s.setItem i v).leases = s.leases ∧ (s.setItem i v).held = s.held ∧
    (s.setItem i v).lookups = s.lookups ∧ (s.setItem i v).devLocked = s.devLocked ∧ (s.setItem i v).shut = s.shut ∧ (s.setItem i v).keys = s.keys ∧
    (s.setItem i v).recs = s.recs ∧ (s.setItem i v).nvm = s.nvm ∧ (s.setItem i v).ctrs = s.ctrs ∧ (s.setItem i v).root = s.root ∧
    (s.setItem i v).dr = s.dr ∧ (s.setItem i v).maskGen = s.maskGen ∧ (s.setItem i v).cellGen = s.cellGen ∧ (s.setItem i v).sys = s.sys ∧
    (s.setItem i v).activeTmks = s.activeTmks ∧ (s.setItem i v).mpus = s.mpus ∧ (s.setItem i v).grants = s.grants ∧
    (s.setItem i v).stateKeys = s.stateKeys ∧ (s.setItem i v).sealed = s.sealed ∧ (s.setItem i v).seedQ = s.seedQ ∧
    (s.setItem i v).rawWin = s.rawWin ∧ (s.setItem i v).pair = s.pair ∧ (s.setItem i v).brakes = s.brakes ∧ (s.setItem i v).brakeQ = s.brakeQ ∧
    (s.setItem i v).romQ = s.romQ ∧ (s.setItem i v).tmp = s.tmp ∧ (s.setItem i v).lcs = s.lcs ∧ (s.setItem i v).tri = s.tri ∧
    (s.setItem i v).si = s.si ∧ (s.setItem i v).rules = s.rules ∧ (s.setItem i v).zones = s.zones ∧ (s.setItem i v).ucode = s.ucode ∧
    (s.setItem i v).curves = s.curves ∧ (s.setItem i v).hbcKeys = s.hbcKeys :=
  ⟨rfl, rfl, rfl, rfl, rfl, rfl, rfl, rfl, rfl, rfl, rfl, rfl, rfl, rfl, rfl, rfl, rfl, rfl, rfl, rfl, rfl, rfl, rfl, rfl, rfl, rfl, rfl, rfl, rfl,
  rfl, rfl, rfl, rfl, rfl, rfl, rfl, rfl, rfl, rfl, rfl, rfl, rfl, rfl, rfl, rfl, rfl, rfl, rfl, rfl, rfl, rfl, rfl, rfl, rfl, rfl, rfl, rfl, rfl,
  rfl, rfl, rfl, rfl, rfl, rfl, rfl, rfl, rfl, rfl, rfl, rfl⟩

/-- `setSession` writes `sessions` alone. -/
@[simp] theorem State.setSession_keeps (s : State) (i : Nat) (v : Option Session) :
    (s.setSession i v).pending = s.pending ∧ (s.setSession i v).fresh = s.fresh ∧ (s.setSession i v).fuse = s.fuse ∧
    (s.setSession i v).regs = s.regs ∧ (s.setSession i v).aux = s.aux ∧ (s.setSession i v).balls = s.balls ∧ (s.setSession i v).time = s.time ∧
    (s.setSession i v).repairMap = s.repairMap ∧ (s.setSession i v).chipFault = s.chipFault ∧ (s.setSession i v).evr = s.evr ∧
    (s.setSession i v).ports = s.ports ∧ (s.setSession i v).brakeOps = s.brakeOps ∧ (s.setSession i v).mirrorBad = s.mirrorBad ∧
    (s.setSession i v).hosts = s.hosts ∧ (s.setSession i v).mdio = s.mdio ∧ (s.setSession i v).windows = s.windows ∧
    (s.setSession i v).items = s.items ∧ (s.setSession i v).nextItem = s.nextItem ∧ (s.setSession i v).ready = s.ready ∧
    (s.setSession i v).cores = s.cores ∧ (s.setSession i v).saved = s.saved ∧ (s.setSession i v).prog = s.prog ∧
    (s.setSession i v).progHash = s.progHash ∧ (s.setSession i v).rings = s.rings ∧ (s.setSession i v).timers = s.timers ∧
    (s.setSession i v).ctxs = s.ctxs ∧ (s.setSession i v).hbm = s.hbm ∧ (s.setSession i v).sram = s.sram ∧ (s.setSession i v).fb = s.fb ∧
    (s.setSession i v).early = s.early ∧ (s.setSession i v).laneQ = s.laneQ ∧ (s.setSession i v).sealQ = s.sealQ ∧
    (s.setSession i v).lanes = s.lanes ∧ (s.setSession i v).tenants = s.tenants ∧ (s.setSession i v).booms = s.booms ∧
    (s.setSession i v).answers = s.answers ∧ (s.setSession i v).leases = s.leases ∧ (s.setSession i v).held = s.held ∧
    (s.setSession i v).lookups = s.lookups ∧ (s.setSession i v).devLocked = s.devLocked ∧ (s.setSession i v).shut = s.shut ∧
    (s.setSession i v).keys = s.keys ∧ (s.setSession i v).recs = s.recs ∧ (s.setSession i v).nvm = s.nvm ∧ (s.setSession i v).ctrs = s.ctrs ∧
    (s.setSession i v).root = s.root ∧ (s.setSession i v).dr = s.dr ∧ (s.setSession i v).maskGen = s.maskGen ∧
    (s.setSession i v).cellGen = s.cellGen ∧ (s.setSession i v).sys = s.sys ∧ (s.setSession i v).activeTmks = s.activeTmks ∧
    (s.setSession i v).mpus = s.mpus ∧ (s.setSession i v).grants = s.grants ∧ (s.setSession i v).stateKeys = s.stateKeys ∧
    (s.setSession i v).sealed = s.sealed ∧ (s.setSession i v).seedQ = s.seedQ ∧ (s.setSession i v).rawWin = s.rawWin ∧
    (s.setSession i v).pair = s.pair ∧ (s.setSession i v).brakes = s.brakes ∧ (s.setSession i v).brakeQ = s.brakeQ ∧
    (s.setSession i v).romQ = s.romQ ∧ (s.setSession i v).tmp = s.tmp ∧ (s.setSession i v).lcs = s.lcs ∧ (s.setSession i v).tri = s.tri ∧
    (s.setSession i v).si = s.si ∧ (s.setSession i v).rules = s.rules ∧ (s.setSession i v).zones = s.zones ∧ (s.setSession i v).ucode = s.ucode ∧
    (s.setSession i v).curves = s.curves ∧ (s.setSession i v).hbcKeys = s.hbcKeys :=
  ⟨rfl, rfl, rfl, rfl, rfl, rfl, rfl, rfl, rfl, rfl, rfl, rfl, rfl, rfl, rfl, rfl, rfl, rfl, rfl, rfl, rfl, rfl, rfl, rfl, rfl, rfl, rfl, rfl, rfl,
  rfl, rfl, rfl, rfl, rfl, rfl, rfl, rfl, rfl, rfl, rfl, rfl, rfl, rfl, rfl, rfl, rfl, rfl, rfl, rfl, rfl, rfl, rfl, rfl, rfl, rfl, rfl, rfl, rfl,
  rfl, rfl, rfl, rfl, rfl, rfl, rfl, rfl, rfl, rfl, rfl, rfl⟩

/-- `setHost` writes `hosts` alone. -/
@[simp] theorem State.setHost_keeps (s : State) (i : Nat) (v : Option HostEntry) :
    (s.setHost i v).pending = s.pending ∧ (s.setHost i v).fresh = s.fresh ∧ (s.setHost i v).fuse = s.fuse ∧ (s.setHost i v).regs = s.regs ∧
    (s.setHost i v).aux = s.aux ∧ (s.setHost i v).balls = s.balls ∧ (s.setHost i v).time = s.time ∧ (s.setHost i v).repairMap = s.repairMap ∧
    (s.setHost i v).chipFault = s.chipFault ∧ (s.setHost i v).evr = s.evr ∧ (s.setHost i v).ports = s.ports ∧ (s.setHost i v).brakeOps = s.brakeOps ∧
    (s.setHost i v).mirrorBad = s.mirrorBad ∧ (s.setHost i v).mdio = s.mdio ∧ (s.setHost i v).sessions = s.sessions ∧
    (s.setHost i v).windows = s.windows ∧ (s.setHost i v).items = s.items ∧ (s.setHost i v).nextItem = s.nextItem ∧ (s.setHost i v).ready = s.ready ∧
    (s.setHost i v).cores = s.cores ∧ (s.setHost i v).saved = s.saved ∧ (s.setHost i v).prog = s.prog ∧ (s.setHost i v).progHash = s.progHash ∧
    (s.setHost i v).rings = s.rings ∧ (s.setHost i v).timers = s.timers ∧ (s.setHost i v).ctxs = s.ctxs ∧ (s.setHost i v).hbm = s.hbm ∧
    (s.setHost i v).sram = s.sram ∧ (s.setHost i v).fb = s.fb ∧ (s.setHost i v).early = s.early ∧ (s.setHost i v).laneQ = s.laneQ ∧
    (s.setHost i v).sealQ = s.sealQ ∧ (s.setHost i v).lanes = s.lanes ∧ (s.setHost i v).tenants = s.tenants ∧ (s.setHost i v).booms = s.booms ∧
    (s.setHost i v).answers = s.answers ∧ (s.setHost i v).leases = s.leases ∧ (s.setHost i v).held = s.held ∧ (s.setHost i v).lookups = s.lookups ∧
    (s.setHost i v).devLocked = s.devLocked ∧ (s.setHost i v).shut = s.shut ∧ (s.setHost i v).keys = s.keys ∧ (s.setHost i v).recs = s.recs ∧
    (s.setHost i v).nvm = s.nvm ∧ (s.setHost i v).ctrs = s.ctrs ∧ (s.setHost i v).root = s.root ∧ (s.setHost i v).dr = s.dr ∧
    (s.setHost i v).maskGen = s.maskGen ∧ (s.setHost i v).cellGen = s.cellGen ∧ (s.setHost i v).sys = s.sys ∧
    (s.setHost i v).activeTmks = s.activeTmks ∧ (s.setHost i v).mpus = s.mpus ∧ (s.setHost i v).grants = s.grants ∧
    (s.setHost i v).stateKeys = s.stateKeys ∧ (s.setHost i v).sealed = s.sealed ∧ (s.setHost i v).seedQ = s.seedQ ∧
    (s.setHost i v).rawWin = s.rawWin ∧ (s.setHost i v).pair = s.pair ∧ (s.setHost i v).brakes = s.brakes ∧ (s.setHost i v).brakeQ = s.brakeQ ∧
    (s.setHost i v).romQ = s.romQ ∧ (s.setHost i v).tmp = s.tmp ∧ (s.setHost i v).lcs = s.lcs ∧ (s.setHost i v).tri = s.tri ∧
    (s.setHost i v).si = s.si ∧ (s.setHost i v).rules = s.rules ∧ (s.setHost i v).zones = s.zones ∧ (s.setHost i v).ucode = s.ucode ∧
    (s.setHost i v).curves = s.curves ∧ (s.setHost i v).hbcKeys = s.hbcKeys :=
  ⟨rfl, rfl, rfl, rfl, rfl, rfl, rfl, rfl, rfl, rfl, rfl, rfl, rfl, rfl, rfl, rfl, rfl, rfl, rfl, rfl, rfl, rfl, rfl, rfl, rfl, rfl, rfl, rfl, rfl,
  rfl, rfl, rfl, rfl, rfl, rfl, rfl, rfl, rfl, rfl, rfl, rfl, rfl, rfl, rfl, rfl, rfl, rfl, rfl, rfl, rfl, rfl, rfl, rfl, rfl, rfl, rfl, rfl, rfl,
  rfl, rfl, rfl, rfl, rfl, rfl, rfl, rfl, rfl, rfl, rfl, rfl⟩

/-- `setCtx` writes `ctxs` alone. -/
@[simp] theorem State.setCtx_keeps (s : State) (r i : Nat) (v : Ctx) :
    (s.setCtx r i v).pending = s.pending ∧ (s.setCtx r i v).fresh = s.fresh ∧ (s.setCtx r i v).fuse = s.fuse ∧ (s.setCtx r i v).regs = s.regs ∧
    (s.setCtx r i v).aux = s.aux ∧ (s.setCtx r i v).balls = s.balls ∧ (s.setCtx r i v).time = s.time ∧ (s.setCtx r i v).repairMap = s.repairMap ∧
    (s.setCtx r i v).chipFault = s.chipFault ∧ (s.setCtx r i v).evr = s.evr ∧ (s.setCtx r i v).ports = s.ports ∧
    (s.setCtx r i v).brakeOps = s.brakeOps ∧ (s.setCtx r i v).mirrorBad = s.mirrorBad ∧ (s.setCtx r i v).hosts = s.hosts ∧
    (s.setCtx r i v).mdio = s.mdio ∧ (s.setCtx r i v).sessions = s.sessions ∧ (s.setCtx r i v).windows = s.windows ∧
    (s.setCtx r i v).items = s.items ∧ (s.setCtx r i v).nextItem = s.nextItem ∧ (s.setCtx r i v).ready = s.ready ∧ (s.setCtx r i v).cores = s.cores ∧
    (s.setCtx r i v).saved = s.saved ∧ (s.setCtx r i v).prog = s.prog ∧ (s.setCtx r i v).progHash = s.progHash ∧ (s.setCtx r i v).rings = s.rings ∧
    (s.setCtx r i v).timers = s.timers ∧ (s.setCtx r i v).hbm = s.hbm ∧ (s.setCtx r i v).sram = s.sram ∧ (s.setCtx r i v).fb = s.fb ∧
    (s.setCtx r i v).early = s.early ∧ (s.setCtx r i v).laneQ = s.laneQ ∧ (s.setCtx r i v).sealQ = s.sealQ ∧ (s.setCtx r i v).lanes = s.lanes ∧
    (s.setCtx r i v).tenants = s.tenants ∧ (s.setCtx r i v).booms = s.booms ∧ (s.setCtx r i v).answers = s.answers ∧
    (s.setCtx r i v).leases = s.leases ∧ (s.setCtx r i v).held = s.held ∧ (s.setCtx r i v).lookups = s.lookups ∧
    (s.setCtx r i v).devLocked = s.devLocked ∧ (s.setCtx r i v).shut = s.shut ∧ (s.setCtx r i v).keys = s.keys ∧ (s.setCtx r i v).recs = s.recs ∧
    (s.setCtx r i v).nvm = s.nvm ∧ (s.setCtx r i v).ctrs = s.ctrs ∧ (s.setCtx r i v).root = s.root ∧ (s.setCtx r i v).dr = s.dr ∧
    (s.setCtx r i v).maskGen = s.maskGen ∧ (s.setCtx r i v).cellGen = s.cellGen ∧ (s.setCtx r i v).sys = s.sys ∧
    (s.setCtx r i v).activeTmks = s.activeTmks ∧ (s.setCtx r i v).mpus = s.mpus ∧ (s.setCtx r i v).grants = s.grants ∧
    (s.setCtx r i v).stateKeys = s.stateKeys ∧ (s.setCtx r i v).sealed = s.sealed ∧ (s.setCtx r i v).seedQ = s.seedQ ∧
    (s.setCtx r i v).rawWin = s.rawWin ∧ (s.setCtx r i v).pair = s.pair ∧ (s.setCtx r i v).brakes = s.brakes ∧ (s.setCtx r i v).brakeQ = s.brakeQ ∧
    (s.setCtx r i v).romQ = s.romQ ∧ (s.setCtx r i v).tmp = s.tmp ∧ (s.setCtx r i v).lcs = s.lcs ∧ (s.setCtx r i v).tri = s.tri ∧
    (s.setCtx r i v).si = s.si ∧ (s.setCtx r i v).rules = s.rules ∧ (s.setCtx r i v).zones = s.zones ∧ (s.setCtx r i v).ucode = s.ucode ∧
    (s.setCtx r i v).curves = s.curves ∧ (s.setCtx r i v).hbcKeys = s.hbcKeys :=
  ⟨rfl, rfl, rfl, rfl, rfl, rfl, rfl, rfl, rfl, rfl, rfl, rfl, rfl, rfl, rfl, rfl, rfl, rfl, rfl, rfl, rfl, rfl, rfl, rfl, rfl, rfl, rfl, rfl, rfl,
  rfl, rfl, rfl, rfl, rfl, rfl, rfl, rfl, rfl, rfl, rfl, rfl, rfl, rfl, rfl, rfl, rfl, rfl, rfl, rfl, rfl, rfl, rfl, rfl, rfl, rfl, rfl, rfl, rfl,
  rfl, rfl, rfl, rfl, rfl, rfl, rfl, rfl, rfl, rfl, rfl, rfl⟩

/-- `setTenant` writes `tenants` alone. -/
@[simp] theorem State.setTenant_keeps (s : State) (t : Nat) (v : Tenant) :
    (s.setTenant t v).pending = s.pending ∧ (s.setTenant t v).fresh = s.fresh ∧ (s.setTenant t v).fuse = s.fuse ∧ (s.setTenant t v).regs = s.regs ∧
    (s.setTenant t v).aux = s.aux ∧ (s.setTenant t v).balls = s.balls ∧ (s.setTenant t v).time = s.time ∧ (s.setTenant t v).repairMap = s.repairMap ∧
    (s.setTenant t v).chipFault = s.chipFault ∧ (s.setTenant t v).evr = s.evr ∧ (s.setTenant t v).ports = s.ports ∧
    (s.setTenant t v).brakeOps = s.brakeOps ∧ (s.setTenant t v).mirrorBad = s.mirrorBad ∧ (s.setTenant t v).hosts = s.hosts ∧
    (s.setTenant t v).mdio = s.mdio ∧ (s.setTenant t v).sessions = s.sessions ∧ (s.setTenant t v).windows = s.windows ∧
    (s.setTenant t v).items = s.items ∧ (s.setTenant t v).nextItem = s.nextItem ∧ (s.setTenant t v).ready = s.ready ∧
    (s.setTenant t v).cores = s.cores ∧ (s.setTenant t v).saved = s.saved ∧ (s.setTenant t v).prog = s.prog ∧
    (s.setTenant t v).progHash = s.progHash ∧ (s.setTenant t v).rings = s.rings ∧ (s.setTenant t v).timers = s.timers ∧
    (s.setTenant t v).ctxs = s.ctxs ∧ (s.setTenant t v).hbm = s.hbm ∧ (s.setTenant t v).sram = s.sram ∧ (s.setTenant t v).fb = s.fb ∧
    (s.setTenant t v).early = s.early ∧ (s.setTenant t v).laneQ = s.laneQ ∧ (s.setTenant t v).sealQ = s.sealQ ∧ (s.setTenant t v).lanes = s.lanes ∧
    (s.setTenant t v).booms = s.booms ∧ (s.setTenant t v).answers = s.answers ∧ (s.setTenant t v).leases = s.leases ∧
    (s.setTenant t v).held = s.held ∧ (s.setTenant t v).lookups = s.lookups ∧ (s.setTenant t v).devLocked = s.devLocked ∧
    (s.setTenant t v).shut = s.shut ∧ (s.setTenant t v).keys = s.keys ∧ (s.setTenant t v).recs = s.recs ∧ (s.setTenant t v).nvm = s.nvm ∧
    (s.setTenant t v).ctrs = s.ctrs ∧ (s.setTenant t v).root = s.root ∧ (s.setTenant t v).dr = s.dr ∧ (s.setTenant t v).maskGen = s.maskGen ∧
    (s.setTenant t v).cellGen = s.cellGen ∧ (s.setTenant t v).sys = s.sys ∧ (s.setTenant t v).activeTmks = s.activeTmks ∧
    (s.setTenant t v).mpus = s.mpus ∧ (s.setTenant t v).grants = s.grants ∧ (s.setTenant t v).stateKeys = s.stateKeys ∧
    (s.setTenant t v).sealed = s.sealed ∧ (s.setTenant t v).seedQ = s.seedQ ∧ (s.setTenant t v).rawWin = s.rawWin ∧ (s.setTenant t v).pair = s.pair ∧
    (s.setTenant t v).brakes = s.brakes ∧ (s.setTenant t v).brakeQ = s.brakeQ ∧ (s.setTenant t v).romQ = s.romQ ∧ (s.setTenant t v).tmp = s.tmp ∧
    (s.setTenant t v).lcs = s.lcs ∧ (s.setTenant t v).tri = s.tri ∧ (s.setTenant t v).si = s.si ∧ (s.setTenant t v).rules = s.rules ∧
    (s.setTenant t v).zones = s.zones ∧ (s.setTenant t v).ucode = s.ucode ∧ (s.setTenant t v).curves = s.curves ∧
    (s.setTenant t v).hbcKeys = s.hbcKeys :=
  ⟨rfl, rfl, rfl, rfl, rfl, rfl, rfl, rfl, rfl, rfl, rfl, rfl, rfl, rfl, rfl, rfl, rfl, rfl, rfl, rfl, rfl, rfl, rfl, rfl, rfl, rfl, rfl, rfl, rfl,
  rfl, rfl, rfl, rfl, rfl, rfl, rfl, rfl, rfl, rfl, rfl, rfl, rfl, rfl, rfl, rfl, rfl, rfl, rfl, rfl, rfl, rfl, rfl, rfl, rfl, rfl, rfl, rfl, rfl,
  rfl, rfl, rfl, rfl, rfl, rfl, rfl, rfl, rfl, rfl, rfl, rfl⟩

/-- `setCore` writes `cores` alone. -/
@[simp] theorem State.setCore_keeps (s : State) (k : Nat) (c : Core) :
    (s.setCore k c).pending = s.pending ∧ (s.setCore k c).fresh = s.fresh ∧ (s.setCore k c).fuse = s.fuse ∧ (s.setCore k c).regs = s.regs ∧
    (s.setCore k c).aux = s.aux ∧ (s.setCore k c).balls = s.balls ∧ (s.setCore k c).time = s.time ∧ (s.setCore k c).repairMap = s.repairMap ∧
    (s.setCore k c).chipFault = s.chipFault ∧ (s.setCore k c).evr = s.evr ∧ (s.setCore k c).ports = s.ports ∧ (s.setCore k c).brakeOps = s.brakeOps ∧
    (s.setCore k c).mirrorBad = s.mirrorBad ∧ (s.setCore k c).hosts = s.hosts ∧ (s.setCore k c).mdio = s.mdio ∧
    (s.setCore k c).sessions = s.sessions ∧ (s.setCore k c).windows = s.windows ∧ (s.setCore k c).items = s.items ∧
    (s.setCore k c).nextItem = s.nextItem ∧ (s.setCore k c).ready = s.ready ∧ (s.setCore k c).saved = s.saved ∧ (s.setCore k c).prog = s.prog ∧
    (s.setCore k c).progHash = s.progHash ∧ (s.setCore k c).rings = s.rings ∧ (s.setCore k c).timers = s.timers ∧ (s.setCore k c).ctxs = s.ctxs ∧
    (s.setCore k c).hbm = s.hbm ∧ (s.setCore k c).sram = s.sram ∧ (s.setCore k c).fb = s.fb ∧ (s.setCore k c).early = s.early ∧
    (s.setCore k c).laneQ = s.laneQ ∧ (s.setCore k c).sealQ = s.sealQ ∧ (s.setCore k c).lanes = s.lanes ∧ (s.setCore k c).tenants = s.tenants ∧
    (s.setCore k c).booms = s.booms ∧ (s.setCore k c).answers = s.answers ∧ (s.setCore k c).leases = s.leases ∧ (s.setCore k c).held = s.held ∧
    (s.setCore k c).lookups = s.lookups ∧ (s.setCore k c).devLocked = s.devLocked ∧ (s.setCore k c).shut = s.shut ∧ (s.setCore k c).keys = s.keys ∧
    (s.setCore k c).recs = s.recs ∧ (s.setCore k c).nvm = s.nvm ∧ (s.setCore k c).ctrs = s.ctrs ∧ (s.setCore k c).root = s.root ∧
    (s.setCore k c).dr = s.dr ∧ (s.setCore k c).maskGen = s.maskGen ∧ (s.setCore k c).cellGen = s.cellGen ∧ (s.setCore k c).sys = s.sys ∧
    (s.setCore k c).activeTmks = s.activeTmks ∧ (s.setCore k c).mpus = s.mpus ∧ (s.setCore k c).grants = s.grants ∧
    (s.setCore k c).stateKeys = s.stateKeys ∧ (s.setCore k c).sealed = s.sealed ∧ (s.setCore k c).seedQ = s.seedQ ∧
    (s.setCore k c).rawWin = s.rawWin ∧ (s.setCore k c).pair = s.pair ∧ (s.setCore k c).brakes = s.brakes ∧ (s.setCore k c).brakeQ = s.brakeQ ∧
    (s.setCore k c).romQ = s.romQ ∧ (s.setCore k c).tmp = s.tmp ∧ (s.setCore k c).lcs = s.lcs ∧ (s.setCore k c).tri = s.tri ∧
    (s.setCore k c).si = s.si ∧ (s.setCore k c).rules = s.rules ∧ (s.setCore k c).zones = s.zones ∧ (s.setCore k c).ucode = s.ucode ∧
    (s.setCore k c).curves = s.curves ∧ (s.setCore k c).hbcKeys = s.hbcKeys :=
  ⟨rfl, rfl, rfl, rfl, rfl, rfl, rfl, rfl, rfl, rfl, rfl, rfl, rfl, rfl, rfl, rfl, rfl, rfl, rfl, rfl, rfl, rfl, rfl, rfl, rfl, rfl, rfl, rfl, rfl,
  rfl, rfl, rfl, rfl, rfl, rfl, rfl, rfl, rfl, rfl, rfl, rfl, rfl, rfl, rfl, rfl, rfl, rfl, rfl, rfl, rfl, rfl, rfl, rfl, rfl, rfl, rfl, rfl, rfl,
  rfl, rfl, rfl, rfl, rfl, rfl, rfl, rfl, rfl, rfl, rfl, rfl⟩

/-- `setPort` writes `ports` alone. -/
@[simp] theorem State.setPort_keeps (s : State) (p : Nat) (v : PortSt) :
    (s.setPort p v).pending = s.pending ∧ (s.setPort p v).fresh = s.fresh ∧ (s.setPort p v).fuse = s.fuse ∧ (s.setPort p v).regs = s.regs ∧
    (s.setPort p v).aux = s.aux ∧ (s.setPort p v).balls = s.balls ∧ (s.setPort p v).time = s.time ∧ (s.setPort p v).repairMap = s.repairMap ∧
    (s.setPort p v).chipFault = s.chipFault ∧ (s.setPort p v).evr = s.evr ∧ (s.setPort p v).brakeOps = s.brakeOps ∧
    (s.setPort p v).mirrorBad = s.mirrorBad ∧ (s.setPort p v).hosts = s.hosts ∧ (s.setPort p v).mdio = s.mdio ∧
    (s.setPort p v).sessions = s.sessions ∧ (s.setPort p v).windows = s.windows ∧ (s.setPort p v).items = s.items ∧
    (s.setPort p v).nextItem = s.nextItem ∧ (s.setPort p v).ready = s.ready ∧ (s.setPort p v).cores = s.cores ∧ (s.setPort p v).saved = s.saved ∧
    (s.setPort p v).prog = s.prog ∧ (s.setPort p v).progHash = s.progHash ∧ (s.setPort p v).rings = s.rings ∧ (s.setPort p v).timers = s.timers ∧
    (s.setPort p v).ctxs = s.ctxs ∧ (s.setPort p v).hbm = s.hbm ∧ (s.setPort p v).sram = s.sram ∧ (s.setPort p v).fb = s.fb ∧
    (s.setPort p v).early = s.early ∧ (s.setPort p v).laneQ = s.laneQ ∧ (s.setPort p v).sealQ = s.sealQ ∧ (s.setPort p v).lanes = s.lanes ∧
    (s.setPort p v).tenants = s.tenants ∧ (s.setPort p v).booms = s.booms ∧ (s.setPort p v).answers = s.answers ∧ (s.setPort p v).leases = s.leases ∧
    (s.setPort p v).held = s.held ∧ (s.setPort p v).lookups = s.lookups ∧ (s.setPort p v).devLocked = s.devLocked ∧ (s.setPort p v).shut = s.shut ∧
    (s.setPort p v).keys = s.keys ∧ (s.setPort p v).recs = s.recs ∧ (s.setPort p v).nvm = s.nvm ∧ (s.setPort p v).ctrs = s.ctrs ∧
    (s.setPort p v).root = s.root ∧ (s.setPort p v).dr = s.dr ∧ (s.setPort p v).maskGen = s.maskGen ∧ (s.setPort p v).cellGen = s.cellGen ∧
    (s.setPort p v).sys = s.sys ∧ (s.setPort p v).activeTmks = s.activeTmks ∧ (s.setPort p v).mpus = s.mpus ∧ (s.setPort p v).grants = s.grants ∧
    (s.setPort p v).stateKeys = s.stateKeys ∧ (s.setPort p v).sealed = s.sealed ∧ (s.setPort p v).seedQ = s.seedQ ∧
    (s.setPort p v).rawWin = s.rawWin ∧ (s.setPort p v).pair = s.pair ∧ (s.setPort p v).brakes = s.brakes ∧ (s.setPort p v).brakeQ = s.brakeQ ∧
    (s.setPort p v).romQ = s.romQ ∧ (s.setPort p v).tmp = s.tmp ∧ (s.setPort p v).lcs = s.lcs ∧ (s.setPort p v).tri = s.tri ∧
    (s.setPort p v).si = s.si ∧ (s.setPort p v).rules = s.rules ∧ (s.setPort p v).zones = s.zones ∧ (s.setPort p v).ucode = s.ucode ∧
    (s.setPort p v).curves = s.curves ∧ (s.setPort p v).hbcKeys = s.hbcKeys :=
  ⟨rfl, rfl, rfl, rfl, rfl, rfl, rfl, rfl, rfl, rfl, rfl, rfl, rfl, rfl, rfl, rfl, rfl, rfl, rfl, rfl, rfl, rfl, rfl, rfl, rfl, rfl, rfl, rfl, rfl,
  rfl, rfl, rfl, rfl, rfl, rfl, rfl, rfl, rfl, rfl, rfl, rfl, rfl, rfl, rfl, rfl, rfl, rfl, rfl, rfl, rfl, rfl, rfl, rfl, rfl, rfl, rfl, rfl, rfl,
  rfl, rfl, rfl, rfl, rfl, rfl, rfl, rfl, rfl, rfl, rfl, rfl⟩

/-- `setReady` writes `ready` alone. -/
@[simp] theorem State.setReady_keeps (s : State) (r l : Nat) (v : List Nat) :
    (s.setReady r l v).pending = s.pending ∧ (s.setReady r l v).fresh = s.fresh ∧ (s.setReady r l v).fuse = s.fuse ∧
    (s.setReady r l v).regs = s.regs ∧ (s.setReady r l v).aux = s.aux ∧ (s.setReady r l v).balls = s.balls ∧ (s.setReady r l v).time = s.time ∧
    (s.setReady r l v).repairMap = s.repairMap ∧ (s.setReady r l v).chipFault = s.chipFault ∧ (s.setReady r l v).evr = s.evr ∧
    (s.setReady r l v).ports = s.ports ∧ (s.setReady r l v).brakeOps = s.brakeOps ∧ (s.setReady r l v).mirrorBad = s.mirrorBad ∧
    (s.setReady r l v).hosts = s.hosts ∧ (s.setReady r l v).mdio = s.mdio ∧ (s.setReady r l v).sessions = s.sessions ∧
    (s.setReady r l v).windows = s.windows ∧ (s.setReady r l v).items = s.items ∧ (s.setReady r l v).nextItem = s.nextItem ∧
    (s.setReady r l v).cores = s.cores ∧ (s.setReady r l v).saved = s.saved ∧ (s.setReady r l v).prog = s.prog ∧
    (s.setReady r l v).progHash = s.progHash ∧ (s.setReady r l v).rings = s.rings ∧ (s.setReady r l v).timers = s.timers ∧
    (s.setReady r l v).ctxs = s.ctxs ∧ (s.setReady r l v).hbm = s.hbm ∧ (s.setReady r l v).sram = s.sram ∧ (s.setReady r l v).fb = s.fb ∧
    (s.setReady r l v).early = s.early ∧ (s.setReady r l v).laneQ = s.laneQ ∧ (s.setReady r l v).sealQ = s.sealQ ∧
    (s.setReady r l v).lanes = s.lanes ∧ (s.setReady r l v).tenants = s.tenants ∧ (s.setReady r l v).booms = s.booms ∧
    (s.setReady r l v).answers = s.answers ∧ (s.setReady r l v).leases = s.leases ∧ (s.setReady r l v).held = s.held ∧
    (s.setReady r l v).lookups = s.lookups ∧ (s.setReady r l v).devLocked = s.devLocked ∧ (s.setReady r l v).shut = s.shut ∧
    (s.setReady r l v).keys = s.keys ∧ (s.setReady r l v).recs = s.recs ∧ (s.setReady r l v).nvm = s.nvm ∧ (s.setReady r l v).ctrs = s.ctrs ∧
    (s.setReady r l v).root = s.root ∧ (s.setReady r l v).dr = s.dr ∧ (s.setReady r l v).maskGen = s.maskGen ∧
    (s.setReady r l v).cellGen = s.cellGen ∧ (s.setReady r l v).sys = s.sys ∧ (s.setReady r l v).activeTmks = s.activeTmks ∧
    (s.setReady r l v).mpus = s.mpus ∧ (s.setReady r l v).grants = s.grants ∧ (s.setReady r l v).stateKeys = s.stateKeys ∧
    (s.setReady r l v).sealed = s.sealed ∧ (s.setReady r l v).seedQ = s.seedQ ∧ (s.setReady r l v).rawWin = s.rawWin ∧
    (s.setReady r l v).pair = s.pair ∧ (s.setReady r l v).brakes = s.brakes ∧ (s.setReady r l v).brakeQ = s.brakeQ ∧
    (s.setReady r l v).romQ = s.romQ ∧ (s.setReady r l v).tmp = s.tmp ∧ (s.setReady r l v).lcs = s.lcs ∧ (s.setReady r l v).tri = s.tri ∧
    (s.setReady r l v).si = s.si ∧ (s.setReady r l v).rules = s.rules ∧ (s.setReady r l v).zones = s.zones ∧ (s.setReady r l v).ucode = s.ucode ∧
    (s.setReady r l v).curves = s.curves ∧ (s.setReady r l v).hbcKeys = s.hbcKeys :=
  ⟨rfl, rfl, rfl, rfl, rfl, rfl, rfl, rfl, rfl, rfl, rfl, rfl, rfl, rfl, rfl, rfl, rfl, rfl, rfl, rfl, rfl, rfl, rfl, rfl, rfl, rfl, rfl, rfl, rfl,
  rfl, rfl, rfl, rfl, rfl, rfl, rfl, rfl, rfl, rfl, rfl, rfl, rfl, rfl, rfl, rfl, rfl, rfl, rfl, rfl, rfl, rfl, rfl, rfl, rfl, rfl, rfl, rfl, rfl,
  rfl, rfl, rfl, rfl, rfl, rfl, rfl, rfl, rfl, rfl, rfl, rfl⟩

/-- `setTimers` writes `timers` alone. -/
@[simp] theorem State.setTimers_keeps (s : State) (r : Nat) (l : List Timer) :
    (s.setTimers r l).pending = s.pending ∧ (s.setTimers r l).fresh = s.fresh ∧ (s.setTimers r l).fuse = s.fuse ∧ (s.setTimers r l).regs = s.regs ∧
    (s.setTimers r l).aux = s.aux ∧ (s.setTimers r l).balls = s.balls ∧ (s.setTimers r l).time = s.time ∧ (s.setTimers r l).repairMap = s.repairMap ∧
    (s.setTimers r l).chipFault = s.chipFault ∧ (s.setTimers r l).evr = s.evr ∧ (s.setTimers r l).ports = s.ports ∧
    (s.setTimers r l).brakeOps = s.brakeOps ∧ (s.setTimers r l).mirrorBad = s.mirrorBad ∧ (s.setTimers r l).hosts = s.hosts ∧
    (s.setTimers r l).mdio = s.mdio ∧ (s.setTimers r l).sessions = s.sessions ∧ (s.setTimers r l).windows = s.windows ∧
    (s.setTimers r l).items = s.items ∧ (s.setTimers r l).nextItem = s.nextItem ∧ (s.setTimers r l).ready = s.ready ∧
    (s.setTimers r l).cores = s.cores ∧ (s.setTimers r l).saved = s.saved ∧ (s.setTimers r l).prog = s.prog ∧
    (s.setTimers r l).progHash = s.progHash ∧ (s.setTimers r l).rings = s.rings ∧ (s.setTimers r l).ctxs = s.ctxs ∧ (s.setTimers r l).hbm = s.hbm ∧
    (s.setTimers r l).sram = s.sram ∧ (s.setTimers r l).fb = s.fb ∧ (s.setTimers r l).early = s.early ∧ (s.setTimers r l).laneQ = s.laneQ ∧
    (s.setTimers r l).sealQ = s.sealQ ∧ (s.setTimers r l).lanes = s.lanes ∧ (s.setTimers r l).tenants = s.tenants ∧
    (s.setTimers r l).booms = s.booms ∧ (s.setTimers r l).answers = s.answers ∧ (s.setTimers r l).leases = s.leases ∧
    (s.setTimers r l).held = s.held ∧ (s.setTimers r l).lookups = s.lookups ∧ (s.setTimers r l).devLocked = s.devLocked ∧
    (s.setTimers r l).shut = s.shut ∧ (s.setTimers r l).keys = s.keys ∧ (s.setTimers r l).recs = s.recs ∧ (s.setTimers r l).nvm = s.nvm ∧
    (s.setTimers r l).ctrs = s.ctrs ∧ (s.setTimers r l).root = s.root ∧ (s.setTimers r l).dr = s.dr ∧ (s.setTimers r l).maskGen = s.maskGen ∧
    (s.setTimers r l).cellGen = s.cellGen ∧ (s.setTimers r l).sys = s.sys ∧ (s.setTimers r l).activeTmks = s.activeTmks ∧
    (s.setTimers r l).mpus = s.mpus ∧ (s.setTimers r l).grants = s.grants ∧ (s.setTimers r l).stateKeys = s.stateKeys ∧
    (s.setTimers r l).sealed = s.sealed ∧ (s.setTimers r l).seedQ = s.seedQ ∧ (s.setTimers r l).rawWin = s.rawWin ∧ (s.setTimers r l).pair = s.pair ∧
    (s.setTimers r l).brakes = s.brakes ∧ (s.setTimers r l).brakeQ = s.brakeQ ∧ (s.setTimers r l).romQ = s.romQ ∧ (s.setTimers r l).tmp = s.tmp ∧
    (s.setTimers r l).lcs = s.lcs ∧ (s.setTimers r l).tri = s.tri ∧ (s.setTimers r l).si = s.si ∧ (s.setTimers r l).rules = s.rules ∧
    (s.setTimers r l).zones = s.zones ∧ (s.setTimers r l).ucode = s.ucode ∧ (s.setTimers r l).curves = s.curves ∧
    (s.setTimers r l).hbcKeys = s.hbcKeys :=
  ⟨rfl, rfl, rfl, rfl, rfl, rfl, rfl, rfl, rfl, rfl, rfl, rfl, rfl, rfl, rfl, rfl, rfl, rfl, rfl, rfl, rfl, rfl, rfl, rfl, rfl, rfl, rfl, rfl, rfl,
  rfl, rfl, rfl, rfl, rfl, rfl, rfl, rfl, rfl, rfl, rfl, rfl, rfl, rfl, rfl, rfl, rfl, rfl, rfl, rfl, rfl, rfl, rfl, rfl, rfl, rfl, rfl, rfl, rfl,
  rfl, rfl, rfl, rfl, rfl, rfl, rfl, rfl, rfl, rfl, rfl, rfl⟩

/-- `setQueue` writes `laneQ` alone. -/
@[simp] theorem State.setQueue_keeps (s : State) (r : Nat) (u : UnitKind) (q : List Job) :
    (s.setQueue r u q).pending = s.pending ∧ (s.setQueue r u q).fresh = s.fresh ∧ (s.setQueue r u q).fuse = s.fuse ∧
    (s.setQueue r u q).regs = s.regs ∧ (s.setQueue r u q).aux = s.aux ∧ (s.setQueue r u q).balls = s.balls ∧ (s.setQueue r u q).time = s.time ∧
    (s.setQueue r u q).repairMap = s.repairMap ∧ (s.setQueue r u q).chipFault = s.chipFault ∧ (s.setQueue r u q).evr = s.evr ∧
    (s.setQueue r u q).ports = s.ports ∧ (s.setQueue r u q).brakeOps = s.brakeOps ∧ (s.setQueue r u q).mirrorBad = s.mirrorBad ∧
    (s.setQueue r u q).hosts = s.hosts ∧ (s.setQueue r u q).mdio = s.mdio ∧ (s.setQueue r u q).sessions = s.sessions ∧
    (s.setQueue r u q).windows = s.windows ∧ (s.setQueue r u q).items = s.items ∧ (s.setQueue r u q).nextItem = s.nextItem ∧
    (s.setQueue r u q).ready = s.ready ∧ (s.setQueue r u q).cores = s.cores ∧ (s.setQueue r u q).saved = s.saved ∧ (s.setQueue r u q).prog = s.prog ∧
    (s.setQueue r u q).progHash = s.progHash ∧ (s.setQueue r u q).rings = s.rings ∧ (s.setQueue r u q).timers = s.timers ∧
    (s.setQueue r u q).ctxs = s.ctxs ∧ (s.setQueue r u q).hbm = s.hbm ∧ (s.setQueue r u q).sram = s.sram ∧ (s.setQueue r u q).fb = s.fb ∧
    (s.setQueue r u q).early = s.early ∧ (s.setQueue r u q).sealQ = s.sealQ ∧ (s.setQueue r u q).lanes = s.lanes ∧
    (s.setQueue r u q).tenants = s.tenants ∧ (s.setQueue r u q).booms = s.booms ∧ (s.setQueue r u q).answers = s.answers ∧
    (s.setQueue r u q).leases = s.leases ∧ (s.setQueue r u q).held = s.held ∧ (s.setQueue r u q).lookups = s.lookups ∧
    (s.setQueue r u q).devLocked = s.devLocked ∧ (s.setQueue r u q).shut = s.shut ∧ (s.setQueue r u q).keys = s.keys ∧
    (s.setQueue r u q).recs = s.recs ∧ (s.setQueue r u q).nvm = s.nvm ∧ (s.setQueue r u q).ctrs = s.ctrs ∧ (s.setQueue r u q).root = s.root ∧
    (s.setQueue r u q).dr = s.dr ∧ (s.setQueue r u q).maskGen = s.maskGen ∧ (s.setQueue r u q).cellGen = s.cellGen ∧ (s.setQueue r u q).sys = s.sys ∧
    (s.setQueue r u q).activeTmks = s.activeTmks ∧ (s.setQueue r u q).mpus = s.mpus ∧ (s.setQueue r u q).grants = s.grants ∧
    (s.setQueue r u q).stateKeys = s.stateKeys ∧ (s.setQueue r u q).sealed = s.sealed ∧ (s.setQueue r u q).seedQ = s.seedQ ∧
    (s.setQueue r u q).rawWin = s.rawWin ∧ (s.setQueue r u q).pair = s.pair ∧ (s.setQueue r u q).brakes = s.brakes ∧
    (s.setQueue r u q).brakeQ = s.brakeQ ∧ (s.setQueue r u q).romQ = s.romQ ∧ (s.setQueue r u q).tmp = s.tmp ∧ (s.setQueue r u q).lcs = s.lcs ∧
    (s.setQueue r u q).tri = s.tri ∧ (s.setQueue r u q).si = s.si ∧ (s.setQueue r u q).rules = s.rules ∧ (s.setQueue r u q).zones = s.zones ∧
    (s.setQueue r u q).ucode = s.ucode ∧ (s.setQueue r u q).curves = s.curves ∧ (s.setQueue r u q).hbcKeys = s.hbcKeys :=
  ⟨rfl, rfl, rfl, rfl, rfl, rfl, rfl, rfl, rfl, rfl, rfl, rfl, rfl, rfl, rfl, rfl, rfl, rfl, rfl, rfl, rfl, rfl, rfl, rfl, rfl, rfl, rfl, rfl, rfl,
  rfl, rfl, rfl, rfl, rfl, rfl, rfl, rfl, rfl, rfl, rfl, rfl, rfl, rfl, rfl, rfl, rfl, rfl, rfl, rfl, rfl, rfl, rfl, rfl, rfl, rfl, rfl, rfl, rfl,
  rfl, rfl, rfl, rfl, rfl, rfl, rfl, rfl, rfl, rfl, rfl, rfl⟩

/-- `setLane` writes `lanes` alone. -/
@[simp] theorem State.setLane_keeps (s : State) (p : PageId) (l : LaneSt) :
    (s.setLane p l).pending = s.pending ∧ (s.setLane p l).fresh = s.fresh ∧ (s.setLane p l).fuse = s.fuse ∧ (s.setLane p l).regs = s.regs ∧
    (s.setLane p l).aux = s.aux ∧ (s.setLane p l).balls = s.balls ∧ (s.setLane p l).time = s.time ∧ (s.setLane p l).repairMap = s.repairMap ∧
    (s.setLane p l).chipFault = s.chipFault ∧ (s.setLane p l).evr = s.evr ∧ (s.setLane p l).ports = s.ports ∧ (s.setLane p l).brakeOps = s.brakeOps ∧
    (s.setLane p l).mirrorBad = s.mirrorBad ∧ (s.setLane p l).hosts = s.hosts ∧ (s.setLane p l).mdio = s.mdio ∧
    (s.setLane p l).sessions = s.sessions ∧ (s.setLane p l).windows = s.windows ∧ (s.setLane p l).items = s.items ∧
    (s.setLane p l).nextItem = s.nextItem ∧ (s.setLane p l).ready = s.ready ∧ (s.setLane p l).cores = s.cores ∧ (s.setLane p l).saved = s.saved ∧
    (s.setLane p l).prog = s.prog ∧ (s.setLane p l).progHash = s.progHash ∧ (s.setLane p l).rings = s.rings ∧ (s.setLane p l).timers = s.timers ∧
    (s.setLane p l).ctxs = s.ctxs ∧ (s.setLane p l).hbm = s.hbm ∧ (s.setLane p l).sram = s.sram ∧ (s.setLane p l).fb = s.fb ∧
    (s.setLane p l).early = s.early ∧ (s.setLane p l).laneQ = s.laneQ ∧ (s.setLane p l).sealQ = s.sealQ ∧ (s.setLane p l).tenants = s.tenants ∧
    (s.setLane p l).booms = s.booms ∧ (s.setLane p l).answers = s.answers ∧ (s.setLane p l).leases = s.leases ∧ (s.setLane p l).held = s.held ∧
    (s.setLane p l).lookups = s.lookups ∧ (s.setLane p l).devLocked = s.devLocked ∧ (s.setLane p l).shut = s.shut ∧ (s.setLane p l).keys = s.keys ∧
    (s.setLane p l).recs = s.recs ∧ (s.setLane p l).nvm = s.nvm ∧ (s.setLane p l).ctrs = s.ctrs ∧ (s.setLane p l).root = s.root ∧
    (s.setLane p l).dr = s.dr ∧ (s.setLane p l).maskGen = s.maskGen ∧ (s.setLane p l).cellGen = s.cellGen ∧ (s.setLane p l).sys = s.sys ∧
    (s.setLane p l).activeTmks = s.activeTmks ∧ (s.setLane p l).mpus = s.mpus ∧ (s.setLane p l).grants = s.grants ∧
    (s.setLane p l).stateKeys = s.stateKeys ∧ (s.setLane p l).sealed = s.sealed ∧ (s.setLane p l).seedQ = s.seedQ ∧
    (s.setLane p l).rawWin = s.rawWin ∧ (s.setLane p l).pair = s.pair ∧ (s.setLane p l).brakes = s.brakes ∧ (s.setLane p l).brakeQ = s.brakeQ ∧
    (s.setLane p l).romQ = s.romQ ∧ (s.setLane p l).tmp = s.tmp ∧ (s.setLane p l).lcs = s.lcs ∧ (s.setLane p l).tri = s.tri ∧
    (s.setLane p l).si = s.si ∧ (s.setLane p l).rules = s.rules ∧ (s.setLane p l).zones = s.zones ∧ (s.setLane p l).ucode = s.ucode ∧
    (s.setLane p l).curves = s.curves ∧ (s.setLane p l).hbcKeys = s.hbcKeys :=
  ⟨rfl, rfl, rfl, rfl, rfl, rfl, rfl, rfl, rfl, rfl, rfl, rfl, rfl, rfl, rfl, rfl, rfl, rfl, rfl, rfl, rfl, rfl, rfl, rfl, rfl, rfl, rfl, rfl, rfl,
  rfl, rfl, rfl, rfl, rfl, rfl, rfl, rfl, rfl, rfl, rfl, rfl, rfl, rfl, rfl, rfl, rfl, rfl, rfl, rfl, rfl, rfl, rfl, rfl, rfl, rfl, rfl, rfl, rfl,
  rfl, rfl, rfl, rfl, rfl, rfl, rfl, rfl, rfl, rfl, rfl, rfl⟩

/-- `setCtr` writes `ctrs` alone. -/
@[simp] theorem State.setCtr_keeps (s : State) (n : Nat) (c : Ctr) :
    (s.setCtr n c).pending = s.pending ∧ (s.setCtr n c).fresh = s.fresh ∧ (s.setCtr n c).fuse = s.fuse ∧ (s.setCtr n c).regs = s.regs ∧
    (s.setCtr n c).aux = s.aux ∧ (s.setCtr n c).balls = s.balls ∧ (s.setCtr n c).time = s.time ∧ (s.setCtr n c).repairMap = s.repairMap ∧
    (s.setCtr n c).chipFault = s.chipFault ∧ (s.setCtr n c).evr = s.evr ∧ (s.setCtr n c).ports = s.ports ∧ (s.setCtr n c).brakeOps = s.brakeOps ∧
    (s.setCtr n c).mirrorBad = s.mirrorBad ∧ (s.setCtr n c).hosts = s.hosts ∧ (s.setCtr n c).mdio = s.mdio ∧ (s.setCtr n c).sessions = s.sessions ∧
    (s.setCtr n c).windows = s.windows ∧ (s.setCtr n c).items = s.items ∧ (s.setCtr n c).nextItem = s.nextItem ∧ (s.setCtr n c).ready = s.ready ∧
    (s.setCtr n c).cores = s.cores ∧ (s.setCtr n c).saved = s.saved ∧ (s.setCtr n c).prog = s.prog ∧ (s.setCtr n c).progHash = s.progHash ∧
    (s.setCtr n c).rings = s.rings ∧ (s.setCtr n c).timers = s.timers ∧ (s.setCtr n c).ctxs = s.ctxs ∧ (s.setCtr n c).hbm = s.hbm ∧
    (s.setCtr n c).sram = s.sram ∧ (s.setCtr n c).fb = s.fb ∧ (s.setCtr n c).early = s.early ∧ (s.setCtr n c).laneQ = s.laneQ ∧
    (s.setCtr n c).sealQ = s.sealQ ∧ (s.setCtr n c).lanes = s.lanes ∧ (s.setCtr n c).tenants = s.tenants ∧ (s.setCtr n c).booms = s.booms ∧
    (s.setCtr n c).answers = s.answers ∧ (s.setCtr n c).leases = s.leases ∧ (s.setCtr n c).held = s.held ∧ (s.setCtr n c).lookups = s.lookups ∧
    (s.setCtr n c).devLocked = s.devLocked ∧ (s.setCtr n c).shut = s.shut ∧ (s.setCtr n c).keys = s.keys ∧ (s.setCtr n c).recs = s.recs ∧
    (s.setCtr n c).nvm = s.nvm ∧ (s.setCtr n c).root = s.root ∧ (s.setCtr n c).dr = s.dr ∧ (s.setCtr n c).maskGen = s.maskGen ∧
    (s.setCtr n c).cellGen = s.cellGen ∧ (s.setCtr n c).sys = s.sys ∧ (s.setCtr n c).activeTmks = s.activeTmks ∧ (s.setCtr n c).mpus = s.mpus ∧
    (s.setCtr n c).grants = s.grants ∧ (s.setCtr n c).stateKeys = s.stateKeys ∧ (s.setCtr n c).sealed = s.sealed ∧ (s.setCtr n c).seedQ = s.seedQ ∧
    (s.setCtr n c).rawWin = s.rawWin ∧ (s.setCtr n c).pair = s.pair ∧ (s.setCtr n c).brakes = s.brakes ∧ (s.setCtr n c).brakeQ = s.brakeQ ∧
    (s.setCtr n c).romQ = s.romQ ∧ (s.setCtr n c).tmp = s.tmp ∧ (s.setCtr n c).lcs = s.lcs ∧ (s.setCtr n c).tri = s.tri ∧ (s.setCtr n c).si = s.si ∧
    (s.setCtr n c).rules = s.rules ∧ (s.setCtr n c).zones = s.zones ∧ (s.setCtr n c).ucode = s.ucode ∧ (s.setCtr n c).curves = s.curves ∧
    (s.setCtr n c).hbcKeys = s.hbcKeys :=
  ⟨rfl, rfl, rfl, rfl, rfl, rfl, rfl, rfl, rfl, rfl, rfl, rfl, rfl, rfl, rfl, rfl, rfl, rfl, rfl, rfl, rfl, rfl, rfl, rfl, rfl, rfl, rfl, rfl, rfl,
  rfl, rfl, rfl, rfl, rfl, rfl, rfl, rfl, rfl, rfl, rfl, rfl, rfl, rfl, rfl, rfl, rfl, rfl, rfl, rfl, rfl, rfl, rfl, rfl, rfl, rfl, rfl, rfl, rfl,
  rfl, rfl, rfl, rfl, rfl, rfl, rfl, rfl, rfl, rfl, rfl, rfl⟩

/-- `setLease` writes `leases` alone. -/
@[simp] theorem State.setLease_keeps (s : State) (k : Nat) (l : Option Lease) :
    (s.setLease k l).pending = s.pending ∧ (s.setLease k l).fresh = s.fresh ∧ (s.setLease k l).fuse = s.fuse ∧ (s.setLease k l).regs = s.regs ∧
    (s.setLease k l).aux = s.aux ∧ (s.setLease k l).balls = s.balls ∧ (s.setLease k l).time = s.time ∧ (s.setLease k l).repairMap = s.repairMap ∧
    (s.setLease k l).chipFault = s.chipFault ∧ (s.setLease k l).evr = s.evr ∧ (s.setLease k l).ports = s.ports ∧
    (s.setLease k l).brakeOps = s.brakeOps ∧ (s.setLease k l).mirrorBad = s.mirrorBad ∧ (s.setLease k l).hosts = s.hosts ∧
    (s.setLease k l).mdio = s.mdio ∧ (s.setLease k l).sessions = s.sessions ∧ (s.setLease k l).windows = s.windows ∧
    (s.setLease k l).items = s.items ∧ (s.setLease k l).nextItem = s.nextItem ∧ (s.setLease k l).ready = s.ready ∧ (s.setLease k l).cores = s.cores ∧
    (s.setLease k l).saved = s.saved ∧ (s.setLease k l).prog = s.prog ∧ (s.setLease k l).progHash = s.progHash ∧ (s.setLease k l).rings = s.rings ∧
    (s.setLease k l).timers = s.timers ∧ (s.setLease k l).ctxs = s.ctxs ∧ (s.setLease k l).hbm = s.hbm ∧ (s.setLease k l).sram = s.sram ∧
    (s.setLease k l).fb = s.fb ∧ (s.setLease k l).early = s.early ∧ (s.setLease k l).laneQ = s.laneQ ∧ (s.setLease k l).sealQ = s.sealQ ∧
    (s.setLease k l).lanes = s.lanes ∧ (s.setLease k l).tenants = s.tenants ∧ (s.setLease k l).booms = s.booms ∧
    (s.setLease k l).answers = s.answers ∧ (s.setLease k l).held = s.held ∧ (s.setLease k l).lookups = s.lookups ∧
    (s.setLease k l).devLocked = s.devLocked ∧ (s.setLease k l).shut = s.shut ∧ (s.setLease k l).keys = s.keys ∧ (s.setLease k l).recs = s.recs ∧
    (s.setLease k l).nvm = s.nvm ∧ (s.setLease k l).ctrs = s.ctrs ∧ (s.setLease k l).root = s.root ∧ (s.setLease k l).dr = s.dr ∧
    (s.setLease k l).maskGen = s.maskGen ∧ (s.setLease k l).cellGen = s.cellGen ∧ (s.setLease k l).sys = s.sys ∧
    (s.setLease k l).activeTmks = s.activeTmks ∧ (s.setLease k l).mpus = s.mpus ∧ (s.setLease k l).grants = s.grants ∧
    (s.setLease k l).stateKeys = s.stateKeys ∧ (s.setLease k l).sealed = s.sealed ∧ (s.setLease k l).seedQ = s.seedQ ∧
    (s.setLease k l).rawWin = s.rawWin ∧ (s.setLease k l).pair = s.pair ∧ (s.setLease k l).brakes = s.brakes ∧ (s.setLease k l).brakeQ = s.brakeQ ∧
    (s.setLease k l).romQ = s.romQ ∧ (s.setLease k l).tmp = s.tmp ∧ (s.setLease k l).lcs = s.lcs ∧ (s.setLease k l).tri = s.tri ∧
    (s.setLease k l).si = s.si ∧ (s.setLease k l).rules = s.rules ∧ (s.setLease k l).zones = s.zones ∧ (s.setLease k l).ucode = s.ucode ∧
    (s.setLease k l).curves = s.curves ∧ (s.setLease k l).hbcKeys = s.hbcKeys :=
  ⟨rfl, rfl, rfl, rfl, rfl, rfl, rfl, rfl, rfl, rfl, rfl, rfl, rfl, rfl, rfl, rfl, rfl, rfl, rfl, rfl, rfl, rfl, rfl, rfl, rfl, rfl, rfl, rfl, rfl,
  rfl, rfl, rfl, rfl, rfl, rfl, rfl, rfl, rfl, rfl, rfl, rfl, rfl, rfl, rfl, rfl, rfl, rfl, rfl, rfl, rfl, rfl, rfl, rfl, rfl, rfl, rfl, rfl, rfl,
  rfl, rfl, rfl, rfl, rfl, rfl, rfl, rfl, rfl, rfl, rfl, rfl⟩

/-- `setBoom` writes `booms` alone. -/
@[simp] theorem State.setBoom_keeps (s : State) (r : Nat) (b : Boom) :
    (s.setBoom r b).pending = s.pending ∧ (s.setBoom r b).fresh = s.fresh ∧ (s.setBoom r b).fuse = s.fuse ∧ (s.setBoom r b).regs = s.regs ∧
    (s.setBoom r b).aux = s.aux ∧ (s.setBoom r b).balls = s.balls ∧ (s.setBoom r b).time = s.time ∧ (s.setBoom r b).repairMap = s.repairMap ∧
    (s.setBoom r b).chipFault = s.chipFault ∧ (s.setBoom r b).evr = s.evr ∧ (s.setBoom r b).ports = s.ports ∧ (s.setBoom r b).brakeOps = s.brakeOps ∧
    (s.setBoom r b).mirrorBad = s.mirrorBad ∧ (s.setBoom r b).hosts = s.hosts ∧ (s.setBoom r b).mdio = s.mdio ∧
    (s.setBoom r b).sessions = s.sessions ∧ (s.setBoom r b).windows = s.windows ∧ (s.setBoom r b).items = s.items ∧
    (s.setBoom r b).nextItem = s.nextItem ∧ (s.setBoom r b).ready = s.ready ∧ (s.setBoom r b).cores = s.cores ∧ (s.setBoom r b).saved = s.saved ∧
    (s.setBoom r b).prog = s.prog ∧ (s.setBoom r b).progHash = s.progHash ∧ (s.setBoom r b).rings = s.rings ∧ (s.setBoom r b).timers = s.timers ∧
    (s.setBoom r b).ctxs = s.ctxs ∧ (s.setBoom r b).hbm = s.hbm ∧ (s.setBoom r b).sram = s.sram ∧ (s.setBoom r b).fb = s.fb ∧
    (s.setBoom r b).early = s.early ∧ (s.setBoom r b).laneQ = s.laneQ ∧ (s.setBoom r b).sealQ = s.sealQ ∧ (s.setBoom r b).lanes = s.lanes ∧
    (s.setBoom r b).tenants = s.tenants ∧ (s.setBoom r b).answers = s.answers ∧ (s.setBoom r b).leases = s.leases ∧ (s.setBoom r b).held = s.held ∧
    (s.setBoom r b).lookups = s.lookups ∧ (s.setBoom r b).devLocked = s.devLocked ∧ (s.setBoom r b).shut = s.shut ∧ (s.setBoom r b).keys = s.keys ∧
    (s.setBoom r b).recs = s.recs ∧ (s.setBoom r b).nvm = s.nvm ∧ (s.setBoom r b).ctrs = s.ctrs ∧ (s.setBoom r b).root = s.root ∧
    (s.setBoom r b).dr = s.dr ∧ (s.setBoom r b).maskGen = s.maskGen ∧ (s.setBoom r b).cellGen = s.cellGen ∧ (s.setBoom r b).sys = s.sys ∧
    (s.setBoom r b).activeTmks = s.activeTmks ∧ (s.setBoom r b).mpus = s.mpus ∧ (s.setBoom r b).grants = s.grants ∧
    (s.setBoom r b).stateKeys = s.stateKeys ∧ (s.setBoom r b).sealed = s.sealed ∧ (s.setBoom r b).seedQ = s.seedQ ∧
    (s.setBoom r b).rawWin = s.rawWin ∧ (s.setBoom r b).pair = s.pair ∧ (s.setBoom r b).brakes = s.brakes ∧ (s.setBoom r b).brakeQ = s.brakeQ ∧
    (s.setBoom r b).romQ = s.romQ ∧ (s.setBoom r b).tmp = s.tmp ∧ (s.setBoom r b).lcs = s.lcs ∧ (s.setBoom r b).tri = s.tri ∧
    (s.setBoom r b).si = s.si ∧ (s.setBoom r b).rules = s.rules ∧ (s.setBoom r b).zones = s.zones ∧ (s.setBoom r b).ucode = s.ucode ∧
    (s.setBoom r b).curves = s.curves ∧ (s.setBoom r b).hbcKeys = s.hbcKeys :=
  ⟨rfl, rfl, rfl, rfl, rfl, rfl, rfl, rfl, rfl, rfl, rfl, rfl, rfl, rfl, rfl, rfl, rfl, rfl, rfl, rfl, rfl, rfl, rfl, rfl, rfl, rfl, rfl, rfl, rfl,
  rfl, rfl, rfl, rfl, rfl, rfl, rfl, rfl, rfl, rfl, rfl, rfl, rfl, rfl, rfl, rfl, rfl, rfl, rfl, rfl, rfl, rfl, rfl, rfl, rfl, rfl, rfl, rfl, rfl,
  rfl, rfl, rfl, rfl, rfl, rfl, rfl, rfl, rfl, rfl, rfl, rfl⟩

/-- `setSi` writes `si` alone. -/
@[simp] theorem State.setSi_keeps (s : State) (t : Nat) (v : SiTenant) :
    (s.setSi t v).pending = s.pending ∧ (s.setSi t v).fresh = s.fresh ∧ (s.setSi t v).fuse = s.fuse ∧ (s.setSi t v).regs = s.regs ∧
    (s.setSi t v).aux = s.aux ∧ (s.setSi t v).balls = s.balls ∧ (s.setSi t v).time = s.time ∧ (s.setSi t v).repairMap = s.repairMap ∧
    (s.setSi t v).chipFault = s.chipFault ∧ (s.setSi t v).evr = s.evr ∧ (s.setSi t v).ports = s.ports ∧ (s.setSi t v).brakeOps = s.brakeOps ∧
    (s.setSi t v).mirrorBad = s.mirrorBad ∧ (s.setSi t v).hosts = s.hosts ∧ (s.setSi t v).mdio = s.mdio ∧ (s.setSi t v).sessions = s.sessions ∧
    (s.setSi t v).windows = s.windows ∧ (s.setSi t v).items = s.items ∧ (s.setSi t v).nextItem = s.nextItem ∧ (s.setSi t v).ready = s.ready ∧
    (s.setSi t v).cores = s.cores ∧ (s.setSi t v).saved = s.saved ∧ (s.setSi t v).prog = s.prog ∧ (s.setSi t v).progHash = s.progHash ∧
    (s.setSi t v).rings = s.rings ∧ (s.setSi t v).timers = s.timers ∧ (s.setSi t v).ctxs = s.ctxs ∧ (s.setSi t v).hbm = s.hbm ∧
    (s.setSi t v).sram = s.sram ∧ (s.setSi t v).fb = s.fb ∧ (s.setSi t v).early = s.early ∧ (s.setSi t v).laneQ = s.laneQ ∧
    (s.setSi t v).sealQ = s.sealQ ∧ (s.setSi t v).lanes = s.lanes ∧ (s.setSi t v).tenants = s.tenants ∧ (s.setSi t v).booms = s.booms ∧
    (s.setSi t v).answers = s.answers ∧ (s.setSi t v).leases = s.leases ∧ (s.setSi t v).held = s.held ∧ (s.setSi t v).lookups = s.lookups ∧
    (s.setSi t v).devLocked = s.devLocked ∧ (s.setSi t v).shut = s.shut ∧ (s.setSi t v).keys = s.keys ∧ (s.setSi t v).recs = s.recs ∧
    (s.setSi t v).nvm = s.nvm ∧ (s.setSi t v).ctrs = s.ctrs ∧ (s.setSi t v).root = s.root ∧ (s.setSi t v).dr = s.dr ∧
    (s.setSi t v).maskGen = s.maskGen ∧ (s.setSi t v).cellGen = s.cellGen ∧ (s.setSi t v).sys = s.sys ∧ (s.setSi t v).activeTmks = s.activeTmks ∧
    (s.setSi t v).mpus = s.mpus ∧ (s.setSi t v).grants = s.grants ∧ (s.setSi t v).stateKeys = s.stateKeys ∧ (s.setSi t v).sealed = s.sealed ∧
    (s.setSi t v).seedQ = s.seedQ ∧ (s.setSi t v).rawWin = s.rawWin ∧ (s.setSi t v).pair = s.pair ∧ (s.setSi t v).brakes = s.brakes ∧
    (s.setSi t v).brakeQ = s.brakeQ ∧ (s.setSi t v).romQ = s.romQ ∧ (s.setSi t v).tmp = s.tmp ∧ (s.setSi t v).lcs = s.lcs ∧
    (s.setSi t v).tri = s.tri ∧ (s.setSi t v).rules = s.rules ∧ (s.setSi t v).zones = s.zones ∧ (s.setSi t v).ucode = s.ucode ∧
    (s.setSi t v).curves = s.curves ∧ (s.setSi t v).hbcKeys = s.hbcKeys :=
  ⟨rfl, rfl, rfl, rfl, rfl, rfl, rfl, rfl, rfl, rfl, rfl, rfl, rfl, rfl, rfl, rfl, rfl, rfl, rfl, rfl, rfl, rfl, rfl, rfl, rfl, rfl, rfl, rfl, rfl,
  rfl, rfl, rfl, rfl, rfl, rfl, rfl, rfl, rfl, rfl, rfl, rfl, rfl, rfl, rfl, rfl, rfl, rfl, rfl, rfl, rfl, rfl, rfl, rfl, rfl, rfl, rfl, rfl, rfl,
  rfl, rfl, rfl, rfl, rfl, rfl, rfl, rfl, rfl, rfl, rfl, rfl⟩

/-- `takeFresh` writes `fresh` alone. -/
@[simp] theorem State.takeFresh_keeps (s : State) (n : Nat) :
    (s.takeFresh n).pending = s.pending ∧ (s.takeFresh n).fuse = s.fuse ∧ (s.takeFresh n).regs = s.regs ∧ (s.takeFresh n).aux = s.aux ∧
    (s.takeFresh n).balls = s.balls ∧ (s.takeFresh n).time = s.time ∧ (s.takeFresh n).repairMap = s.repairMap ∧
    (s.takeFresh n).chipFault = s.chipFault ∧ (s.takeFresh n).evr = s.evr ∧ (s.takeFresh n).ports = s.ports ∧ (s.takeFresh n).brakeOps = s.brakeOps ∧
    (s.takeFresh n).mirrorBad = s.mirrorBad ∧ (s.takeFresh n).hosts = s.hosts ∧ (s.takeFresh n).mdio = s.mdio ∧
    (s.takeFresh n).sessions = s.sessions ∧ (s.takeFresh n).windows = s.windows ∧ (s.takeFresh n).items = s.items ∧
    (s.takeFresh n).nextItem = s.nextItem ∧ (s.takeFresh n).ready = s.ready ∧ (s.takeFresh n).cores = s.cores ∧ (s.takeFresh n).saved = s.saved ∧
    (s.takeFresh n).prog = s.prog ∧ (s.takeFresh n).progHash = s.progHash ∧ (s.takeFresh n).rings = s.rings ∧ (s.takeFresh n).timers = s.timers ∧
    (s.takeFresh n).ctxs = s.ctxs ∧ (s.takeFresh n).hbm = s.hbm ∧ (s.takeFresh n).sram = s.sram ∧ (s.takeFresh n).fb = s.fb ∧
    (s.takeFresh n).early = s.early ∧ (s.takeFresh n).laneQ = s.laneQ ∧ (s.takeFresh n).sealQ = s.sealQ ∧ (s.takeFresh n).lanes = s.lanes ∧
    (s.takeFresh n).tenants = s.tenants ∧ (s.takeFresh n).booms = s.booms ∧ (s.takeFresh n).answers = s.answers ∧ (s.takeFresh n).leases = s.leases ∧
    (s.takeFresh n).held = s.held ∧ (s.takeFresh n).lookups = s.lookups ∧ (s.takeFresh n).devLocked = s.devLocked ∧ (s.takeFresh n).shut = s.shut ∧
    (s.takeFresh n).keys = s.keys ∧ (s.takeFresh n).recs = s.recs ∧ (s.takeFresh n).nvm = s.nvm ∧ (s.takeFresh n).ctrs = s.ctrs ∧
    (s.takeFresh n).root = s.root ∧ (s.takeFresh n).dr = s.dr ∧ (s.takeFresh n).maskGen = s.maskGen ∧ (s.takeFresh n).cellGen = s.cellGen ∧
    (s.takeFresh n).sys = s.sys ∧ (s.takeFresh n).activeTmks = s.activeTmks ∧ (s.takeFresh n).mpus = s.mpus ∧ (s.takeFresh n).grants = s.grants ∧
    (s.takeFresh n).stateKeys = s.stateKeys ∧ (s.takeFresh n).sealed = s.sealed ∧ (s.takeFresh n).seedQ = s.seedQ ∧
    (s.takeFresh n).rawWin = s.rawWin ∧ (s.takeFresh n).pair = s.pair ∧ (s.takeFresh n).brakes = s.brakes ∧ (s.takeFresh n).brakeQ = s.brakeQ ∧
    (s.takeFresh n).romQ = s.romQ ∧ (s.takeFresh n).tmp = s.tmp ∧ (s.takeFresh n).lcs = s.lcs ∧ (s.takeFresh n).tri = s.tri ∧
    (s.takeFresh n).si = s.si ∧ (s.takeFresh n).rules = s.rules ∧ (s.takeFresh n).zones = s.zones ∧ (s.takeFresh n).ucode = s.ucode ∧
    (s.takeFresh n).curves = s.curves ∧ (s.takeFresh n).hbcKeys = s.hbcKeys :=
  ⟨rfl, rfl, rfl, rfl, rfl, rfl, rfl, rfl, rfl, rfl, rfl, rfl, rfl, rfl, rfl, rfl, rfl, rfl, rfl, rfl, rfl, rfl, rfl, rfl, rfl, rfl, rfl, rfl, rfl,
  rfl, rfl, rfl, rfl, rfl, rfl, rfl, rfl, rfl, rfl, rfl, rfl, rfl, rfl, rfl, rfl, rfl, rfl, rfl, rfl, rfl, rfl, rfl, rfl, rfl, rfl, rfl, rfl, rfl,
  rfl, rfl, rfl, rfl, rfl, rfl, rfl, rfl, rfl, rfl, rfl, rfl⟩

/-- `setFld` writes `regs` alone. -/
@[simp] theorem State.setFld_keeps (s : State) (p : PageId) (f : Fld) (n : Nat) :
    (s.setFld p f n).pending = s.pending ∧ (s.setFld p f n).fresh = s.fresh ∧ (s.setFld p f n).fuse = s.fuse ∧ (s.setFld p f n).aux = s.aux ∧
    (s.setFld p f n).balls = s.balls ∧ (s.setFld p f n).time = s.time ∧ (s.setFld p f n).repairMap = s.repairMap ∧
    (s.setFld p f n).chipFault = s.chipFault ∧ (s.setFld p f n).evr = s.evr ∧ (s.setFld p f n).ports = s.ports ∧
    (s.setFld p f n).brakeOps = s.brakeOps ∧ (s.setFld p f n).mirrorBad = s.mirrorBad ∧ (s.setFld p f n).hosts = s.hosts ∧
    (s.setFld p f n).mdio = s.mdio ∧ (s.setFld p f n).sessions = s.sessions ∧ (s.setFld p f n).windows = s.windows ∧
    (s.setFld p f n).items = s.items ∧ (s.setFld p f n).nextItem = s.nextItem ∧ (s.setFld p f n).ready = s.ready ∧ (s.setFld p f n).cores = s.cores ∧
    (s.setFld p f n).saved = s.saved ∧ (s.setFld p f n).prog = s.prog ∧ (s.setFld p f n).progHash = s.progHash ∧ (s.setFld p f n).rings = s.rings ∧
    (s.setFld p f n).timers = s.timers ∧ (s.setFld p f n).ctxs = s.ctxs ∧ (s.setFld p f n).hbm = s.hbm ∧ (s.setFld p f n).sram = s.sram ∧
    (s.setFld p f n).fb = s.fb ∧ (s.setFld p f n).early = s.early ∧ (s.setFld p f n).laneQ = s.laneQ ∧ (s.setFld p f n).sealQ = s.sealQ ∧
    (s.setFld p f n).lanes = s.lanes ∧ (s.setFld p f n).tenants = s.tenants ∧ (s.setFld p f n).booms = s.booms ∧
    (s.setFld p f n).answers = s.answers ∧ (s.setFld p f n).leases = s.leases ∧ (s.setFld p f n).held = s.held ∧
    (s.setFld p f n).lookups = s.lookups ∧ (s.setFld p f n).devLocked = s.devLocked ∧ (s.setFld p f n).shut = s.shut ∧
    (s.setFld p f n).keys = s.keys ∧ (s.setFld p f n).recs = s.recs ∧ (s.setFld p f n).nvm = s.nvm ∧ (s.setFld p f n).ctrs = s.ctrs ∧
    (s.setFld p f n).root = s.root ∧ (s.setFld p f n).dr = s.dr ∧ (s.setFld p f n).maskGen = s.maskGen ∧ (s.setFld p f n).cellGen = s.cellGen ∧
    (s.setFld p f n).sys = s.sys ∧ (s.setFld p f n).activeTmks = s.activeTmks ∧ (s.setFld p f n).mpus = s.mpus ∧ (s.setFld p f n).grants = s.grants ∧
    (s.setFld p f n).stateKeys = s.stateKeys ∧ (s.setFld p f n).sealed = s.sealed ∧ (s.setFld p f n).seedQ = s.seedQ ∧
    (s.setFld p f n).rawWin = s.rawWin ∧ (s.setFld p f n).pair = s.pair ∧ (s.setFld p f n).brakes = s.brakes ∧ (s.setFld p f n).brakeQ = s.brakeQ ∧
    (s.setFld p f n).romQ = s.romQ ∧ (s.setFld p f n).tmp = s.tmp ∧ (s.setFld p f n).lcs = s.lcs ∧ (s.setFld p f n).tri = s.tri ∧
    (s.setFld p f n).si = s.si ∧ (s.setFld p f n).rules = s.rules ∧ (s.setFld p f n).zones = s.zones ∧ (s.setFld p f n).ucode = s.ucode ∧
    (s.setFld p f n).curves = s.curves ∧ (s.setFld p f n).hbcKeys = s.hbcKeys :=
  ⟨rfl, rfl, rfl, rfl, rfl, rfl, rfl, rfl, rfl, rfl, rfl, rfl, rfl, rfl, rfl, rfl, rfl, rfl, rfl, rfl, rfl, rfl, rfl, rfl, rfl, rfl, rfl, rfl, rfl,
  rfl, rfl, rfl, rfl, rfl, rfl, rfl, rfl, rfl, rfl, rfl, rfl, rfl, rfl, rfl, rfl, rfl, rfl, rfl, rfl, rfl, rfl, rfl, rfl, rfl, rfl, rfl, rfl, rfl,
  rfl, rfl, rfl, rfl, rfl, rfl, rfl, rfl, rfl, rfl, rfl, rfl⟩

/-- `setFlag` writes `regs` alone. -/
@[simp] theorem State.setFlag_keeps (s : State) (p : PageId) (f : Fld) (b : Bool) :
    (s.setFlag p f b).pending = s.pending ∧ (s.setFlag p f b).fresh = s.fresh ∧ (s.setFlag p f b).fuse = s.fuse ∧ (s.setFlag p f b).aux = s.aux ∧
    (s.setFlag p f b).balls = s.balls ∧ (s.setFlag p f b).time = s.time ∧ (s.setFlag p f b).repairMap = s.repairMap ∧
    (s.setFlag p f b).chipFault = s.chipFault ∧ (s.setFlag p f b).evr = s.evr ∧ (s.setFlag p f b).ports = s.ports ∧
    (s.setFlag p f b).brakeOps = s.brakeOps ∧ (s.setFlag p f b).mirrorBad = s.mirrorBad ∧ (s.setFlag p f b).hosts = s.hosts ∧
    (s.setFlag p f b).mdio = s.mdio ∧ (s.setFlag p f b).sessions = s.sessions ∧ (s.setFlag p f b).windows = s.windows ∧
    (s.setFlag p f b).items = s.items ∧ (s.setFlag p f b).nextItem = s.nextItem ∧ (s.setFlag p f b).ready = s.ready ∧
    (s.setFlag p f b).cores = s.cores ∧ (s.setFlag p f b).saved = s.saved ∧ (s.setFlag p f b).prog = s.prog ∧
    (s.setFlag p f b).progHash = s.progHash ∧ (s.setFlag p f b).rings = s.rings ∧ (s.setFlag p f b).timers = s.timers ∧
    (s.setFlag p f b).ctxs = s.ctxs ∧ (s.setFlag p f b).hbm = s.hbm ∧ (s.setFlag p f b).sram = s.sram ∧ (s.setFlag p f b).fb = s.fb ∧
    (s.setFlag p f b).early = s.early ∧ (s.setFlag p f b).laneQ = s.laneQ ∧ (s.setFlag p f b).sealQ = s.sealQ ∧ (s.setFlag p f b).lanes = s.lanes ∧
    (s.setFlag p f b).tenants = s.tenants ∧ (s.setFlag p f b).booms = s.booms ∧ (s.setFlag p f b).answers = s.answers ∧
    (s.setFlag p f b).leases = s.leases ∧ (s.setFlag p f b).held = s.held ∧ (s.setFlag p f b).lookups = s.lookups ∧
    (s.setFlag p f b).devLocked = s.devLocked ∧ (s.setFlag p f b).shut = s.shut ∧ (s.setFlag p f b).keys = s.keys ∧ (s.setFlag p f b).recs = s.recs ∧
    (s.setFlag p f b).nvm = s.nvm ∧ (s.setFlag p f b).ctrs = s.ctrs ∧ (s.setFlag p f b).root = s.root ∧ (s.setFlag p f b).dr = s.dr ∧
    (s.setFlag p f b).maskGen = s.maskGen ∧ (s.setFlag p f b).cellGen = s.cellGen ∧ (s.setFlag p f b).sys = s.sys ∧
    (s.setFlag p f b).activeTmks = s.activeTmks ∧ (s.setFlag p f b).mpus = s.mpus ∧ (s.setFlag p f b).grants = s.grants ∧
    (s.setFlag p f b).stateKeys = s.stateKeys ∧ (s.setFlag p f b).sealed = s.sealed ∧ (s.setFlag p f b).seedQ = s.seedQ ∧
    (s.setFlag p f b).rawWin = s.rawWin ∧ (s.setFlag p f b).pair = s.pair ∧ (s.setFlag p f b).brakes = s.brakes ∧
    (s.setFlag p f b).brakeQ = s.brakeQ ∧ (s.setFlag p f b).romQ = s.romQ ∧ (s.setFlag p f b).tmp = s.tmp ∧ (s.setFlag p f b).lcs = s.lcs ∧
    (s.setFlag p f b).tri = s.tri ∧ (s.setFlag p f b).si = s.si ∧ (s.setFlag p f b).rules = s.rules ∧ (s.setFlag p f b).zones = s.zones ∧
    (s.setFlag p f b).ucode = s.ucode ∧ (s.setFlag p f b).curves = s.curves ∧ (s.setFlag p f b).hbcKeys = s.hbcKeys :=
  ⟨rfl, rfl, rfl, rfl, rfl, rfl, rfl, rfl, rfl, rfl, rfl, rfl, rfl, rfl, rfl, rfl, rfl, rfl, rfl, rfl, rfl, rfl, rfl, rfl, rfl, rfl, rfl, rfl, rfl,
  rfl, rfl, rfl, rfl, rfl, rfl, rfl, rfl, rfl, rfl, rfl, rfl, rfl, rfl, rfl, rfl, rfl, rfl, rfl, rfl, rfl, rfl, rfl, rfl, rfl, rfl, rfl, rfl, rfl,
  rfl, rfl, rfl, rfl, rfl, rfl, rfl, rfl, rfl, rfl, rfl, rfl⟩

/-- `bump` writes `regs` alone. -/
@[simp] theorem State.bump_keeps (s : State) (p : PageId) (f : Fld) (n : Nat) :
    (s.bump p f n).pending = s.pending ∧ (s.bump p f n).fresh = s.fresh ∧ (s.bump p f n).fuse = s.fuse ∧ (s.bump p f n).aux = s.aux ∧
    (s.bump p f n).balls = s.balls ∧ (s.bump p f n).time = s.time ∧ (s.bump p f n).repairMap = s.repairMap ∧ (s.bump p f n).chipFault = s.chipFault ∧
    (s.bump p f n).evr = s.evr ∧ (s.bump p f n).ports = s.ports ∧ (s.bump p f n).brakeOps = s.brakeOps ∧ (s.bump p f n).mirrorBad = s.mirrorBad ∧
    (s.bump p f n).hosts = s.hosts ∧ (s.bump p f n).mdio = s.mdio ∧ (s.bump p f n).sessions = s.sessions ∧ (s.bump p f n).windows = s.windows ∧
    (s.bump p f n).items = s.items ∧ (s.bump p f n).nextItem = s.nextItem ∧ (s.bump p f n).ready = s.ready ∧ (s.bump p f n).cores = s.cores ∧
    (s.bump p f n).saved = s.saved ∧ (s.bump p f n).prog = s.prog ∧ (s.bump p f n).progHash = s.progHash ∧ (s.bump p f n).rings = s.rings ∧
    (s.bump p f n).timers = s.timers ∧ (s.bump p f n).ctxs = s.ctxs ∧ (s.bump p f n).hbm = s.hbm ∧ (s.bump p f n).sram = s.sram ∧
    (s.bump p f n).fb = s.fb ∧ (s.bump p f n).early = s.early ∧ (s.bump p f n).laneQ = s.laneQ ∧ (s.bump p f n).sealQ = s.sealQ ∧
    (s.bump p f n).lanes = s.lanes ∧ (s.bump p f n).tenants = s.tenants ∧ (s.bump p f n).booms = s.booms ∧ (s.bump p f n).answers = s.answers ∧
    (s.bump p f n).leases = s.leases ∧ (s.bump p f n).held = s.held ∧ (s.bump p f n).lookups = s.lookups ∧ (s.bump p f n).devLocked = s.devLocked ∧
    (s.bump p f n).shut = s.shut ∧ (s.bump p f n).keys = s.keys ∧ (s.bump p f n).recs = s.recs ∧ (s.bump p f n).nvm = s.nvm ∧
    (s.bump p f n).ctrs = s.ctrs ∧ (s.bump p f n).root = s.root ∧ (s.bump p f n).dr = s.dr ∧ (s.bump p f n).maskGen = s.maskGen ∧
    (s.bump p f n).cellGen = s.cellGen ∧ (s.bump p f n).sys = s.sys ∧ (s.bump p f n).activeTmks = s.activeTmks ∧ (s.bump p f n).mpus = s.mpus ∧
    (s.bump p f n).grants = s.grants ∧ (s.bump p f n).stateKeys = s.stateKeys ∧ (s.bump p f n).sealed = s.sealed ∧ (s.bump p f n).seedQ = s.seedQ ∧
    (s.bump p f n).rawWin = s.rawWin ∧ (s.bump p f n).pair = s.pair ∧ (s.bump p f n).brakes = s.brakes ∧ (s.bump p f n).brakeQ = s.brakeQ ∧
    (s.bump p f n).romQ = s.romQ ∧ (s.bump p f n).tmp = s.tmp ∧ (s.bump p f n).lcs = s.lcs ∧ (s.bump p f n).tri = s.tri ∧ (s.bump p f n).si = s.si ∧
    (s.bump p f n).rules = s.rules ∧ (s.bump p f n).zones = s.zones ∧ (s.bump p f n).ucode = s.ucode ∧ (s.bump p f n).curves = s.curves ∧
    (s.bump p f n).hbcKeys = s.hbcKeys :=
  ⟨rfl, rfl, rfl, rfl, rfl, rfl, rfl, rfl, rfl, rfl, rfl, rfl, rfl, rfl, rfl, rfl, rfl, rfl, rfl, rfl, rfl, rfl, rfl, rfl, rfl, rfl, rfl, rfl, rfl,
  rfl, rfl, rfl, rfl, rfl, rfl, rfl, rfl, rfl, rfl, rfl, rfl, rfl, rfl, rfl, rfl, rfl, rfl, rfl, rfl, rfl, rfl, rfl, rfl, rfl, rfl, rfl, rfl, rfl,
  rfl, rfl, rfl, rfl, rfl, rfl, rfl, rfl, rfl, rfl, rfl, rfl⟩

/-- `bumpSat` writes `regs` alone. -/
@[simp] theorem State.bumpSat_keeps (s : State) (p : PageId) (f : Fld) :
    (s.bumpSat p f).pending = s.pending ∧ (s.bumpSat p f).fresh = s.fresh ∧ (s.bumpSat p f).fuse = s.fuse ∧ (s.bumpSat p f).aux = s.aux ∧
    (s.bumpSat p f).balls = s.balls ∧ (s.bumpSat p f).time = s.time ∧ (s.bumpSat p f).repairMap = s.repairMap ∧
    (s.bumpSat p f).chipFault = s.chipFault ∧ (s.bumpSat p f).evr = s.evr ∧ (s.bumpSat p f).ports = s.ports ∧ (s.bumpSat p f).brakeOps = s.brakeOps ∧
    (s.bumpSat p f).mirrorBad = s.mirrorBad ∧ (s.bumpSat p f).hosts = s.hosts ∧ (s.bumpSat p f).mdio = s.mdio ∧
    (s.bumpSat p f).sessions = s.sessions ∧ (s.bumpSat p f).windows = s.windows ∧ (s.bumpSat p f).items = s.items ∧
    (s.bumpSat p f).nextItem = s.nextItem ∧ (s.bumpSat p f).ready = s.ready ∧ (s.bumpSat p f).cores = s.cores ∧ (s.bumpSat p f).saved = s.saved ∧
    (s.bumpSat p f).prog = s.prog ∧ (s.bumpSat p f).progHash = s.progHash ∧ (s.bumpSat p f).rings = s.rings ∧ (s.bumpSat p f).timers = s.timers ∧
    (s.bumpSat p f).ctxs = s.ctxs ∧ (s.bumpSat p f).hbm = s.hbm ∧ (s.bumpSat p f).sram = s.sram ∧ (s.bumpSat p f).fb = s.fb ∧
    (s.bumpSat p f).early = s.early ∧ (s.bumpSat p f).laneQ = s.laneQ ∧ (s.bumpSat p f).sealQ = s.sealQ ∧ (s.bumpSat p f).lanes = s.lanes ∧
    (s.bumpSat p f).tenants = s.tenants ∧ (s.bumpSat p f).booms = s.booms ∧ (s.bumpSat p f).answers = s.answers ∧ (s.bumpSat p f).leases = s.leases ∧
    (s.bumpSat p f).held = s.held ∧ (s.bumpSat p f).lookups = s.lookups ∧ (s.bumpSat p f).devLocked = s.devLocked ∧ (s.bumpSat p f).shut = s.shut ∧
    (s.bumpSat p f).keys = s.keys ∧ (s.bumpSat p f).recs = s.recs ∧ (s.bumpSat p f).nvm = s.nvm ∧ (s.bumpSat p f).ctrs = s.ctrs ∧
    (s.bumpSat p f).root = s.root ∧ (s.bumpSat p f).dr = s.dr ∧ (s.bumpSat p f).maskGen = s.maskGen ∧ (s.bumpSat p f).cellGen = s.cellGen ∧
    (s.bumpSat p f).sys = s.sys ∧ (s.bumpSat p f).activeTmks = s.activeTmks ∧ (s.bumpSat p f).mpus = s.mpus ∧ (s.bumpSat p f).grants = s.grants ∧
    (s.bumpSat p f).stateKeys = s.stateKeys ∧ (s.bumpSat p f).sealed = s.sealed ∧ (s.bumpSat p f).seedQ = s.seedQ ∧
    (s.bumpSat p f).rawWin = s.rawWin ∧ (s.bumpSat p f).pair = s.pair ∧ (s.bumpSat p f).brakes = s.brakes ∧ (s.bumpSat p f).brakeQ = s.brakeQ ∧
    (s.bumpSat p f).romQ = s.romQ ∧ (s.bumpSat p f).tmp = s.tmp ∧ (s.bumpSat p f).lcs = s.lcs ∧ (s.bumpSat p f).tri = s.tri ∧
    (s.bumpSat p f).si = s.si ∧ (s.bumpSat p f).rules = s.rules ∧ (s.bumpSat p f).zones = s.zones ∧ (s.bumpSat p f).ucode = s.ucode ∧
    (s.bumpSat p f).curves = s.curves ∧ (s.bumpSat p f).hbcKeys = s.hbcKeys :=
  ⟨rfl, rfl, rfl, rfl, rfl, rfl, rfl, rfl, rfl, rfl, rfl, rfl, rfl, rfl, rfl, rfl, rfl, rfl, rfl, rfl, rfl, rfl, rfl, rfl, rfl, rfl, rfl, rfl, rfl,
  rfl, rfl, rfl, rfl, rfl, rfl, rfl, rfl, rfl, rfl, rfl, rfl, rfl, rfl, rfl, rfl, rfl, rfl, rfl, rfl, rfl, rfl, rfl, rfl, rfl, rfl, rfl, rfl, rfl,
  rfl, rfl, rfl, rfl, rfl, rfl, rfl, rfl, rfl, rfl, rfl, rfl⟩

/-- `setIrq` writes `regs` alone. -/
@[simp] theorem setIrq_keeps (s : State) (p : PageId) (bit : Nat) :
    (setIrq s p bit).pending = s.pending ∧ (setIrq s p bit).fresh = s.fresh ∧ (setIrq s p bit).fuse = s.fuse ∧ (setIrq s p bit).aux = s.aux ∧
    (setIrq s p bit).balls = s.balls ∧ (setIrq s p bit).time = s.time ∧ (setIrq s p bit).repairMap = s.repairMap ∧
    (setIrq s p bit).chipFault = s.chipFault ∧ (setIrq s p bit).evr = s.evr ∧ (setIrq s p bit).ports = s.ports ∧
    (setIrq s p bit).brakeOps = s.brakeOps ∧ (setIrq s p bit).mirrorBad = s.mirrorBad ∧ (setIrq s p bit).hosts = s.hosts ∧
    (setIrq s p bit).mdio = s.mdio ∧ (setIrq s p bit).sessions = s.sessions ∧ (setIrq s p bit).windows = s.windows ∧
    (setIrq s p bit).items = s.items ∧ (setIrq s p bit).nextItem = s.nextItem ∧ (setIrq s p bit).ready = s.ready ∧ (setIrq s p bit).cores = s.cores ∧
    (setIrq s p bit).saved = s.saved ∧ (setIrq s p bit).prog = s.prog ∧ (setIrq s p bit).progHash = s.progHash ∧ (setIrq s p bit).rings = s.rings ∧
    (setIrq s p bit).timers = s.timers ∧ (setIrq s p bit).ctxs = s.ctxs ∧ (setIrq s p bit).hbm = s.hbm ∧ (setIrq s p bit).sram = s.sram ∧
    (setIrq s p bit).fb = s.fb ∧ (setIrq s p bit).early = s.early ∧ (setIrq s p bit).laneQ = s.laneQ ∧ (setIrq s p bit).sealQ = s.sealQ ∧
    (setIrq s p bit).lanes = s.lanes ∧ (setIrq s p bit).tenants = s.tenants ∧ (setIrq s p bit).booms = s.booms ∧
    (setIrq s p bit).answers = s.answers ∧ (setIrq s p bit).leases = s.leases ∧ (setIrq s p bit).held = s.held ∧
    (setIrq s p bit).lookups = s.lookups ∧ (setIrq s p bit).devLocked = s.devLocked ∧ (setIrq s p bit).shut = s.shut ∧
    (setIrq s p bit).keys = s.keys ∧ (setIrq s p bit).recs = s.recs ∧ (setIrq s p bit).nvm = s.nvm ∧ (setIrq s p bit).ctrs = s.ctrs ∧
    (setIrq s p bit).root = s.root ∧ (setIrq s p bit).dr = s.dr ∧ (setIrq s p bit).maskGen = s.maskGen ∧ (setIrq s p bit).cellGen = s.cellGen ∧
    (setIrq s p bit).sys = s.sys ∧ (setIrq s p bit).activeTmks = s.activeTmks ∧ (setIrq s p bit).mpus = s.mpus ∧ (setIrq s p bit).grants = s.grants ∧
    (setIrq s p bit).stateKeys = s.stateKeys ∧ (setIrq s p bit).sealed = s.sealed ∧ (setIrq s p bit).seedQ = s.seedQ ∧
    (setIrq s p bit).rawWin = s.rawWin ∧ (setIrq s p bit).pair = s.pair ∧ (setIrq s p bit).brakes = s.brakes ∧ (setIrq s p bit).brakeQ = s.brakeQ ∧
    (setIrq s p bit).romQ = s.romQ ∧ (setIrq s p bit).tmp = s.tmp ∧ (setIrq s p bit).lcs = s.lcs ∧ (setIrq s p bit).tri = s.tri ∧
    (setIrq s p bit).si = s.si ∧ (setIrq s p bit).rules = s.rules ∧ (setIrq s p bit).zones = s.zones ∧ (setIrq s p bit).ucode = s.ucode ∧
    (setIrq s p bit).curves = s.curves ∧ (setIrq s p bit).hbcKeys = s.hbcKeys :=
  ⟨rfl, rfl, rfl, rfl, rfl, rfl, rfl, rfl, rfl, rfl, rfl, rfl, rfl, rfl, rfl, rfl, rfl, rfl, rfl, rfl, rfl, rfl, rfl, rfl, rfl, rfl, rfl, rfl, rfl,
  rfl, rfl, rfl, rfl, rfl, rfl, rfl, rfl, rfl, rfl, rfl, rfl, rfl, rfl, rfl, rfl, rfl, rfl, rfl, rfl, rfl, rfl, rfl, rfl, rfl, rfl, rfl, rfl, rfl,
  rfl, rfl, rfl, rfl, rfl, rfl, rfl, rfl, rfl, rfl, rfl, rfl⟩

end Sys2Proof.Machine
end

