-- ==== Sys2Proof/Laws/Ops.lean ====
section
/-!
SUPPORT. What each shared operation can do, said once: an operation on register pages writes the register map alone, a
report writes that map and the recorder, a memory write one memory, and time the clock and the counters; each keeps what
it writes in canonical form.
-/
namespace Sys2Proof.Machine

/-- `t` is `s` with other registers, still in canonical form. -/
def OnlyRegs (s t : State) : Prop :=
  t = { s with regs := t.regs } ∧ (mwf resetWord s.regs = true → mwf resetWord t.regs = true)

/-- `t` is `s` with other registers, still in canonical form, and another recorder. -/
def OnlyReport (s t : State) : Prop :=
  t = { s with regs := t.regs, evr := t.evr } ∧ (mwf resetWord s.regs = true → mwf resetWord t.regs = true)

/-- `t` is `s` with other registers, still in canonical form, and another clock. -/
def OnlyClock (s t : State) : Prop :=
  t = { s with regs := t.regs, time := t.time } ∧ (mwf resetWord s.regs = true → mwf resetWord t.regs = true)

theorem OnlyRegs.refl (s : State) : OnlyRegs s s := ⟨rfl, id⟩

theorem OnlyRegs.trans {s t u : State} (h1 : OnlyRegs s t) (h2 : OnlyRegs t u) : OnlyRegs s u := by
  obtain ⟨e1, w1⟩ := h1
  obtain ⟨e2, w2⟩ := h2
  refine ⟨?_, fun h => w2 (w1 h)⟩
  rw [e2, e1]

theorem OnlyRegs.report {s t : State} (h : OnlyRegs s t) : OnlyReport s t := by
  obtain ⟨e, w⟩ := h
  exact ⟨by rw [e], w⟩

theorem OnlyRegs.clock {s t : State} (h : OnlyRegs s t) : OnlyClock s t := by
  obtain ⟨e, w⟩ := h
  exact ⟨by rw [e], w⟩

theorem OnlyReport.trans {s t u : State} (h1 : OnlyReport s t) (h2 : OnlyReport t u) : OnlyReport s u := by
  obtain ⟨e1, w1⟩ := h1
  obtain ⟨e2, w2⟩ := h2
  refine ⟨?_, fun h => w2 (w1 h)⟩
  rw [e2, e1]

theorem OnlyClock.trans {s t u : State} (h1 : OnlyClock s t) (h2 : OnlyClock t u) : OnlyClock s u := by
  obtain ⟨e1, w1⟩ := h1
  obtain ⟨e2, w2⟩ := h2
  refine ⟨?_, fun h => w2 (w1 h)⟩
  rw [e2, e1]

/-- A left fold of register operations is one. -/
theorem OnlyRegs.foldl {α : Type} (f : State → α → State) (h : ∀ s x, OnlyRegs s (f s x)) (l : List α) (s : State) :
    OnlyRegs s (l.foldl f s) := by
  induction l generalizing s with
  | nil => exact OnlyRegs.refl s
  | cons x l ih => exact (h s x).trans (ih (f s x))

/-! ## Register operations -/

theorem setReg_onlyRegs (s : State) (p : PageId) (off : Nat) (v : Word) : OnlyRegs s (s.setReg p off v) :=
  ⟨rfl, fun h => mwf_mset resetWord s.regs _ v h⟩

theorem setFld_onlyRegs (s : State) (p : PageId) (f : Fld) (n : Nat) : OnlyRegs s (s.setFld p f n) :=
  setReg_onlyRegs s p _ _

theorem setFlag_onlyRegs (s : State) (p : PageId) (f : Fld) (b : Bool) : OnlyRegs s (s.setFlag p f b) :=
  setFld_onlyRegs s p f _

theorem bump_onlyRegs (s : State) (p : PageId) (f : Fld) (n : Nat) : OnlyRegs s (s.bump p f n) := setFld_onlyRegs s p f _

theorem bumpSat_onlyRegs (s : State) (p : PageId) (f : Fld) : OnlyRegs s (s.bumpSat p f) := setFld_onlyRegs s p f _

theorem setIrq_onlyRegs (s : State) (p : PageId) (bit : Nat) : OnlyRegs s (setIrq s p bit) := setFlag_onlyRegs s p _ _

theorem setState_onlyRegs (s : State) (p : PageId) (st : Nat) : OnlyRegs s (setState s p st) := by
  simp only [setState]
  split
  · exact (setFld_onlyRegs s p _ _).trans (setIrq_onlyRegs _ p 1)
  · exact setFld_onlyRegs s p _ _

theorem pmcAdd_onlyRegs (s : State) (r c n : Nat) : OnlyRegs s (pmcAdd s r c n) := by
  simp only [pmcAdd]
  have h := (setFld_onlyRegs s (.pmc r) (PMC_CNT_LO c) (pmcCount s r c + n)).trans
    (setFld_onlyRegs _ (.pmc r) (PMC_CNT_HI c) ((pmcCount s r c + n) / 2 ^ 32))
  split
  · exact h
  · exact h.trans ((setFlag_onlyRegs _ (.pmc r) _ _).trans (setIrq_onlyRegs _ (.pmc r) 17))

theorem pmcEvent_onlyRegs (s : State) (r code : Nat) (tenant : Option Nat) (n : Nat) :
    OnlyRegs s (pmcEvent s r code tenant n) := by
  simp only [pmcEvent]
  split
  · exact OnlyRegs.refl s
  · refine OnlyRegs.foldl _ (fun s c => ?_) _ _
    split
    · exact pmcAdd_onlyRegs s r c n
    · exact OnlyRegs.refl s

/-! ## Reports -/

theorem postEvent_onlyReport (s : State) (p : PageId) (code : Nat) (p0 p1 p2 p3 : Word) :
    OnlyReport s (postEvent s p code p0 p1 p2 p3) := by
  simp only [postEvent]
  split
  · exact (OnlyRegs.refl s).report
  · split
    · obtain ⟨e, w⟩ := bump_onlyRegs s .evr EVR_MISSED 1
      exact ⟨by rw [e], w⟩
    · split
      · refine OnlyReport.trans ?_ (setIrq_onlyRegs _ .evr 17).report
        obtain ⟨e, w⟩ := bump_onlyRegs s .evr EVR_LOST 1
        exact ⟨by rw [e], w⟩
      · exact ⟨rfl, id⟩

theorem raiseErrs_onlyReport (s : State) (p : PageId) (clss : List Nat) (code : Nat) (tenant addr : Word) :
    OnlyReport s (raiseErrs s p clss code tenant addr) := by
  have h0 : ∀ (t : State), OnlyRegs t (clss.foldl (fun s c => s.setFlag p ⟨0x010, c, 1⟩ true) t) := fun t =>
    OnlyRegs.foldl _ (fun s c => setFlag_onlyRegs s p _ _) _ _
  have h1 : OnlyRegs s (if (s.reg p 0x010).toNat / 256 % 32 ≠ 0 then s.setFlag p ERR_MULTIPLE true
      else if s.flag p ERR_MULTIPLE then s else s.setFld p ERR_CODE code) := by
    split
    · exact setFlag_onlyRegs s p _ _
    · split
      · exact OnlyRegs.refl s
      · exact setFld_onlyRegs s p _ _
  simp only [raiseErrs]
  generalize (if (s.reg p 0x010).toNat / 256 % 32 ≠ 0 then s.setFlag p ERR_MULTIPLE true
    else if s.flag p ERR_MULTIPLE then s else s.setFld p ERR_CODE code) = u at h1 ⊢
  have h2 := h1.trans (h0 u)
  generalize clss.foldl (fun s c => s.setFlag p ⟨0x010, c, 1⟩ true) u = v at h2 ⊢
  split
  · exact h2.report
  · exact (h2.trans (setIrq_onlyRegs v p 0)).report.trans (postEvent_onlyReport _ p _ _ _ _ _)

theorem raiseErr_onlyReport (s : State) (p : PageId) (cls code : Nat) (tenant addr : Word) :
    OnlyReport s (raiseErr s p cls code tenant addr) := raiseErrs_onlyReport s p [cls] code tenant addr

theorem accessErr_onlyReport (s : State) (p : PageId) : OnlyReport s (accessErr s p) := raiseErr_onlyReport s p 12 _ _ _

theorem failPage_onlyReport (s : State) (p : PageId) (code : Nat) (parity : Bool) (tenant addr : Word) :
    OnlyReport s (failPage s p code parity tenant addr) := by
  simp only [failPage]
  exact ((bumpSat_onlyRegs s p _).report.trans (raiseErrs_onlyReport _ p _ _ _ _)).trans (setState_onlyRegs _ p _).report

/-! ## Time -/

theorem occTicks_onlyRegs (s : State) (r n : Nat) : OnlyRegs s (occTicks s r n) := by
  simp only [occTicks]
  split
  · exact OnlyRegs.refl s
  · refine OnlyRegs.foldl _ (fun s c => ?_) _ _
    simp only [occTick]
    split
    · split
      · split
        · exact pmcAdd_onlyRegs s r c _
        · exact OnlyRegs.refl s
      · exact OnlyRegs.refl s
    · exact OnlyRegs.refl s

theorem advance_onlyClock (s : State) (n : Nat) : OnlyClock s (advance s n) := by
  simp only [advance]
  split
  · exact (OnlyRegs.refl s).clock
  · refine OnlyClock.trans ?_ (OnlyRegs.foldl _ (fun s r => occTicks_onlyRegs s r n) _ _).clock
    exact ⟨rfl, id⟩

theorem advanceTo_onlyClock (s : State) (t : Nat) : OnlyClock s (advanceTo s t) := advance_onlyClock s _

/-! ## Memories -/

/-- A write to a physical address touches the HBM and the control SRAM alone and keeps both in canonical form. -/
theorem physWrite_spec (s : State) (a : Nat) (b : Bytes) :
    physWrite s a b = { s with hbm := (physWrite s a b).hbm, sram := (physWrite s a b).sram } ∧
      (Memory.wf s.hbm = true → Memory.wf (physWrite s a b).hbm = true) ∧
      (Memory.wf s.sram = true → Memory.wf (physWrite s a b).sram = true) := by
  simp only [physWrite]
  split
  · exact ⟨rfl, memWrite_wf _ _ _, id⟩
  · split
    · exact ⟨rfl, id, memWrite_wf _ _ _⟩
    · exact ⟨rfl, id, id⟩

/-- A write to the context store touches contexts alone. -/
theorem ctxStore_spec (s : State) (r off : Nat) (b : Bytes) : ∃ x, ctxStore s r off b = { s with ctxs := x } := by
  have h : ∀ (l : List Nat) (f : State → Nat → State), (∀ t i, ∃ x, f t i = { t with ctxs := x }) →
      ∀ t, ∃ x, l.foldl f t = { t with ctxs := x } := by
    intro l f hf
    induction l with
    | nil => exact fun t => ⟨t.ctxs, rfl⟩
    | cons i l ih =>
      intro t
      obtain ⟨y, hy⟩ := hf t i
      obtain ⟨x, hx⟩ := ih (f t i)
      exact ⟨x, by rw [List.foldl_cons, hx, hy]⟩
  refine h _ _ (fun t i => ?_) s
  dsimp only
  split
  · exact ⟨_, rfl⟩
  · exact ⟨t.ctxs, rfl⟩

/-- A write to a fabric address touches a core, a frame buffer, a context or the HBM, and keeps the frame buffers and
the HBM in canonical form. -/
theorem fabricWrite_spec (s : State) (r k a : Nat) (b : Bytes) :
    (∃ c x, fabricWrite s r k a b = { s with
      cores := c, ctxs := x, fb := (fabricWrite s r k a b).fb, hbm := (fabricWrite s r k a b).hbm }) ∧
      (Memory.wf s.fb = true → Memory.wf (fabricWrite s r k a b).fb = true) ∧
      (Memory.wf s.hbm = true → Memory.wf (fabricWrite s r k a b).hbm = true) := by
  simp only [fabricWrite]
  split
  · exact ⟨⟨_, s.ctxs, rfl⟩, id, id⟩
  · exact ⟨⟨s.cores, s.ctxs, rfl⟩, memWrite_wf _ _ _, id⟩
  · rename_i off _
    obtain ⟨x, hx⟩ := ctxStore_spec s r off b
    rw [hx]
    exact ⟨⟨s.cores, x, rfl⟩, id, id⟩
  · exact ⟨⟨s.cores, s.ctxs, rfl⟩, id, memWrite_wf _ _ _⟩
  · exact ⟨⟨s.cores, s.ctxs, rfl⟩, id, id⟩

/-- The memories after reset list nothing, which is the canonical form. -/
theorem reset_memories_wf :
    Memory.wf State.reset.hbm = true ∧ Memory.wf State.reset.sram = true ∧ Memory.wf State.reset.fb = true :=
  ⟨rfl, rfl, rfl⟩

end Sys2Proof.Machine
end

