-- ==== Sys2Proof/Tests/Slice0.lean ====
section
/-!
SUPPORT. Small tests: ill-formed commands, single steps whose results the spec states, and states that meet the hypotheses
of the statements.
-/
set_option Elab.async false

namespace Sys2Proof.Tests
open Sys2Proof.Machine Sys2Proof.Claims

/-- A step that goes on, and where it goes satisfies `f`. -/
def goes (r : Res) (f : State → Bool) : Bool :=
  match r with
  | .next t => f t
  | _ => false

/-- Pages put into states. -/
def inState (s : State) (l : List (PageId × Nat)) : State := l.foldl (fun s x => s.setFld x.1 STAT_STATE x.2) s

/-- A work item of tenant 0 that core 0 runs. -/
def item0 : Item := { Item.blank with stamp := 1, place := .running 0, deadline := 1000, verified := true }

/-- Core 0 runs `item0` with these cells, return entries and PC. -/
def kreur (ds : List Cell) (rs : List (Cell × Bool)) (pc : Cell) : State :=
  { inState State.reset [(.kcr 0 0, stRunning)] with
    items := [(1, some item0)]
    cores := [(0, { Core.empty with run := some 1, ds := ds, rs := rs, pc := pc })] }

/-- What a Kreur instruction leaves on the data stack. -/
def leaves (ins : Guarded) (ds out : List Cell) : Bool :=
  goes (exec (ins 0 0 false) (kreur ds [] 0x200)) fun t => decide ((t.core 0).ds = out)

/-- A Kreur instruction takes the trap with this code (R336). -/
def traps (ins : Guarded) (s : State) (code : Nat) : Bool :=
  goes (exec (ins 0 0 false) s) fun t => decide (t.fld (.kcr 0 0) KCR_LASTTRAP_CODE = code) && decide ((t.core 0).run = none)

/-- A compare or predicate instruction that writes P1 sets it and leaves no operand. -/
def sets (ins : Guarded) (ds : List Cell) : Bool :=
  goes (exec (ins 0 0 false) (kreur ds [] 0x200)) fun t => predGet (t.core 0) 1 && decide ((t.core 0).ds = [])

/-- A store leaves these bytes in local data. -/
def stores (ins : Guarded) (ds : List Cell) (a : Nat) (b : Bytes) : Bool :=
  goes (exec (ins 0 0 false) (kreur ds [] 0x200)) fun t => decide (memRead (t.core 0).mem a b.length = b)

/-- A transfer goes to this address. -/
def jumps (ins : Guarded) (s : State) (a : Cell) : Bool :=
  goes (exec (ins 0 0 false) s) fun t => decide ((t.core 0).pc = a)

/-- An open session of tenant 0 whose keys are in slots 0 and 1. -/
def open5 : Session :=
  { tenant := 0, mgmt := false, stage := .opened, slotIn := 0, slotOut := 1, saltIn := zeros 4, saltOut := zeros 4, highest := 1,
    accepted := [], devSeq := 2, transcript := zeros 48, cred := 0, window := 0, successor := none, predecessor := none,
    seen := none, host := none, closeItem := none }

/-- A request of that session, verified, that carries a command. -/
def request (cmd : Nat) (payload : Bytes) : Item :=
  { item0 with cmd := cmd, payload := payload, port := 0, session := 5, seq := 2, fixed := false }

/-- Core 0 runs that request. -/
def hostState (cmd : Nat) (payload : Bytes) : State :=
  { kreur [] [] 0x200 with items := [(1, some (request cmd payload))], sessions := [(5, some open5)] }

/-- A frame of 64 bytes with its FCS, for a port with station address 0, that carries a HELLO header of tenant 0 (R89). -/
def helloFrame (etype : Nat) : Bytes :=
  zeros 12 ++ beBytes 2 etype ++ [0x01, 0x20, 0x00, 0x28] ++ zeros 14 ++ beBytes 4 0x11223344 ++ beBytes 2 0x0E01 ++ zeros 22

/-! ## Ill-formed commands (R40, R43, R44, R306) -/

theorem test_refuses_core : WellFormed (.echo 128) = false := by decide +kernel
theorem test_refuses_guard : WellFormed (.nop 0 8 false) = false ∧ WellFormed (.nop 0 7 true) = true := by decide +kernel
theorem test_refuses_predicate :
    WellFormed (.eq 0 0 false 8) = false ∧ WellFormed (.predMov 0 0 false 8 1) = false ∧
      WellFormed (.predMov 0 0 false 1 8) = false := by decide +kernel
theorem test_refuses_branch_word : WellFormed (.br 0 0 false 0x84) = false ∧ WellFormed (.br 0 0 false 0x88) = true := by decide +kernel
theorem test_refuses_region : WellFormed (.brakeSet 4) = false ∧ WellFormed (.cipherJobBind 4 0) = false := by decide +kernel
theorem test_refuses_port : WellFormed (.linkDown 128) = false := by decide +kernel
theorem test_refuses_unit : WellFormed (.cipherJobBind 0 18) = false ∧ WellFormed (.engineJobDone 0 5) = false := by decide +kernel
theorem test_refuses_page :
    WellFormed (.lock (.kcr 0 36)) = false ∧ WellFormed (.lock (.ccr 10)) = false ∧ WellFormed (.lock (.mpu 20)) = false := by
  decide +kernel
theorem test_refuses_cause : WellFormed (.chipLevelFault 0) = false ∧ WellFormed (.chipLevelFault 6) = false := by decide +kernel
theorem test_refuses_address : WellFormed (.registerWrite (.core 0 none) 0x10000000000 0 none) = false := by decide +kernel
theorem test_refuses_host_entry : WellFormed (.hostEntryAgeOut 4096) = false := by decide +kernel
theorem test_refuses_tenant : WellFormed (.heartbeatExpiry 0 1023) = false ∧ WellFormed (.tenantResetComplete 1023) = false := by
  decide +kernel
theorem test_refuses_block : WellFormed (.triLockClr 8192) = false ∧ WellFormed (.triNodeWrite 0 128 0) = false := by decide +kernel
theorem test_refuses_measurement : WellFormed (.measWrite 8 0 0) = false ∧ WellFormed (.measWrite 0 12 0) = false := by decide +kernel
theorem test_refuses_oscillator : WellFormed (.oscillatorHealthFail 40 0) = false := by decide +kernel
theorem test_refuses_context_offset : WellFormed (.contextWindowWrite 0 16777216 []) = false := by decide +kernel
theorem test_refuses_mpu_entry : WellFormed (.mpuEntryWrite 0 16 0) = false ∧ WellFormed (.mpuParityError 20) = false := by decide +kernel
theorem test_refuses_monitor : WellFormed (.monitorRearm 0) = false ∧ WellFormed (.monitorRearm 17) = false := by decide +kernel
theorem test_refuses_counter : WellFormed (.pmcCounterWrap 0 16) = false ∧ WellFormed (.counterWriteRefill 8192) = false := by
  decide +kernel

/-! ## The Kreur core -/

/-- The premises of the statements on instructions, at an empty and at a filled stack. -/
theorem wit_task_ready :
    TaskReady (kreur [3, 5] [] 0x200) 0 item0 ∧ GuardOpen ((kreur [3, 5] [] 0x200).core 0) 0 false ∧
      TaskReady (kreur [] [(1, false)] 0x200) 0 item0 ∧ predGet ((kreur [] [] 0x200).core 0) 1 = false := by
  unfold TaskReady GuardOpen; decide
/-- R310's table, top of the stack first. -/
theorem test_stack_class :
    leaves .nop [7] [7] ∧ leaves .dup [1] [1, 1] ∧ leaves .drop [1, 2] [2] ∧ leaves .swap [2, 1] [1, 2] ∧
      leaves .over [2, 1] [1, 2, 1] ∧ leaves .rot [3, 2, 1] [1, 3, 2] ∧ leaves .nip [2, 1] [2] ∧
      leaves .tuck [2, 1] [2, 1, 2] ∧ leaves .dup2 [2, 1] [2, 1, 2, 1] ∧ leaves .drop2 [3, 2, 1] [1] ∧
      leaves .swap2 [4, 3, 2, 1] [2, 1, 4, 3] ∧ leaves .pick [1, 8, 9] [9, 8, 9] ∧ leaves .depth [6, 6] [2, 6, 6] := by decide +kernel
/-- R310: PICK of the depth left after popping is a STACK trap (R336 code 0x02). -/
theorem test_pick_traps : traps .pick (kreur [2, 8, 9] [] 0x200) 0x02 = true := by decide +kernel
/-- R311 and R312. -/
theorem test_alu_results :
    leaves .add [2, 0xFFFF] [1] ∧ leaves .sub [1, 0] [0xFFFF] ∧ leaves .adc [1, 2] [3] ∧ leaves .sbc [1, 2] [1] ∧
      leaves .and [0xC, 0xA] [8] ∧ leaves .or [0xC, 0xA] [0xE] ∧ leaves .xor [0xC, 0xA] [6] ∧ leaves .not [0] [0xFFFF] ∧
      leaves .neg [1] [0xFFFF] ∧ leaves .abs [0xFFFE] [2] ∧ leaves .inc [0xFFFF] [0] ∧ leaves .dec [0] [0xFFFF] ∧
      leaves (.addi · · · 0x40) [0x40] [0] ∧ leaves .add32 [0, 1, 0, 0xFFFF] [1, 0] ∧ leaves .sub32 [0, 1, 1, 0] [0, 0xFFFF] := by
  decide +kernel
theorem test_multiply_divide :
    leaves .mul [0xFFFF, 0xFFFF] [0xFFFE, 1] ∧ leaves .muls [0xFFFF, 2] [0xFFFF, 0xFFFE] ∧ leaves .div [3, 7] [2, 1] ∧
      leaves .divs [2, 0xFFF9] [0xFFFD, 0xFFFF] ∧ leaves .div [0, 7] [0, 7] := by decide +kernel
/-- R311: borrow and overflow; R335: TRAPCTL.V. -/
theorem test_flags :
    goes (exec (.sub 0 0 false) (kreur [1, 0] [] 0x200)) (fun t => (t.core 0).c && ! (t.core 0).v) ∧
      goes (exec (.add 0 0 false) (kreur [1, 0x7FFF] [] 0x200)) (fun t => ! (t.core 0).c && (t.core 0).v) := by decide +kernel
/-- R313's count rules. -/
theorem test_shifts :
    leaves .shl [16, 1] [0] ∧ leaves .shr [15, 0x8000] [1] ∧ leaves .sar [0x100, 0x8000] [0xFFFF] ∧ leaves .rol [17, 0x8001] [3] ∧
      leaves .ror [1, 1] [0x8000] ∧ leaves .shl32 [16, 0, 5] [5, 0] ∧ leaves .shr32 [32, 1, 1] [0, 0] ∧
      leaves (.shli · · · 4) [1] [16] ∧ leaves (.shri · · · 4) [16] [1] ∧ leaves (.sari · · · 15) [0x8000] [0xFFFF] ∧
      leaves (.roli · · · 15) [1] [0x8000] := by decide +kernel
/-- The worked examples of R314 and R315, and the field of width 16. -/
theorem test_bit_fields :
    leaves (.bfx · · · 0x0035) [0xB6D4] [6] ∧ leaves (.bfxs · · · 0x0035) [0xFFFF] [0xFFFF] ∧
      leaves (.bfi · · · 0x0034) [0xA, 0] [0xA0] ∧ leaves (.bfx · · · 0x00F0) [0xB6D4] [0xB6D4] ∧
      leaves (.bperm · · · 0x001B) [0x1122, 0x3344] [0x4433, 0x2211] ∧ leaves .clz [0] [16] ∧ leaves .ctz [0] [16] ∧
      leaves .popc [0xF0F0] [8] := by decide +kernel
theorem test_immediate_traps :
    traps (.bfx · · · 0x00F1) (kreur [1] [] 0x200) 0x01 ∧ traps (.bfi · · · 0x0100) (kreur [1, 1] [] 0x200) 0x01 ∧
      traps (.bfxs · · · 0x0100) (kreur [1] [] 0x200) 0x01 ∧ traps (.bperm · · · 0x0100) (kreur [1, 1] [] 0x200) 0x01 := by decide +kernel
/-- R316 and R317: the condition reaches Pd, and P0 keeps 1. -/
theorem test_compares :
    sets (.eq · · · 1) [5, 5] ∧ sets (.ne · · · 1) [5, 6] ∧ sets (.ltu · · · 1) [0xFFFF, 1] ∧ sets (.geu · · · 1) [1, 1] ∧
      sets (.gtu · · · 1) [1, 0xFFFF] ∧ sets (.leu · · · 1) [1, 1] ∧ sets (.lt · · · 1) [1, 0xFFFF] ∧ sets (.ge · · · 1) [0xFFFF, 1] ∧
      sets (.gt · · · 1) [0xFFFF, 1] ∧ sets (.le · · · 1) [1, 0xFFFF] ∧ sets (.eqz · · · 1) [0] ∧ sets (.nez · · · 1) [1] ∧
      sets (.ltz · · · 1) [0x8000] ∧ sets (.gez · · · 1) [0] ∧ sets (.bit · · · 1) [17, 2] ∧ sets (.predMov · · · 0 1) [] ∧
      sets (.predOr · · · 0 1) [] ∧ sets (.predXor · · · 0 1) [] := by decide +kernel
theorem test_predicates_clear :
    sets (.predAnd · · · 0 1) [] = false ∧ sets (.pc · · · 1) [] = false ∧ sets (.pv · · · 1) [] = false ∧
      sets (.pdz · · · 1) [] = false ∧
      goes (exec (.predXor 0 0 false 0 0) (kreur [] [] 0x200)) (fun t => predGet (t.core 0) 0) = true := by decide +kernel
theorem test_literals : leaves (.lit8 · · · 0xFE) [] [0xFE] ∧ leaves (.lit16 · · · 0xFFFF) [] [0xFFFF] := by decide +kernel
/-- R319: cells are big-endian, on even addresses; R320: the tenant of the item window, and the argument cells. -/
theorem test_stores_and_loads :
    stores (.st · · ·) [0x10, 0x1234] 0x10 [0x12, 0x34] ∧ stores (.stb · · ·) [0x3FFF, 0x1234] 0x3FFF [0x34] ∧
      stores (.st32 · · ·) [0x10, 0x1122, 0x3344] 0x10 [0x11, 0x22, 0x33, 0x44] ∧
      stores (.stp · · ·) [0x10, 0x1234] 0x10 [0x12, 0x34] ∧ leaves .ld [0x10] [0] ∧ leaves .ldb [0x3FFF] [0] ∧
      leaves .ldp [0x10] [0x12, 0] ∧ leaves .ld32 [0x10] [0, 0] ∧ stores (.copy · · ·) [2, 0x10, 0x20] 0x10 [0, 0] ∧
      stores (.zero · · ·) [2, 0x10] 0x10 [0, 0] ∧ leaves (.ldw · · · 31) [] [0] ∧ leaves (.stw · · · 16) [9] [] := by decide +kernel
theorem test_memory_traps :
    traps .ld (kreur [0x11] [] 0x200) 0x03 ∧ traps .st (kreur [0x11, 0] [] 0x200) 0x03 ∧ traps .ldb (kreur [0x4140] [] 0x200) 0x04 ∧
      traps .stb (kreur [0x4100, 0] [] 0x200) 0x04 ∧ traps (.stw · · · 15) (kreur [0] [] 0x200) 0x04 ∧
      traps (.ldc · · · 0) (kreur [] [] 0x200) 0x04 ∧ traps .copy (kreur [4097, 0, 0] [] 0x200) 0x04 ∧
      traps .zero (kreur [4097, 0] [] 0x200) 0x04 := by decide +kernel
/-- R323 to R325. -/
theorem test_transfers :
    jumps (.br · · · 0x88) (kreur [] [] 0x200) 0x189 ∧ jumps (.jmp · · · 0x300) (kreur [] [] 0x200) 0x300 ∧
      jumps (.call · · · 0x300) (kreur [] [] 0x200) 0x300 ∧ jumps .calls (kreur [0x300] [] 0x200) 0x300 ∧
      jumps .jmps (kreur [0x300] [] 0x200) 0x300 ∧ jumps .ret (kreur [] [(0x300, true)] 0x200) 0x300 ∧
      jumps (.loop · · · 0x300) (kreur [] [(2, false)] 0x200) 0x300 ∧ jumps (.loop · · · 0x300) (kreur [] [(1, false)] 0x200) 0x202 := by
  decide +kernel
theorem test_transfer_traps :
    traps .ret (kreur [] [(0x300, false)] 0x200) 0x0B ∧ traps (.loop · · · 0x300) (kreur [] [(1, true)] 0x200) 0x0B ∧
      traps (.jmp · · · 0xC000) (kreur [] [] 0x200) 0x0A ∧ traps (.call · · · 0xC000) (kreur [] [] 0x200) 0x0A ∧
      traps .tor (kreur [] [] 0x200) 0x02 ∧ traps (.loop · · · 0x300) (kreur [] [] 0x200) 0x02 := by decide +kernel
theorem test_return_stack :
    leaves .tor [1] [] ∧ leaves .rdepth [] [0] ∧
      goes (exec (.fromr 0 0 false) (kreur [] [(7, true)] 0x200)) (fun t => decide ((t.core 0).ds = [7] ∧ (t.core 0).rs = [])) ∧
      goes (exec (.copyr 0 0 false) (kreur [] [(7, true)] 0x200)) (fun t => decide ((t.core 0).ds = [7])) ∧
      goes (exec (.rdrop 0 0 false) (kreur [] [(7, true)] 0x200)) (fun t => decide ((t.core 0).rs = [])) := by decide +kernel
/-- R335: the CSRs and the program trap; R335 PRIV, R336 ILLEGAL. -/
theorem test_system :
    leaves (.csrget · · · 3) [9] [1, 9] ∧ leaves (.csrget · · · 1) [] [1] ∧ leaves (.csrput · · · 1) [0xFE] [] ∧
      traps (.csrput · · · 3) (kreur [1] [] 0x200) 0x07 ∧ traps (.csrget · · · 14) (kreur [] [] 0x200) 0x01 ∧
      traps (.trap · · · 63) (kreur [] [] 0x200) 0x7F ∧ traps (fun k _ _ => .illegalInstruction k) (kreur [] [] 0x200) 0x01 := by
  decide +kernel
/-- R308: with its guard false an instruction only passes its words and spends its cycles. -/
theorem test_false_guard :
    goes (exec (.div 0 1 false) (kreur [0, 7] [] 0x200)) (fun t =>
      decide ((t.core 0).ds = [0, 7] ∧ (t.core 0).pc = 0x201 ∧ (t.core 0).cycles = 17)) ∧
    goes (exec (.lit16 0 1 false 5) (kreur [] [] 0x200)) (fun t => decide ((t.core 0).pc = 0x202)) := by decide +kernel
/-- R309: shortage, and a full stack. -/
theorem test_stack_limits :
    traps .swap2 (kreur [1, 2, 3] [] 0x200) 0x02 ∧ traps .dup (kreur (List.replicate 32 0) [] 0x200) 0x02 ∧
      traps .dup2 (kreur (List.replicate 31 0) [] 0x200) 0x02 ∧
      traps .tor (kreur [1] (List.replicate 16 (0, false)) 0x200) 0x02 := by decide +kernel

/-- Core 0 with one slot in each state, reserved words, and the descriptor byte `b` at 0x10. -/
def kreurFull (ds : List Cell) (b : Byte) : State :=
  (kreur ds [] 0x200).setCore 0 { (kreur ds [] 0x200).core 0 with
    slots := [.done (beBytes 4 0x01020304 ++ zeros 28), .pending] ++ List.replicate 6 .free
    words := [beBytes 8 0x1122334455667788], mem := [(0x10, b)] }

/-- R326, R328: the three slot states of the statement on slot instructions. -/
theorem test_slots :
    goes (exec (.wait 0 0 false) (kreurFull [0] 1)) (fun t => decide ((t.core 0).wait = none)) ∧
      goes (exec (.wait 0 0 false) (kreurFull [1] 1)) (fun t => decide ((t.core 0).wait = some (.slot 1))) ∧
      traps .wait (kreurFull [2] 1) 0x08 ∧ traps .rels (kreurFull [1] 1) 0x08 ∧ traps .getw (kreurFull [0, 7] 1) 0x08 ∧
      goes (exec (.getw 0 0 false) (kreurFull [1, 0] 1)) (fun t => decide ((t.core 0).ds = [0x0304])) ∧
      goes (exec (.rels 0 0 false) (kreurFull [0] 1)) (fun t => decide ((t.core 0).slots.getD 0 .pending = .free)) := by
  decide +kernel
/-- R327: an accepted SEND, and the premises that it and a busy one meet. -/
theorem wit_send_accepted :
    TaskReady (kreurFull [0x10] 1) 0 item0 ∧
      SendAccepted (kreurFull [0x10] 1) 0 item0 everySeg (queueFull .cipher 0) 64 2 (1 :: zeros 63) [] ∧
      SendAccepted (kreurFull [0x10] 1) 0 item0 platformSeg neverFull 16 2 (1 :: zeros 15) [] ∧
      SendBusy (kreur [0x10] [] 0x200) 0 everySeg (fun _ => true) [] := by
  refine ⟨?_, ⟨⟨0x10, rfl, by decide +kernel⟩, by decide +kernel⟩, ⟨⟨0x10, rfl, by decide +kernel⟩, by decide +kernel⟩,
    ⟨0x10, rfl⟩, rfl, .inr rfl⟩
  unfold TaskReady
  decide +kernel
theorem test_send :
    goes (exec (.sendCipher 0 0 false) (kreurFull [0x10] 1)) (fun t =>
      decide ((t.core 0).ds = [2] ∧ (t.queue 0 .cipher).length = 1 ∧ (t.core 0).slots.getD 2 .free = .pending)) ∧
    goes (exec (.sendHash 0 0 false) (kreurFull [0x10] 1)) (fun t => decide ((t.queue 0 .hash).length = 1)) ∧
    goes (exec (.sendEngine 0 0 false) (kreurFull [0x10] 1)) (fun t => decide ((t.queue 0 .engine).length = 1)) ∧
    goes (exec (.sendLookup 0 0 false) (kreurFull [0x10] 1)) (fun t => decide (t.lookups.length = 1)) := by decide +kernel
/-- R345, R349: unknown contexts and timers complete at once with a status in the slot. -/
theorem test_store_and_delay_list :
    goes (exec (.ctxDraw 0 0 false) (kreurFull [0x10] 1)) (fun t => decide ((t.core 0).slots.getD 2 .free ≠ .pending)) ∧
    goes (exec (.ctxFetch 0 0 false) (kreurFull [0x10] 2)) (fun t => decide ((t.core 0).slots.getD 2 .free ≠ .pending)) ∧
    goes (exec (.ctxCreate 0 0 false) (kreurFull [0x10] 3)) (fun t => decide ((t.core 0).slots.getD 2 .free ≠ .pending)) ∧
    goes (exec (.ctxDelete 0 0 false) (kreurFull [0x10] 4)) (fun t => decide ((t.core 0).slots.getD 2 .free ≠ .pending)) ∧
    goes (exec (.timerCancel 0 0 false) (kreurFull [0x10] 4)) (fun t => decide ((t.core 0).slots.getD 2 .free ≠ .pending)) ∧
    goes (exec (.timerHeartbeat 0 0 false) (kreurFull [0x10] 3)) (fun t => decide ((t.core 0).slots.getD 2 .free ≠ .pending)) := by
  decide +kernel
/-- R331: RAND writes one reserved word and RESV of 64 words that are not there reserves nothing and sets C. -/
theorem test_reservation :
    goes (exec (.rand 0 0 false) (kreurFull [0x20] 1)) (fun t =>
      decide (memRead (t.core 0).mem 0x20 8 = beBytes 8 0x1122334455667788 ∧ (t.core 0).words = [])) ∧
    goes (exec (.resv 0 0 false) (kreurFull [64] 1)) (fun t => (t.core 0).c && decide ((t.core 0).words.length = 1)) ∧
    goes (exec (.resv 0 0 false) ((inState (kreur [1] [] 0x200) [(.rnx 0, stRunning)]).setBoom 0
      { Boom.empty with words := [zeros 8, zeros 8] })) (fun t =>
        ! (t.core 0).c && decide ((t.core 0).words.length = 1 ∧ (t.boom 0).words.length = 1)) ∧
    traps .rand (kreur [0] [] 0x200) 0x08 := by decide +kernel
/-- R332, R333. -/
theorem test_task_end :
    goes (exec (.done 0 0 false) (kreur [0, 0, 0] [] 0x200)) (fun t => decide ((t.core 0).run = none ∧ t.item 1 = none)) ∧
    goes (exec (.done 0 0 false) (kreurFull [0, 0, 0] 1)) (fun t => decide ((t.core 0).wait = some (.done 0 0 0))) ∧
    traps .done (kreur [0xFFFF, 0, 0] [] 0x200) 0x07 ∧
    goes (exec (.yield 0 0 false) (kreur [5] [] 0x200)) (fun t => decide ((t.core 0).run = none ∧ t.readyList 0 1 = [1])) ∧
    traps .yield (kreur [] [(1, false)] 0x200) 0x09 ∧
    goes (exec (.sleep 0 0 false) (kreur [9] [] 0x200)) (fun t => decide ((t.timerList 0).length = 1 ∧ (t.core 0).run = none)) ∧
    traps .sleep (kreurFull [9] 1) 0x09 := by decide +kernel
/-- The premise of the statement on false guards: P1 is 0 with SENSE 0. -/
theorem wit_false_guard : PlainTiming (kreur [1, 2] [] 0x200) 0 .copy 1 2 ∧ PlainTiming (kreur [] [] 0x200) 0 .div 1 17 := by
  constructor <;> simp [PlainTiming, kreur, State.core, mget]

/-! ## Pages -/

/-- The premises on pages: SCH_0 answers, an address names it, another names no page. -/
theorem wit_pages :
    live State.reset (.sch 0) = true ∧ pageOfAddr 0xF1021010 = some (.sch 0) ∧ pageOfAddr 0x20000000 = none ∧
      (State.reset.setFlag (.sch 0) CTRL_TEST_EN true).flag (.sch 0) CTRL_TEST_EN = true ∧
      (State.reset.reg (.sch 0) 0x010 &&& ~~~ (0xFFFFFFFF &&& 0x80001F00)) &&& 0x80001F00 = 0 ∧
      (raiseErr State.reset (.sch 0) 12 0x92).reg (.sch 0) 0x010 &&& 0x80001F00 ≠ 0 := by decide +kernel
/-- R42, R46, R54: a malformed access sets ERR.ACCESS and its code; writing 1 clears both. -/
theorem test_error_flags :
    goes (exec (.malformedAccess (.core 0 none) 0xF1021011) State.reset) (fun t =>
      t.flag (.sch 0) ⟨0x010, 12, 1⟩ && decide (t.fld (.sch 0) ERR_CODE = 0x92)) ∧
    goes (exec (.errWrite (.sch 0) 0x1000) (raiseErr State.reset (.sch 0) 12 0x92)) (fun t =>
      decide (t.reg (.sch 0) 0x010 = 0)) ∧
    goes (exec (.errinj (.sch 0) 0x400) (State.reset.setFlag (.sch 0) CTRL_TEST_EN true)) (fun t =>
      decide ((t.auxOf (.sch 0)).inject = some .parity)) ∧
    goes (exec (.lock (.sch 0)) State.reset) (fun t => locked t (.sch 0)) := by decide +kernel
/-- R46, R439: the first code stays, MULTIPLE is set, and each error queues a record. -/
theorem test_first_code :
    let t := raiseErr (raiseErr State.reset (.sch 0) 12 0x92) (.sch 0) 9 0x90
    mwf resetWord State.reset.regs = true ∧ t.fld (.sch 0) ERR_CODE = 0x92 ∧ t.flag (.sch 0) ERR_MULTIPLE = true ∧
      t.evr.queue.map (·.code) = [0x1092, 0x1090] := by decide +kernel
/-- R50: the moves from OFF, STARTING and DRAINING. -/
theorem test_block_states :
    let c : CtrlPlain := { drainTo := 100, testEn := false, spareAllow := true }
    ignoresCtrl State.reset (.sch 0) = false ∧ ctxRefuses State.reset (.sch 0) = false ∧
    goes (exec (.blockEnable (.sch 0) c) State.reset) (fun t => decide (stateOf t (.sch 0) = stStarting)) ∧
    goes (exec (.startupSettled (.sch 0)) (inState State.reset [(.sch 0, stStarting)])) (fun t =>
      decide (stateOf t (.sch 0) = stRunning)) ∧
    goes (exec (.blockDisable (.sch 0) c) (inState State.reset [(.sch 0, stRunning)])) (fun t =>
      decide (stateOf t (.sch 0) = stDraining)) ∧
    goes (exec (.drainReq (.sch 0) c true) (inState State.reset [(.sch 0, stRunning)])) (fun t =>
      decide (stateOf t (.sch 0) = stDraining)) ∧
    goes (exec (.drainComplete (.sch 0)) (inState State.reset [(.sch 0, stDraining)])) (fun t =>
      decide (stateOf t (.sch 0) = stStopped)) ∧
    goes (exec (.drainTimeout (.sch 0)) (inState State.reset [(.sch 0, stDraining)])) (fun t =>
      decide (stateOf t (.sch 0) = stStopped)) ∧
    goes (exec (.squashReq (.sch 0) c false) (inState State.reset [(.sch 0, stRunning)])) (fun t =>
      decide (stateOf t (.sch 0) = stStopped)) := by decide +kernel
theorem wit_block_states :
    inflight (kreur [] [] 0) (.sch 0) ≠ 0 ∧ ctxRefuses (inState State.reset [(.sch 0, stRunning)]) (.ctx 0) = true ∧
      rawMode (State.reset.setFlag .rng RNG_RAW_CTRL_EN true) = true := by decide +kernel
/-- R13, R16, R21, R25, R31, R34. -/
theorem test_fault_levels :
    goes (exec (.singleBitError .top 1 0) State.reset) (fun t => decide (t.fld .top HEALTH_CORR = 1)) ∧
    goes (exec (.singleBitError (.lnk 0) 1 0) State.reset) (fun t => decide (t.fld (.lnk 0) HEALTH_CORR = 1)) ∧
    goes (exec (.blockUncorrectableError (.kcr 0 0) 1 false .none 0) (kreur [] [] 0)) (fun t =>
      decide (stateOf t (.kcr 0 0) = stFailed ∧ t.item 1 = none)) ∧
    goes (exec (.blockUncorrectableError (.ctx 0) 1 false .none 0) (inState State.reset [(.ctx 0, stRunning)])) (fun t =>
      isolated t 0) ∧
    goes (exec (.regionFatalError 1 0) State.reset) (fun t => isolated t 1 && decide (stateOf t (.sch 1) = stFailed)) ∧
    goes (exec (.chipLevelFault 1) State.reset) (fun t => t.balls.fault && t.shut && ! t.balls.ready) ∧
    goes (exec (.cruiseTest (.sch 0) (.repair 1 2)) (State.reset.setAux (.sch 0) { PageAux.empty with cruise := true })) (fun t =>
      decide (t.repairMap = [(pageBase (.sch 0), { bank := 1, line := 2 })])) ∧
    goes (exec (.sramRepairApply (.sch 0)) (State.reset.setAux (.sch 0) { PageAux.empty with
      repairs := [{ bank := 1, line := 2 }] })) (fun t =>
        decide ((t.auxOf (.sch 0)).repairs = [] ∧ (t.auxOf (.sch 0)).applied = [{ bank := 1, line := 2 }])) := by decide +kernel
/-- The premises on spares: a site in its admission check, and a healthy spare for a cruise test. -/
theorem wit_spares :
    (sparesOf (.kcr 0 0)).find? (fun q => unitPos q = 32) = some (.kcr 0 32) ∧
      sparesFor (inState State.reset [(.kcr 0 32, stStopped)]) (.kcr 0 0) = [.kcr 0 32] ∧ coppiced (.kcr 0 0) = true ∧
      coppiced (.sch 0) = false ∧ inflight State.reset (.kcr 0 0) = 0 ∧
      goes (exec (.spareAdmissionDone (.kcr 0 0) none) (((inState State.reset [(.kcr 0 0, stFailed), (.kcr 0 32, stStopped)]).setAux
        (.kcr 0 0) { PageAux.empty with admitted := some 32 }).setFlag (.kcr 0 0) CTRL_EN true)) (fun t =>
          decide (stateOf t (.kcr 0 0) = stStarting)) = true ∧
      goes (exec (.cruiseTest (.kcr 0 0) .start) State.reset) (fun t => (t.auxOf (.kcr 0 0)).cruise) = true ∧
      goes (exec (.cruiseTest (.kcr 0 0) (.fail 3)) (State.reset.setAux (.kcr 0 0) { PageAux.empty with cruise := true })) (fun t =>
        decide (t.fld (.kcr 0 0) HEALTH_CRUISE = 1 ∧ stateOf t (.kcr 0 0) = stFailed)) = true := by
  decide +kernel
/-- R41, R42, R49, R54: each kind of register write. -/
theorem test_register_writes :
    goes (exec (.registerWrite (.core 0 none) 0x10000004 0x11223344 none) State.reset) (fun t =>
      decide (physRead t 0x10000004 4 = [0x44, 0x33, 0x22, 0x11] ∧ memGet t.sram 8 = 0)) ∧
    goes (exec (.registerWrite (.core 0 none) 0xF1021020 5 none) State.reset) (fun t => decide (t.reg (.sch 0) 0x020 = 5)) ∧
    exec (.registerWrite (.core 0 none) 0x1400000000 0 none) State.reset = .fault .unassignedAddress ∧
    goes (exec (.registerWrite (.core 0 none) 0xF1021022 5 none) State.reset) (fun t => t.flag (.sch 0) ⟨0x010, 12, 1⟩) := by
  refine ⟨by decide +kernel, by decide +kernel, rfl, by decide +kernel⟩
/-- Every clause of the statement on register writes has its case: absent, frozen, refused by state or value, and stored. -/
theorem wit_register_writes :
    live (isolateRegion State.reset 1 0) (.sch 1) = false ∧
      frozen (State.reset.setFlag (.lnk 0) LOCK_LOCK true) (.lnk 0) 0x040 = true ∧
      stopRefused (inState State.reset [(.lnk 0, stRunning)]) (.lnk 0) 0x040 = true ∧
      stopRefused State.reset (.sch 0) 0x020 = false ∧ valueRefused State.reset (.sch 0) 0x020 5 = false := by decide +kernel

/-! ## Ports, tables, the control path and management -/

/-- R57, R58, R66, R70, R75. -/
theorem test_port_events :
    goes (exec (.blockLockAcquired 0) (inState State.reset [(.lnk 0, stRunning)])) (fun t => t.flag (.lnk 0) LNK_STATUS_LINK_UP) ∧
    goes (exec (.linkDown 0) ((inState State.reset [(.lnk 0, stRunning)]).setFlag (.lnk 0) LNK_STATUS_LINK_UP true)) (fun t =>
      ! t.flag (.lnk 0) LNK_STATUS_LINK_UP && decide (t.evr.queue.map (·.code) = [0x4003])) ∧
    goes (exec (.trainingTimeout 0) ((inState State.reset [(.lnk 0, stRunning)]).setFlag (.lnk 0) LNK_MODE_TRAIN_EN true)) (fun t =>
      t.flag (.lnk 0) ⟨0x010, 11, 1⟩ && decide (t.fld (.lnk 0) ERR_CODE = 0x11)) ∧
    goes (exec (.pauseReceived 0 0x0F 0x01) (inState State.reset [(.lnk 0, stRunning)])) (fun t => decide ((t.port 0).paused = 0x0E)) ∧
    goes (exec (.pauseQuantaExpiry 0 0xFF) (setPaused (inState State.reset [(.lnk 0, stRunning)]) 0 0x0F)) (fun t =>
      decide ((t.port 0).paused = 0)) ∧
    goes (exec .fenceAssert State.reset) (fun t => t.balls.fence) ∧
    (let u := ((inState State.reset [(.lnk 0, stRunning), (.par, stRunning)]).setFld .par PAIR_STATUS_ROLE roALONE).setFld
        (.lnk 0) LNK_MODE_FC 1
      let x := u.setFlag (.lnk 0) LNK_STATUS_XOFF true
      (goes (exec (.xoffRepeat 0) (x.setPort 0 { x.port 0 with shared := 4194304 })) fun t =>
        decide ((t.port 0).link ≠ []) && t.flag (.lnk 0) LNK_STATUS_XOFF) ∧
      goes (exec (.xoffRepeat 0) x) fun t => decide ((t.port 0).link ≠ []) && ! t.flag (.lnk 0) LNK_STATUS_XOFF) := by
  decide +kernel
/-- R60 and R89: a good frame, one with a bad FCS, one of another EtherType. -/
theorem test_frames :
    let u := (inState State.reset [(.lnk 0, stRunning), (.cls 0, stRunning)]).setFlag (.lnk 0) LNK_STATUS_LINK_UP true
    let s := u.setFld .par PAIR_STATUS_ROLE roALONE
    fenced u = true ∧ fenced s = false ∧ (helloFrame 0x88B5).length = 60 ∧ parseFrame s 0 false (helloFrame 0x88B5) = .bad ∧
      parseFrame s 0 true (helloFrame 0x1234) = .noMatch ∧
      (match parseFrame s 0 true (helloFrame 0x88B5) with
        | .adetra _ vlan b pad clean => headerOk 0 vlan b pad clean 64 && ! headerOk 0 vlan (b.set 0 2) pad clean 64
        | _ => false) = true ∧
      goes (exec (.frameReceived 0 (helloFrame 0x88B5) false) s) (fun t => decide (t.fld (.lnk 0) LNK_CNT_BADFRM = 1)) = true ∧
      goes (exec (.frameReceived 0 (helloFrame 0x1234) true) s) (fun t => decide (t.fld (.cls 0) CLS_DROP_NOMATCH = 1)) = true ∧
      goes (exec (.frameReceived 0 (helloFrame 0x88B5) true) (s.setFld (.cls 0) STAT_STATE stStopped)) (fun t =>
        decide (t.fld (.cls 0) CLS_DROP_STOPPED = 1)) = true := by decide +kernel
/-- R65, R340: an admitted item takes the next stamp and the tail of its level. -/
theorem test_admission :
    State.reset.flag (.pmc 0) PMC_TAG_EN = false ∧ (admitItem State.reset Item.blank).nextItem = 2 ∧
      (admitItem State.reset Item.blank).readyList 0 1 = [1] := by decide +kernel
/-- A host table entry for the premises of R76 and R82. -/
def entry (static : Bool) : HostEntry :=
  { tenant := 0, key := { mac := zeros 6, ip := none }, port := 3, isStatic := static, valid := true, lastFrame := 0, lastMove := none }
theorem test_host_table :
    let s := { inState State.reset [(.htb, stRunning)] with hosts := [(0, some (entry false))] }
    s.host 0 = some (entry false) ∧ s.fld .htb HTB_CFG_AGE ≠ 0 ∧ hostSessions s 0 = 0 ∧ running s .htb = true ∧
      goes (exec (.hostEntryAgeOut 0) s) (fun t => decide (t.host 0 = none)) = true ∧
      goes (exec (.hostEntryAgeOut 0) { s with hosts := [(0, some (entry true))] }) (fun t => decide (t.host 0 ≠ none)) = true ∧
      goes (exec .htbDeleteEntry s) (fun t => decide (t.host 0 = none)) = true ∧
      goes (exec .htbDeleteEntry State.reset) (fun t => decide (t.fld .htb HTB_OP_STATUS = stOPERAND_RANGE)) = true ∧
      goes (exec .htbWriteStatic (State.reset.setFld .htb HTB_ENT_0_PORT 3)) (fun t =>
        decide ((t.host 0).map (·.port) = some 3 ∧ t.fld .htb HTB_OP_STATUS = stOK)) = true ∧
      goes (exec .htbReadEntry s) (fun t => decide (t.fld .htb HTB_ENT_0_PORT = 3)) = true := by decide +kernel
/-- R71, R81, R493. -/
theorem test_control_path :
    let i := { request 0x0E10 [] with verified := false, session := 6 }
    let s := { inState State.reset [(.cls 0, stRunning)] with brakeQ := [(0, [i])], early := [i] }
    lget s.brakeQ 0 = [i] ∧ verifyItem s i = none ∧
      goes (exec (.brakeSet 0) s) (fun t => decide (lget t.brakeQ 0 = [] ∧ t.fld (.cls 0) CLS_DROP_AUTH = 1)) = true ∧
      goes (exec (.clsControlParity 0 true) s) (fun t => decide (t.mirrorBad = [0] ∧ t.fld (.cls 0) CLS_DROP_BRAKE = 1)) = true ∧
      goes (exec (.clsControlParity 0 false) s) (fun t => decide (lget t.brakeQ 0 = [])) = true ∧
      goes (exec (.brakeMirrorReloaded 0) { s with mirrorBad := [0, 1] }) (fun t => decide (t.mirrorBad = [1])) = true ∧
      goes (exec (.earlyEndVerifyTimeout 1) s) (fun t => decide (t.early = [])) = true ∧
      goes (exec (.earlyEndTagVerify 1) { s with brakeQ := [] }) (fun t => decide (t.early = [])) = true := by decide +kernel
/-- R71, R73, R92: a frame whose tag verifies sets its filter, which each port then has and which is answered. -/
theorem wit_brake_verified :
    let m : Bytes := [0, 1, 0, 1, 1, 0, 2, 0, 1, 3, 0, 3, 0, 4, 0, 0, 0, 5]
    let sealed := gcmSeal (aesEncK (aesKeys (zeros 32))) (frameNonce (zeros 4) 2) (zeros 40) m
    let i := { request 0x0E10 sealed.1 with verified := false, header := zeros 40, gtag := sealed.2 }
    let s := { inState State.reset [(.cls 0, stRunning)] with brakeQ := [(0, [i])], sessions := [(5, some open5)] }
    ((verifyItem s i).map (·.1.payload)) = some m ∧ brakeReq { i with payload := m, verified := true } = some (.set 3 5) := by
  decide +kernel
theorem wit_brake_propagated :
    let i := request 0x0E10 []
    let s := { State.reset with
      brakeOps := [{ filter := 0, set := false, item := i }], brakes := [(0, some { kind := 3, owner := 0, value := 5, active := true })] }
    oget s.brakes 0 = some { kind := 3, owner := 0, value := 5, active := true } ∧
      goes (exec .brakeFilterPropagated s) (fun t => decide (t.brakes = [] ∧ t.brakeOps = [])) = true := by decide +kernel
/-- R83 to R88. -/
theorem test_management :
    let s := (inState State.reset [(.mgt, stRunning)]).setFlag .mgt MGT_STATUS_LINK_UP true
    running s .mgt = true ∧ s.chipFault = none ∧
      goes (exec (.mgtLinkUp 100) s) (fun t => ! t.flag .mgt MGT_STATUS_LINK_UP && decide (t.fld .mgt MGT_CNT_SPEED = 1)) = true ∧
      goes (exec (.mgtLinkUp 1000) s) (fun t => t.flag .mgt MGT_STATUS_SYNC) = true ∧
      goes (exec (.mgtLinkDown false) s) (fun t => ! t.flag .mgt MGT_STATUS_LINK_UP) = true ∧
      goes (exec (.mgtFrameReceived [] true) s) (fun t => decide (t.fld .mgt MGT_CNT_BADFRM = 1)) = true ∧
      mgmtRegion (inState s [(.sch 0, stRunning), (.cls 0, stRunning)]) = some 0 ∧
      goes (exec (.mdioRead 1 2 0) s) (fun t => t.mdio.isSome && t.flag .mgt MGT_MDIO_BUSY) = true ∧
      goes (exec (.mdioDone 0xABCD) { s with mdio := some { write := false, phy := 1, regad := 2, data := 0 } }) (fun t =>
        decide (t.fld .mgt MGT_MDIO_DATA = 0xABCD ∧ t.mdio = none)) = true ∧
      goes (exec .mdioTimeout { s with mdio := some { write := false, phy := 1, regad := 2, data := 0 } }) (fun t =>
        decide (t.fld .mgt ERR_CODE = 0x16)) = true := by decide +kernel

/-! ## Scheduling, timers, submissions and contexts -/

/-- R306, R341, R347. -/
theorem test_dispatch :
    let i := { item0 with place := .ready, entry := 0x300 }
    let s := { inState State.reset [(.kcr 0 0, stRunning), (.sch 0, stRunning)] with
      items := [(1, some i)], ready := [(1, [1])] }
    running s (corePage 0) = true ∧ schDispatches s 0 = true ∧ ((fillPrefetch s 0).core 0).prefetch = some 1 ∧
      goes (exec (.workItemDispatch 0) s) (fun t => decide ((t.core 0).run = some 1 ∧ (t.core 0).pc = 0x300)) = true ∧
      goes (exec (.workItemDispatch 0) { s with items := [(1, some { i with deadline := 0 })] }) (fun t =>
        decide ((t.core 0).run = none ∧ t.item 1 = none)) = true ∧
      goes (exec (.deadlineExpiry 1) s) (fun t => decide (t.item 1 = none ∧ t.time.tick = 1000)) = true := by decide +kernel
/-- R348, R349, R354. -/
theorem test_timers :
    let s := { inState State.reset [(.sch 0, stRunning)] with items := [(1, some { item0 with place := .suspended })] }
    let at5 := fun k => s.setTimers 0 [{ id := 0, due := 5, kind := k }]
    timersFire s 0 = true ∧
      goes (exec (.sleepWake 0) (at5 (.wake 1))) (fun t => decide (t.readyList 0 1 = [1] ∧ t.time.tick = 5)) = true ∧
      goes (exec (.delayTimerFire 0) (at5 (.submit 2 0x300 0 [] 0))) (fun t =>
        decide (t.readyList 0 2 = [t.nextItem - 1] ∧ t.timerList 0 = [])) = true ∧
      goes (exec (.contextExpiry 0) (at5 (.expire 0x20000001))) (fun t => decide (t.timerList 0 = [])) = true := by decide +kernel
/-- R355, R358. -/
theorem test_submissions :
    let s := (inState State.reset [(.sch 0, stRunning)]).setFld (.sch 0) SCH_SQ_TAIL 1
    schTakes s 0 = true ∧ ringRoom s 0 = true ∧
      goes (exec (.submissionDoorbell 0 1) s) (fun t => decide (t.fld (.sch 0) SCH_SQ_TAIL = 1)) = true ∧
      goes (exec (.submissionAccept 0) s) (fun t => decide (t.fld (.sch 0) SCH_SQ_HEAD = 1)) = true ∧
      segSealed s 0 = false ∧
      goes (exec (.programLoad 0) ((s.setFld (.sch 0) SCH_PRG_BASE 0x100).setFld (.sch 0) SCH_PRG_WORDS 4)) (fun t =>
        t.flag (.sch 0) SCH_PRG_GO) = true ∧
      goes (exec (.programLoad 0) (s.setFld (.sch 0) SCH_PRG_SEG 3)) (fun t => t.flag (.sch 0) SCH_PRG_REFUSED) = true ∧
      goes (exec (.programLoadDone 0) (s.setFlag (.sch 0) SCH_PRG_GO true)) (fun t => t.flag (.sch 0) SCH_PRG_DONE) = true := by
  decide +kernel
/-- R345, R351, R352, R354, R360: an extension context made, its body written, and deleted; a counter type refused. -/
theorem test_context_operations :
    let s := inState State.reset [(.ctx 0, stRunning)]
    let v := s.setCtx 0 1 { Ctx.free with valid := true, typ := 0x20, body := zeros 248 }
    let id := fun (s : State) n => s.setFld (.ctx 0) CTX_OP_ID n
    live s (.ctx 0) = true ∧
      goes (exec (.ctxOpCreate 0) (id s 0x800001)) (fun t => (t.ctxAt 0 1).valid && decide ((t.ctxAt 0 1).typ = 0x20)) = true ∧
      ctxCreateStatus s 0x100001 0 ctxTypeExt = some stOPERAND_RANGE ∧
      ctxCreateStatus (s.setTenant 0 { s.tenant 0 with qCtx := 0 }) 0x800001 0 ctxTypeExt = some stQUOTA ∧
      ctxNamed v 0x800001 = some (v.ctxAt 0 1) ∧
      goes (exec (.ctxOpDelete 0) (id v 0x800001)) (fun t => ! (t.ctxAt 0 1).valid) = true ∧
      goes (exec (.contextWindowWrite 0 (256 + 8 + 247) [9]) v) (fun t =>
        decide (((t.ctxAt 0 1).body.getD 247 0) = 9 ∧ (t.ctxAt 0 1).gen = 1)) = true ∧
      goes (exec (.contextWindowWrite 0 256 [9]) v) (fun t => t.flag (.ctx 0) ⟨0x010, 12, 1⟩) = true := by decide +kernel

/-! ## Protection, tenants, the prefix table, the recorder -/

/-- R371, R378, R380: an aligned entry of 4 KiB, one whose base is not aligned, and a failed unit. -/
theorem test_protection :
    Canonical State.reset ∧ present State.reset (.mpu 19) = true ∧ locked State.reset (.mpu 0) = false ∧
      goes (exec (.mpuEntryWrite 0 15 0x8C0C0005) State.reset) (fun t =>
        decide ((mpuEntry t 0 15).map (fun e => (e.size, e.r, e.w, e.tenant)) = some (12, true, true, 5))) = true ∧
      goes (exec (.mpuEntryWrite 0 0 0x8B000000) State.reset) (fun t => decide (t.fld (.mpu 0) ERR_CODE = 0xAA ∧ t.mpus = [])) = true ∧
      goes (exec (.mpuEntryWrite 0 0 0x80000000) (State.reset.setFlag (.mpu 0) LOCK_LOCK true)) (fun t => decide (t.mpus = [])) = true ∧
      goes (exec (.mpuParityError 0) State.reset) (fun t => decide (stateOf t (.mpu 0) = stFailed)) = true := by
  unfold Canonical; decide +kernel
/-- R362, R367 to R370, R379. -/
theorem test_tenants :
    let s := State.reset.setFld .ten TEN_SEL 1022
    let a := s.setTenant 1022 { Tenant.free with state := 1 }
    let r := fun n => s.setTenant 1022 { Tenant.free with state := 2, phase := n }
    ({ s with fuse := { s.fuse with variant := .a860 } }).fuse.variant.standIn = false ∧
      goes (exec .tenCreate { s with fuse := { s.fuse with variant := .a860 } }) (fun t => decide ((t.tenant 1022).state = 1)) = true ∧
      goes (exec .tenCreate a) (fun t => decide (t.fld .ten TEN_OP_STATUS = stOPERAND_RANGE)) = true ∧
      goes (exec .tenBind (State.reset.setFld .ten TEN_SEL 1023)) (fun t => decide (t.fld .ten TEN_OP_STATUS = stNOT_FITTED)) = true ∧
      goes (exec .tenBind (a.setFld .ten TEN_ASID_ASID 7)) (fun t => decide ((t.tenant 1022).asid = some 7)) = true ∧
      goes (exec .tenUnbind a) (fun t => decide ((t.tenant 1022).asid = none)) = true ∧
      goes (exec .tenReset a) (fun t => decide ((t.tenant 1022).state = 2 ∧ (t.tenant 1022).phase = 1)) = true ∧
      goes (exec .tenRelease a) (fun t => (t.tenant 1022).release) = true ∧
      goes (exec (.tenDoorbell none) s) (fun t => t.flag .ten ⟨0x0A0, 0, 1⟩) = true ∧
      goes (exec (.tenantResetDrainEnd 1022) (r 1)) (fun t => decide ((t.tenant 1022).phase = 2)) = true ∧
      tenantZeroising (r 2) 1022 = false ∧
      goes (exec (.tenantResetSquashDone 1022) (r 2)) (fun t => decide ((t.tenant 1022).phase = 3)) = true ∧
      goes (exec (.tenantResetComplete 1022) (r 3)) (fun t => decide ((t.tenant 1022).state = 1)) = true := by decide +kernel
/-- R177 to R180, R329. -/
theorem test_prefix_table :
    let s := { State.reset with tri := { State.reset.tri with locks := [8191], active := [(128 * 8191, 3)] } }
    goes (exec (.triLockSet 0 false) s) (fun t => decide (0 ∈ t.tri.locks ∧ t.tri.hold = [])) ∧
    goes (exec (.triLockSet 0 true) s) (fun t => decide (t.tri.hold = [0])) ∧
    goes (exec (.triLockSet 8192 false) s) (fun t => t.flag .tri ⟨0x010, 12, 1⟩) ∧
    goes (exec .triLockHoldRelease { s with tri := { s.tri with hold := [0, 5] } }) (fun t =>
      decide (0 ∈ t.tri.locks ∧ t.tri.hold = [5])) ∧
    goes (exec (.triNodeWrite 8191 127 9) s) (fun t => decide (triShadow t 8191 127 = 9 ∧ triSlot t 8191 127 = 0)) ∧
    goes (exec (.triNodeWrite 0 127 9) s) (fun t => decide (triShadow t 0 127 = 0)) ∧
    goes (exec (.triLockClr 8191) s) (fun t => decide (triSlot t 8191 0 = 0 ∧ triShadow t 8191 0 = 3)) ∧
    goes (exec .triCommit s) (fun t => decide (t.tri.locks = [] ∧ triShadow t 8191 0 = 3)) ∧
    goes (exec (.triDmaGo 5 2) s) (fun t => t.flag .tri TRI_DMA_GO) ∧
    goes (exec .triDmaDone (s.setFlag .tri TRI_DMA_GO true)) (fun t => ! t.flag .tri TRI_DMA_GO) ∧
    goes (exec .triLockCopyDone (s.setFlag .tri TRI_STATUS_COPYING true)) (fun t => ! t.flag .tri TRI_STATUS_COPYING) ∧
    goes (exec .prefixLookupDone { kreurFull [] 0 with
      lookups := [{ core := 0, slot := 1, word := zeros 32, counted := true, miss := true, bad := 0, fault := none }] }) (fun t =>
        decide (t.fld .tri TRI_MISSES = 1 ∧ (t.core 0).slots.getD 1 .free = .done (zeros 32))) := by decide +kernel
theorem wit_prefix_table :
    (State.reset.tri.locks).Nodup ∧ State.reset.flag .tri TRI_DMA_GO = false ∧ 8191 < State.reset.fuse.variant.triBlocks := by
  decide +kernel
/-- R437 to R445, R449 to R451. -/
theorem test_recorder :
    let e := { State.reset.evr with queue := (postEvent State.reset .evr 0xF001).evr.queue }
    let s := { State.reset with evr := e }
    running s .evr = true ∧ s.flag .evr EVR_CTRL_FREEZE = false ∧ e.queue.length = 1 ∧
      goes (exec .eventRecordWrite s) (fun t => decide (t.evr.recs.map (·.seq) = [1] ∧ t.evr.next = 2)) = true ∧
      goes (exec (.evrFreeze true) s) (fun t => t.flag .evr EVR_CTRL_FREEZE) = true ∧
      goes (exec .evrFreezeTimeout (s.setFlag .evr EVR_CTRL_FREEZE true)) (fun t => ! t.flag .evr EVR_CTRL_FREEZE) = true ∧
      goes (exec .evrTimeSet (s.setFld .evr EVR_TIME_SET_LO 5)) (fun t => decide (t.time.ns = 5)) = true ∧
      goes (exec (.evrPost 0x123) s) (fun t => decide (t.evr.queue.map (·.code) = [0xF001, 0xF123])) = true := by decide +kernel
theorem test_counters :
    let s := inState (State.reset.setFlag (.pmc 0) (PMC_SEL_EN 15) true) [(.pmc 0, stRunning)]
    live s (.pmc 0) = true ∧ running s (.pmc 0) = true ∧
      goes (exec (.pmcCounterWrap 0 15) s) (fun t => decide (pmcCount t 0 15 = 0) && t.flag (.pmc 0) ⟨0x044, 15, 1⟩) = true ∧
      goes (exec (.pmcCounterUncorrectable 0 0) s) (fun t => decide (t.fld (.pmc 0) ERR_CODE = 0xE8)) = true ∧
      goes (exec (.pmcFreeze (.core 0 none) 0 true) s) (fun t => t.flag (.pmc 0) PMC_CTRL_FREEZE) = true := by decide +kernel
/-- R451: the histogram groups named are zeroed. -/
theorem test_histogram_clear :
    goes (exec (.pmcHistClr (.core 0 none) 0 1) (State.reset.setReg (.pmc 0) 0x400 9)) (fun t => decide (t.reg (.pmc 0) 0x400 = 0)) ∧
      goes (exec (.pmcZero (.core 0 none) 0) (State.reset.setReg (.pmc 0) 0x400 9)) (fun t => decide (t.reg (.pmc 0) 0x400 = 0)) := by decide +kernel

/-! ## Host commands -/

/-- The premise of the statements on host commands: a verified request on a running core. -/
theorem wit_served :
    Served (hostState 0x0902 []) 0 0x0902 (request 0x0902 []) ∧ Served (hostState 0x0504 []) 0 0x0504 (request 0x0504 []) ∧
      hostItem ({ hostState 0x0101 [] with devLocked := true }) 0 0x0101 = some (request 0x0101 []) ∧
      servedLocked 0x0F02 = true ∧ servedLocked 0x0101 = false := by
  unfold Served; decide +kernel
/-- A key of the vault's cache: algorithm A, 16 zero bytes, in slot 2. -/
def withKey (s : State) (attr : Bytes) (bits : Bytes) : State :=
  inState { s with keys := [(2, some { tenant := 0, attr := attr, parent := 255, parentGen := 0, felled := false, masked := bits
                                       mask := zeros bits.length, slots := 1, opt := [], bound := 0, session := false })] }
    [(.vlt, stRunning)]
/-- The attributes of a TDES key (R115). -/
def tdesAttr : Bytes := [0x4B, 0x30, 0x54, 0x42, 0x4E, 0, 0, 0]
/-- R149: the check value of the all-zero double-length TDES key is the published 8CA64D; a TDES key takes no KCV_LEN 5. -/
theorem test_key_check_value :
    let s := fun m => withKey (hostState 0x0504 m) tdesAttr (zeros 16)
    let m : Bytes := [0x10, 0x45, 0, 4, 0, 0, 0, 2]
    ((keyCheckValue (request 0x0504 m)).run (s m)).1.toOption.map (·.1) = some stOK ∧
      ((keyCheckValue (request 0x0504 m)).run (s m)).1.toOption.map (fun x => x.2.drop 4) = some [0x8C, 0xA6, 0x4D] ∧
      (match ((keyCheckValue (request 0x0504 (m ++ [0x10, 0x43, 0, 1, 5]))).run (s m)).1 with
        | .error st => decide (st = stOPERAND_RANGE)
        | .ok _ => false) = true := by decide +kernel
/-- The commands that change nothing end their item, with a status or an answer. -/
theorem test_answers :
    goes (exec (.keyCheckValue 0) (hostState 0x0504 [])) (fun t => decide (t.item 1 = none)) ∧
    goes (exec (.siIssuerState 0) (hostState 0x0902 [0x11, 1, 0, 1, 2])) (fun t => ! (t.siOf 0).reachable) ∧
    goes (exec (.devStatus 0) (hostState 0x0F02 [])) (fun t => decide (t.item 1 = none ∧ 0 < t.fresh)) := by decide +kernel
/-- Every payment command ends an empty request with a status, and leaves no item. -/
theorem test_payment_refusals :
    ∀ p ∈ ([(0x0101, (.pinTranslate ·)), (0x0102, (.pinVerifyOffset ·)), (0x0201, (.macGenerate ·)), (0x0301, (.arqcVerify ·)),
        (0x0401, (.dukptPinTranslate ·)), (0x0502, (.keyExport ·)), (0x0601, (.tokenise ·)), (0x0604, (.dataEncrypt ·)),
        (0x0701, (.cscGenerate ·))] : List (Nat × OnCore)),
      goes (exec (p.2 0) (hostState p.1 [])) (fun t => decide (t.item 1 = none)) = true := by decide +kernel

/-- The attributes of a key of usage `u v`, algorithm `a` and mode `m` (R115). -/
def keyAttr (u v a m : Char) : Bytes := [u, v, a, m, 'E'].map (fun c => BitVec.ofNat 8 (chr c)) ++ zeros 3
/-- KEY_A naming cache slot 2 of tenant 0. -/
def keyA : Bytes := elemBytes eKEY_A [0, 0, 0, 2]

/-- R150: KEY_DELETE frees the slot and commits the handle as its result word. -/
theorem test_key_delete :
    let m := elemBytes eHANDLE [0, 0, 0, 2]
    let s := withKey (hostState 0x0505 m) tdesAttr (zeros 16)
    Served s 0 0x0505 (request 0x0505 m) ∧
      ((keyDelete (request 0x0505 m)).run s).1.toOption = some ([0, 0, 0, 2, 0, 0, 0, 0], []) ∧
      goes (exec (.keyDelete 0) s) (fun t => decide (oget t.keys 2 = none ∧ t.item 1 = none)) = true := by
  unfold Served; decide +kernel

/-- R131: HMAC needs an M6 key, ISO 9797-1 algorithm 3 an M3 key; the MAC made is the MAC accepted, and no other is. -/
theorem test_mac :
    let m := fun (mac : Bytes) => keyA ++ elemBytes eMAC_ALG [3] ++ elemBytes eMAC_PAD [1] ++ elemBytes eMAC_LEN [4] ++
      elemBytes eDATA [0x31] ++ (if mac = [] then [] else elemBytes eMAC mac)
    let s := fun n mac => withKey (hostState n (m mac)) (keyAttr 'M' '3' 'T' 'C') (zeros 16)
    let ans := fun (c : Item → Cmd Answer) n mac => ((c (request n (m mac))).run (s n mac)).1.toOption
    let mac := ((ans macGenerate 0x0201 []).map fun x => x.2.drop 4).getD []
    mac.length = 4 ∧ (ans macVerify 0x0202 mac).map (·.1) = some stOK ∧
      (ans macVerify 0x0202 (mac.map (· + 1))).map (·.1) = some stVERIFY_FAIL := by decide +kernel

/-- Characters as bytes. -/
def text (s : String) : Bytes := s.toList.map fun c => BitVec.ofNat 8 (chr c)
/-- R156: the CBC-MAC of the block for PAN 4123456789012345, expiry 8701 and service code 101 is 52118B00CD59F6E5 (OpenSSL). -/
theorem test_card_code :
    let m := fun (csc : String) => keyA ++ elemBytes ePAN (text "4123456789012345") ++ elemBytes eEXPIRY (text "8701") ++
      elemBytes eSVC (text "101") ++ elemBytes eCSC (text csc)
    let key : Bytes := [0x01, 0x23, 0x45, 0x67, 0x89, 0xAB, 0xCD, 0xEF, 0xFE, 0xDC, 0xBA, 0x98, 0x76, 0x54, 0x32, 0x10]
    let ans := fun csc => ((cscVerify (request 0x0702 (m csc))).run (withKey (hostState 0x0702 (m csc)) (keyAttr 'C' '0' 'T' 'V') key)).1
    (ans "521").toOption.map (·.1) = some stOK ∧ (ans "560").toOption.map (·.1) = some stVERIFY_FAIL := by decide +kernel

/-- A PIN key in slot 2 and a verification key of usage `u v` in slot 3. -/
def pinKeys (s : State) (v : Char) : State :=
  let s := withKey s (keyAttr 'P' '0' 'T' 'D') (zeros 16)
  let k := (oget s.keys 2).map fun k => { k with attr := keyAttr 'V' v 'T' 'V' }
  { s with keys := [(2, (oget s.keys 2)), (3, k)] }
/-- PIN_BLOCK elements of format 0 whose plaintext under PAN 4123456789012345 holds the PIN 1234. -/
def pinBlock : Bytes :=
  elemBytes eFMT_IN [0] ++ elemBytes ePIN_BLOCK [204, 61, 136, 120, 102, 141, 144, 50] ++
    elemBytes ePAN (text "4123456789012345")
/-- R123, R128 to R130: the block opens to its PIN, and both verify commands reach their comparison. -/
theorem test_pin_verify :
    let keys := keyA ++ elemBytes eKEY_B [0, 0, 0, 3] ++ pinBlock
    let m := keys ++ elemBytes ePVKI (text "1") ++ elemBytes eVV (text "0000")
    let n := keys ++ elemBytes eDECTAB (text "0123456789012345") ++ elemBytes eVAL_DATA (text "0000000000000000") ++ elemBytes eCHECK_LEN [4] ++
      elemBytes eOFFSET (text "0000")
    (((pvvPin (request 0x0103 m) true).run (pinKeys (hostState 0x0103 m) '0')).1.toOption.map (·.2.1)) = some (some [1, 2, 3, 4]) ∧
      (((offsetPins (request 0x0102 n) true).run (pinKeys (hostState 0x0102 n) '1')).1.toOption.map (·.2.1)) =
        some (some [1, 2, 3, 4]) ∧
      (((pinVerifyOffset (request 0x0102 n)).run (pinKeys (hostState 0x0102 n) '1')).1.toOption.map (·.1)) =
        some stPIN_FAIL := by decide +kernel
/-- R135 to R137: an ARQC that does not match. -/
theorem test_arqc :
    let m := keyA ++ elemBytes ePAN (text "4123456789012345") ++ elemBytes ePSN [0] ++ elemBytes eATC [0, 1] ++
      elemBytes eTXN_DATA [1] ++ elemBytes eARQC (zeros 8)
    let i := request 0x0301 m
    let s := withKey (hostState 0x0301 m) (keyAttr 'E' '0' 'T' 'X') (zeros 16)
    ((emvKey i [req eTXN_DATA] false).run s).1.toOption.isSome = true ∧
      ((arqcVerify i).run s).1.toOption.map (·.1) = some stCRYPTOGRAM_FAIL := by decide +kernel

/-! ## Update messages and sessions -/

/-- MIGRATE_CANCEL of tenant 0 with counter value `n`, signed with the private key 1. -/
def updateMsg (n : Nat) : Bytes :=
  let head : Bytes := [0x41, 0x44, 0x55, 0x4D, 0, 1, 0x03, 0x02] ++ State.reset.fuse.devid ++ [0, 0, 0, 0] ++ beBytes 8 n ++ zeros 4
  head ++ ecdsaBytes curveP384 1 2 (sha384 head)
/-- Core 0 runs the update command with that message, the authority of tenant 0 being that key. -/
def updateState (n : Nat) : State :=
  let auth : Rec := {
    typ := 2, felled := false, tenant := 0, index := 0, gen := 0, parent := 0, parentGen := 0, attr := zeros 8, wseq := 0
    wrap0 := [], wrap1 := [], pub := 3 :: beBytes 48 curveP384.gx, tag := [], len := 0, opt := [], bound := 0 }
  writeRec (inState (hostState 0x0F03 (elemBytes 0x1201 (updateMsg n))) [(.vlt, stRunning)]) 0 auth
/-- R198: a signed message with a counter above the tenant's passes every check and raises it; one with the counter's own
value is refused at step 4. -/
theorem test_update_message :
    (updateMsg 1).length = 136 ∧
      (match parseUpd (updateMsg 1) with
        | .ok u => decide (u.op = 0x0302) && decide (updChecks (updateState 1) (request 0x0F03 []) u = none)
        | .error _ => false) = true ∧
      (match parseUpd (updateMsg 0) with
        | .ok u => decide (updChecks (updateState 0) (request 0x0F03 []) u = some (4, stNOT_AUTHORISED))
        | .error _ => false) = true ∧
      goes (exec (.migrateCancel 0) (updateState 1)) (fun t => decide (ctrValue t 0 = 1 ∧ t.item 1 = none)) = true ∧
      goes (exec (.authSet 0) (updateState 1)) (fun t => decide (ctrValue t 0 = 0)) = true := by decide +kernel

/-- A state with the credential of private key 1 on P-256 in slot 3, random words and this command on core 0. -/
def sessionState (cmd : Nat) (payload : Bytes) (se : Session) : State :=
  let s := withKey (hostState cmd payload) (keyAttr '5' '1' 'E' 'V') (3 :: beBytes 32 curveP256.gx)
  let s := inState { s with keys := [(3, oget s.keys 2)], sessions := [(5, some se)] } [(.rnx 0, stRunning)]
  s.setBoom 0 { s.boom 0 with words := List.replicate 40 [0, 0, 0, 0, 0, 0, 0, 1] }
/-- A HELLO on P-256 whose ephemeral point is the generator. -/
def helloElems5 : Bytes :=
  elemBytes 0x0101 [1] ++ elemBytes 0x0102 (pointBytes curveP256 (curveP256.gx, curveP256.gy)) ++ elemBytes 0x0103 (zeros 32) ++
    elemBytes 0x0104 [0, 0, 0, 3]
/-- R93 to R95: HELLO opens session 1 in its first stage; FINISH with the host's signature opens the session, and with
another one closes it. -/
theorem test_session_opens :
    let h := sessionState 0x0E01 helloElems5 open5
    let fin := elemBytes 0x010A (ecdsaBytes curveP256 1 2 (zeros 48))
    let f := sessionState 0x0E02 fin { open5 with stage := .hello, cred := 3 }
    (match helloRun h (request 0x0E01 helloElems5) none with
      | .ok o => decide (o.id = 1 ∧ ((o.state.session 1).map (·.stage)) = some .hello)
      | .error _ => false) = true ∧
      goes (exec (.sessionHello 0) h) (fun t => decide (((t.session 1).map (·.devSeq)).isSome)) = true ∧
      goes (exec (.sessionFinish 0) f) (fun t => decide (((t.session 5).map (·.stage)) = some .opened)) = true ∧
      goes (exec (.sessionFinish 0) (sessionState 0x0E02 (elemBytes 0x010A (zeros 64)) { open5 with stage := .hello, cred := 3 }))
        (fun t => decide (t.session 5 = none ∧ t.item 1 = none)) = true := by decide +kernel
/-- R99: a close ends the session at once when nothing else waits, and a rekey names its successor. -/
theorem test_session_ends :
    goes (exec (.sessionClose 0) (sessionState 0x0E03 [] open5)) (fun t => decide (t.session 5 = none)) = true ∧
      goes (exec (.sessionRekey 0) (sessionState 0x0E04 helloElems5 open5)) (fun t =>
        decide (((t.session 5).map (·.successor)) = some (some 1))) = true ∧
      goes (exec (.rekeyPredecessorClose 5) { State.reset with sessions := [(1, some { open5 with seen := some 7 }), (5,
        some { open5 with successor := some 1 })] }) (fun t => decide (t.session 5 = none ∧ t.time.tick = 1000007)) = true := by
  decide +kernel
/-- R92: a frame whose tag is right becomes a request; one whose tag is wrong is dropped and counted. -/
theorem test_tag_check :
    let i : Item := { request 0x0E05 [] with verified := false, seq := 2 }
    let base := withKey (hostState 0x0E05 []) (keyAttr '5' '1' 'A' 'X') (zeros 32)
    let s := { base with
      keys := [(0, (oget base.keys 2).map fun (k : KeySlot) => { k with session := true }), (1, (oget base.keys 2).map fun (k : KeySlot) => { k with session := true })] }
    let c := gcmSeal (aesEncK (aesKeys (zeros 32))) (frameNonce (zeros 4) 2) [] [1]
    let j : Item := { i with payload := c.1, gtag := c.2 }
    let taken := fun (x : Item) => { s with items := [(1, some x)] }.setLane (.cph 0 0)
      { LaneSt.empty with cur := some (decryptJob s 0 x) }
    coreRuns s 0 = true ∧ awaitsTag j = true ∧ verifyItem (taken i) i = none ∧
      (verifyItem (taken j) j).map (·.1.payload) = some [1] ∧ (decryptLane (taken j) 0 j).map (·.1) = some (.cph 0 0) ∧
      decryptLane s 0 j = none ∧ goes (exec (.tagVerifyDone 0) { s with items := [(1, some j)] }) (fun t => t.item 1 = some j) ∧
      goes (exec (.tagVerifyDone 0) (taken i)) (fun t =>
        decide (t.item 1 = none ∧ t.fld (.cls 0) CLS_DROP_AUTH = 1 ∧ (t.lane (.cph 0 0)).cur = none)) = true ∧
      goes (exec (.tagVerifyDone 0) (taken j)) (fun t =>
        decide (t.fld (.cls 0) CLS_DROP_AUTH = 0 ∧ (t.item 1).map (·.verified) = some true)) = true := by decide +kernel
/-- R92: where the lane queue is full the dispatcher yields, and its item waits on the ready list. -/
theorem test_decrypt_waits :
    let i : Item := { request 0x0E05 [] with verified := false }
    let s := hostState 0x0E05 []
    let full := s.setQueue 0 .cipher (List.replicate 1024 (decryptJob s 0 i))
    ((sendDecrypt s 0 i).queue 0 .cipher).length = 1 ∧ (sendDecrypt full 0 i).readyList 0 1 = [1] := by decide +kernel
/-- R102, R368, R491, R492. -/
theorem test_device_commands :
    let t := hostState 0x0F04 (elemBytes eTENANT [0, 1])
    let page := elemBytes 0x1701 ((List.range 256).map (BitVec.ofNat 8))
    pageOk ((List.range 256).map (BitVec.ofNat 8)) = true ∧ pageOk (zeros 256) = false ∧
      goes (exec (.codepageLoad 0) (hostState 0x0F07 page)) (fun t => decide ((t.tenant 0).codePages.length = 1)) = true ∧
      goes (exec (.codepageLoad 0) (hostState 0x0F07 (elemBytes 0x1701 (zeros 256)))) (fun t =>
        decide ((t.tenant 0).codePages = [])) = true ∧
      goes (exec (.tenantReset 0) (t.setTenant 1 { Tenant.free with state := 1 })) (fun t =>
        decide ((t.tenant 1).state = 2 ∧ t.item 1 = none)) = true ∧
      goes (exec (.tenantReset 0) t) (fun u => decide ((u.tenant 1).state = 0)) = true ∧
      goes (exec (.echo 0) (hostState 0x0E05 (elemBytes 0x1010 [7]))) (fun t => decide (t.item 1 = none)) = true := by decide +kernel
/-- R159 to R161: the heartbeat of a tenant makes its issuer unreachable with cause 2. -/
theorem test_heartbeat :
    let x : Timer := { due := 50, kind := .heartbeat 3, id := 1 }
    let s := inState { State.reset with timers := [(0, [x])] } [(.sch 0, stRunning)]
    goes (exec (.heartbeatExpiry 0 3) s) (fun t => ! (t.siOf 3).reachable) = true := by decide +kernel

/-! ## Lanes, engines, random numbers, the vault -/

/-- A job of core 0's item in slot 0. -/
def job0 (u : UnitKind) (desc : Bytes) : Job :=
  { unit := u, core := 0, slot := 0, item := 1, tenant := 0, seg := 0, desc := fitR 64 desc, key := none, alg := chr 'A'
    parentGen := 0, resv := false, words := [] }
/-- A running lane or engine that holds that job, slot 0 of core 0 being in flight and local data holding `m` at 0. -/
def laneState (p : PageId) (j : Option Job) (m : Bytes) : State :=
  let s := inState (kreur [] [] 0x200) [(p, stRunning), (.odm 0, stRunning)]
  let c := s.core 0
  let s := s.setCore 0 { c with mem := memWrite c.mem 0 m, slots := c.slots.set 0 .pending }
  s.setLane p { LaneSt.empty with cur := j }
/-- Slot 0's completion word after a command. -/
def slot0 (r : Res) (f : Bytes → Bool) : Bool :=
  goes r fun t => match (t.core 0).slots.getD 0 .free with
    | .done w => f w
    | _ => false

/-- A cipher descriptor: OP, FLAGS, then SRC 0, DST 0x100 and LEN. -/
def desc0 (op flags len dst : Nat) : Bytes :=
  beBytes 1 op ++ beBytes 1 flags ++ zeros 6 ++ zeros 8 ++ beBytes 8 dst ++ beBytes 4 len
/-- FIPS 197, appendix C.1, and FIPS 180-4's SHA-256 of the text abc, as jobs. -/
theorem test_lane_jobs :
    let pt := (List.range 16).map fun k => BitVec.ofNat 8 (17 * k)
    let aes := { job0 .cipher (desc0 0x00 3 16 0x100) with key := some ((List.range 16).map (BitVec.ofNat 8)) }
    let sha := job0 .hash (desc0 0x20 3 3 0)
    let empty := laneState (.cph 0 0) none []
    goes (exec (.cipherJobDone 0 0) (laneState (.cph 0 0) (some aes) pt)) (fun t =>
      decide (memRead (t.core 0).mem 0x100 4 = [0x69, 0xC4, 0xE0, 0xD8] ∧ (t.lane (.cph 0 0)).cur = none)) = true ∧
    slot0 (exec (.hashJobDone 0 0) (laneState (.hsh 0 0) (some sha) (text "abc"))) (fun w =>
      decide (w.take 2 = [0, 0] ∧ slice w 16 4 = [0xBA, 0x78, 0x16, 0xBF])) = true ∧
    laneReady empty (.cph 0 0) = true ∧ takeJob empty (.cph 0 0) (fun _ => true) = none ∧
    slot0 (exec (.cipherJobBind 0 0) (empty.setQueue 0 .cipher [job0 .cipher (desc0 0xF0 3 16 0)])) (fun w =>
      decide (w.take 2 = beBytes 2 stFORMAT)) = true ∧
    slot0 (exec (.hashJobBind 0 0) ((laneState (.hsh 0 0) none []).setQueue 0 .hash [job0 .hash (desc0 0xF0 3 16 0)])) (fun w =>
      decide (w.take 2 = beBytes 2 stFORMAT)) = true ∧
    slot0 (exec (.discardZeroiseDone (.hsh 0 0) 0) (empty.setLane (.hsh 0 0) { LaneSt.empty with
      discard := [(sha, some stKEY_INVALID)] })) (fun w => decide (w.take 2 = beBytes 2 stKEY_INVALID)) = true := by decide +kernel
/-- A verifying hash job compares at CMP, and a GCM decipherment whose tag fails writes zeros (R232, R235). -/
theorem test_lane_verifies :
    let hmac := { job0 .hash (desc0 0x34 3 3 0 ++ zeros 28 ++ beBytes 8 0x200) with key := some (zeros 32) }
    let hm := { hmac with desc := (hmac.desc.set 3 16) }
    let gcm := { job0 .cipher (desc0 0x16 3 16 0x100 ++ zeros 28 ++ beBytes 8 0x200) with key := some (zeros 16) }
    let gc := { gcm with desc := (gcm.desc.set 3 16) }
    slot0 (exec (.hashJobDone 0 0) (laneState (.hsh 0 0) (some hm) (text "abc"))) (fun w => decide (w.take 2 = beBytes 2 stVERIFY_FAIL)) ∧
      slot0 (exec (.cipherJobDone 0 0) (laneState (.cph 0 0) (some gc) (text "abc"))) (fun w =>
        decide (w.take 2 = beBytes 2 stVERIFY_FAIL)) := by decide +kernel
/-- The vectors of a site run while its page is OFF with TEST_EN set (R240). -/
theorem test_lane_vectors :
    let s := fun p => State.reset.setFlag p CTRL_TEST_EN true
    goes (exec (.cphTestRun 0 3 none) (s (.cph 0 3))) (fun t => t.flag (.cph 0 3) CPH_KAT_PASS) ∧
      goes (exec (.cphTestRun 0 3 (some 2)) (s (.cph 0 3))) (fun t => t.flag (.cph 0 3) CPH_KAT_FAIL) ∧
      goes (exec (.hshTestRun 0 0 none) (s (.hsh 0 0))) (fun t => t.flag (.hsh 0 0) HSH_KAT_PASS) ∧
      goes (exec (.pkeTestRun 0 0 none) (s (.pke 0 0))) (fun t => t.flag (.pke 0 0) PKE_KAT_PASS) ∧
      goes (exec (.laneStartupVectorsDone 0 [] []) (inState State.reset [(.cls 0, stRunning)])) (fun t =>
        t.flag (.cph 0 15) CPH_KAT_PASS && t.flag (.hsh 0 3) HSH_KAT_PASS) ∧
      goes (exec (.engineStartupVectorsDone 0 []) (inState State.reset [(.odm 0, stRunning)])) (fun t =>
        t.flag (.pke 0 3) PKE_KAT_PASS) := by decide +kernel
/-- R246 to R253: 5 plus 6 modulo 7 on an engine, a job that no bundle serves, and a microcode load. -/
theorem test_engine :
    let op := fun a slot dir => beBytes 8 a ++ beBytes 4 32 ++ beBytes 1 slot ++ beBytes 1 dir ++ zeros 2
    let m := beBytes 32 5 ++ beBytes 32 6 ++ beBytes 32 7 ++ op 0 0 0 ++ op 32 1 0 ++ op 64 2 0 ++ op 0x200 3 1
    let j := job0 .engine ([1, 0, 4, 0] ++ zeros 6 ++ [1, 0] ++ zeros 4 ++ beBytes 8 96)
    let s := laneState (.pke 0 0) none m
    let uc := s.setFld (.odm 0) ODM_UC_WORDS 1
    let q := s.setQueue 0 .engine [j]
    let fits := { q with ucode := [(0, some { code := [], funcs := 2 ^ 128 - 1, version := 1 })] }
    goes (exec (.engineJobBind 0 0) fits) (fun t => decide ((t.lane (.pke 0 0)).cur ≠ none) &&
      goes (exec (.engineJobDone 0 0) t) (fun u =>
        decide ((u.lane (.pke 0 0)).cur = none ∧ memRead (u.core 0).mem 0x200 32 = beBytes 32 4)) &&
      goes (exec (.engineJobDone 0 0) (inState t [(.odm 0, stFailed)])) (fun u => decide ((u.lane (.pke 0 0)).cur ≠ none))) ∧
      slot0 (exec (.engineJobBind 0 0) q) (fun w => decide (w.take 2 = beBytes 2 stFORMAT)) ∧
      goes (exec (.microcodeLoad 0 16384) s) (fun t => t.flag (.odm 0) ODM_UC_GO) ∧
      goes (exec (.microcodeLoad 0 0) s) (fun t => t.flag (.odm 0) ODM_UC_REFUSED) ∧
      goes (exec (.microcodeLoad 0 1) (s.setFld .vlt VLT_MEAS_SEAL 16)) (fun t => t.flag (.odm 0) ODM_UC_REFUSED) ∧
      goes (exec (.microcodeLoadDone 0) (uc.setFlag (.odm 0) ODM_UC_GO true)) (fun t => (oget t.ucode 0).isSome) := by decide +kernel
/-- The modular sum itself (R250). -/
theorem test_engine_sum :
    (match modFn 0x01 5 6 7 0 with
      | .ok o => o.outs.map (·.2)
      | .error _ => []) = [4] := by decide +kernel

/-- A FREE tenant as a target, one in reset, and one beyond TEN_MAX (R361, R369). -/
theorem test_target_tenant :
    targetTenant State.reset 0 5 = some stOPERAND_RANGE ∧ targetTenant State.reset 0 0 = none ∧
      targetTenant State.reset 0 2000 = some stNOT_FITTED ∧
      targetTenant (State.reset.setTenant 5 { Tenant.free with state := 2 }) 0 5 = some stTENANT_RESETTING := by decide +kernel

/-- A source past its start-up tests, and region 0's expander in a state. -/
def rngState (st : Nat) : State :=
  ({ inState State.reset [(.rng, stRunning), (.rnx 0, st)] with seedQ := [(zeros 48)] }).setFlag .rng RNG_SRC_STATUS_STARTUP_DONE true
/-- R293 to R302. -/
theorem test_random :
    let s := (rngState stStarting).setFld .rng RNG_OSC_USE_HI 0x80
    let g := (rngState stRunning).setFlag (.rnx 0) RNG_DRBG_STATUS_SEEDED true
    let raw := (State.reset.setFlag .rng RNG_RAW_CTRL_EN true).setFlag .rng RNG_SRC_STATUS_RAW true
    goes (exec (.sourceStartupDone []) (inState State.reset [(.rng, stStarting)])) (fun t => decide (stateOf t .rng = stRunning)) ∧
      goes (exec .conditionedBlockRelease s) (fun t => decide (s.fresh < t.fresh)) ∧
      goes (exec (.expanderInstantiated 0) s) (fun t => decide (stateOf t (.rnx 0) = stRunning ∧ t.seedQ = [])) ∧
      goes (exec (.drbgGenerateRequest 0) (g.setBoom 0 { g.boom 0 with key := zeros 32, v := zeros 16 })) (fun t => decide ((t.boom 0).words.length = 128)) ∧
      goes (exec (.drbgReseed 0) (g.setFld (.rnx 0) RNG_DRBG_STATUS_REQS 4096)) (fun t => decide (t.seedQ = [])) ∧
      goes (exec (.oscillatorHealthFail 39 1) ((inState raw [(.rng, stRunning)]).setFld .rng RNG_OSC_USE_HI 0x80)) (fun t =>
        decide (t.fld .rng RNG_HT_FAILS = 1)) ∧
      goes (exec (.rngRawEnable true) (State.reset.setFlag .rng RNG_RAW_PERMIT true)) rawMode ∧
      goes (exec (.rngRawArm 63) raw) (fun t => t.flag .rng RNG_RAW_CTRL_ARM) ∧
      goes (exec .rngRawFull (raw.setFlag .rng RNG_RAW_CTRL_ARM true)) (fun t => decide (t.rawWin.length = 4096)) ∧
      goes (exec .rngRawPermit State.reset) (fun t => t.flag .rng RNG_RAW_PERMIT) ∧
      goes (exec .rngRawPermit (State.reset.setFld .vlt VLT_MEAS_SEAL 32)) (fun t => ! t.flag .rng RNG_RAW_PERMIT) := by decide +kernel
/-- R186, R199 to R215. -/
theorem test_vault :
    let s := inState State.reset [(.vlt, stRunning)]
    let v := withKey s tdesAttr (zeros 16)
    let mig := fun m => { s with sys := { s.sys with mig := m } }
    goes (exec (.measWrite 7 11 5) (s.setFld .vlt VLT_MEAS_SEAL 127)) (fun t => decide (t.reg .vlt (0x100 + 48 * 7 + 44) = 5)) ∧
      measOpen s 0 = true ∧ measOpen s 7 = false ∧ measOpen (s.setFld .vlt VLT_MEAS_SEAL 255) 7 = false ∧
      goes (exec (.measSeal 16) (s.setFld .vlt VLT_MEAS_SEAL 15)) (fun t => decide (t.fld .vlt VLT_MEAS_SEAL = 31)) ∧ goes (exec (.measSeal 0) s) (fun t => t.dr.isNone) ∧
      goes (exec (.migConfirm 0xA5) (mig mgTRIAL)) (fun t => decide (t.sys.mig = mgCONFIRMING)) ∧
      goes (exec (.migConfirm 0xA5) s) (fun t => decide (t.sys.mig = mgIDLE)) ∧
      goes (exec .migrationRewrapDone (mig mgREWRAP)) (fun t => decide (t.sys.mig = mgARMED)) ∧
      goes (exec .migrationConfirmDone (mig mgCONFIRMING)) (fun t => decide (t.sys.mig = mgIDLE)) ∧
      remasks s = true ∧ remasks State.reset = false ∧
      goes (exec .keyCacheRemask v) (fun t => decide (t.fld .vlt VLT_REMASK_CACHE = 1)) ∧
      goes (exec .writeAllowanceRefill (s.setFld .vlt VLT_NVM_ALLOW 60000)) (fun t => decide (allowance t = 60000)) ∧
      goes (exec (.counterWriteRefill 8191) (s.setCtr 8191 { vals := [3], next := 1, used := 2 })) (fun t => decide ((t.ctr 8191).used = 1)) ∧
      goes (exec (.vaultStartup []) ((inState State.reset [(.vlt, stStarting)]).setFld .vlt VLT_MEAS_SEAL 16)) (fun t =>
        decide (stateOf t .vlt ≠ stStarting)) ∧
      goes (exec .vltInfo (v.setReg .vlt 0x060 2)) (fun t => decide (t.keys.length = 1)) ∧
      goes (exec .vltSeal (v.setReg .vlt 0x060 0x10000)) (fun t => decide (t.hbm = [])) ∧
      goes (exec .vaultDebugAccess s) (fun t => t.flag .vlt ⟨0x010, 12, 1⟩) := by decide +kernel

/-! ## Pair, tamper, supplies, resets, and the block as a whole -/

/-- A unit in a pair role. -/
def pairUnit (role : Nat) : State := (inState State.reset [(.par, stRunning)]).setFld .par PAIR_STATUS_ROLE role
/-- The partner that the reset state's identity registers name. -/
def partner0 : Partner :=
  { role := roACTIVE, seeks := false, devid := peerId State.reset, owner := none, life := lifeState State.reset, cert := true, format := true }
/-- An empty delta of an epoch. -/
def delta0 (e : Nat) : Delta := { epoch := e, bytes := 0, time := 9, items := [] }
/-- R381 to R386, R400. -/
theorem test_pair_link :
    let up := fun r => (pairUnit r).setFlag .par PAIR_STATUS_LINK_UP true
    partnerKnown State.reset partner0 = true ∧ partnerKnown State.reset { partner0 with cert := false } = false ∧
      goes (exec (.pairLinkUp 255 partner0) (pairUnit roNONE)) (fun t => t.flag .par PAIR_STATUS_LINK_UP) = true ∧
      goes (exec (.pairLinkUp 1 { partner0 with format := false }) (pairUnit roNONE)) (fun t =>
        decide (t.fld .par ERR_CODE = 0xB2) && ! t.flag .par PAIR_STATUS_LINK_UP) = true ∧
      goes (exec (.pairLinkDown true) (up roNONE)) (fun t => decide (t.fld .par ERR_CODE = 0xB0)) = true ∧
      goes (exec (.pairLaneBlockLock 7 false) ((up roNONE).setFld .par PAIR_STATUS_LANES 128)) (fun t =>
        ! t.flag .par PAIR_STATUS_LINK_UP) = true ∧
      goes (exec .pairJoinTimeout { pairUnit roNONE with pair := { State.reset.pair with joining := true } }) (fun t =>
        ! t.pair.joining) = true ∧
      (up roSYNCING).role = roSYNCING ∧ (up roSYNCING).flag .par PAIR_STATUS_LINK_UP = true ∧
      goes (exec .pairHeartbeatPresent (pairUnit roNONE)) (fun t => t.balls.hbIn) = true ∧
      goes (exec (.parUncorrectableError false) (pairUnit roNONE)) (fun t => decide (stateOf t .par = stFailed)) = true := by
  decide +kernel
/-- The role after a command. -/
def roleAfter (r : Res) : Nat :=
  match r with
  | .next t => t.role
  | _ => 9
/-- R387 to R398: three silent epochs are borne, the fourth fences or leaves alone; deltas apply in order. -/
theorem test_pair_roles :
    let act := fun (n : Nat) (hb : Bool) => { (pairUnit roACTIVE).setFlag .par PAIR_STATUS_LINK_UP true with
      pair := { State.reset.pair with paired := true, silent := n, partner := roSTANDBY }, balls := { State.reset.balls with hbIn := hb } }
    let sby := { (pairUnit roSTANDBY).setFlag .par PAIR_STATUS_LINK_UP true with
      pair := { State.reset.pair with applied := some 4, partner := roACTIVE } }
    (act 0 true).role = roACTIVE ∧ roleAfter (exec (.epochClose 1 1 0) (act 2 true)) = roACTIVE ∧
      roleAfter (exec (.epochClose 1 1 0) (act 3 true)) = roFENCED ∧
      roleAfter (exec (.epochClose 1 1 0) (act 3 false)) = roALONE ∧ roleAfter (exec .partnerPromotedMsg (act 0 true)) = roFENCED ∧
      roleAfter (exec .partnerWithdrawMsg (act 0 true)) = roALONE ∧ sby.role = roSTANDBY ∧ running sby .par = true ∧
      roleAfter (exec .pairPromote (pairUnit roNONE)) = roALONE ∧
      roleAfter (exec .abandonState (act 0 true)) = roNONE ∧
      goes (exec .pairSwitch (act 0 true)) (fun t => t.pair.switching) = true ∧
      goes (exec .pairSwitch (act 0 true)) (fun t => goes (exec .switchDrainTimeout t) fun u => decide (u.pair.partner = roACTIVE)) = true ∧
      goes (exec (.deltaReceived (delta0 5)) sby) (fun t => decide (t.pair.applied = some 5 ∧ t.time.ns = 9)) = true ∧
      goes (exec (.deltaReceived (delta0 6)) sby) (fun t => decide (t.pair.applied = some 4 ∧ t.pair.staged.length = 1)) = true ∧
      goes (exec (.deltaReceived (delta0 4)) sby) (fun t => decide (t.pair.applied = some 4)) = true ∧
      0 < ((act 0 true).setFld .par PAIR_EPOCH_LO 5).epoch := by decide +kernel

/-- R404 to R416, R420, R487, R488. -/
theorem test_tamper :
    let s := State.reset
    let t := { s with tmp := { s.tmp with tests := [(16, false)] } }
    let off := { s with tmp := { s.tmp with power := false, cell := false } }
    goes (exec (.tamperTrip 0x8001 false) s) (fun t => decide (t.tmp.present = 0x8001 ∧ t.tmp.buf.length = 1)) = true ∧
      goes (exec (.monitorRearm 16) { s with tmp := { s.tmp with present := 0x8000, disarmed := 0x8000 } }) (fun t =>
        decide (t.tmp.present = 0 ∧ t.tmp.disarmed = 0)) = true ∧
      goes (exec (.tmpRespWrite 0xFFFFFFFF) s) (fun t => decide (t.tmp.resp = 0xAAAAAAAA)) = true ∧
      goes (exec (.tmpRespWrite 0) { s.setFld .vlt VLT_MEAS_SEAL 32 with tmp := { s.tmp with resp := 0xAAAAAAAA } }) (fun t =>
        decide (t.tmp.resp = 0xAAAAAAAA) && t.flag .tmp ⟨0x010, 12, 1⟩) = true ∧
      goes (exec (.tmpCfgWrite 0x13C) s) (fun t => decide (t.tmp.cfg = 0x13C)) = true ∧
      goes (exec .blazeLogNvmWriteDone { s with tmp := { s.tmp with buf := [zeros 14] } }) (fun t =>
        decide (t.tmp.buf = [] ∧ t.tmp.log.length = 1)) = true ∧
      goes (exec .tmpLogRead s) (fun t => decide (t.fld .tmp TMP_LOG_CURSOR = 1)) = true ∧
      goes (exec .stimulusTestPeriod { s with tmp := { s.tmp with nextTest := 16 } }) (fun t =>
        decide (t.tmp.nextTest = 1 ∧ t.tmp.tests = [(16, false)])) = true ∧
      goes (exec (.tmpTestRun 16) s) (fun t => decide (t.tmp.tests = [(16, true)])) = true ∧
      goes (exec (.stimulusWindowClose true false) t) (fun t => decide (t.fld .tmp TMP_TESTS = 1)) = true ∧
      goes (exec (.stimulusWindowClose false false) t) (fun t => decide (t.tmp.tests = [])) = true ∧
      goes (exec (.tmpLogicParity 0xC2) s) (fun t => decide (t.tmp.tests.length = 16)) = true ∧
      goes (exec .batteryDomainError s) (fun t => t.devLocked) = true ∧ goes (exec .batteryDomainError off) (fun t => t.tmp.pending) = true ∧
      goes (exec .cellInserted off) (fun t => t.tmp.cell) = true ∧ goes (exec .vholdCharged off) (fun t => t.tmp.vhold) = true ∧
      goes (exec .holdUpExhausted off) (fun t => decide (t.root.a = [])) = true := by decide +kernel
/-- R403, R433, R454 to R473. -/
theorem test_supplies :
    let s := State.reset
    let slots := fun (l : List Nat) => { s with fuse := { s.fuse with slots := l.map codeWord } }
    let own := slots [0x10, lcFACTORY, lcSHIPPED, lcOWNED]
    let win := fun b => { s with tmp := { s.tmp with window := some (true, false, b) } }
    let bfl := inState s [(.bfl, stRunning)]
    let hbc := fun n => inState s [(.hbc, n)]
    let ir := fun c s => match exec c s with
      | .next t => t.balls.tapIr
      | _ => 9
    goes (exec (.railFall true) s) (fun t => t.shut && t.tmp.window.isSome) = true ∧
      goes (exec (.railReturn true) { s with tmp := { s.tmp with core := false } }) (fun t => t.tmp.core) = true ∧
      goes (exec .railFallWindowEnd (win true)) (fun t => ! t.tmp.power) = true ∧
      goes (exec .railFallWindowEnd (win false)) (fun t => t.tmp.power && decide (t.tmp.window = none)) = true ∧
      lifeState own = lcOWNED ∧ ir .idcode own = 0x01 ∧ ir .bypass own = 0xFF ∧ ir .extest s = 0 ∧ ir .extest own = 0xFF ∧
      ir .samplePreload s = 2 ∧ ir .dtmcs own = 0xFF ∧ ir .dmi (slots [0x10, lcFACTORY, lcSHIPPED, lcOWNED, lcDEBUG]) = 0x11 ∧
      goes (exec .bflTransfer bfl) (fun t => t.flag .bfl BFL_XFER_GO) = true ∧
      goes (exec (.bflTransferDone .timeout) (bfl.setFlag .bfl BFL_XFER_GO true)) (fun t => decide (t.fld .bfl ERR_CODE = 0xFD)) = true ∧
      goes (exec (.hbmTrainingDone false 5) (hbc stStarting)) (fun t => decide (stateOf t .hbc = stFailed)) = true ∧
      goes (exec .hbmInitDone (hbc stRunning)) (fun t => t.flag .hbc HBC_STATUS_SCRUBBING) = true ∧
      goes (exec .hbmScrubPass ((hbc stRunning).setFlag .hbc HBC_STATUS_SCRUBBING true)) (fun t =>
        decide (t.fld .hbc HBC_SCRUB_PASSES = 1)) = true ∧
      goes (exec (.hbmTempThreshold 341) s) (fun t => t.flag .hbc HBC_STATUS_HOT) = true ∧
      goes (exec (.hbmTempThreshold 340) s) (fun t => ! t.flag .hbc HBC_STATUS_HOT) = true ∧
      goes (exec (.serdesPllLockLoss 31) s) (fun t => decide (t.fld .clk CLK_SD_LOSS = 1)) = true ∧
      goes (exec (.dieTempAlarm 1000) s) (fun t => decide (t.fld .pwr PWR_TEMP = 1000)) = true ∧
      (match exec (.i2cRead 3) s with
        | .next t => t.balls.i2cOut
        | _ => 1) = 0 := by decide +kernel
/-- R425 to R432, R455 to R467. -/
theorem test_resets :
    let s := State.reset
    let cause := fun c s => match exec c s with
      | .next t => t.fld .rst RST_CAUSE
      | _ => 9
    let w := { s with lcs := { s.lcs with stage := sgPROGRAM, prog := some (0x10, []) } }
    let r : Item := { request 0x0F10 [] with fixed := false }
    let rom := { s with lcs := { s.lcs with stage := sgSERVICE }, romQ := [r] }
    complexRuns s = true ∧ cause .powerOn s = rcPOWER ∧ cause .resetN s = rcRESETN ∧ cause (.rstCmd 0xC1) s = rcSOFT ∧
      cause .lcsArm (s.setFld .lcs LCS_REQ_LEN 312) = rcARM ∧ cause .watchdogExpiry (s.setFld .rst RST_WDT 5) = rcWDT ∧
      cause (.bootFailure 1 2) { s with lcs := { s.lcs with stage := sgRUN } } = rcBOOT ∧
      goes (exec (.rstCmd 0) s) (fun t => t.flag .rst ⟨0x010, 12, 1⟩) = true ∧
      goes (exec .watchdogHalf (s.setFld .rst RST_WDT 2)) (fun t => decide (t.time.tick = 1000)) = true ∧
      goes (exec .rstWdtKick { s with time := { s.time with tick := 7 } }) (fun t => decide (t.time.wdt = 7)) = true ∧
      goes (exec (.rstReady true) s) (fun t => ! t.balls.ready) = true ∧
      goes (exec (.lcsProgramDone none) w) (fun t => decide (t.lcs.prog = none ∧ lifeState t = 0x10)) = true ∧
      goes (exec (.lcsProgramDone (some 1)) w) (fun t => decide (t.fld .lcs ERR_CODE = 0xD1)) = true ∧
      (romTake rom 0x0F10).map (·.1) = some r ∧ goes (exec .romReport rom) (fun t => decide (t.romQ = [])) = true := by decide +kernel

/-! ## The block as a whole -/

/-- A step takes the command at the front; with none, 1 µs passes (log 1). -/
theorem test_step :
    goes (step { State.reset with pending := [.powerOn, .resetN] }) (fun t => decide (t.pending = [.resetN])) = true ∧
      goes (step State.reset) (fun t => decide (t.time.tick = State.reset.time.tick + 1 ∧ t.pending = [])) = true ∧
      decodeTableWord 16 5 = none := by decide +kernel
/-- The premise of the invariants holds after reset. -/
theorem wit_canonical : Canonical State.reset := by unfold Canonical; decide +kernel
/-- The pages at both ends of the map. -/
theorem test_pages :
    present State.reset .top = true ∧ present State.reset (.lnk 127) = true ∧ present State.reset (.pke 3 4) = true ∧
      pageOfAddr (pageBase (.lnk 127) + 0xFFF) = some (.lnk 127) ∧ pageOfAddr (pageBase (.pke 3 4)) = some (.pke 3 4) := by
  decide +kernel
/-- A type 4 context draws its value once, and is then past it; one at its last value is exhausted (R353). -/
theorem test_counter_contexts :
    let s := State.reset.setCtx 0 1 { Ctx.free with valid := true, typ := 4, body := zeros 248 }
    let x := { s with ctxs := (s.setCtx 0 1 { Ctx.free with valid := true, typ := 4, body := beBytes 8 0xFFFF ++ zeros 240 }).ctxs }
    ctxCounter (s.ctxAt 0 1) ≤ counterLast (s.ctxAt 0 1).typ (ctxScheme (s.ctxAt 0 1)) ∧
      (match ctxDraw s 0 1 with
        | (.ok v, t) => decide (v = 0 ∧ ctxCounter (t.ctxAt 0 1) = 1)
        | _ => false) = true ∧
      (match ctxDraw x 0 1 with
        | (.ok v, t) => ctxExhausted (t.ctxAt 0 1) && decide (v = ctxCounter (x.ctxAt 0 1))
        | _ => false) = true := by decide +kernel
/-- SP 800-38G, FF1 sample 1, and back again. -/
theorem test_ff1 :
    let key : Bytes := [0x2B, 0x7E, 0x15, 0x16, 0x28, 0xAE, 0xD2, 0xA6, 0xAB, 0xF7, 0x15, 0x88, 0x09, 0xCF, 0x4F, 0x3C]
    ff1Enc key [] [0, 1, 2, 3, 4, 5, 6, 7, 8, 9] = [2, 4, 3, 3, 4, 7, 7, 4, 8, 4] ∧
      ff1Dec key [] [2, 4, 3, 3, 4, 7, 7, 4, 8, 4] = [0, 1, 2, 3, 4, 5, 6, 7, 8, 9] := by decide +kernel

/-! ## Host commands that complete

Each theorem meets every premise of one clause of the statements on completing commands, on a concrete request. -/

/-- The value of a check that passes. -/
def okOr {α : Type} (d : α) : Except Nat α → α
  | .ok a => a
  | .error _ => d
/-- A check passes. -/
def isOk {α : Type} : Except Nat α → Bool
  | .ok _ => true
  | .error _ => false
theorem okOr_eq {α : Type} {d : α} {x : Except Nat α} (h : isOk x = true) : x = .ok (okOr d x) := by
  cases x <;> first | rfl | cases h
theorem getD_eq {α : Type} {d : α} {x : Option α} (h : x.isSome = true) : x = some (x.getD d) := by
  cases x <;> first | rfl | cases h
theorem fst_ok {α β : Type} {d : α} {x : Except Nat α × β} (h : isOk x.1 = true) : x = (.ok (okOr d x.1), x.2) :=
  Prod.ext (okOr_eq h) rfl
theorem fst_some {α β : Type} {d : α} {x : Option α × β} (h : x.1.isSome = true) : x = (some (x.1.getD d), x.2) :=
  Prod.ext (getD_eq h) rfl
/-- A key that stands for none. -/
def noKey : KeyVal := { handle := 0, attr := [], bits := [], parent := 255, parentGen := 0, opt := [], bound := 0 }
theorem served_of {s : State} {k code : Nat} {i : Item}
    (h : (decide (hostItem s k code = some i) && (! s.devLocked || servedLocked code)) = true := by decide +kernel) : Served s k code i := by
  simp only [Bool.and_eq_true, decide_eq_true_eq, Bool.or_eq_true, Bool.not_eq_true'] at h
  exact h
theorem fits_of {s : State} {i : Item} {defs : List ElemDef} {layout : List FixField} {present : List Elem → Bool}
    (h : (isOk (payElems s i defs layout) && present (okOr [] (payElems s i defs layout)) &&
      (elemLens defs (okOr [] (payElems s i defs layout))).isNone &&
      (payValues s (okOr [] (payElems s i defs layout))).isNone) = true := by decide +kernel) :
    Fits s i defs layout present (okOr [] (payElems s i defs layout)) := by
  simp only [Bool.and_eq_true, Option.isNone_iff_eq_none] at h
  exact ⟨okOr_eq h.1.1.1, h.1.1.2, h.1.2, h.2⟩
theorem resolves_of {s : State} {h : Word} (e : isOk (resolveKey s h).1 = true := by decide +kernel) :
    resolveKey s h = (.ok (okOr noKey (resolveKey s h).1), (resolveKey s h).2) := fst_ok e
theorem serves_of {s : State} {i : Item} {l : List Elem} {e : Nat} {us : List Nat} {as ms : List Char}
    (h : (decide (handleTenant (handleOf l e) = i.tenant) && isOk (resolveKey s (handleOf l e)).1 &&
      keyFits (okOr noKey (resolveKey s (handleOf l e)).1) us as ms) = true := by decide +kernel) :
    Serves s i l e us as ms (okOr noKey (resolveKey s (handleOf l e)).1) (resolveKey s (handleOf l e)).2 := by
  simp only [Bool.and_eq_true, decide_eq_true_eq] at h
  exact ⟨h.1.1, resolves_of h.1.2, h.2⟩
theorem words_of {s : State} {r n : Nat} {t : Option Nat} (h : (boomBytes s r n t).1.isSome = true := by decide +kernel) :
    boomBytes s r n t = (some ((boomBytes s r n t).1.getD []), (boomBytes s r n t).2) := fst_some h
theorem draws_of {s : State} {i : Item} {n : Nat} (h : (n ≠ 0 && (boomBytes s i.region n (some i.tenant)).1.isSome) = true := by decide +kernel) :
    Draws s i n ((boomBytes s i.region n (some i.tenant)).1.getD []) (boomBytes s i.region n (some i.tenant)).2 := by
  simp only [Bool.and_eq_true, decide_eq_true_eq] at h
  rw [Draws, if_neg h.1]
  exact words_of h.2
theorem draws_none {s : State} {i : Item} {n : Nat} (h : decide (n = 0) = true := by decide +kernel) : Draws s i n [] s := by
  rw [Draws, if_pos (of_decide_eq_true h)]
  exact ⟨rfl, rfl⟩
theorem names_of {s : State} {i : Item} {l : List Elem} {e typ : Nat}
    (h : ((ctxNamed s (handleOf l e)).isSome && decide (((ctxNamed s (handleOf l e)).getD Ctx.free).tenant = i.tenant) &&
      decide (((ctxNamed s (handleOf l e)).getD Ctx.free).typ = typ)) = true := by decide +kernel) :
    NamesCtx s i l e typ ((ctxNamed s (handleOf l e)).getD Ctx.free) := by
  simp only [Bool.and_eq_true, decide_eq_true_eq] at h
  exact ⟨getD_eq h.1.1, h.1.2, h.2⟩
theorem gives_of {s : State} {l : List Elem}
    (h : isOk (ctxDraw s (ctxRegion (handleOf l eCTX)) (ctxIndex (handleOf l eCTX))).1 = true := by decide +kernel) :
    Gives s l (okOr 0 (ctxDraw s (ctxRegion (handleOf l eCTX)) (ctxIndex (handleOf l eCTX))).1)
      (ctxDraw s (ctxRegion (handleOf l eCTX)) (ctxIndex (handleOf l eCTX))).2 := fst_ok h
theorem pin_of {s : State} {i : Item} {l : List Elem}
    (h : (decide (handleTenant (handleOf l eKEY_A) = i.tenant) && isOk (resolveKey s (handleOf l eKEY_A)).1 &&
      keyFits (okOr noKey (resolveKey s (handleOf l eKEY_A)).1) [usage 'P' '0'] (fmtAlg (elemNat l eFMT_IN)) ['B', 'D']) = true := by decide +kernel)
    (b : ((elemD l ePIN_BLOCK).length == pinBlockLen (elemNat l eFMT_IN) && (openPin (elemNat l eFMT_IN)
      (okOr noKey (resolveKey s (handleOf l eKEY_A)).1).bits (elemD l ePIN_BLOCK) (panOf l)).isSome) = true := by decide +kernel) :
    PinComes s i l ((openPin (elemNat l eFMT_IN) (okOr noKey (resolveKey s (handleOf l eKEY_A)).1).bits
      (elemD l ePIN_BLOCK) (panOf l)).getD []) (resolveKey s (handleOf l eKEY_A)).2 := by
  simp only [Bool.and_eq_true, beq_iff_eq] at b
  exact ⟨_, serves_of h, b.1, getD_eq b.2⟩

/-- What a command answers. -/
abbrev answers (c : Instr) (s : State) (i : Item) : Prop := ∃ t st p, exec c s = .next (endItem t i st p)
/-- What a state-changing command answers. -/
abbrev commits (c : Instr) (s : State) (i : Item) : Prop := ∃ t w p, exec c s = .next (committed t i w p)

/-- Core 0 runs a request of tenant 0 on a state whose units run: cache slots 2, 3, … hold keys of these attributes and bits,
and the tenant has an active TMK. -/
def served (i : Item) (ks : List (Bytes × Bytes)) : State :=
  let s := inState (hostState i.cmd i.payload) [(.vlt, stRunning), (.rnx 0, stRunning), (.ctx 0, stRunning), (.odm 0, stRunning),
    (.pke 0 0, stRunning)]
  let s := s.setBoom 0 { s.boom 0 with words := List.replicate 60 [0, 0, 0, 0, 0, 0, 0, 1] }
  let tmk : Rec := {
    typ := 1, felled := false, tenant := 0, index := 0, gen := 0, parent := 0, parentGen := 0, attr := zeros 8, wseq := 0
    wrap0 := [], wrap1 := [], pub := [], tag := [], len := 0, opt := [], bound := 0 }
  { s with
    items := [(1, some i)]
    ucode := [(0, some { code := [], funcs := 2 ^ 128 - 1, version := 1 })]
    recs := [(0, some tmk)]
    activeTmks := [(0, some 0)]
    keys := ks.zipIdx.map fun x => (x.2 + 2, some {
      tenant := 0, attr := x.1.1, parent := 255, parentGen := 0, felled := false, masked := x.1.2, mask := zeros x.1.2.length
      slots := (x.1.2.length + 31) / 32, opt := [], bound := 0, session := false }) }
/-- The ID of context 1 of region 0 of a type. -/
def ctxOf (typ : Nat) : Word := BitVec.ofNat 32 (typ * 2 ^ 18 + 1)
/-- That context holds a body, and the key in slot 2 is bound to it. -/
def boundTo (s : State) (typ : Nat) (body : Bytes) : State :=
  { s.setCtx 0 1 { Ctx.free with valid := true, typ := typ, body := fitR 248 body, bound := 2 } with
    keys := oset s.keys 2 ((oget s.keys 2).map fun k => { k with bound := ctxOf typ }) }
/-- A request whose Context field names that context. -/
def onCtx (cmd typ : Nat) (payload : Bytes) : Item := { request cmd payload with ctxId := ctxOf typ }
/-- An element that names it. -/
def ctxElem (e typ : Nat) : Bytes := elemBytes e (beBytes 4 (ctxOf typ).toNat)
/-- KEY_B naming cache slot 3 of tenant 0. -/
def keyB : Bytes := elemBytes eKEY_B [0, 0, 0, 3]

/-- R125: format 0 in, format 3 out. -/
theorem wit_pin_translate (h : PinCommandsComplete) :
    let m := keyA ++ keyB ++ pinBlock ++ elemBytes eFMT_OUT [3]
    let i := request 0x0101 m
    answers (.pinTranslate 0) (served i [(keyAttr 'P' '0' 'T' 'D', zeros 16), (keyAttr 'P' '0' 'T' 'E', zeros 16)]) i :=
  ⟨_, _, _, (h _ _ _ _).1 _ _ _ _ _ _ served_of fits_of
    pin_of (by decide +kernel) serves_of (by decide +kernel)
    draws_of⟩
/-- The same in format 0, which draws nothing. -/
theorem wit_pin_translate_plain (h : PinCommandsComplete) :
    let m := keyA ++ keyB ++ pinBlock ++ elemBytes eFMT_OUT [0]
    let i := request 0x0101 m
    answers (.pinTranslate 0) (served i [(keyAttr 'P' '0' 'T' 'D', zeros 16), (keyAttr 'P' '0' 'T' 'E', zeros 16)]) i :=
  ⟨_, _, _, (h _ _ _ _).1 _ _ _ _ _ _ served_of fits_of
    pin_of (by decide +kernel) serves_of (by decide +kernel)
    draws_none⟩
/-- The elements of the offset commands with CHECK_LEN 4. -/
def offsetElems : Bytes :=
  keyA ++ keyB ++ pinBlock ++ elemBytes eDECTAB (text "0123456789012345") ++ elemBytes eVAL_DATA (text "0000000000000000") ++
    elemBytes eCHECK_LEN [4]
/-- R128. -/
theorem wit_pin_verify_offset (h : PinCommandsComplete) :
    let m := offsetElems ++ elemBytes eOFFSET (text "0000")
    let i := request 0x0102 m
    answers (.pinVerifyOffset 0) (served i [(keyAttr 'P' '0' 'T' 'D', zeros 16), (keyAttr 'V' '1' 'T' 'V', zeros 16)]) i :=
  ⟨_, _, _, (h _ _ _ _).2.1.1 _ _ _ _ served_of fits_of
    pin_of (by decide +kernel) (by decide +kernel) serves_of⟩
/-- R127. -/
theorem wit_pin_gen_offset (h : PinCommandsComplete) :
    let i := request 0x0104 offsetElems
    answers (.pinGenOffset 0) (served i [(keyAttr 'P' '0' 'T' 'B', zeros 16), (keyAttr 'V' '1' 'T' 'G', zeros 16)]) i :=
  ⟨_, _, _, (h _ _ _ _).2.1.2 _ _ _ _ served_of fits_of
    pin_of (by decide +kernel) (by decide +kernel) serves_of⟩
/-- R130, with a verification value of 6 digits. -/
theorem wit_pin_verify_pvv (h : PinCommandsComplete) :
    let m := keyA ++ keyB ++ pinBlock ++ elemBytes ePVKI (text "1") ++ elemBytes eVV (text "000000")
    let i := request 0x0103 m
    answers (.pinVerifyPvv 0) (served i [(keyAttr 'P' '0' 'T' 'D', zeros 16), (keyAttr 'V' '0' 'T' 'V', zeros 16)]) i :=
  ⟨_, _, _, (h _ _ _ _).2.2.1.1 _ _ _ _ served_of fits_of
    pin_of (by decide +kernel) serves_of⟩
/-- R130, the value generated with its default length. -/
theorem wit_pin_gen_pvv (h : PinCommandsComplete) :
    let m := keyA ++ keyB ++ pinBlock ++ elemBytes ePVKI (text "9")
    let i := request 0x0105 m
    answers (.pinGenPvv 0) (served i [(keyAttr 'P' '0' 'T' 'D', zeros 16), (keyAttr 'V' '0' 'A' 'C', zeros 16)]) i :=
  ⟨_, _, _, (h _ _ _ _).2.2.1.2 _ _ _ _ served_of fits_of
    pin_of (by decide +kernel) serves_of⟩
/-- A card, for its codes. -/
def cardElems : Bytes :=
  keyA ++ elemBytes ePAN (text "4123456789012345") ++ elemBytes eEXPIRY (text "8701") ++ elemBytes eSVC (text "101")
/-- R155. -/
theorem wit_csc_generate (h : PinCommandsComplete) :
    let m := cardElems ++ elemBytes eCSC_LEN [3]
    let i := request 0x0701 m
    answers (.cscGenerate 0) (served i [(keyAttr 'C' '0' 'T' 'G', zeros 16)]) i :=
  ⟨_, _, _, (h _ _ _ _).2.2.2.1 _ _ served_of fits_of serves_of⟩
/-- R156. -/
theorem wit_csc_verify (h : PinCommandsComplete) :
    let m := cardElems ++ elemBytes eCSC (text "5218")
    let i := request 0x0702 m
    answers (.cscVerify 0) (served i [(keyAttr 'C' '0' 'T' 'V', zeros 16)]) i :=
  ⟨_, _, _, (h _ _ _ _).2.2.2.2 _ _ served_of fits_of serves_of⟩

/-- The elements of an algorithm 1 MAC of 8 bytes over one byte. -/
def macElems : Bytes := keyA ++ elemBytes eMAC_ALG [1] ++ elemBytes eMAC_PAD [2] ++ elemBytes eMAC_LEN [8] ++ elemBytes eDATA [0x31]
/-- R131, at the longest MAC of algorithm 1. -/
theorem wit_mac_generate (h : MacCommandsComplete) :
    let i := request 0x0201 macElems
    answers (.macGenerate 0) (served i [(keyAttr 'M' '1' 'T' 'G', zeros 16)]) i :=
  ⟨_, _, _, (h _ _ _ _).1 _ _ served_of ⟨_, _, fits_of, okOr_eq (d := []) (by decide +kernel), by decide +kernel, by decide +kernel,
    by decide +kernel, by decide +kernel, by decide +kernel, serves_of, rfl⟩⟩
/-- R131, CMAC of 16 bytes. -/
theorem wit_mac_verify (h : MacCommandsComplete) :
    let i := request 0x0202 (keyA ++ elemBytes eMAC_ALG [6] ++ elemBytes eMAC_LEN [16] ++ elemBytes eDATA [0x31] ++ elemBytes eMAC (zeros 16))
    answers (.macVerify 0) (served i [(keyAttr 'M' '6' 'A' 'V', zeros 16)]) i :=
  ⟨_, _, _, (h _ _ _ _).2.1 _ _ served_of ⟨_, _, fits_of, okOr_eq (d := []) (by decide +kernel), by decide +kernel, by decide +kernel,
    by decide +kernel, by decide +kernel, by decide +kernel, serves_of, rfl⟩⟩
/-- The elements of an EMV command with this ARQC. -/
def emvElems (arqc : Bytes) : Bytes :=
  keyA ++ elemBytes ePAN (text "4123456789012345") ++ elemBytes ePSN [0] ++ elemBytes eATC [0, 1] ++ elemBytes eARQC arqc
/-- R135, with an AES issuer master key. -/
theorem wit_arqc_verify (h : MacCommandsComplete) :
    let i := request 0x0301 (emvElems (zeros 8) ++ elemBytes eTXN_DATA [1])
    answers (.arqcVerify 0) (served i [(keyAttr 'E' '0' 'A' 'X', zeros 16)]) i :=
  ⟨_, _, _, (h _ _ _ _).2.2.1 _ _ _ served_of ⟨_, fits_of, serves_of, by decide +kernel, rfl, by decide +kernel, by decide +kernel, rfl⟩⟩
/-- R136, where the ARQC does not match. -/
theorem wit_arqc_verify_arpc (h : MacCommandsComplete) :
    let i := request 0x0302 (emvElems (zeros 8) ++ elemBytes eTXN_DATA [1] ++ elemBytes eARPC_METHOD [1] ++ elemBytes eARC (zeros 2))
    answers (.arqcVerifyArpc 0) (served i [(keyAttr 'E' '0' 'T' 'X', zeros 16)]) i :=
  ⟨_, _, _, ((h _ _ _ _).2.2.2.1 _ _ _ served_of ⟨_, fits_of, serves_of, by decide +kernel, rfl, by decide +kernel, by decide +kernel,
    rfl⟩).2 (by decide +kernel)⟩
/-- R137, ARPC method 2. -/
theorem wit_arpc_generate (h : MacCommandsComplete) :
    let i := request 0x0303 (emvElems (zeros 8) ++ elemBytes eARPC_METHOD [2] ++ elemBytes eCSU (zeros 4))
    answers (.arpcGenerate 0) (served i [(keyAttr 'E' '0' 'T' 'X', zeros 16)]) i :=
  ⟨_, _, _, (h _ _ _ _).2.2.2.2.1 _ _ _ served_of ⟨_, fits_of, serves_of, by decide +kernel, rfl, by decide +kernel, by decide +kernel, rfl⟩⟩
/-- R139, at the first value of the context's counter. -/
theorem wit_arqc_generate (h : MacCommandsComplete) :
    let i := onCtx 0x0304 4 (ctxElem eCTX 4 ++ elemBytes eTXN_DATA [1])
    answers (.arqcGenerate 0) (boundTo (served i [(keyAttr 'E' '0' 'T' 'X', zeros 16)]) 4 []) i :=
  ⟨_, _, _, (h _ _ _ _).2.2.2.2.2 _ _ _ _ _ served_of fits_of names_of resolves_of (by decide +kernel) (by decide +kernel) gives_of⟩

/-- The first key serial number of a TDES device. -/
def ksn1 : Bytes := zeros 9 ++ [1]
/-- R142, with a format 0 block under the first PIN key. -/
theorem wit_dukpt_pin_translate (h : DukptCommandsComplete) :
    let b := [219, 27, 99, 73, 89, 113, 29, 41]
    let i := request 0x0401 (keyA ++ keyB ++ elemBytes eKSN ksn1 ++ elemBytes eFMT_IN [0] ++ elemBytes eFMT_OUT [0] ++
      elemBytes ePIN_BLOCK b ++ elemBytes ePAN (text "4123456789012345"))
    answers (.dukptPinTranslate 0) (served i [(keyAttr 'B' '0' 'T' 'X', zeros 16), (keyAttr 'P' '0' 'T' 'E', zeros 16)]) i :=
  ⟨_, _, _, (h _ _ _ _ _ _).1 _ _ _ _ _ served_of ⟨fits_of, by decide +kernel, serves_of, by decide +kernel, by decide +kernel⟩
    (by decide +kernel) (by decide +kernel) (by decide +kernel) serves_of (by decide +kernel) draws_none
    (getD_eq (d := []) (by decide +kernel))⟩
/-- R142, at the longest TDES MAC. -/
theorem wit_dukpt_mac_verify (h : DukptCommandsComplete) :
    let i := request 0x0402 (keyA ++ elemBytes eKSN ksn1 ++ elemBytes eDATA [1] ++ elemBytes eMAC (zeros 8) ++ elemBytes eMAC_LEN [8])
    answers (.dukptMacVerify 0) (served i [(keyAttr 'B' '0' 'T' 'X', zeros 16)]) i :=
  ⟨_, _, _, (h _ _ _ _ _ _).2.1 served_of ⟨fits_of, by decide +kernel, serves_of, by decide +kernel, by decide +kernel⟩
    (by decide +kernel) (by decide +kernel) (by decide +kernel)⟩
/-- R142, with an AES key and an AES working key. -/
theorem wit_dukpt_decrypt (h : DukptCommandsComplete) :
    let i := request 0x0403 (keyA ++ elemBytes eKSN (zeros 11 ++ [1]) ++ elemBytes eDK_ALG [2] ++ elemBytes eDATA (zeros 16) ++
      elemBytes eIV (zeros 16))
    answers (.dukptDecrypt 0) (served i [(keyAttr 'B' '0' 'A' 'X', zeros 16)]) i :=
  ⟨_, _, _, (h _ _ _ _ _ _).2.2.1 served_of ⟨fits_of, by decide +kernel, serves_of, by decide +kernel, by decide +kernel⟩
    (by decide +kernel)⟩
/-- A terminal's context at its first counter value, in the TDES scheme. -/
def terminal (i : Item) : State :=
  boundTo (served i [(keyAttr 'B' '1' 'T' 'X', zeros 16), (keyAttr 'P' '0' 'T' 'D', zeros 16)]) 5 (beBytes 8 1 ++ [1] ++ ksn1)
/-- R144, DK_USE 1. -/
theorem wit_dukpt_txn_pin (h : DukptCommandsComplete) :
    let i := onCtx 0x0404 5 (ctxElem eCTX 5 ++ elemBytes eDK_USE [1] ++ elemBytes eKEY_A [0, 0, 0, 3] ++ pinBlock)
    answers (.dukptTxnKey 0) (terminal i) i :=
  ⟨_, _, _, ((h _ _ _ _ _ _).2.2.2 _ _ _ served_of fits_of names_of (by decide +kernel) (by decide +kernel) (by decide +kernel)).2.2
    _ _ _ _ _ (by decide +kernel) (by decide +kernel) (by decide +kernel) serves_of resolves_of (by decide +kernel) draws_none
    gives_of (getD_eq (d := []) (by decide +kernel))⟩
/-- R144, DK_USE 2. -/
theorem wit_dukpt_txn_mac (h : DukptCommandsComplete) :
    let i := onCtx 0x0404 5 (ctxElem eCTX 5 ++ elemBytes eDK_USE [2] ++ elemBytes eDATA [1] ++ elemBytes eMAC_LEN [4])
    answers (.dukptTxnKey 0) (terminal i) i :=
  ⟨_, _, _, ((h _ _ _ _ _ _).2.2.2 _ _ _ served_of fits_of names_of (by decide +kernel) (by decide +kernel) (by decide +kernel)).1
    (by decide +kernel) resolves_of (by decide +kernel) (by decide +kernel) gives_of _ (getD_eq (d := []) (by decide +kernel))⟩
/-- R144, DK_USE 3. -/
theorem wit_dukpt_txn_data (h : DukptCommandsComplete) :
    let i := onCtx 0x0404 5 (ctxElem eCTX 5 ++ elemBytes eDK_USE [3] ++ elemBytes eDATA (zeros 8) ++ elemBytes eIV (zeros 8))
    answers (.dukptTxnKey 0) (terminal i) i :=
  ⟨_, _, _, ((h _ _ _ _ _ _).2.2.2 _ _ _ served_of fits_of names_of (by decide +kernel) (by decide +kernel) (by decide +kernel)).2.1
    (by decide +kernel) resolves_of (by decide +kernel) gives_of _ (getD_eq (d := []) (by decide +kernel))⟩

/-- R151. -/
theorem wit_tokenise (h : TokenCommandsComplete) :
    let i := request 0x0601 (keyA ++ elemBytes ePAN (text "4123456789012345") ++ elemBytes eKEEP [6, 4] ++ elemBytes eTWEAK [1])
    answers (.tokenise 0) (served i [(keyAttr 'D' '0' 'A' 'B', zeros 16)]) i :=
  ⟨_, _, _, (h _ _ _ _ _ _).1 served_of fits_of (by decide +kernel) serves_of⟩
theorem wit_detokenise (h : TokenCommandsComplete) :
    let i := request 0x0602 (keyA ++ elemBytes eTOKEN (text "4123456789012345") ++ elemBytes eKEEP [6, 4])
    answers (.detokenise 0) (served i [(keyAttr 'D' '0' 'A' 'D', zeros 16)]) i :=
  ⟨_, _, _, (h _ _ _ _ _ _).2.1 served_of fits_of (by decide +kernel) serves_of⟩
/-- R152, with the longest tweak of the host's. -/
theorem wit_tokenise_counted (h : TokenCommandsComplete) :
    let i := onCtx 0x0603 6 (keyA ++ ctxElem eCTX 6 ++ elemBytes ePAN (text "4123456789012345") ++ elemBytes eKEEP [0, 0] ++
      elemBytes eTWEAK (zeros 8))
    answers (.tokeniseCounted 0) (boundTo (served i [(keyAttr 'D' '0' 'A' 'E', zeros 16)]) 6 []) i :=
  ⟨_, _, _, (h _ _ _ _ _ _).2.2.1 _ _ _ served_of fits_of (by decide +kernel) names_of serves_of gives_of⟩
/-- R154, GCM and CBC. -/
theorem wit_data_encrypt_gcm (h : TokenCommandsComplete) :
    let i := onCtx 0x0604 7 (keyA ++ ctxElem eCTX 7 ++ elemBytes eCIPHER_MODE [2] ++ elemBytes eDATA [1] ++ elemBytes eAAD [2])
    answers (.dataEncrypt 0) (boundTo (served i [(keyAttr 'D' '0' 'A' 'E', zeros 16)]) 7 []) i :=
  ⟨_, _, _, ((h _ _ _ _ _ _).2.2.2.1 _ _ _ served_of fits_of (by decide +kernel) names_of serves_of (by decide +kernel) gives_of).1
    (by decide +kernel)⟩
theorem wit_data_encrypt_cbc (h : TokenCommandsComplete) :
    let i := onCtx 0x0604 7 (keyA ++ ctxElem eCTX 7 ++ elemBytes eCIPHER_MODE [1] ++ elemBytes eDATA (zeros 16))
    answers (.dataEncrypt 0) (boundTo (served i [(keyAttr 'D' '0' 'A' 'E', zeros 16)]) 7 []) i :=
  ⟨_, _, _, ((h _ _ _ _ _ _).2.2.2.1 _ _ _ served_of fits_of (by decide +kernel) names_of serves_of (by decide +kernel) gives_of).2
    (by decide +kernel)⟩
/-- R154: a tag that opens, one that does not, and CBC. -/
theorem wit_data_decrypt_gcm (h : TokenCommandsComplete) :
    let c := gcmSeal (aesEncK (aesKeys (zeros 16))) (zeros 12) [] [7]
    let i := request 0x0605 (keyA ++ elemBytes eCIPHER_MODE [2] ++ elemBytes eNONCE (zeros 12) ++ elemBytes eDATA c.1 ++ elemBytes eTAG c.2)
    answers (.dataDecrypt 0) (served i [(keyAttr 'D' '0' 'A' 'D', zeros 16)]) i :=
  ⟨_, _, _, ((h _ _ _ _ _ _).2.2.2.2 served_of fits_of (by decide +kernel) serves_of).1 _ (by decide +kernel)
    (getD_eq (d := []) (by decide +kernel))⟩
theorem wit_data_decrypt_refused (h : TokenCommandsComplete) :
    let i := request 0x0605 (keyA ++ elemBytes eCIPHER_MODE [2] ++ elemBytes eNONCE (zeros 12) ++ elemBytes eDATA [7] ++ elemBytes eTAG (zeros 16))
    answers (.dataDecrypt 0) (served i [(keyAttr 'D' '0' 'A' 'D', zeros 16)]) i :=
  ⟨_, _, _, ((h _ _ _ _ _ _).2.2.2.2 served_of fits_of (by decide +kernel) serves_of).2.1 (by decide +kernel) (by decide +kernel)⟩
theorem wit_data_decrypt_cbc (h : TokenCommandsComplete) :
    let i := request 0x0605 (keyA ++ elemBytes eCIPHER_MODE [1] ++ elemBytes eNONCE (zeros 12) ++ elemBytes eDATA (zeros 16))
    answers (.dataDecrypt 0) (served i [(keyAttr 'D' '0' 'A' 'D', zeros 16)]) i :=
  ⟨_, _, _, ((h _ _ _ _ _ _).2.2.2.2 served_of fits_of (by decide +kernel) serves_of).2.2 (by decide +kernel)⟩

theorem placed_of {u : State} {i : Item} {l : List Elem} {x : BlockKey} {body : Bytes}
    (h : ((activeTmk u i.tenant).isSome && (placeStatus u (elemNat l eKEY_CLASS) i.tenant x.bits.length).isNone &&
      (placeKey u (elemNat l eKEY_CLASS) i.tenant x.attr x.bits x.opt
        (if hasElem l eBIND_CTX then handleOf l eBIND_CTX else 0)).isSome) = true := by decide +kernel) :
    Placed u i l x body ((placeKey u (elemNat l eKEY_CLASS) i.tenant x.attr x.bits x.opt
      (if hasElem l eBIND_CTX then handleOf l eBIND_CTX else 0)).getD (0, u)).1
      (if hasElem l eBIND_CTX then ctxMake ((placeKey u (elemNat l eKEY_CLASS) i.tenant x.attr x.bits x.opt
        (if hasElem l eBIND_CTX then handleOf l eBIND_CTX else 0)).getD (0, u)).2 (handleOf l eBIND_CTX) i.tenant body
          ((placeKey u (elemNat l eKEY_CLASS) i.tenant x.attr x.bits x.opt
            (if hasElem l eBIND_CTX then handleOf l eBIND_CTX else 0)).getD (0, u)).1
       else ((placeKey u (elemNat l eKEY_CLASS) i.tenant x.attr x.bits x.opt
        (if hasElem l eBIND_CTX then handleOf l eBIND_CTX else 0)).getD (0, u)).2) := by
  simp only [Bool.and_eq_true, Option.isNone_iff_eq_none] at h
  exact ⟨h.1.1, h.1.2, _, getD_eq h.2, rfl⟩
theorem kcv_of {v : State} {x : BlockKey}
    (h : (decide (byteAt x.attr 2 = chr 'T') || decide (byteAt x.attr 2 = chr 'A')) = true := by decide +kernel) :
    Kcv v x (keyCheck (byteAt x.attr 2) x.bits 5) v := by
  simp only [Bool.or_eq_true, decide_eq_true_eq] at h
  rw [Kcv, if_pos h]
  exact ⟨rfl, rfl⟩
/-- A key of 16 bytes as a block brings it. -/
def inBlock (attr : Bytes) : BlockKey := { attr := attr.take 5 ++ [16, 0, 0], bits := List.replicate 16 1, opt := [] }
/-- AES blocks under a key of 16 zero bytes: of usage D0 and of usage B1. -/
def blockD0 : Bytes := elemBytes eKEYBLOCK
  (text "D0112D0AE00E000005DD1EA1A2D6A16062079041EC6EB6B1BB436AE914A2EFDC9AD4FD87531C71AE298BFB211F3194A54C0CEB224F1D58AA")
def blockB1 : Bytes := elemBytes eKEYBLOCK
  (text "D0112B1TX00E0000A6B53E0B24B39F565AB7BF13FC355886D8C59E3CC32ABE0E87A265F20D2A996B4EC52E05860ED08A8E171FB5664C06ED")
theorem opens_of {x : Except Nat BlockKey} (a : BlockKey)
    (h : (match x with | .ok b => decide (b = a) | .error _ => false) = true := by decide +kernel) : x = .ok a := by
  cases x with
  | ok b => rw [of_decide_eq_true h]
  | error _ => cases h
/-- R147. -/
theorem wit_key_export (h : KeyReadsComplete) :
    let i := request 0x0502 (elemBytes eHANDLE [0, 0, 0, 2] ++ keyB)
    answers (.keyExport 0) (served i [(keyAttr 'D' '0' 'T' 'E', zeros 16), (keyAttr 'K' '1' 'A' 'E', zeros 16)]) i :=
  ⟨_, _, _, (h _ _ _ _ _ _ _ _).1 _ _ served_of fits_of (by decide +kernel) resolves_of serves_of
    ⟨by decide +kernel, by decide +kernel, by decide +kernel⟩ draws_of⟩
/-- R149, at its longest and at its default. -/
theorem wit_key_check_value (h : KeyReadsComplete) :
    let i := request 0x0504 (elemBytes eHANDLE [0, 0, 0, 2] ++ elemBytes eKCV_LEN [5])
    answers (.keyCheckValue 0) (served i [(keyAttr 'D' '0' 'A' 'E', zeros 32)]) i :=
  ⟨_, _, _, (h _ _ _ _ [] _ State.reset State.reset).2.1 _ served_of fits_of (by decide +kernel) resolves_of (by decide +kernel)
    (by decide +kernel) (by decide +kernel)⟩
/-- R147: out of one AES block, into another. -/
theorem wit_key_translate (h : KeyReadsComplete) :
    let i := request 0x0506 (keyA ++ blockD0 ++ keyB)
    answers (.keyTranslate 0) (served i [(keyAttr 'K' '1' 'A' 'D', zeros 16), (keyAttr 'K' '1' 'A' 'E', zeros 16)]) i :=
  ⟨_, _, _, (h _ _ _ _ _ _ _ _).2.2 _ _ _ served_of fits_of serves_of serves_of (by decide +kernel)
    (opens_of (inBlock (keyAttr 'D' '0' 'A' 'E')))
    ⟨by decide +kernel, by decide +kernel, by decide +kernel⟩ (by rw [Draws, if_neg (by decide +kernel)]; exact words_of)⟩
/-- R150, into the key cache. -/
theorem wit_key_import (h : KeyChangesComplete) :
    let i := request 0x0501 (keyA ++ blockD0)
    commits (.keyImport 0) (served i [(keyAttr 'K' '1' 'A' 'D', zeros 16)]) i :=
  ⟨_, _, _, (h _ _ _ _ _ _ _ _ _).1 _ _ served_of fits_of ⟨by decide +kernel, by decide +kernel⟩ (by decide +kernel) serves_of
    (opens_of (inBlock (keyAttr 'D' '0' 'A' 'E'))) placed_of kcv_of⟩
/-- R141: a terminal's key and its context. -/
theorem wit_dukpt_init (h : KeyChangesComplete) :
    let i := onCtx 0x0405 5 (keyA ++ blockB1 ++ elemBytes eKSN ksn1 ++ ctxElem eBIND_CTX 5)
    commits (.dukptInit 0) (served i [(keyAttr 'K' '1' 'A' 'B', zeros 16)]) i :=
  ⟨_, _, _, (h _ _ _ _ _ _ _ _ _).2.1 _ _ served_of fits_of (by decide +kernel) ⟨by decide +kernel, by decide +kernel⟩
    (by decide +kernel) serves_of (opens_of (inBlock (keyAttr 'B' '1' 'T' 'X'))) (by decide +kernel)
    (by decide +kernel) (by decide +kernel) placed_of kcv_of⟩
/-- The specification of a generated AES key of 16 bytes. -/
def spec16 : Bytes := elemBytes eKEY_SPEC ((keyAttr 'D' '0' 'A' 'E').take 5 ++ [16, 0, 0])
/-- R148, without and with a block of the new key. -/
theorem wit_key_generate (h : KeyChangesComplete) :
    let i := request 0x0503 spec16
    commits (.keyGenerate 0) (served i []) i :=
  ⟨_, _, _, ((h _ _ _ _ _ [] State.reset _ _).2.2.1 _ served_of fits_of (by decide +kernel) (by decide +kernel)
    ⟨by decide +kernel, by decide +kernel⟩ (by decide +kernel)).1 (by decide +kernel) words_of placed_of⟩
theorem wit_key_generate_block (h : KeyChangesComplete) :
    let i := request 0x0503 (spec16 ++ keyB)
    commits (.keyGenerate 0) (served i [(keyAttr 'D' '0' 'A' 'E', zeros 16), (keyAttr 'K' '1' 'A' 'E', zeros 16)]) i :=
  ⟨_, _, _, ((h _ _ _ _ _ [] _ _ _).2.2.1 _ served_of fits_of (by decide +kernel) (by decide +kernel)
    ⟨by decide +kernel, by decide +kernel⟩ (by decide +kernel)).2 _ (by decide +kernel) serves_of words_of placed_of⟩
/-- R150. -/
theorem wit_key_delete (h : KeyChangesComplete) :
    let i := request 0x0505 (elemBytes eHANDLE [0, 0, 0, 2])
    commits (.keyDelete 0) (served i [(keyAttr 'D' '0' 'A' 'E', zeros 16)]) i :=
  ⟨_, _, _, (h _ _ _ _ 0 [] _ State.reset State.reset).2.2.2 _ served_of fits_of (by decide +kernel) (by decide +kernel)
    (.inl resolves_of) (by decide +kernel)⟩

theorem ends_answers {c : Instr} {s v : State} {i : Item} {r : EngRes} {done : EngOut → State} (h : EndsBy c s v i r done)
    (d : ∀ o, ∃ t st p, done o = endItem t i st p) : answers c s i := by
  rcases r with (st | _) | o
  · exact ⟨_, _, _, h.2.1 st rfl⟩
  · exact ⟨_, _, _, h.2.2 rfl⟩
  · obtain ⟨t, st, p, e⟩ := d o
    exact ⟨t, st, p, (h.1 o rfl).trans (congrArg _ e)⟩
theorem generated_ends {v : State} {i : Item} {l : List Elem} {id : Nat} {o : EngOut} {pub : Bytes} {es : List Elem} :
    ∃ t st p, generated v i l id o pub es = endItem t i st p := by
  unfold generated
  dsimp only
  split
  · exact ⟨_, _, _, rfl⟩
  · exact ⟨_, _, _, rfl⟩
/-- What holds of the value an option has holds whenever it has one. -/
theorem some_all {α : Type} {x : Option α} {P : α → Prop} (z : α) (hx : x.isSome = true) (h : P (x.getD z)) : ∀ y, x = some y → P y := by
  intro y e
  subst e
  exact h
/-- Two primes of 1,024 bits, as a key with the exponent 65,537. -/
def rsaKey : RsaKey :=
  let p := 2 ^ 1024 - 179
  let q := 2 ^ 1024 - 1397
  { p := p, q := q, dp := (invMod 65537 (p - 1)).getD 0, dq := (invMod 65537 (q - 1)).getD 0, qi := (invMod q p).getD 0 }
/-- Slot 2 holds it. -/
def servedRsa (i : Item) (attr : Bytes) : State :=
  let s := served i [(attr, rsaBytes 128 rsaKey)]
  { s with keys := oset s.keys 2 ((oget s.keys 2).map fun k => { k with opt := beBytes 32 65537 }) }
/-- An EC key with a named curve. -/
def ecAttr (u v m : Char) (curve : Nat) : Bytes := (keyAttr u v 'E' m).take 5 ++ [0] ++ beBytes 2 curve
/-- R263, R267: PKCS #1. -/
theorem wit_pk_sign_rsa (h : PkCommandsComplete) :
    let i := request 0x0801 (keyA ++ elemBytes ePK_ALG [1] ++ elemBytes eHASH_ALG [1] ++ elemBytes eDIGEST (zeros 32))
    answers (.pkSign 0) (servedRsa i (keyAttr 'S' '0' 'R' 'S')) i :=
  ends_answers (((h _ _ _ _ _ _ _ _).1 served_of fits_of (by unfold DigestStands; decide +kernel) (by decide +kernel) resolves_of
    (by decide +kernel) (by decide +kernel) (by decide +kernel) words_of).1 (by decide +kernel) (by unfold EngineTakes; decide +kernel)
    (by decide +kernel) (by decide +kernel)) fun _ => ⟨_, _, _, rfl⟩
/-- R259: ECDSA over P-256. -/
theorem wit_pk_sign_ec (h : PkCommandsComplete) :
    let i := request 0x0801 (keyA ++ elemBytes ePK_ALG [3] ++ elemBytes eHASH_ALG [1] ++ elemBytes eDIGEST (zeros 32))
    answers (.pkSign 0) (served i [(ecAttr 'S' '0' 'S' 1, beBytes 32 1)]) i :=
  ends_answers (((h _ _ _ _ _ _ _ _).1 served_of fits_of (by unfold DigestStands; decide +kernel) (by decide +kernel) resolves_of
    (by decide +kernel) (by decide +kernel) (by decide +kernel) words_of).2.1 curveP256 (by decide +kernel)
    (by unfold EngineTakes; decide +kernel) (by decide +kernel)) fun _ => ⟨_, _, _, rfl⟩
/-- R260: Ed25519. -/
theorem wit_pk_sign_ed (h : PkCommandsComplete) :
    let i := request 0x0801 (keyA ++ elemBytes ePK_ALG [4] ++ elemBytes eDATA [1])
    answers (.pkSign 0) (served i [(ecAttr 'S' '0' 'S' idED, zeros 32)]) i :=
  ends_answers (((h _ _ _ _ _ _ _ _).1 served_of fits_of (by unfold DigestStands; decide +kernel) (by decide +kernel) resolves_of
    (by decide +kernel) (by decide +kernel) (by decide +kernel) words_of).2.2 (by decide +kernel)
    (by unfold EngineTakes; decide +kernel)) fun _ => ⟨_, _, _, rfl⟩
/-- R267: the read form. -/
theorem wit_pk_verify_read (h : PkCommandsComplete) :
    let i := request 0x0802 keyA
    answers (.pkVerify 0) (served i [(ecAttr 'S' '0' 'S' idED, zeros 32)]) i :=
  ⟨_, _, _, ((h _ _ _ _ _ [] _ State.reset).2.1 served_of fits_of).1 _ (by decide +kernel) (by decide +kernel)
    (by decide +kernel) resolves_of (by decide +kernel) (getD_eq (d := []) (by decide +kernel))⟩
/-- R263: an RSA signature that does not verify, with the least exponent. -/
theorem wit_pk_verify_rsa (h : PkCommandsComplete) :
    let i := request 0x0802 (elemBytes ePK_ALG [2] ++ elemBytes eHASH_ALG [1] ++ elemBytes eDIGEST (zeros 32) ++
      elemBytes eSIGNATURE (zeros 255 ++ [2]) ++ elemBytes eMODULUS (beBytes 256 rsaKey.n) ++ elemBytes ePUB_EXP [3])
    answers (.pkVerify 0) (served i []) i :=
  ⟨_, _, _, (((h _ _ _ _ noKey [] State.reset State.reset).2.1 served_of fits_of).2 _ _ (by decide +kernel)
    (by unfold DigestStands; decide +kernel) (by decide +kernel) (by decide +kernel) rfl rfl (by decide +kernel) (by decide +kernel)
    (by decide +kernel) (by decide +kernel) (by decide +kernel) (by decide +kernel) (by unfold EngineTakes; decide +kernel)).2
    (by decide +kernel)⟩
/-- R268. -/
theorem wit_pk_ecdh (h : PkCommandsComplete) :
    let i := request 0x0803 (keyA ++ elemBytes ePOINT (pointBytes curveP256 (curveP256.gx, curveP256.gy)) ++ keyB ++ spec16)
    answers (.pkEcdh 0) (served i [(ecAttr 'K' '3' 'X' 1, beBytes 32 1), (keyAttr 'K' '1' 'A' 'E', zeros 16)]) i :=
  ends_answers ((h _ _ _ _ _ _ _ _).2.2.1 _ curveP256 _ served_of fits_of
    (some_all noKey (by decide +kernel) (some_all curveP256 (by decide +kernel) (by decide +kernel)))
    (by decide +kernel) (by decide +kernel) serves_of
    (by decide +kernel) resolves_of (by decide +kernel) (by decide +kernel) _ words_of (by unfold EngineTakes; decide +kernel)
    (by decide +kernel) (by decide +kernel) (getD_eq (d := (0, 0)) (by decide +kernel))) fun _ => ⟨_, _, _, rfl⟩
/-- R263, R269: a ciphertext of the modulus's length. -/
theorem wit_pk_rsa_decrypt (h : PkCommandsComplete) :
    let i := request 0x0805 (keyA ++ elemBytes ePK_ALG [5] ++ elemBytes eHASH_ALG [1] ++ elemBytes eCIPHERTEXT (zeros 255 ++ [1]))
    answers (.pkRsaDecrypt 0) (servedRsa i (keyAttr 'D' '1' 'R' 'D')) i :=
  ends_answers ((h _ _ _ _ _ _ _ _).2.2.2 served_of fits_of (by decide +kernel) (by decide +kernel) (by decide +kernel)
    (some_all noKey (by decide +kernel) (by decide +kernel)) (by decide +kernel) resolves_of (by decide +kernel) words_of
    (by unfold EngineTakes; decide +kernel) (by decide +kernel) (by decide +kernel)) fun _ => by
      split
      · split <;> exact ⟨_, _, _, rfl⟩
      · exact ⟨_, _, _, rfl⟩
/-- A specification of an asymmetric key. -/
def pkSpec (u v a m : Char) : Bytes := elemBytes eKEY_SPEC ((keyAttr u v a m).take 5 ++ [0, 0, 0])
/-- R269: RSA. -/
theorem wit_pk_keygen_rsa (h : PkChangesComplete) :
    let i := request 0x0804 (pkSpec 'S' '0' 'R' 'S' ++ elemBytes eRSA_BITS [8, 0])
    answers (.pkKeygen 0) (served i []) i :=
  ends_answers (((h _ _ _ _ _ _).1 served_of fits_of (by decide +kernel) (by decide +kernel) (by decide +kernel) words_of).1
    (by decide +kernel) (by decide +kernel) (by decide +kernel) (by decide +kernel) (by decide +kernel) (by decide +kernel)
    (by unfold EngineTakes; decide +kernel)) fun _ => generated_ends
/-- R269: Ed25519. -/
theorem wit_pk_keygen_ed (h : PkChangesComplete) :
    let i := request 0x0804 (pkSpec 'S' '0' 'E' 'S' ++ elemBytes eCURVE_ID (beBytes 2 idED))
    answers (.pkKeygen 0) (served i []) i :=
  ends_answers (((h _ _ _ _ _ _).1 served_of fits_of (by decide +kernel) (by decide +kernel) (by decide +kernel) words_of).2.1
    (by decide +kernel) (by decide +kernel) (by decide +kernel) (by decide +kernel)
    (by unfold EngineTakes; decide +kernel)) fun _ => generated_ends
/-- R269: P-521. -/
theorem wit_pk_keygen_ec (h : PkChangesComplete) :
    let i := request 0x0804 (pkSpec 'K' '3' 'E' 'X' ++ elemBytes eCURVE_ID [0, 3])
    answers (.pkKeygen 0) (served i []) i :=
  ends_answers (((h _ _ _ _ _ _).1 served_of fits_of (by decide +kernel) (by decide +kernel) (by decide +kernel) words_of).2.2
    curveP521 (by decide +kernel) (by decide +kernel) (by decide +kernel) (by decide +kernel)
    (by unfold EngineTakes; decide +kernel) (by decide +kernel)) fun _ => generated_ends
/-- The parameters of P-256 as a load gives them. -/
def p256Params : Bytes :=
  let c := curveP256
  beBytes 2 32 ++ beBytes 32 c.p ++ beBytes 32 c.a ++ beBytes 32 c.b ++ beBytes 32 c.gx ++ beBytes 32 c.gy ++
    beBytes 32 c.n ++ [1]
/-- R262: the last number of a tenant's table. -/
theorem wit_pk_curve_load (h : PkChangesComplete) :
    let i := request 0x0806 (elemBytes eCURVE_ID [1, 15] ++ elemBytes eCURVE_PARAMS p256Params)
    answers (.pkCurveLoad 0) (served i []) i :=
  ends_answers (((h _ _ _ _ _ _).2 served_of fits_of (by decide +kernel) (by decide +kernel) (by decide +kernel)
    (by decide +kernel)).2 (by decide +kernel) words_of (by unfold EngineTakes; decide +kernel)) fun _ => ⟨_, _, _, rfl⟩
/-- R262: the entry stands already. -/
theorem wit_pk_curve_load_again (h : PkChangesComplete) :
    let i := request 0x0806 (elemBytes eCURVE_ID [1, 0] ++ elemBytes eCURVE_PARAMS p256Params)
    answers (.pkCurveLoad 0) (putCurve (served i []) 0 (some (paramsEntry p256Params))) i :=
  ⟨_, _, _, ((h _ _ _ _ [] State.reset).2 served_of fits_of (by decide +kernel) (by decide +kernel) (by decide +kernel)
    (by decide +kernel)).1 _ (getD_eq (d := paramsEntry p256Params) (by decide +kernel)) (by decide +kernel)⟩

/-! ## Stand-in, ledger, device and session commands that complete -/

/-- Some next state. -/
abbrev goesOn (c : Instr) (s : State) : Prop := ∃ t, exec c s = .next t
/-- R161: the query and the two changes, the period at its least. -/
theorem wit_si_issuer_state (h : StandInCommandsComplete) :
    let i := fun (x : Byte) => request 0x0902 (elemBytes 0x1101 [x] ++ elemBytes 0x1102 [0, 0, 0, 10])
    answers (.siIssuerState 0) (served (i 0) []) (i 0) ∧ answers (.siIssuerState 0) (served (i 1) []) (i 1) ∧
      answers (.siIssuerState 0) (served (i 2) []) (i 2) :=
  ⟨⟨_, _, _, ((h _ _ _ _ (by decide +kernel)).1 0 served_of fits_of (.inl (by decide +kernel)) (by decide +kernel)).1 (by decide +kernel)⟩,
    ⟨_, _, _, ((h _ _ _ _ (by decide +kernel)).1 0 served_of fits_of (.inl (by decide +kernel)) (by decide +kernel)).2.1 (by decide +kernel)⟩,
    ⟨_, _, _, ((h _ _ _ _ (by decide +kernel)).1 0 served_of fits_of (.inl (by decide +kernel)) (by decide +kernel)).2.2 (by decide +kernel)⟩⟩
/-- R161: tenant 0 for itself by name. -/
theorem wit_si_heartbeat (h : StandInCommandsComplete) :
    let i := request 0x0907 (elemBytes 0x1103 [0, 0])
    answers (.siHeartbeat 0) (served i []) i :=
  ⟨_, _, _, (h _ _ _ _ (by decide +kernel)).2.1 0 served_of fits_of (.inr (by decide +kernel))⟩
/-- R174: as many entries as a read may name. -/
theorem wit_si_journal_read (h : StandInCommandsComplete) :
    let i := request 0x0903 (keyA ++ elemBytes 0x1108 (zeros 8) ++ elemBytes 0x110E [0, 128])
    answers (.siJournalRead 0) (served i [(keyAttr 'M' '6' 'A' 'C', zeros 16)]) i :=
  ⟨_, _, _, (h _ _ _ _ (by decide +kernel)).2.2.1 _ _ served_of fits_of (by decide +kernel) (by decide +kernel) serves_of⟩
/-- R174. -/
theorem wit_si_journal_release (h : StandInCommandsComplete) :
    let i := request 0x0904 (elemBytes 0x1108 (zeros 8))
    commits (.siJournalRelease 0) (served i []) i :=
  ⟨_, _, _, (h _ _ _ _ (by decide +kernel)).2.2.2.1 served_of fits_of⟩
/-- R163, R168: the last rule set, its windows off, and a key zone. -/
theorem wit_si_rules_load (h : StandInCommandsComplete) :
    let i := request 0x0905 (elemBytes 0x1109 [3, 255] ++ elemBytes 0x110A (zeros 64))
    let j := request 0x0905 (elemBytes 0x110B [255] ++ elemBytes 0x110C [0, 0, 0, 2, 2, 0, 0, 0])
    commits (.siRulesLoad 0) (served i []) i ∧ commits (.siRulesLoad 0) (served j [(keyAttr 'E' '0' 'A' 'X', zeros 16)]) j :=
  ⟨⟨_, _, _, ((h _ _ _ _ (by decide +kernel)).2.2.2.2.1 served_of fits_of).1 (by decide +kernel) (by decide +kernel) (by decide +kernel)⟩,
    ⟨_, _, _, ((h _ _ _ _ (by decide +kernel)).2.2.2.2.1 served_of fits_of).2 _ _ (by decide +kernel) (by decide +kernel)
      (by decide +kernel) resolves_of (by decide +kernel) (by decide +kernel) (by decide +kernel)⟩⟩
/-- The card 4123456789012345, PSN 0. -/
def card : Bytes := elemBytes ePAN (text "4123456789012345") ++ elemBytes ePSN [0]
/-- R162: a card's record made, and changed. -/
theorem wit_si_card_update (h : StandInCommandsComplete) :
    let i := onCtx 0x0906 8 (elemBytes eBIND_CTX (beBytes 4 (ctxOf 8).toNat) ++ card)
    let j := onCtx 0x0906 8 (ctxElem eCTX 8 ++ card ++ elemBytes 0x110D [1, 1, 0, 9, 0, 0, 0, 0])
    commits (.siCardUpdate 0) (served i []) i ∧
      commits (.siCardUpdate 0) (boundTo (served j []) 8 (panBcd (text "4123456789012345") ++ [0])) j :=
  ⟨⟨_, _, _, ((h _ _ _ _ (by decide +kernel)).2.2.2.2.2.1 served_of fits_of (by decide +kernel)).1 (by decide +kernel)
      (by decide +kernel)⟩,
    ⟨_, _, _, ((h _ _ _ _ (by decide +kernel)).2.2.2.2.2.1 served_of fits_of (by decide +kernel)).2 _ (by decide +kernel) names_of
      (by decide +kernel)⟩⟩
/-- An authorisation of 1 unit on that card. -/
def authorise : Bytes := elemBytes ePAN (text "4123456789012345") ++ elemBytes 0x1104 (beBytes 8 1) ++ elemBytes 0x1105 [8, 0x40]
/-- Rule set 1 of tenant 0: currency 840, one approval, an amount of 1. -/
def ruleSet1 : Bytes := [8, 0x40, 0, 1] ++ zeros 4 ++ beBytes 8 1 ++ zeros 48
/-- The prefix 41 routed to that rule set. -/
def routed (s : State) : State :=
  { inState s [(.tri, stRunning)] with
    tri := { s.tri with active := [(41, BitVec.ofNat 64 (2 ^ 62 + 2 ^ 12 + 1))] }, rules := [(1, some ruleSet1)] }
theorem if_then {c P Q : Prop} [Decidable c] (h : c) (p : P) : if c then P else Q := by
  rw [if_pos h]
  exact p
theorem if_else {c P Q : Prop} [Decidable c] (h : ¬ c) (q : Q) : if c then P else Q := by
  rw [if_neg h]
  exact q
/-- R169, R170: a prefix without a route. -/
theorem wit_si_no_route (h : StandInCommandsComplete) :
    commits (.siAuthorise 0) (served (request 0x0901 authorise) []) (request 0x0901 authorise) := by
  obtain ⟨v, -, -, -, e⟩ := ((h (served (request 0x0901 authorise) []) 0 (request 0x0901 authorise) _ (by decide +kernel)).2.2.2.2.2.2
    0 served_of fits_of (by decide +kernel) (by decide +kernel) (.inl (by decide +kernel)) (by decide +kernel) (by decide +kernel) none
    (if_else (by decide +kernel) rfl)).2 (.inl (by decide +kernel)) (by decide +kernel) (by decide +kernel)
  exact ⟨_, _, _, e (by decide +kernel)⟩
/-- R169: an issuer that is reachable. -/
theorem wit_si_reachable (h : StandInCommandsComplete) :
    commits (.siAuthorise 0) (routed (served (request 0x0901 authorise) [])) (request 0x0901 authorise) :=
  ⟨_, _, _, ((h _ _ _ _ (by decide +kernel)).2.2.2.2.2.2 0 served_of fits_of (by decide +kernel) (by decide +kernel)
    (.inl (by decide +kernel)) (by decide +kernel) (by decide +kernel) none (if_else (by decide +kernel) rfl)).1 (by decide +kernel)
    (by decide +kernel)⟩
/-- The same on a card's record, the issuer being unreachable. -/
def cardState : State :=
  setIssuer (boundTo (routed (served (onCtx 0x0901 8 (authorise ++ ctxElem eCTX 8)) [])) 8 (panBcd (text "4123456789012345") ++ [0])) 0 false 1
/-- R170 to R172: the one approval that the rules allow. -/
theorem wit_si_approve (h : StandInCommandsComplete) :
    commits (.siAuthorise 0) cardState (onCtx 0x0901 8 (authorise ++ ctxElem eCTX 8)) := by
  obtain ⟨v, -, -, e, -⟩ := ((h cardState 0 (onCtx 0x0901 8 (authorise ++ ctxElem eCTX 8)) _ (by decide +kernel)).2.2.2.2.2.2
    0 served_of fits_of (by decide +kernel) (by decide +kernel) (.inl (by decide +kernel)) (by decide +kernel) (by decide +kernel)
    (some ((ctxNamed cardState (ctxOf 8)).getD Ctx.free))
    (if_then (by decide +kernel) ⟨_, rfl, ⟨by decide +kernel, by decide +kernel, by decide +kernel⟩, by decide +kernel⟩)).2
    (.inr (by decide +kernel)) (by decide +kernel) (by decide +kernel)
  exact ⟨_, _, _, e (by decide +kernel)⟩

/-- LSCALE without scales, rounded as code 0. -/
def scale0 : Bytes := elemBytes eLSCALE (zeros 4)
/-- A number as an element. -/
def dec (e : Nat) (v : Int) : Bytes := elemBytes e (decPack 4 v)
/-- A ledger key in slot 2. -/
def ldgKey : Bytes × Bytes := (keyAttr '5' '2' 'A' 'C', zeros 16)
/-- An account of 5 with the floor 0, in context 1. -/
def account (s : State) : State := boundTo s 9 (acctBody 5 0 0 0 1)
/-- R281: a sum, a comparison, and a balance read. -/
theorem wit_ldg_calc (h : LedgerCommandsComplete) :
    let i := fun (x : Byte) => request 0x0A01 (keyA ++ elemBytes eLOP [x] ++ dec eDEC_A 1 ++ dec eDEC_B (-1) ++ scale0)
    let j := onCtx 0x0A01 9 (keyA ++ elemBytes eLOP [7] ++ ctxElem eCTX 9)
    answers (.ldgCalc 0) (served (i 1) [ldgKey]) (i 1) ∧ answers (.ldgCalc 0) (served (i 5) [ldgKey]) (i 5) ∧
      answers (.ldgCalc 0) (account (served j [ldgKey])) j :=
  ⟨⟨_, _, _, (((h _ _ _ _ _ _ _ (by decide +kernel)).1 served_of (by decide +kernel) serves_of fits_of).1 (by decide +kernel)
      (by unfold EngineTakes; decide +kernel) (getD_eq (d := 0) (by decide +kernel))).2 (by decide +kernel)⟩,
    ⟨_, _, _, (((h _ _ _ _ _ _ _ (by decide +kernel)).1 served_of (by decide +kernel) serves_of fits_of).1 (by decide +kernel)
      (by unfold EngineTakes; decide +kernel) (getD_eq (d := 0) (by decide +kernel))).1 (by decide +kernel)⟩,
    ⟨_, _, _, ((h _ _ _ _ _ _ 0 (by decide +kernel)).1 served_of (by decide +kernel) serves_of fits_of).2 _ (by decide +kernel) names_of⟩⟩
/-- R282, R283: an accrual over the most days. -/
theorem wit_ldg_accrue (h : LedgerCommandsComplete) :
    let i := request 0x0A02 (keyA ++ dec eDEC_A 1 ++ dec eDEC_B 1 ++ elemBytes eDAYS (beBytes 2 36600) ++ elemBytes eBASIS [3] ++ scale0)
    answers (.ldgAccrue 0) (served i [ldgKey]) i :=
  ⟨_, _, _, (h _ _ _ _ _ _ _ (by decide +kernel)).2.1 served_of (by decide +kernel) serves_of fits_of
    (by unfold EngineTakes; decide +kernel) (getD_eq (d := 0) (by decide +kernel))⟩
/-- R284, R285: an account opened at its floor, and one posted down to its floor. -/
theorem wit_ldg_post (h : LedgerCommandsComplete) :
    let i := onCtx 0x0A03 9 (keyA ++ dec eDEC_A 0 ++ scale0 ++ elemBytes eBIND_CTX (beBytes 4 (ctxOf 9).toNat))
    let j := onCtx 0x0A03 9 (keyA ++ dec eDEC_A (-5) ++ scale0 ++ ctxElem eCTX 9)
    commits (.ldgPost 0) (served i [ldgKey]) i ∧ commits (.ldgPost 0) (account (served j [ldgKey])) j :=
  ⟨⟨_, _, _, ((h _ _ _ _ _ _ _ (by decide +kernel)).2.2 served_of (by decide +kernel) serves_of fits_of).1 (by decide +kernel)
      (by decide +kernel) (by unfold EngineTakes; decide +kernel) (getD_eq (d := 0) (by decide +kernel)) (by decide +kernel)⟩,
    ⟨_, _, _, ((h _ _ _ _ _ _ _ (by decide +kernel)).2.2 served_of (by decide +kernel) serves_of fits_of).2 _ (by decide +kernel)
      names_of (by decide +kernel) (by decide +kernel) (by unfold EngineTakes; decide +kernel) (getD_eq (d := 0) (by decide +kernel))
      (by decide +kernel)⟩⟩
/-- R211, R417. -/
theorem wit_dev_reads (h : DeviceCommandsComplete) :
    let i := request 0x0F01 (elemBytes 0x1202 (zeros 32))
    let j := request 0x0F02 []
    answers (.devAttest 0) (served i []) i ∧ answers (.devStatus 0) (served j []) j := by
  refine ⟨⟨_, _, _, (h _ _ _ _).1 _ _ served_of (okOr_eq (d := []) (by decide +kernel)) (by decide +kernel) (by decide +kernel) words_of⟩, ?_⟩
  obtain ⟨e, x⟩ := (h (served (request 0x0F02 []) []) 0 (request 0x0F02 []) _).2.1 served_of (okOr_eq (d := []) (by decide +kernel))
  exact ⟨_, _, _, x⟩
/-- A locked device with the custodians 0 and 7, both of the private key 1. -/
def lockedState (i : Item) : State :=
  let c := fun (n : Nat) => ({
    typ := 3, felled := false, tenant := 0, index := n, gen := 0, parent := 0, parentGen := 0, attr := zeros 8, wseq := 0
    wrap0 := [], wrap1 := [], pub := 3 :: beBytes 48 curveP384.gx, tag := [], len := 0, opt := [], bound := 0 } : Rec)
  writeRec (writeRec { served i [] with devLocked := true } 1 (c 0)) 2 (c 7)
/-- DEV_UNLOCK signed by both. -/
def unlock : Bytes :=
  let sig := ecdsaBytes curveP384 1 2 (unlockDigest State.reset)
  elemBytes 0x1501 (beBytes 8 0) ++ elemBytes 0x1502 (logHead State.reset) ++ elemBytes 0x1503 (0 :: sig) ++ elemBytes 0x1503 (7 :: sig)
/-- R419. -/
theorem wit_dev_unlock (h : DeviceCommandsComplete) :
    commits (.devUnlock 0) (lockedState (request 0x0F06 unlock)) (request 0x0F06 unlock) := by
  obtain ⟨t, -, e⟩ := (h (lockedState (request 0x0F06 unlock)) 0 (request 0x0F06 unlock) _).2.2
    served_of (okOr_eq (d := []) (by decide +kernel)) (by decide +kernel) (by decide +kernel)
    (by decide +kernel) (by decide +kernel) (by decide +kernel) (by decide +kernel) (by decide +kernel) (by decide +kernel)
    (by decide +kernel) (.inr ⟨_, _, fst_some (d := []) (by decide +kernel)⟩)
  exact ⟨_, _, _, e⟩
/-- R93 to R95, R99: a HELLO and a REKEY on P-256. -/
theorem wit_hello (h : HelloCommandsComplete) :
    goesOn (.sessionHello 0) (sessionState 0x0E01 helloElems5 open5) ∧
      commits (.sessionRekey 0) (sessionState 0x0E04 helloElems5 open5) (request 0x0E04 helloElems5) :=
  ⟨⟨_, (h (sessionState 0x0E01 helloElems5 open5) 0 (request 0x0E01 helloElems5) (some 0) _ _ (curveP256.gx, curveP256.gy) _ _ _ _
      ⟨by decide +kernel, by decide +kernel, okOr_eq (d := (curveP256, [])) (by decide +kernel), by decide +kernel, by decide +kernel,
        by decide +kernel, by decide +kernel, ⟨_, fst_ok (d := (curveP256, (0, 0))) (by decide +kernel)⟩, words_of, by decide +kernel,
        by decide +kernel⟩).1 served_of (.inr ⟨by decide +kernel, 0, rfl, by decide +kernel⟩)
      (getD_eq (d := { id := 0, state := State.reset, payload := [] }) (by decide +kernel))⟩,
    ⟨_, _, _, (h (sessionState 0x0E04 helloElems5 open5) 0 (request 0x0E04 helloElems5) none _ _ (curveP256.gx, curveP256.gy) _ _ _ _
      ⟨by decide +kernel, by decide +kernel, okOr_eq (d := (curveP256, [])) (by decide +kernel), by decide +kernel, by decide +kernel,
        by decide +kernel, by decide +kernel, ⟨_, fst_ok (d := (curveP256, (0, 0))) (by decide +kernel)⟩, words_of, by decide +kernel,
        by decide +kernel⟩).2 open5 _ served_of (by decide +kernel) rfl
      (getD_eq (d := { id := 0, state := State.reset, payload := [] }) (by decide +kernel))
      (getD_eq (d := open5) (by decide +kernel))⟩⟩

/-! ## Premises on masters, pages and units -/

/-- The control complex acts out of reset and not once halted; control core 0 reaches a page, control SRAM, a 64-bit register pair
and what no map holds; and a user-mode access and a debug access have their masters. -/
theorem wit_masters :
    ComplexActs State.reset ∧ ¬ ComplexActs { State.reset with chipFault := some 2 } ∧ Unarmed State.reset (.sch 0) ∧
      ¬ Unarmed (State.reset.setAux (.sch 0) { PageAux.empty with inject := some .parity }) (.sch 0) ∧
      Reaches State.reset (.core 0 none) .read 0xF1021011 1 ∧ Reaches State.reset (.core 0 none) .write 0x107FFFFC 4 ∧
      Reaches State.reset (.core 0 none) .write 0xF1021020 8 ∧ Reaches State.reset (.core 0 none) .write 0x1400000000 4 ∧
      Reaches (inState State.reset [(.hbc, stRunning)]) (.core 0 none) .write 0x1000000000 4 ∧
      masterPriv (.core 0 none) = true ∧ masterPriv (.core 0 (some 0)) = false ∧ masterPriv .debug = false ∧
      masterRuns State.reset (.core 0 (some 0)) = true ∧ pageOfAddr (pageBase (.pmc 0)) = some (.pmc 0) := by
  unfold ComplexActs Unarmed Reaches; decide +kernel
/-- R375: a protection unit that has failed turns an access away. -/
theorem wit_refused :
    let s := inState State.reset [(.mpu 0, stFailed)]
    (match pageReach s (.core 0 none) .write (pageOfAddr 0xF1021020) 0xF1021020 4 with
      | .ok _ => false
      | .error _ => true) = true := by decide +kernel
/-- A test needs a stopped page and TEST_EN; a running page refuses it (R48, R54). -/
theorem wit_tests :
    ComplexActs State.reset ∧ live State.reset (.cph 0 0) = true ∧ stateOf State.reset (.cph 0 0) = stOff ∧
      State.reset.flag (.cph 0 0) CTRL_TEST_EN = false ∧
      (State.reset.setFlag (.cph 0 0) CTRL_TEST_EN true).flag (.cph 0 0) CTRL_TEST_EN = true ∧
      stateOf (inState State.reset [(.pke 0 0, stRunning)]) (.pke 0 0) = stRunning ∧ stRunning ≠ stOff ∧ stRunning ≠ stStopped := by
  unfold ComplexActs; decide +kernel
/-- A lane that is free with a job in its queue, one that is not free, and one whose region waits to seal an answer (R230). -/
theorem wit_lanes :
    let s := laneState (.cph 0 0) none []
    let q := s.setQueue 0 .cipher [job0 .cipher (desc0 0x00 3 16 0x100)]
    s.seals 0 = [] ∧ laneReady q (.cph 0 0) = true ∧ (takeJob q (.cph 0 0) (fun _ => true)).isSome = true ∧
      laneReady State.reset (.cph 0 0) = false ∧ Unarmed s (.cph 0 0) ∧ live s (.cph 0 0) = true ∧
      laneReady (laneState (.pke 0 0) none []) (.pke 0 0) = true ∧ odmGrants (laneState (.pke 0 0) none []) 0 = true ∧
      pickJob (laneState (.pke 0 0) none []) 0 .engine (fun _ => true) = none ∧
      (cipherCheck s 0 (job0 .cipher (desc0 0x00 3 16 0x100))).1.toOption = none := by
  unfold Unarmed; decide +kernel

/-- The worked example's words, from 0x8000 on (12_kreur_instruction_set.md). -/
theorem test_worked_example_words :
    (([.lit8 0 0 false 0, .lit16 0 0 false 0x0100, .lit8 0 0 false 4, .tor 0 0 false, .dup 0 0 false, .ld 0 0 false, .over 0 0 false,
      .addi 0 0 false 8, .ld 0 0 false, .xor 0 0 false, .rot 0 0 false, .or 0 0 false, .swap 0 0 false, .addi 0 0 false 2,
      .loop 0 0 false 0x8005, .drop 0 0 false, .eqz 0 0 false 1, .lit16 0 1 true 0x0606, .lit8 0 1 false 0] : List Instr).map
        kreurWords).flatten =
      [0x0600, 0x06FF, 0x0100, 0x0604, 0x0900, 0x0001, 0x0700, 0x0004, 0x0188, 0x0700, 0x0106, 0x0005, 0x0105, 0x0003, 0x0182,
        0x0882, 0x8005, 0x0002, 0x0451, 0x36FF, 0x0606, 0x2600] ∧
      spells [0x36FF, 0x0606, 0x2600] (.lit16 0 1 true 0x0606) = true ∧ kFields 0x36FF = (1, true, 6, 0xFF) := by decide +kernel

end Sys2Proof.Tests
end

/-! # The Kreur instruction set: stack class, shifts, bit fields, false guards (R307 to R315)

The rules of a task that may run an instruction come first, each the frozen `kRun` rule with the claims' own premises;
then what each form of operand does; then the four statements. -/

namespace Sys2Proof.Machine
open Sys2Proof.Claims

/-! ## A ready task runs one instruction -/

section Ready
variable {s : State} {k g : Nat} {sense : Bool} {len cyc : Nat} {i : Item} {illegal : Bool}

/-- An open guard lets an instruction on the core alone have its effect. -/
theorem kPure_of_ok {f : Item → Core → KRes} {c' : Core} (hr : TaskReady s k i) (hg : GuardOpen (s.core k) g sense)
    (hf : f i (passed (s.core k) len cyc) = .ok c') :
    kPure s k g sense len cyc false f = .next (s.setCore k c') := by
  obtain ⟨hi, hrun, hw, hfetch, hn⟩ := hr
  have hne : passed (s.core k) len cyc ≠ Core.empty := by
    obtain ⟨n, hn, -⟩ := Option.bind_eq_some_iff.1 hi
    exact Core.ne_empty_of_run (c := passed (s.core k) len cyc) hn
  rw [kPure, kRun_open hn hi hrun hw hfetch hg.1 hg.2 (c' := passed (s.core k) len cyc) rfl, hf]
  simp only [State.setCore_setCore hne]

/-- An open guard lets an instruction on the core alone take the trap it answers, from the state before. -/
theorem kPure_of_error {f : Item → Core → KRes} {t : Nat} (hr : TaskReady s k i) (hg : GuardOpen (s.core k) g sense)
    (hf : f i (passed (s.core k) len cyc) = .error t) :
    kPure s k g sense len cyc false f = .next (trapTask s k i t) := by
  obtain ⟨hi, hrun, hw, hfetch, hn⟩ := hr
  rw [kPure, kRun_open hn hi hrun hw hfetch hg.1 hg.2 (c' := passed (s.core k) len cyc) rfl, hf]

/-- A reserved immediate is the ILLEGAL trap, whatever the guard (R308, R314). -/
theorem kPure_of_illegal {f : Item → Core → KRes} (hr : TaskReady s k i) (h : illegal = true) :
    kPure s k g sense len cyc illegal f = .next (trapTask s k i trILLEGAL) := by
  obtain ⟨hi, hrun, hw, hfetch, hn⟩ := hr
  exact kRun_illegal hn hi hrun hw hfetch (.inl h)

/-- A false guard passes the words and spends the cycles (R308). -/
theorem kRun_of_closed {f : State → Item → Core → Except Nat State} (hr : TaskReady s k i)
    (hg : ¬ (g = 0 ∧ sense = true)) (hp : predGet (s.core k) g = sense) (h : illegal = false) :
    kRun s k g sense len cyc illegal f = .next (s.setCore k (passed (s.core k) len cyc)) := by
  obtain ⟨hi, hrun, hw, hfetch, hn⟩ := hr
  subst h
  exact kRun_closed hn hi hrun hw hfetch hg hp

end Ready

/-! ## Instructions that replace the cells on top of the data stack -/

/-- An arithmetic operation that writes no flags replaces its cells as a stack operation does. -/
theorem aluOp_noFlags {n p : Nat} {f : Core → List Cell → List Cell × FlagWrite} {l pops pushes : List Cell} {c : Core}
    (hn : pops.length = n) (hp : pushes.length = p) (hf : f c pops = (pushes, noFlags)) (hds : c.ds = pops ++ l)
    (hr : l.length + p ≤ 32) : aluOp n p f c = .ok { c with ds := pushes ++ l } := by
  have htake : c.ds.take n = pops := by simp [hds, ← hn]
  have hop : stackOp n p (fun l => (f c l).1) c = .ok { c with ds := pushes ++ l } :=
    stackOp_ok hn hds hp hr (by rw [hf])
  simp [aluOp, hop, htake, hf, writeFlags, noFlags]

section Results
variable {ins : Guarded} {cyc : Nat} {pops pushes : List Cell}

/-- A one-word stack operation gives the result that its function gives on the popped cells. -/
theorem stackResult_of_stackOp {f : List Cell → List Cell}
    (he : ∀ s k g sense, exec (ins k g sense) s =
      kPure s k g sense 1 cyc false fun _ c => stackOp pops.length pushes.length f c)
    (hf : f pops = pushes) : StackResult ins cyc pops pushes := by
  intro s k g sense i l hr hg hds hroom
  rw [he]
  exact kPure_of_ok hr hg (stackOp_ok rfl hds rfl hroom hf)

/-- A one-word arithmetic operation without flags gives the result that its function gives on the popped cells. -/
theorem stackResult_of_kAlu {f : Core → List Cell → List Cell × FlagWrite}
    (he : ∀ s k g sense, exec (ins k g sense) s = kAlu s k g sense cyc pops.length pushes.length f)
    (hf : ∀ c, f c pops = (pushes, noFlags)) : StackResult ins cyc pops pushes := by
  intro s k g sense i l hr hg hds hroom
  rw [he]
  exact kPure_of_ok hr hg (aluOp_noFlags rfl rfl (hf _) hds hroom)

/-- A stack operation whose immediate word is not reserved gives the result of its function on the popped cells. -/
theorem immResult_of_stackOp {illegal : Bool} {f : List Cell → List Cell} (hill : illegal = false)
    (he : ∀ s k g sense, exec (ins k g sense) s =
      kPure s k g sense 2 2 illegal fun _ c => stackOp pops.length pushes.length f c)
    (hle : pushes.length ≤ pops.length) (hf : f pops = pushes) : ImmResult ins pops pushes := by
  subst hill
  intro s k g sense i l hr hg hds hroom
  rw [he]
  exact kPure_of_ok hr hg (stackOp_ok rfl hds rfl (by omega) hf)

/-- A field instruction gives the result of its function at the position and width that its immediate names. -/
theorem immResult_of_kField {imm x : Cell} {pos w : Nat} {f : Nat → Nat → List Cell → List Cell}
    (himm : fieldImm imm = some (pos, w))
    (he : ∀ s k g sense, exec (ins k g sense) s = kField s k g sense pops.length imm f)
    (hle : 1 ≤ pops.length) (hf : f pos w pops = [x]) : ImmResult ins pops [x] := by
  refine immResult_of_stackOp (illegal := (fieldImm imm).isNone) (by rw [himm]; rfl) (fun s k g sense => ?_) hle hf
  rw [he, kField, himm]
  rfl

end Results

/-! ## Class 0x0 -/

section Depth
variable {s : State} {k g : Nat} {sense : Bool} {i : Item}

/-- PICK copies the cell at depth `u` below it. -/
theorem exec_pick_of_getElem {u x : Cell} {l : List Cell} (hr : TaskReady s k i) (hg : GuardOpen (s.core k) g sense)
    (hds : (s.core k).ds = u :: l) (hx : l[u.toNat]? = some x) :
    exec (.pick k g sense) s = .next (s.setCore k { passed (s.core k) 1 1 with ds := x :: l }) := by
  obtain ⟨hlt, rfl⟩ := List.getElem?_eq_some_iff.1 hx
  change execPick k g sense s = _
  rw [execPick]
  exact kPure_of_ok hr hg (by simp [passed, hds, hlt])

/-- PICK below the bottom of the stack is the STACK trap. -/
theorem exec_pick_of_length_le {u : Cell} {l : List Cell} (hr : TaskReady s k i) (hg : GuardOpen (s.core k) g sense)
    (hds : (s.core k).ds = u :: l) (hle : l.length ≤ u.toNat) :
    exec (.pick k g sense) s = .next (trapTask s k i 0x02) := by
  change execPick k g sense s = _
  rw [execPick]
  exact kPure_of_error hr hg (by simp [passed, hds, hle])

/-- DEPTH pushes the depth before the push. -/
theorem exec_depth (hr : TaskReady s k i) (hg : GuardOpen (s.core k) g sense) (hroom : (s.core k).ds.length < 32) :
    exec (.depth k g sense) s = .next (s.setCore k { passed (s.core k) 1 1 with
      ds := BitVec.ofNat 16 (s.core k).ds.length :: (s.core k).ds }) := by
  change execDepth k g sense s = _
  rw [execDepth]
  exact kPure_of_ok hr hg (by simp [pushCell, passed, Nat.not_le.2 hroom])

end Depth

/-- Settles O1: each instruction is `stackOp` with its own rearrangement; PICK and DEPTH look below the popped cells. -/
theorem stackClassRearrangesCells : Obligations.StackClassRearrangesCells := by
  unfold Obligations.StackClassRearrangesCells
  refine ⟨?rearranged, ?pick, ?depth⟩
  case rearranged =>
    and_intros
    all_goals
      intros
      exact stackResult_of_stackOp (fun _ _ _ _ => rfl) rfl
  case pick =>
    intro s k g sense i u l hr hg hds
    exact ⟨fun x hx => exec_pick_of_getElem hr hg hds hx, exec_pick_of_length_le hr hg hds⟩
  case depth => exact fun s k g sense i hr hg hroom => exec_depth hr hg hroom

/-! ## Class 0x2: what a shift of a bit vector is as a number -/

theorem shiftLeft_eq_ofNat {w : Nat} (x : BitVec w) (n : Nat) : x <<< n = BitVec.ofNat w (x.toNat * 2 ^ n) := by
  apply BitVec.eq_of_toNat_eq
  simp [Nat.shiftLeft_eq]

theorem ushiftRight_eq_ofNat {w : Nat} (x : BitVec w) (n : Nat) : x >>> n = BitVec.ofNat w (x.toNat / 2 ^ n) := by
  apply BitVec.eq_of_toNat_eq
  rw [BitVec.toNat_ushiftRight, Nat.shiftRight_eq_div_pow, BitVec.toNat_ofNat,
    Nat.mod_eq_of_lt (Nat.lt_of_le_of_lt (Nat.div_le_self _ _) x.isLt)]

theorem sshiftRight_eq_ofInt {w : Nat} (x : BitVec w) (n : Nat) :
    x.sshiftRight n = BitVec.ofInt w (x.toInt / 2 ^ n) := by
  rw [BitVec.sshiftRight, Int.shiftRight_eq_div_pow]
  norm_cast

/-- A rotation is the sum of the two parts that it moves, for they share no bit. -/
theorem shiftLeft_or_ushiftRight_eq_add {w m n : Nat} (x : BitVec w) (h : w = m + n) :
    x <<< m ||| x >>> n = BitVec.ofNat w (x.toNat * 2 ^ m + x.toNat / 2 ^ n) := by
  have hdisj : x <<< m &&& x >>> n = 0#w := by
    ext j hj
    simp only [BitVec.getElem_and, BitVec.getElem_shiftLeft, BitVec.getElem_ushiftRight, BitVec.getElem_zero]
    by_cases hjm : j < m
    · simp [hjm]
    · rw [BitVec.getLsbD_of_ge x (n + j) (by omega), Bool.and_false]
  rw [← BitVec.add_eq_or_of_and_eq_zero _ _ hdisj, shiftLeft_eq_ofNat, ushiftRight_eq_ofNat, BitVec.ofNat_add]

theorem rotateLeft_eq_ofNat {w n : Nat} (x : BitVec w) (h : n < w) :
    x.rotateLeft n = BitVec.ofNat w (x.toNat * 2 ^ n + x.toNat / 2 ^ (w - n)) := by
  rw [BitVec.rotateLeft_eq_rotateLeftAux_of_lt h]
  exact shiftLeft_or_ushiftRight_eq_add x (by omega)

theorem rotateRight_eq_ofNat {w n : Nat} (x : BitVec w) (h : n < w) :
    x.rotateRight n = BitVec.ofNat w (x.toNat / 2 ^ n + x.toNat * 2 ^ (w - n)) := by
  rw [BitVec.rotateRight_eq_rotateRightAux_of_lt h, Nat.add_comm, ← shiftLeft_or_ushiftRight_eq_add x (by omega)]
  exact BitVec.or_comm _ _

/-- The two cells of a double cell given as a number. -/
theorem cells32_ofNat (n : Nat) : cells32 (BitVec.ofNat 32 n) = [BitVec.ofNat 16 (n / 65536), BitVec.ofNat 16 n] := by
  have hhi : (BitVec.ofNat 32 n).extractLsb' 16 16 = BitVec.ofNat 16 (n / 65536) := by
    apply BitVec.eq_of_toNat_eq
    simp only [BitVec.extractLsb'_toNat, BitVec.toNat_ofNat, Nat.shiftRight_eq_div_pow]
    omega
  have hlo : (BitVec.ofNat 32 n).extractLsb' 0 16 = BitVec.ofNat 16 n := by
    apply BitVec.eq_of_toNat_eq
    simp only [BitVec.extractLsb'_toNat, BitVec.toNat_ofNat, Nat.shiftRight_zero]
    omega
  rw [cells32, hhi, hlo]

/-- Two words side by side as a number. -/
theorem toNat_append_eq_add {m n : Nat} (x : BitVec m) (y : BitVec n) : (x ++ y).toNat = x.toNat * 2 ^ n + y.toNat := by
  rw [BitVec.toNat_append, ← Nat.shiftLeft_add_eq_or_of_lt y.isLt, Nat.shiftLeft_eq]

/-- A double cell as a number. -/
theorem toNat_append_cells (hi lo : Cell) : (hi ++ lo).toNat = hi.toNat * 65536 + lo.toNat :=
  toNat_append_eq_add hi lo

/-! ### The results that R313 states -/

section Counted
variable (a : Cell) (n : Nat)

/-- A left shift of a cell, a count of 16 or more giving zero. -/
theorem shiftLeft_cell : a <<< n = if n < 16 then BitVec.ofNat 16 (a.toNat * 2 ^ n) else 0 := by
  split
  · exact shiftLeft_eq_ofNat a n
  · exact BitVec.shiftLeft_eq_zero (by omega)

/-- A logical right shift of a cell, a count of 16 or more giving zero. -/
theorem ushiftRight_cell : a >>> n = if n < 16 then BitVec.ofNat 16 (a.toNat / 2 ^ n) else 0 := by
  split
  · exact ushiftRight_eq_ofNat a n
  · exact BitVec.ushiftRight_eq_zero (by omega)

/-- An arithmetic right shift of a cell, a count of 16 or more giving its sign. -/
theorem sshiftRight_cell : a.sshiftRight n =
    if n < 16 then BitVec.ofInt 16 (a.toInt / 2 ^ n) else if a.toInt < 0 then 0xFFFF else 0 := by
  split
  case isTrue => exact sshiftRight_eq_ofInt a n
  case isFalse h =>
    have hneg : a.toInt < 0 ↔ a.msb = true := BitVec.toInt_neg_iff.trans BitVec.msb_eq_true_iff_two_mul_ge.symm
    simp only [hneg]
    cases hmsb : a.msb
    · rw [BitVec.sshiftRight_eq_of_msb_false hmsb, BitVec.ushiftRight_eq_zero (by omega)]; rfl
    · rw [BitVec.sshiftRight_eq_of_msb_true hmsb, BitVec.ushiftRight_eq_zero (by omega)]; rfl

/-- A left shift of a double cell, a count of 32 or more giving zero. -/
theorem cells32_shiftLeft (hi lo : Cell) : cells32 ((hi ++ lo) <<< n) =
    if n < 32 then [BitVec.ofNat 16 ((hi.toNat * 65536 + lo.toNat) * 2 ^ n / 65536),
      BitVec.ofNat 16 ((hi.toNat * 65536 + lo.toNat) * 2 ^ n)] else [0, 0] := by
  split
  · rw [shiftLeft_eq_ofNat, toNat_append_cells, cells32_ofNat]
  · rw [BitVec.shiftLeft_eq_zero (by omega)]; rfl

/-- A logical right shift of a double cell, a count of 32 or more giving zero. -/
theorem cells32_ushiftRight (hi lo : Cell) : cells32 ((hi ++ lo) >>> n) =
    if n < 32 then [BitVec.ofNat 16 ((hi.toNat * 65536 + lo.toNat) / 2 ^ n / 65536),
      BitVec.ofNat 16 ((hi.toNat * 65536 + lo.toNat) / 2 ^ n)] else [0, 0] := by
  split
  · rw [ushiftRight_eq_ofNat, toNat_append_cells, cells32_ofNat]
  · rw [BitVec.ushiftRight_eq_zero (by omega)]; rfl

end Counted

/-- Settles O5: each instruction pushes its bit-vector shift, whose value is the stated number. -/
theorem shiftsFollowTheirCount : Obligations.ShiftsFollowTheirCount := by
  unfold Obligations.ShiftsFollowTheirCount
  refine ⟨fun a n => ⟨?shl, ?shr, ?sar, ?rol, ?ror, fun hi lo => ⟨?shl32, ?shr32⟩⟩,
    fun a n => ⟨?shli, ?shri, ?sari, ?roli⟩⟩
  case shl =>
    rw [← shiftLeft_cell]
    exact stackResult_of_kAlu (fun _ _ _ _ => rfl) fun _ => rfl
  case shr =>
    rw [← ushiftRight_cell]
    exact stackResult_of_kAlu (fun _ _ _ _ => rfl) fun _ => rfl
  case sar =>
    rw [← sshiftRight_cell]
    exact stackResult_of_kAlu (fun _ _ _ _ => rfl) fun _ => rfl
  case rol =>
    rw [← rotateLeft_eq_ofNat a (Nat.mod_lt _ (by decide))]
    exact stackResult_of_kAlu (fun _ _ _ _ => rfl) fun _ => rfl
  case ror =>
    rw [← rotateRight_eq_ofNat a (Nat.mod_lt _ (by decide))]
    exact stackResult_of_kAlu (fun _ _ _ _ => rfl) fun _ => rfl
  case shl32 =>
    rw [← cells32_shiftLeft]
    exact stackResult_of_kAlu (fun _ _ _ _ => rfl) fun _ => rfl
  case shr32 =>
    rw [← cells32_ushiftRight]
    exact stackResult_of_kAlu (fun _ _ _ _ => rfl) fun _ => rfl
  case shli =>
    rw [← shiftLeft_eq_ofNat]
    exact stackResult_of_kAlu (fun _ _ _ _ => rfl) fun _ => rfl
  case shri =>
    rw [← ushiftRight_eq_ofNat]
    exact stackResult_of_kAlu (fun _ _ _ _ => rfl) fun _ => rfl
  case sari =>
    rw [← sshiftRight_eq_ofInt]
    exact stackResult_of_kAlu (fun _ _ _ _ => rfl) fun _ => rfl
  case roli =>
    rw [← rotateLeft_eq_ofNat a n.isLt]
    exact stackResult_of_kAlu (fun _ _ _ _ => rfl) fun _ => rfl

/-! ## Class 0x3: fields, counts and the byte permutation -/

/-- A field immediate of R314 names its position and width. -/
theorem fieldImm_of_le {imm : Cell} (h : imm.toNat < 256) (hw : imm.toNat % 16 + (imm.toNat / 16 + 1) ≤ 16) :
    fieldImm imm = some (imm.toNat % 16, imm.toNat / 16 + 1) := by
  have hdiv : imm.toNat / 16 % 16 = imm.toNat / 16 := by omega
  rw [fieldImm, if_neg (by omega), hdiv]

/-- The immediate of a field of width `w` from bit `pos` (R314). -/
theorem fieldImm_ofNat {pos w : Nat} (hw : 0 < w) (h : pos + w ≤ 16) :
    fieldImm (BitVec.ofNat 16 (pos + 16 * (w - 1))) = some (pos, w) := by
  have himm : (BitVec.ofNat 16 (pos + 16 * (w - 1))).toNat = pos + 16 * (w - 1) := by
    rw [BitVec.toNat_ofNat]; omega
  rw [fieldImm_of_le (by omega) (by omega), himm]
  congr 2 <;> omega

/-- An immediate that names no field. -/
theorem fieldImm_eq_none {imm : Cell} (h : 256 ≤ imm.toNat ∨ 16 < imm.toNat % 16 + (imm.toNat / 16 % 16 + 1)) :
    fieldImm imm = none := by
  rw [fieldImm, if_pos h]

/-- A number below `2 ^ w` with its top bit read as a sign. -/
theorem signed_field {f w : Nat} (hw : 0 < w) (hw16 : w ≤ 16) (hf : f < 2 ^ w) :
    (if f.testBit (w - 1) then BitVec.ofNat 16 (f + (65536 - 2 ^ w)) else BitVec.ofNat 16 f) =
      BitVec.ofInt 16 (if f < 2 ^ (w - 1) then f else f - 2 ^ w) := by
  have hpow : 2 ^ w = 2 ^ (w - 1 + 1) := by rw [Nat.sub_add_cancel hw]
  have hle : 2 ^ w ≤ 65536 := Nat.pow_le_pow_right (n := 2) (by decide) hw16
  rcases Nat.lt_or_ge f (2 ^ (w - 1)) with hlt | hge
  · rw [if_neg (by simp [Nat.testBit_lt_two_pow hlt]), if_pos hlt, BitVec.ofInt_natCast]
  · rw [if_pos (Nat.testBit_of_two_pow_le_and_two_pow_add_one_gt hge (hpow ▸ hf)), if_neg (by omega)]
    apply BitVec.eq_of_toNat_eq
    have hcast : ((2 : Int) ^ w) = ((2 ^ w : Nat) : Int) := by norm_cast
    rw [BitVec.toNat_ofNat, BitVec.toNat_ofInt, hcast]
    omega

/-- The leading zeros of an `n`-bit number. -/
theorem leadingZeros_eq {x n : Nat} (h : x < 2 ^ n) :
    leadingZeros x n = n - (if x = 0 then 0 else Nat.log2 x + 1) := by
  induction n with
  | zero => simp [leadingZeros]
  | succ n ih =>
    rw [leadingZeros]
    rcases Nat.lt_or_ge x (2 ^ n) with hlt | hge
    · have hlog : (if x = 0 then 0 else Nat.log2 x + 1) ≤ n := by
        split
        case isTrue => exact Nat.zero_le n
        case isFalse hx => exact (Nat.log2_lt hx).2 hlt
      rw [if_neg (by simp [Nat.testBit_lt_two_pow hlt]), ih hlt]
      omega
    · have hx : x ≠ 0 := Nat.ne_of_gt (Nat.lt_of_lt_of_le (Nat.two_pow_pos n) hge)
      rw [if_pos (Nat.testBit_of_two_pow_le_and_two_pow_add_one_gt hge h), if_neg hx, (Nat.log2_eq_iff hx).2 ⟨hge, h⟩]
      omega

/-- The trailing zeros from bit `i` are `n` where the `n` bits from there are clear and bit `i + n` is set or beyond. -/
theorem trailingZeros_eq {x m n i : Nat} (hle : n ≤ m) (hclear : ∀ j < n, x.testBit (i + j) = false)
    (hset : n < m → x.testBit (i + n) = true) : trailingZeros x m i = n := by
  induction m generalizing n i with
  | zero => rw [trailingZeros]; omega
  | succ m ih =>
    rw [trailingZeros]
    cases n with
    | zero => simpa using hset
    | succ n =>
      have hi : x.testBit i = false := hclear 0 (by omega)
      rw [if_neg (by simp [hi]), ih (n := n) (by omega)]
      · intro j hj
        rw [Nat.add_right_comm]
        exact hclear (j + 1) (by omega)
      · intro hn
        rw [Nat.add_right_comm]
        exact hset (by omega)

/-- The bits set among the low `n`, counted. -/
theorem bitsSet_eq_countP (x n : Nat) : bitsSet x n = (List.range n).countP x.testBit := by
  induction n with
  | zero => rfl
  | succ n ih => rw [bitsSet, ih, List.range_succ, List.countP_append, List.countP_singleton, Nat.add_comm]

/-- Byte `n` of a double cell as the immediate selects it (R315). -/
theorem toNat_selected_byte (x : Word) (imm : Cell) (n : Nat) :
    (x.extractLsb' (8 * (imm.extractLsb' (2 * n) 2).toNat) 8).toNat =
      x.toNat / 2 ^ (8 * (imm.toNat / 4 ^ n % 4)) % 256 := by
  have hsel : (imm.extractLsb' (2 * n) 2).toNat = imm.toNat / 4 ^ n % 4 := by
    rw [BitVec.extractLsb'_toNat, Nat.shiftRight_eq_div_pow, Nat.pow_mul]
  rw [hsel, BitVec.extractLsb'_toNat, Nat.shiftRight_eq_div_pow]

/-- Two bytes as a cell. -/
theorem append_bytes_eq_ofNat (hi lo : Byte) : hi ++ lo = BitVec.ofNat 16 (hi.toNat * 256 + lo.toNat) := by
  apply BitVec.eq_of_toNat_eq
  rw [toNat_append_eq_add, BitVec.toNat_ofNat]
  omega

/-- Four bytes as the two cells of a double cell. -/
theorem cells32_bytes (b3 b2 b1 b0 : Byte) :
    cells32 (BitVec.ofNat 32 (b0.toNat + 256 * (b1.toNat + 256 * (b2.toNat + 256 * b3.toNat)))) =
      [b3 ++ b2, b1 ++ b0] := by
  have h1 := b1.isLt
  have h0 := b0.isLt
  rw [cells32_ofNat, append_bytes_eq_ofNat, append_bytes_eq_ofNat, List.cons.injEq, List.cons.injEq]
  refine ⟨?_, ?_, rfl⟩ <;> apply BitVec.eq_of_toNat_eq <;> simp only [BitVec.toNat_ofNat] <;> omega

/-- Four bytes summed at their places.  The powers are evaluated one by one, so that no product with a literal of 24 bits
has to be unfolded. -/
theorem foldl_bytes (b : Nat → Nat) : (List.range 4).foldl (fun n i => n + b i * 2 ^ (8 * i)) 0 =
    b 0 + 256 * (b 1 + 256 * (b 2 + 256 * b 3)) := by
  have hrange : List.range 4 = [0, 1, 2, 3] := rfl
  have h0 : 2 ^ (8 * 0) = 1 := rfl
  have h1 : 2 ^ (8 * 1) = 256 := rfl
  have h2 : 2 ^ (8 * 2) = 256 * 256 := rfl
  have h3 : 2 ^ (8 * 3) = 256 * (256 * 256) := rfl
  rw [hrange, List.foldl_cons, List.foldl_cons, List.foldl_cons, List.foldl_cons, List.foldl_nil, h0, h1, h2, h3]
  ring

/-- The permuted double cell holds the bytes `src` that the immediate selects (R315). -/
theorem cells32_bytePerm {imm : Cell} {x : Word} {src : Nat → Byte}
    (hsrc : ∀ n, (src n).toNat = x.toNat / 2 ^ (8 * (imm.toNat / 4 ^ n % 4)) % 256) :
    cells32 (bytePerm imm x) = [src 3 ++ src 2, src 1 ++ src 0] := by
  rw [← cells32_bytes, bytePerm, foldl_bytes]
  simp only [hsrc]

/-- Settles O6: the immediate names its field or permutation, or is an ILLEGAL trap; each result is then the number or
the count that the statement gives. -/
theorem bitFieldsSelectTheirBits : Obligations.BitFieldsSelectTheirBits := by
  unfold Obligations.BitFieldsSelectTheirBits
  refine ⟨?fields, ?counts, ?permutation, ?noField, ?noPermutation⟩
  case fields =>
    intro pos w hw h a b imm f
    have himm : fieldImm imm = some (pos, w) := fieldImm_ofNat hw h
    refine ⟨?bfx, ?bfxs, ?bfi⟩
    case bfx => exact immResult_of_kField himm (fun _ _ _ _ => rfl) (by simp) rfl
    case bfxs =>
      have hsigned := signed_field hw (by omega) (Nat.mod_lt (a.toNat / 2 ^ pos) (Nat.two_pow_pos w))
      rw [← hsigned]
      exact immResult_of_kField himm (fun _ _ _ _ => rfl) (by simp) rfl
    case bfi => exact immResult_of_kField himm (fun _ _ _ _ => rfl) (by simp) rfl
  case counts =>
    intro a
    refine ⟨?clz, fun n hle hclear hset => ?ctz, ?popc⟩
    case clz =>
      have hzeros : leadingZeros a.toNat 16 = _ := leadingZeros_eq a.isLt
      have hzero : a = 0 ↔ a.toNat = 0 := BitVec.toNat_eq
      simp only [hzero]
      rw [← hzeros]
      exact stackResult_of_kAlu (fun _ _ _ _ => rfl) fun _ => rfl
    case ctz =>
      have hzeros : trailingZeros a.toNat 16 0 = n :=
        trailingZeros_eq hle (by simpa [← BitVec.testBit_toNat] using hclear) (by simpa [← BitVec.testBit_toNat] using hset)
      rw [← hzeros]
      exact stackResult_of_kAlu (fun _ _ _ _ => rfl) fun _ => rfl
    case popc =>
      have hbits : (fun j => a.getLsbD j) = a.toNat.testBit := funext fun j => (BitVec.testBit_toNat a).symm
      rw [hbits, ← bitsSet_eq_countP]
      exact stackResult_of_kAlu (fun _ _ _ _ => rfl) fun _ => rfl
  case permutation =>
    intro imm lo hi himm src
    have hperm : cells32 (bytePerm imm (hi ++ lo)) = [src 3 ++ src 2, src 1 ++ src 0] :=
      cells32_bytePerm fun n => toNat_selected_byte (hi ++ lo) imm n
    rw [← hperm]
    exact immResult_of_stackOp (decide_eq_false (Nat.not_le.2 himm)) (fun _ _ _ _ => rfl) (Nat.le_refl 2) rfl
  case noField =>
    intro s k g sense i imm hr h
    have hnone : (fieldImm imm).isNone = true := by rw [fieldImm_eq_none h]; rfl
    have field {n f} : kField s k g sense n imm f = _ := kPure_of_illegal hr hnone
    exact ⟨field, field, field⟩
  case noPermutation =>
    intro s k g sense i imm hr h
    exact (kPure_of_illegal hr (decide_eq_true h) : execBperm k g sense imm s = _)

/-! ## A false guard, operand form by operand form (R308) -/

section Closed
variable {s : State} {k g : Nat} {sense : Bool} {i : Item} {len cyc n p : Nat}
  (hr : TaskReady s k i) (hg : ¬ (g = 0 ∧ sense = true)) (hp : predGet (s.core k) g = sense)
include hr hg hp

theorem kPure_of_closed {illegal : Bool} {f : Item → Core → KRes} (h : illegal = false) :
    kPure s k g sense len cyc illegal f = .next (s.setCore k (passed (s.core k) len cyc)) :=
  kRun_of_closed hr hg hp h

theorem kStack_of_closed {f : List Cell → List Cell} :
    kStack s k g sense n p f = .next (s.setCore k (passed (s.core k) 1 1)) :=
  kPure_of_closed hr hg hp rfl

theorem kAlu_of_closed {f : Core → List Cell → List Cell × FlagWrite} :
    kAlu s k g sense cyc n p f = .next (s.setCore k (passed (s.core k) 1 cyc)) :=
  kPure_of_closed hr hg hp rfl

theorem kMem_of_closed {f : Item → List Cell → Core → KRes} :
    kMem s k g sense cyc n f = .next (s.setCore k (passed (s.core k) 1 cyc)) :=
  kPure_of_closed hr hg hp rfl

theorem kSend_of_closed {seg : Nat → Bool} {full : State → Bool} {act : State → Nat → Nat → Item → Bytes → State} :
    kSend s k g sense seg full len act = .next (s.setCore k (passed (s.core k) 1 2)) :=
  kRun_of_closed hr hg hp rfl

/-- A false guard reads no descriptor, so a SEND of any operation passes as its own row. -/
theorem kSend_of_closed_of_descIs {op : Nat} {seg : Nat → Bool} {full : State → Bool}
    {act : State → Nat → Nat → Item → Bytes → State} :
    (if descIs s k g sense op = false then .next s else kSend s k g sense seg full len act) =
      .next (s.setCore k (passed (s.core k) 1 2)) := by
  have hdesc : descIs s k g sense op = true := by
    rw [descIs]
    split <;> simp [hp]
  rw [if_neg (by simp [hdesc])]
  exact kSend_of_closed hr hg hp

/-! ### The instructions without an operand of their own -/

theorem exec_of_closed_of_stack : ∀ f ∈ ([.nop, .dup, .drop, .swap, .over, .rot, .nip, .tuck, .dup2, .drop2, .swap2] :
    List Guarded), exec (f k g sense) s = .next (s.setCore k (passed (s.core k) 1 1)) := by
  intro f hf
  fin_cases hf <;> exact kStack_of_closed hr hg hp

theorem exec_of_closed_of_alu : ∀ f ∈ ([.add, .sub, .adc, .sbc, .and, .or, .xor, .not, .neg, .abs, .add32, .sub32, .inc,
    .dec, .shl, .shr, .sar, .rol, .ror, .shl32, .shr32, .clz, .ctz, .popc] : List Guarded),
    exec (f k g sense) s = .next (s.setCore k (passed (s.core k) 1 1)) := by
  intro f hf
  fin_cases hf <;> exact kAlu_of_closed hr hg hp

theorem exec_of_closed_of_mem : ∀ f ∈ ([.ld, .st, .ldb, .stb, .ldp, .stp] : List Guarded),
    exec (f k g sense) s = .next (s.setCore k (passed (s.core k) 1 1)) := by
  intro f hf
  fin_cases hf <;> exact kMem_of_closed hr hg hp

theorem exec_of_closed_of_depth : ∀ f ∈ ([.pick, .depth] : List Guarded),
    exec (f k g sense) s = .next (s.setCore k (passed (s.core k) 1 1)) :=
  List.forall_iff_forall_mem.1
    ⟨(kPure_of_closed hr hg hp rfl : execPick k g sense s = _), (kPure_of_closed hr hg hp rfl : execDepth k g sense s = _)⟩

theorem exec_of_closed_of_returnStack : ∀ f ∈ ([.tor, .fromr, .copyr, .rdrop, .rdepth] : List Guarded),
    exec (f k g sense) s = .next (s.setCore k (passed (s.core k) 1 1)) :=
  List.forall_iff_forall_mem.1
    ⟨(kPure_of_closed hr hg hp rfl : execTor k g sense s = _), (kPure_of_closed hr hg hp rfl : execFromr k g sense s = _),
      (kPure_of_closed hr hg hp rfl : execCopyr k g sense s = _), (kPure_of_closed hr hg hp rfl : execRdrop k g sense s = _),
      (kPure_of_closed hr hg hp rfl : execRdepth k g sense s = _)⟩

theorem exec_of_closed_of_slot : ∀ f ∈ ([.wait, .getw, .rels] : List Guarded),
    exec (f k g sense) s = .next (s.setCore k (passed (s.core k) 1 1)) :=
  List.forall_iff_forall_mem.1
    ⟨(kPure_of_closed hr hg hp rfl : execWait k g sense s = _), (kRun_of_closed hr hg hp rfl : execGetw k g sense s = _),
      (kPure_of_closed hr hg hp rfl : execRels k g sense s = _)⟩

theorem exec_of_closed_of_double : ∀ f ∈ ([.mul, .muls, .ld32, .st32] : List Guarded),
    exec (f k g sense) s = .next (s.setCore k (passed (s.core k) 1 2)) :=
  List.forall_iff_forall_mem.1
    ⟨(kAlu_of_closed hr hg hp : execMul k g sense s = _), (kAlu_of_closed hr hg hp : execMuls k g sense s = _),
      (kMem_of_closed hr hg hp : execLd32 k g sense s = _), (kMem_of_closed hr hg hp : execSt32 k g sense s = _)⟩

theorem exec_of_closed_of_transfer : ∀ f ∈ ([.ret, .calls, .jmps] : List Guarded),
    exec (f k g sense) s = .next (s.setCore k (passed (s.core k) 1 2)) :=
  List.forall_iff_forall_mem.1
    ⟨(kPure_of_closed hr hg hp rfl : execRet k g sense s = _), (kPure_of_closed hr hg hp rfl : execCalls k g sense s = _),
      (kPure_of_closed hr hg hp rfl : execJmps k g sense s = _)⟩

theorem exec_of_closed_of_send : ∀ f ∈ ([.sendCipher, .sendHash, .sendEngine, .sendLookup, .sendVault] : List Guarded),
    exec (f k g sense) s = .next (s.setCore k (passed (s.core k) 1 2)) :=
  List.forall_iff_forall_mem.1
    ⟨(kSend_of_closed hr hg hp : execSendCipher k g sense s = _), (kSend_of_closed hr hg hp : execSendHash k g sense s = _),
      (kSend_of_closed hr hg hp : execSendEngine k g sense s = _),
      (kSend_of_closed hr hg hp : execSendLookup k g sense s = _),
      (kSend_of_closed hr hg hp : execSendVault k g sense s = _)⟩

theorem exec_of_closed_of_descriptor : ∀ f ∈ ([.ctxDraw, .ctxFetch, .ctxCreate, .ctxDelete, .timerSubmit, .timerExpire,
    .timerHeartbeat, .timerCancel] : List Guarded),
    exec (f k g sense) s = .next (s.setCore k (passed (s.core k) 1 2)) :=
  List.forall_iff_forall_mem.1
    ⟨(kSend_of_closed_of_descIs hr hg hp : execCtxDraw k g sense s = _),
      (kSend_of_closed_of_descIs hr hg hp : execCtxFetch k g sense s = _),
      (kSend_of_closed_of_descIs hr hg hp : execCtxCreate k g sense s = _),
      (kSend_of_closed_of_descIs hr hg hp : execCtxDelete k g sense s = _),
      (kSend_of_closed_of_descIs hr hg hp : execTimerSubmit k g sense s = _),
      (kSend_of_closed_of_descIs hr hg hp : execTimerExpire k g sense s = _),
      (kSend_of_closed_of_descIs hr hg hp : execTimerHeartbeat k g sense s = _),
      (kSend_of_closed_of_descIs hr hg hp : execTimerCancel k g sense s = _)⟩

theorem exec_of_closed_of_random : ∀ f ∈ ([.resv, .rand] : List Guarded),
    exec (f k g sense) s = .next (s.setCore k (passed (s.core k) 1 2)) :=
  List.forall_iff_forall_mem.1
    ⟨(kRun_of_closed hr hg hp rfl : execResv k g sense s = _), (kPure_of_closed hr hg hp rfl : execRand k g sense s = _)⟩

theorem exec_of_closed_of_end : ∀ f ∈ ([.done, .yield, .sleep] : List Guarded),
    exec (f k g sense) s = .next (s.setCore k (passed (s.core k) 1 4)) :=
  List.forall_iff_forall_mem.1
    ⟨(kRun_of_closed hr hg hp rfl : execDone k g sense s = _), (kRun_of_closed hr hg hp rfl : execYield k g sense s = _),
      (kRun_of_closed hr hg hp rfl : execSleep k g sense s = _)⟩

theorem exec_of_closed_of_divide : ∀ f ∈ ([.div, .divs] : List Guarded),
    exec (f k g sense) s = .next (s.setCore k (passed (s.core k) 1 17)) :=
  List.forall_iff_forall_mem.1
    ⟨(kAlu_of_closed hr hg hp : execDiv k g sense s = _), (kAlu_of_closed hr hg hp : execDivs k g sense s = _)⟩

theorem exec_of_closed_of_block : ∀ f ∈ ([.copy, .zero] : List Guarded), exec (f k g sense) s =
    .next (s.setCore k (passed (s.core k) 1 (1 + (((s.core k).ds.headD 0).toNat + 1) / 2))) :=
  List.forall_iff_forall_mem.1
    ⟨(kMem_of_closed hr hg hp : execCopy k g sense s = _), (kMem_of_closed hr hg hp : execZero k g sense s = _)⟩

/-- An instruction without an operand of its own passes its words and spends its cycles. -/
theorem exec_of_closed_of_plainTiming {f : Guarded} (ht : PlainTiming s k f len cyc) :
    exec (f k g sense) s = .next (s.setCore k (passed (s.core k) len cyc)) := by
  obtain ⟨rfl, rfl, hf⟩ | ⟨rfl, rfl, hf⟩ | ⟨rfl, rfl, hf⟩ | ⟨rfl, rfl, hf⟩ | ⟨rfl, rfl, hf⟩ := ht
  · have h := List.forall_mem_append.2 ⟨exec_of_closed_of_stack hr hg hp, List.forall_mem_append.2
      ⟨exec_of_closed_of_depth hr hg hp, List.forall_mem_append.2 ⟨exec_of_closed_of_alu hr hg hp,
        List.forall_mem_append.2 ⟨exec_of_closed_of_mem hr hg hp, List.forall_mem_append.2
          ⟨exec_of_closed_of_returnStack hr hg hp, exec_of_closed_of_slot hr hg hp⟩⟩⟩⟩⟩
    exact h f hf
  · have h := List.forall_mem_append.2 ⟨exec_of_closed_of_double hr hg hp, List.forall_mem_append.2
      ⟨exec_of_closed_of_transfer hr hg hp, List.forall_mem_append.2 ⟨exec_of_closed_of_send hr hg hp,
        List.forall_mem_append.2 ⟨exec_of_closed_of_descriptor hr hg hp, exec_of_closed_of_random hr hg hp⟩⟩⟩⟩
    exact h f hf
  · exact exec_of_closed_of_end hr hg hp f hf
  · exact exec_of_closed_of_divide hr hg hp f hf
  · exact exec_of_closed_of_block hr hg hp f hf

end Closed

/-- Settles O16: under a false guard `kRun` never reaches the effect, so the form of an instruction says its words and
cycles. -/
theorem falseGuardOnlySpendsWordsAndCycles : Obligations.FalseGuardOnlySpendsWordsAndCycles := by
  unfold Obligations.FalseGuardOnlySpendsWordsAndCycles
  intro s k g sense i hr hg hp
  have alu {cyc n p f} : kAlu s k g sense cyc n p f = _ := kAlu_of_closed hr hg hp
  have mem {cyc n f} : kMem s k g sense cyc n f = _ := kMem_of_closed hr hg hp
  have cmp2 {pd f} : kCmp2 s k g sense pd f = _ := kPure_of_closed hr hg hp rfl
  have cmp1 {pd f} : kCmp1 s k g sense pd f = _ := kPure_of_closed hr hg hp rfl
  have pred {pd f} : kPred s k g sense pd f = _ := kPure_of_closed hr hg hp rfl
  have core {len cyc f} : kPure s k g sense len cyc false f = _ := kPure_of_closed hr hg hp rfl
  refine ⟨fun f len cyc => exec_of_closed_of_plainTiming hr hg hp, ?compares, ?predicates, fun n => alu,
    fun n => ⟨alu, alu, alu, alu⟩, ?lit8, ?targets,
    fun w => ⟨(mem : execLdw k g sense w s = _), (mem : execStw k g sense w s = _)⟩,
    fun w => (mem : execLdc k g sense w s = _), ?system, ?branch, ?fields⟩
  case compares =>
    exact fun pd => ⟨cmp2, cmp2, cmp2, cmp2, cmp2, cmp2, cmp2, cmp2, cmp2, cmp2, cmp1, cmp1, cmp1, cmp1, cmp2, pred, pred,
      pred⟩
  case predicates => exact fun ps pd => ⟨(pred : execPredAnd k g sense ps pd s = _), (pred : execPredOr k g sense ps pd s = _),
      (pred : execPredXor k g sense ps pd s = _), (pred : execPredMov k g sense ps pd s = _)⟩
  case lit8 =>
    refine fun n => ⟨fun hn => ?_, fun hn => ?_⟩
    · change execLit8 k g sense n s = _
      rw [execLit8, if_neg hn]
      exact core
    · change execLit8 k g sense n s = _
      rw [execLit8, if_pos hn]
      exact core
  case targets =>
    exact fun n => ⟨core, (core : execCall k g sense n s = _), (core : execJmp k g sense n s = _),
      (core : execLoop k g sense n s = _)⟩
  case system =>
    intro n
    refine ⟨(core : execTrap k g sense n s = _), fun hn => ?_⟩
    have hcsr : decide (0x0E ≤ n.toNat) = false := decide_eq_false (by omega)
    exact ⟨(kRun_of_closed hr hg hp hcsr : execCsrget k g sense n s = _),
      (kPure_of_closed hr hg hp hcsr : execCsrput k g sense n s = _)⟩
  case branch =>
    intro d hd
    change execBr k g sense d s = _
    have hok : brOk d = true := decide_eq_true (by omega)
    rw [execBr, hok, if_neg (by decide)]
    exact core
  case fields =>
    intro imm himm
    have hperm : decide (256 ≤ imm.toNat) = false := decide_eq_false (by omega)
    refine ⟨(kPure_of_closed hr hg hp hperm : execBperm k g sense imm s = _), fun hw => ?_⟩
    have hfield : (fieldImm imm).isNone = false := by rw [fieldImm_of_le himm hw]; rfl
    have field {n f} : kField s k g sense n imm f = _ := kPure_of_closed hr hg hp hfield
    exact ⟨field, field, field⟩

end Sys2Proof.Machine

/-! # What every step keeps (R55, R40 to R46)

Each operation of the model keeps three things of the state it starts from: the queue of commands, the fused identity
(life-cycle slots are only added), and the canonical form of the memories, registers, protection entries and
TRI table.  `Kept s0 s` says that `s` has kept them since `s0`.  The rules below say it of every operation in the order of
the model's files, each from the operations that it is built of; an operation that writes none of the parts looked at
is closed by `Kept.frame`. -/

namespace Sys2Proof.Machine
open Sys2Proof.Claims

/-- The fused identity stays, and life-cycle slots are only added to (R55, R423). -/
structure FuseKept (f g : Fuses) : Prop where
  variant : g.variant = f.variant
  devid : g.devid = f.devid
  step : g.step = f.step
  mgtMac : g.mgtMac = f.mgtMac
  uds : g.uds = f.uds
  cert : g.cert = f.cert
  tokens : g.tokens = f.tokens
  slots : ∃ l, g.slots = f.slots ++ l

/-- `s` has the queue and the fused identity of `s0`, and is in canonical form where `s0` is. -/
structure Kept (s0 s : State) : Prop where
  pending : s.pending = s0.pending
  fuse : FuseKept s0.fuse s.fuse
  canonical : Canonical s0 → Canonical s

/-- The state beside a value has kept what `Kept` says. -/
abbrev KeptSnd {α : Type} (s0 : State) (x : α × State) : Prop := Kept s0 x.2

/-- So has the state beside a value that may be absent. -/
def KeptOpt {α : Type} (s0 : State) (o : Option (α × State)) : Prop := ∀ x, o = some x → Kept s0 x.2

/-- So has the state of an operation that may trap. -/
def KeptExc {ε : Type} (s0 : State) (o : Except ε State) : Prop := ∀ t, o = .ok t → Kept s0 t

/-- So has the next state of a command. -/
def KeptRes (s0 : State) (r : Res) : Prop := ∀ t, r = .next t → Kept s0 t

/-- A command program keeps what it finds kept, whether it ends with a value or a status. -/
def KeptCmd {α : Type} (s0 : State) (m : Cmd α) : Prop := ∀ s, Kept s0 s → Kept s0 (m.run s).2

section
variable {s0 s t : State} {α β ε : Type} {c : Prop} [Decidable c]

theorem FuseKept.refl (f : Fuses) : FuseKept f f := ⟨rfl, rfl, rfl, rfl, rfl, rfl, rfl, [], (List.append_nil _).symm⟩

theorem Kept.refl (s : State) : Kept s s := ⟨rfl, .refl _, id⟩

/-- A state that differs in other parts than those `Kept` speaks of. -/
theorem Kept.frame {fresh aux balls time repairMap chipFault evr ports brakeOps mirrorBad hosts mdio sessions
    windows items nextItem ready cores saved prog progHash rings timers ctxs early laneQ sealQ lanes tenants booms
    answers leases held lookups devLocked shut keys recs nvm ctrs root dr maskGen cellGen sys activeTmks grants
    stateKeys sealed seedQ rawWin pair brakes brakeQ romQ tmp lcs si rules zones ucode curves hbcKeys}
    (h : Kept s0 s) :
    Kept s0 { s with
      fresh := fresh, aux := aux, balls := balls, time := time, repairMap := repairMap, chipFault := chipFault,
      evr := evr, ports := ports, brakeOps := brakeOps, mirrorBad := mirrorBad, hosts := hosts, mdio := mdio,
      sessions := sessions, windows := windows, items := items, nextItem := nextItem, ready := ready, cores :=
      cores, saved := saved, prog := prog, progHash := progHash, rings := rings, timers := timers, ctxs := ctxs,
      early := early, laneQ := laneQ, sealQ := sealQ, lanes := lanes, tenants := tenants, booms := booms,
      answers := answers, leases := leases, held := held, lookups := lookups, devLocked := devLocked, shut :=
      shut, keys := keys, recs := recs, nvm := nvm, ctrs := ctrs, root := root, dr := dr, maskGen := maskGen,
      cellGen := cellGen, sys := sys, activeTmks := activeTmks, grants := grants, stateKeys := stateKeys, sealed
      := sealed, seedQ := seedQ, rawWin := rawWin, pair := pair, brakes := brakes, brakeQ := brakeQ, romQ :=
      romQ, tmp := tmp, lcs := lcs, si := si, rules := rules, zones := zones, ucode := ucode, curves := curves,
      hbcKeys := hbcKeys } :=
  ⟨h.pending, h.fuse, h.canonical⟩

/-- A state with other memories, registers or tables, each in canonical form where it was. -/
theorem Kept.of_canonical (h : Kept s0 s) (hp : t.pending = s.pending) (hf : t.fuse = s.fuse)
    (hc : Canonical s → Canonical t) : Kept s0 t :=
  ⟨hp.trans h.pending, hf ▸ h.fuse, fun h0 => hc (h.canonical h0)⟩

theorem Kept.ite (h : Kept s0 s) (h' : Kept s0 t) : Kept s0 (if c then s else t) := by
  split
  · exact h
  · exact h'

theorem Kept.foldl {f : State → α → State} {l : List α} (h : Kept s0 s)
    (hf : ∀ s x, Kept s0 s → Kept s0 (f s x)) : Kept s0 (l.foldl f s) := by
  induction l generalizing s with
  | nil => exact h
  | cons x l ih => exact ih (hf s x h)

/-- A fold that carries a second value beside the state. -/
theorem Kept.foldl_fst {f : State × β → α → State × β} {l : List α} {b : β} (h : Kept s0 s)
    (hf : ∀ x a, Kept s0 x.1 → Kept s0 (f x a).1) : Kept s0 (l.foldl f (s, b)).1 := by
  suffices H : ∀ x : State × β, Kept s0 x.1 → Kept s0 (l.foldl f x).1 from H (s, b) h
  induction l with
  | nil => exact fun _ h => h
  | cons a l ih => exact fun x h => ih (f x a) (hf x a h)

/-! ## The parts in canonical form -/

/-- Another HBM. -/
theorem Kept.setHbm {m : List Host.Cell} (h : Kept s0 s) (hm : Memory.wf s.hbm = true → Memory.wf m = true) :
    Kept s0 { s with hbm := m } :=
  h.of_canonical rfl rfl fun ⟨hh, hs, hb, hr, hp, ha, hw⟩ => ⟨hm hh, hs, hb, hr, hp, ha, hw⟩

/-- Another control SRAM. -/
theorem Kept.setSram {m : List Host.Cell} (h : Kept s0 s) (hm : Memory.wf s.sram = true → Memory.wf m = true) :
    Kept s0 { s with sram := m } :=
  h.of_canonical rfl rfl fun ⟨hh, hs, hb, hr, hp, ha, hw⟩ => ⟨hh, hm hs, hb, hr, hp, ha, hw⟩

/-- Another frame buffer. -/
theorem Kept.setFb {m : List Host.Cell} (h : Kept s0 s) (hm : Memory.wf s.fb = true → Memory.wf m = true) :
    Kept s0 { s with fb := m } :=
  h.of_canonical rfl rfl fun ⟨hh, hs, hb, hr, hp, ha, hw⟩ => ⟨hh, hs, hm hb, hr, hp, ha, hw⟩

/-- Other protection entries. -/
theorem Kept.setMpus {m : SMap (Option MpuEntry)} (h : Kept s0 s)
    (hm : mwf (fun _ => none) s.mpus = true → mwf (fun _ => none) m = true) : Kept s0 { s with mpus := m } :=
  h.of_canonical rfl rfl fun ⟨hh, hs, hb, hr, hp, ha, hw⟩ => ⟨hh, hs, hb, hr, hm hp, ha, hw⟩

/-- Another TRI table. -/
theorem Kept.setTri {x : TriSt} (h : Kept s0 s)
    (ha : mwf (fun _ => 0) s.tri.active = true → mwf (fun _ => 0) s.tri.shadow = true → mwf (fun _ => 0) x.active = true)
    (hw : mwf (fun _ => 0) s.tri.active = true → mwf (fun _ => 0) s.tri.shadow = true → mwf (fun _ => 0) x.shadow = true) :
    Kept s0 { s with tri := x } :=
  h.of_canonical rfl rfl fun ⟨hh, hs, hb, hr, hp, ha0, hw0⟩ => ⟨hh, hs, hb, hr, hp, ha ha0 hw0, hw ha0 hw0⟩

/-- A fold of writes keeps the canonical form. -/
theorem mwf_foldl [DecidableEq α] {d : Nat → α} {f : SMap α → Nat → SMap α} {l : List Nat} {m : SMap α}
    (hf : ∀ m n, mwf d m = true → mwf d (f m n) = true) (hm : mwf d m = true) : mwf d (l.foldl f m) = true := by
  induction l generalizing m with
  | nil => exact hm
  | cons n l ih => exact ih (hf m n hm)

/-- Other marks of the TRI table, its two copies as they were. -/
theorem Kept.setTriMarks {locks hold bad : List Nat} (h : Kept s0 s) :
    Kept s0 { s with tri := { s.tri with locks := locks, hold := hold, bad := bad } } :=
  h.setTri (fun ha _ => ha) fun _ hw => hw

/-- A life-cycle slot more, and other life-cycle marks (R423). -/
theorem Kept.addSlot {w : Word} {lcs : LcsSt} (h : Kept s0 s) :
    Kept s0 { s with fuse := { s.fuse with slots := s.fuse.slots ++ [w] }, lcs := lcs } := by
  obtain ⟨hv, hd, hs, hm, hu, hc, ht, l, hl⟩ := h.fuse
  exact ⟨h.pending, ⟨hv, hd, hs, hm, hu, hc, ht, l ++ [w], by simp [hl]⟩, h.canonical⟩

/-! ## Results that hold a state -/

theorem KeptSnd.get {x : α × State} {a : α} (h : KeptSnd s0 x) (e : x = (a, t)) : Kept s0 t := by
  subst e
  exact h

theorem KeptSnd.ite {x y : α × State} (h : KeptSnd s0 x) (h' : KeptSnd s0 y) : KeptSnd s0 (if c then x else y) := by
  split
  · exact h
  · exact h'

theorem KeptOpt.get {o : Option (α × State)} {a : α} (h : KeptOpt s0 o) (e : o = some (a, t)) : Kept s0 t := h _ e

theorem KeptOpt.none : KeptOpt (α := α) s0 none := by
  intro x e
  cases e

theorem KeptOpt.some {x : α × State} (h : Kept s0 x.2) : KeptOpt s0 (some x) := by
  intro y e
  cases e
  exact h

theorem KeptOpt.map {o : Option β} {f : β → α × State} (h : ∀ x, Kept s0 (f x).2) : KeptOpt s0 (o.map f) := by
  cases o with
  | none => exact .none
  | some x => exact .some (h x)

theorem KeptOpt.ite {x y : Option (α × State)} (h : KeptOpt s0 x) (h' : KeptOpt s0 y) :
    KeptOpt s0 (if c then x else y) := by
  split
  · exact h
  · exact h'

theorem KeptExc.get {o : Except ε State} (h : KeptExc s0 o) (e : o = .ok t) : Kept s0 t := h t e

theorem KeptExc.ok (h : Kept s0 s) : KeptExc (ε := ε) s0 (.ok s) := by
  intro t e
  cases e
  exact h

theorem KeptExc.error {x : ε} : KeptExc s0 (.error x) := by
  intro t e
  cases e

theorem KeptExc.ite {x y : Except ε State} (h : KeptExc s0 x) (h' : KeptExc s0 y) :
    KeptExc s0 (if c then x else y) := by
  split
  · exact h
  · exact h'

theorem KeptRes.next (h : Kept s0 s) : KeptRes s0 (.next s) := by
  intro t e
  cases e
  exact h

theorem KeptRes.fault {r : Fault} : KeptRes s0 (.fault r) := by
  intro t e
  cases e

theorem KeptRes.ite {x y : Res} (h : KeptRes s0 x) (h' : KeptRes s0 y) : KeptRes s0 (if c then x else y) := by
  split
  · exact h
  · exact h'

theorem KeptCmd.pure {a : α} : KeptCmd s0 (Pure.pure a) := fun _ h => h

theorem KeptCmd.throw {st : Nat} : KeptCmd (α := α) s0 (MonadExcept.throw st) := fun _ h => h

theorem KeptCmd.bind {m : Cmd α} {f : α → Cmd β} (hm : KeptCmd s0 m) (hf : ∀ a, KeptCmd s0 (f a)) :
    KeptCmd s0 (m >>= f) := by
  intro s h
  have hm := hm s h
  change Kept s0 (ExceptT.run (ExceptT.bind m f) s).2
  simp only [ExceptT.run, ExceptT.bind, ExceptT.mk] at hm ⊢
  change Kept s0 (StateT.bind m (ExceptT.bindCont f) s).2
  simp only [StateT.bind]
  revert hm
  rcases m s with ⟨a | a, t⟩
  · exact id
  · exact hf a t

theorem KeptCmd.map {m : Cmd α} {f : α → β} (hm : KeptCmd s0 m) : KeptCmd s0 (f <$> m) := by
  have hb : f <$> m = m >>= fun a => Pure.pure (f a) := map_eq_pure_bind f m
  rw [hb]
  exact .bind hm fun _ => .pure

theorem KeptCmd.get {f : State → Cmd β} (hf : ∀ s, Kept s0 s → KeptCmd s0 (f s)) :
    KeptCmd s0 (MonadState.get >>= f) := fun s h => hf s h s h

theorem KeptCmd.set (h : Kept s0 s) : KeptCmd s0 (MonadStateOf.set s) := fun _ _ => h

theorem KeptCmd.modifies {f : State → State} (hf : ∀ s, Kept s0 s → Kept s0 (f s)) : KeptCmd s0 (modify f) :=
  fun s h => hf s h

theorem KeptCmd.ite {x y : Cmd α} (h : KeptCmd s0 x) (h' : KeptCmd s0 y) : KeptCmd s0 (if c then x else y) := by
  split
  · exact h
  · exact h'

end

/-! ## The operations, in the order of the model's files -/

section
variable {s0 s : State}

/-! ### Regs -/

theorem Kept.setReg {p : PageId} {off : Nat} {v : Word} (h : Kept s0 s) : Kept s0 (s.setReg p off v) :=
  h.of_canonical rfl rfl fun ⟨hh, hs, hb, hr, hm, ha, hw⟩ =>
    ⟨hh, hs, hb, mwf_mset resetWord s.regs _ v hr, hm, ha, hw⟩

theorem Kept.setFld {p : PageId} {f : Fld} {n : Nat} (h : Kept s0 s) : Kept s0 (s.setFld p f n) :=
  h.setReg

theorem Kept.setFlag {p : PageId} {f : Fld} {b : Bool} (h : Kept s0 s) : Kept s0 (s.setFlag p f b) :=
  h.setFld

theorem Kept.bump {p : PageId} {f : Fld} {n : Nat} (h : Kept s0 s) : Kept s0 (s.bump p f n) :=
  h.setFld

theorem Kept.bumpSat {p : PageId} {f : Fld} (h : Kept s0 s) : Kept s0 (s.bumpSat p f) :=
  h.setFld

theorem Kept.setAux {p : PageId} {x : PageAux} (h : Kept s0 s) : Kept s0 (s.setAux p x) :=
  h.frame

/-! ### Ops -/

theorem Kept.onComplex {k : Res} (h : Kept s0 s) (hk : KeptRes s0 k) : KeptRes s0 (Machine.onComplex s k) :=
  .ite hk (.next h)

theorem Kept.setItem {i : Nat} {v : Option Item} (h : Kept s0 s) : Kept s0 (s.setItem i v) :=
  h.frame

theorem Kept.setSession {i : Nat} {v : Option Session} (h : Kept s0 s) : Kept s0 (s.setSession i v) :=
  h.frame

theorem Kept.setHost {i : Nat} {v : Option HostEntry} (h : Kept s0 s) : Kept s0 (s.setHost i v) :=
  h.frame

theorem Kept.setCtx {r i : Nat} {v : Ctx} (h : Kept s0 s) : Kept s0 (s.setCtx r i v) :=
  h.frame

theorem Kept.setTenant {t' : Nat} {v : Tenant} (h : Kept s0 s) : Kept s0 (s.setTenant t' v) :=
  h.frame

theorem Kept.countRefused {t' : Nat} (h : Kept s0 s) : Kept s0 (Machine.countRefused s t') := by
  unfold Machine.countRefused
  exact h.setTenant

theorem Kept.quotaCounted {t' st : Nat} (h : Kept s0 s) : Kept s0 (Machine.quotaCounted s t' st) := by
  unfold Machine.quotaCounted
  exact .ite h.countRefused h

theorem Kept.setCore {k : Nat} {c : Core} (h : Kept s0 s) : Kept s0 (s.setCore k c) :=
  h.frame

theorem Kept.setPort {p : Nat} {v : PortSt} (h : Kept s0 s) : Kept s0 (s.setPort p v) :=
  h.frame

theorem Kept.takeFresh {n : Nat} (h : Kept s0 s) : Kept s0 (s.takeFresh n) :=
  h.frame

theorem Kept.setIrq {p : PageId} {bit : Nat} (h : Kept s0 s) : Kept s0 (Machine.setIrq s p bit) := by
  unfold Machine.setIrq
  exact h.setFlag

theorem Kept.setState {p : PageId} {st : Nat} (h : Kept s0 s) : Kept s0 (Machine.setState s p st) := by
  unfold Machine.setState
  exact .ite (.setIrq h.setFld) h.setFld

theorem Kept.postEvent {p : PageId} {code : Nat} {p0 p1 p2 p3 : Word} (h : Kept s0 s) :
    Kept s0 (Machine.postEvent s p code p0 p1 p2 p3) := by
  unfold Machine.postEvent
  extract_lets _ _ s1 s2
  have h1 : Kept s0 s1 := h.bump
  have h2 : Kept s0 s2 := h.bump
  exact .ite h (.ite h1.frame (.ite (.setIrq h2.frame) h.frame))

theorem Kept.raiseErrs {p : PageId} {clss : List Nat} {code : Nat} {tenant addr : Word} (h : Kept s0 s) :
    Kept s0 (Machine.raiseErrs s p clss code tenant addr) := by
  unfold Machine.raiseErrs
  extract_lets _ _ s1
  have h1 : Kept s0 s1 := .foldl (.ite h.setFlag (.ite h h.setFld)) (fun _ _ h2 => h2.setFlag)
  exact .ite h1 (.postEvent h1.setIrq)

theorem Kept.raiseErr {p : PageId} {cls code : Nat} {tenant addr : Word} (h : Kept s0 s) :
    Kept s0 (Machine.raiseErr s p cls code tenant addr) := by
  unfold Machine.raiseErr
  exact h.raiseErrs

theorem Kept.failPage {p : PageId} {code : Nat} {parity : Bool} {tenant addr : Word} (h : Kept s0 s) :
    Kept s0 (Machine.failPage s p code parity tenant addr) := by
  unfold Machine.failPage
  exact .setState (.raiseErrs h.bumpSat)

theorem Kept.reportUncorrected {p : PageId} {code : Nat} {addr : Word} (h : Kept s0 s) :
    Kept s0 (Machine.reportUncorrected s p code addr) := by
  unfold Machine.reportUncorrected
  exact .raiseErr h.bumpSat

theorem Kept.accessErr {p : PageId} (h : Kept s0 s) : Kept s0 (Machine.accessErr s p) := by
  unfold Machine.accessErr
  exact h.raiseErr

theorem Kept.pmcAdd {r c n : Nat} (h : Kept s0 s) : Kept s0 (Machine.pmcAdd s r c n) := by
  unfold Machine.pmcAdd
  extract_lets _ s9
  have h9 : Kept s0 s9 := .setFld h.setFld
  exact .ite h9 (.setIrq h9.setFlag)

theorem Kept.pmcEvent {r code : Nat} {tenant : Option Nat} {n : Nat} (h : Kept s0 s) :
    Kept s0 (Machine.pmcEvent s r code tenant n) := by
  unfold Machine.pmcEvent
  exact .ite h (.foldl h (fun _ _ h1 => .ite h1.pmcAdd h1))

theorem Kept.clsDrop {r : Nat} {f : Fld} {t' : Option Nat} (h : Kept s0 s) : Kept s0 (Machine.clsDrop s r f t') := by
  unfold Machine.clsDrop
  exact .pmcEvent h.bump

theorem Kept.ctxStore {r off : Nat} {b : Bytes} (h : Kept s0 s) : Kept s0 (Machine.ctxStore s r off b) := by
  unfold Machine.ctxStore
  exact .foldl h (fun _ _ h1 => .ite h1.setCtx h1)

theorem Kept.fabricWrite {r k a : Nat} {b : Bytes} (h : Kept s0 s) : Kept s0 (Machine.fabricWrite s r k a b) := by
  unfold Machine.fabricWrite
  split
  · exact h.setCore
  · exact h.setFb (memWrite_wf _ _ _)
  · exact h.ctxStore
  · exact h.setHbm (memWrite_wf _ _ _)
  · exact h

theorem Kept.physWrite {a : Nat} {b : Bytes} (h : Kept s0 s) : Kept s0 (Machine.physWrite s a b) := by
  unfold Machine.physWrite
  exact .ite (h.setHbm (memWrite_wf _ _ _)) (.ite (h.setSram (memWrite_wf _ _ _)) h)

/-! ### Commands -/

theorem Kept.setLease {k : Nat} {l : Option Lease} (h : Kept s0 s) : Kept s0 (s.setLease k l) :=
  h.frame

theorem Kept.leaseTop {k next block cap : Nat} (h : Kept s0 s) : Kept s0 (Machine.leaseTop s k next block cap) := by
  unfold Machine.leaseTop
  refine .ite ?_ h
  split
  · exact .ite h.setLease h
  · exact h

theorem Kept.leaseGrant {k next block cap : Nat} (h : Kept s0 s) :
    Kept s0 (Machine.leaseGrant s k next block cap) := by
  unfold Machine.leaseGrant
  exact .ite h.setLease h

/-! ### Jobs -/

theorem Kept.setQueue {r : Nat} {u : UnitKind} {q : List Job} (h : Kept s0 s) : Kept s0 (s.setQueue r u q) :=
  h.frame

theorem Kept.setLane {p : PageId} {l : LaneSt} (h : Kept s0 s) : Kept s0 (s.setLane p l) :=
  h.frame

theorem Kept.returnPrefetch {p : PageId} (h : Kept s0 s) : Kept s0 (Machine.returnPrefetch s p) := by
  unfold Machine.returnPrefetch
  split
  · exact .setQueue h.setLane
  · exact h

theorem Kept.setSeals {r : Nat} {q : List SealJob} (h : Kept s0 s) : Kept s0 (s.setSeals r q) :=
  h.frame

theorem Kept.returnSeal {p : PageId} (h : Kept s0 s) : Kept s0 (Machine.returnSeal s p) := by
  unfold Machine.returnSeal
  split
  · exact .setSeals h.setLane
  · exact h

theorem Kept.discardCurrent {p : PageId} {st : Option Nat} (h : Kept s0 s) :
    Kept s0 (Machine.discardCurrent s p st) := by
  unfold Machine.discardCurrent
  split
  · exact .bump h.setLane
  · exact h

theorem Kept.squashLane {k : Nat} {p : PageId} (h : Kept s0 s) : Kept s0 (Machine.squashLane k s p) := by
  unfold Machine.squashLane
  extract_lets _ _ _
  split
  · exact .ite (.discardCurrent h.setLane) h.setLane
  · exact h.setLane

theorem Kept.squashJobs {k : Nat} (h : Kept s0 s) : Kept s0 (Machine.squashJobs s k) := by
  unfold Machine.squashJobs
  extract_lets _ drop23 s2
  have h3 : ∀ x0 x1, Kept s0 x0 → Kept s0 (drop23 x0 x1) := fun _ _ h4 => .foldl h4.setQueue
    (fun _ _ h5 => h5.squashLane)
  have h2 : Kept s0 s2 := h3 _ _ (h3 _ _ (h3 _ _ h))
  exact h2.frame

/-! ### Egress -/

theorem Kept.countDisc {p n : Nat} (h : Kept s0 s) : Kept s0 (Machine.countDisc s p n) := by
  unfold Machine.countDisc
  exact .ite h.bump h.bump

theorem Kept.startTx {p : Nat} (h : Kept s0 s) : Kept s0 (Machine.startTx s p) := by
  unfold Machine.startTx
  extract_lets _
  refine .ite h ?_
  split
  · exact h.setPort
  · exact h

theorem Kept.queueResp {p : Nat} {x : Resp} (h : Kept s0 s) : Kept s0 (Machine.queueResp s p x) := by
  unfold Machine.queueResp
  exact .ite h.bump (.ite (.startTx h.setPort) h.countDisc)

theorem Kept.launch {i : Item} {host : Option Nat} {session status seq : Nat} {payload body : Bytes} (h : Kept s0 s) :
    Kept s0 (Machine.launch s i host session status seq payload body) := by
  unfold Machine.launch
  exact .queueResp h.takeFresh

theorem Kept.closeSession {id : Nat} (h : Kept s0 s) : Kept s0 (Machine.closeSession s id) := by
  unfold Machine.closeSession
  split
  · exact h
  · extract_lets s1 s2 _ s3
    have h1 : Kept s0 s1 := h.setSession
    have h2 : Kept s0 s2 := h1.frame
    have h3 : Kept s0 s3 := .ite h2 h2.frame
    split
    · exact h3
    · split
      · exact .ite h3.setHost h3
      · exact h3

theorem Kept.sendSealed {x : SealJob} (h : Kept s0 s) : Kept s0 (Machine.sendSealed s x) := by
  unfold Machine.sendSealed
  exact .ite (.pmcEvent h.launch) h.launch

theorem Kept.respondSend {i : Item} {status : Nat} {payload : Bytes} {dup : Bool} (h : Kept s0 s) :
    Kept s0 (Machine.respondSend s i status payload dup) := by
  unfold Machine.respondSend
  split
  · exact h
  · extract_lets _ _ _ _ _ _ s1
    have h1 : Kept s0 s1 := .ite (.sendSealed (.leaseTop h.setSession)) (.setSeals (.leaseTop h.setSession))
    exact .ite h.closeSession (.ite h1.closeSession h1)

theorem Kept.respondOn {i : Item} {status : Nat} {payload : Bytes} {dup changing : Bool} (h : Kept s0 s) :
    Kept s0 (Machine.respondOn s i status payload dup changing) := by
  unfold Machine.respondOn
  exact .ite h.frame (.ite h.respondSend h.frame)

theorem Kept.respondPlain {i : Item} {session seq status : Nat} {payload : Bytes} (h : Kept s0 s) :
    Kept s0 (Machine.respondPlain s i session seq status payload) := by
  unfold Machine.respondPlain
  exact h.launch

theorem Kept.postCompletion {r : Nat} {index : Option Nat} {tag : Word} {status : Nat} {payload : Bytes}
    (h : Kept s0 s) :
    Kept s0 (Machine.postCompletion s r index tag status payload) := by
  unfold Machine.postCompletion
  extract_lets _ s1 _ _ _ s2 _
  have h1 : Kept s0 s1 := by
    unfold s1
    split
    · exact h.physWrite
    · exact h
  have h2 : Kept s0 s2 := .setFld h1.physWrite
  exact .setIrq (.takeFresh h2.frame)

theorem Kept.tagEgress {i : Item} {status : Nat} (h : Kept s0 s) : Kept s0 (Machine.tagEgress s i status) := by
  unfold Machine.tagEgress
  split
  · exact h
  · exact .ite h (.bumpSat (.setFld (.foldl h (fun _ _ h1 => h1.setFld))))

/-! ### Items -/

theorem Kept.sendPause {p quanta : Nat} (h : Kept s0 s) : Kept s0 (Machine.sendPause s p quanta) := by
  unfold Machine.sendPause
  exact .ite h h.setPort

theorem Kept.xoffCheck {p : Nat} (h : Kept s0 s) : Kept s0 (Machine.xoffCheck s p) := by
  unfold Machine.xoffCheck
  exact .ite (.setFlag h.sendPause) h

theorem Kept.xonCheck {p : Nat} (h : Kept s0 s) : Kept s0 (Machine.xonCheck s p) := by
  unfold Machine.xonCheck
  exact .ite (.setFlag h.sendPause) h

theorem Kept.spaceTaken {r p : Nat} (h : Kept s0 s) : Kept s0 (Machine.spaceTaken s r p) := by
  unfold Machine.spaceTaken
  exact .ite (.foldl h (fun _ _ h1 => h1.xoffCheck)) (.ite h.xoffCheck h)

theorem Kept.spaceFreed {r : Nat} (h : Kept s0 s) : Kept s0 (Machine.spaceFreed s r) := by
  unfold Machine.spaceFreed
  exact .foldl h (fun _ _ h1 => h1.xonCheck)

theorem Kept.releaseBuffer {i : Item} (h : Kept s0 s) : Kept s0 (Machine.releaseBuffer s i) := by
  unfold Machine.releaseBuffer
  extract_lets s7 _ _
  have h7 : Kept s0 s7 := by
    unfold s7
    split
    · exact h.setItem
    · exact h
  exact .ite h7 (.ite (.spaceFreed h7.setPort) (.ite h7.spaceFreed h7))

theorem Kept.wipeCtx {r idx : Nat} (h : Kept s0 s) : Kept s0 (Machine.wipeCtx s r idx) := by
  unfold Machine.wipeCtx
  exact h.setCtx

theorem Kept.wipeAnswer {r idx : Nat} (h : Kept s0 s) : Kept s0 (Machine.wipeAnswer s r idx) := by
  unfold Machine.wipeAnswer
  extract_lets _ s7
  have h7 : Kept s0 s7 := h.wipeCtx
  exact h7.frame

theorem Kept.unlockCtx {r idx : Nat} (h : Kept s0 s) : Kept s0 (Machine.unlockCtx s r idx) := by
  unfold Machine.unlockCtx
  exact .ite h.wipeAnswer h.setCtx

theorem Kept.dupUpdate {i : Item} {f : List DupEntry → List DupEntry} (h : Kept s0 s) :
    Kept s0 (Machine.dupUpdate s i f) := by
  unfold Machine.dupUpdate
  split
  · exact h.frame
  · exact h

theorem Kept.dupEnter {i : Item} (h : Kept s0 s) : Kept s0 (Machine.dupEnter s i) := by
  unfold Machine.dupEnter
  exact h.dupUpdate

theorem Kept.dupRemove {i : Item} (h : Kept s0 s) : Kept s0 (Machine.dupRemove s i) := by
  unfold Machine.dupRemove
  exact .ite h h.dupUpdate

theorem Kept.dupCommit {i : Item} {status : Nat} {result : Bytes} (h : Kept s0 s) :
    Kept s0 (Machine.dupCommit s i status result) := by
  unfold Machine.dupCommit
  exact h.dupUpdate

theorem Kept.clearCore {k : Nat} (h : Kept s0 s) : Kept s0 (Machine.clearCore s k) := by
  unfold Machine.clearCore
  exact .bump (.setCore h.squashJobs)

theorem Kept.cancelWake {r id : Nat} (h : Kept s0 s) : Kept s0 (Machine.cancelWake s r id) :=
  h.frame

theorem Kept.setReady {r l : Nat} {v : List Nat} (h : Kept s0 s) : Kept s0 (s.setReady r l v) :=
  h.frame

theorem Kept.unready {i : Item} (h : Kept s0 s) : Kept s0 (Machine.unready s i) := by
  unfold Machine.unready
  exact h.setReady

theorem Kept.releaseItem {i : Item} (h : Kept s0 s) : Kept s0 (Machine.releaseItem s i) := by
  unfold Machine.releaseItem
  extract_lets _ s1 s2 _
  have h1 : Kept s0 s1 := by
    unfold s1
    split
    · exact h.unready
    · exact h.setCore
    · exact h.clearCore
    · exact .cancelWake h.unready
  have h2 : Kept s0 s2 := .releaseBuffer h1.frame
  exact .setItem (.ite h2.unlockCtx h2)

theorem Kept.settleClose {id : Nat} (h : Kept s0 s) : Kept s0 (Machine.settleClose s id) := by
  unfold Machine.settleClose
  split
  · split
    · exact .ite h (.tagEgress (.respondOn h.setSession))
    · exact h
  · exact h

theorem Kept.dropItemRaw {i : Item} (h : Kept s0 s) : Kept s0 (Machine.dropItemRaw s i) := by
  unfold Machine.dropItemRaw
  exact .settleClose (.dupRemove h.releaseItem)

theorem Kept.endItemRaw {i : Item} {status : Nat} {payload : Bytes} {changing : Bool} (h : Kept s0 s) :
    Kept s0 (Machine.endItemRaw s i status payload changing) := by
  unfold Machine.endItemRaw
  extract_lets _ s1 s2
  have h1 : Kept s0 s1 := .ite h.releaseItem (.dupRemove h.releaseItem)
  have h2 : Kept s0 s2 := .ite (.pmcEvent h1.bump) h1
  exact .ite (.tagEgress h2.postCompletion) (.ite (.tagEgress h2.respondPlain) (.ite (.settleClose
    (.tagEgress h2.respondOn)) h2.frame))

/-! ### Clock -/

theorem Kept.occTick {r c n : Nat} (h : Kept s0 s) : Kept s0 (Machine.occTick s r c n) := by
  unfold Machine.occTick
  refine .ite ?_ h
  split
  · exact .ite h.pmcAdd h
  · exact h

theorem Kept.occTicks {r n : Nat} (h : Kept s0 s) : Kept s0 (Machine.occTicks s r n) := by
  unfold Machine.occTicks
  exact .ite h (.foldl h (fun _ _ h1 => h1.occTick))

theorem Kept.advance {n : Nat} (h : Kept s0 s) : Kept s0 (Machine.advance s n) := by
  unfold Machine.advance
  exact .ite h (.foldl h.frame (fun _ _ h3 => h3.occTicks))

theorem Kept.advanceTo {t' : Nat} (h : Kept s0 s) : Kept s0 (Machine.advanceTo s t') := by
  unfold Machine.advanceTo
  exact h.advance

/-! ### Mpu -/

theorem Kept.mpuRefuse {m : Nat} {x : Access} {space a : Nat} (h : Kept s0 s) :
    Kept s0 (Machine.mpuRefuse s m x space a) := by
  unfold Machine.mpuRefuse
  exact .ite (.raiseErr h.bump) (.setIrq (.setFld (.setFlag (.setFld (.setFld (.setFlag (.setFlag (.setFlag
    (.setFlag (.setFld (.setFld (.raiseErr h.bump))))))))))))

theorem Kept.mpuRange {m : Nat} {x : Access} {a n : Nat} (h : Kept s0 s) :
    KeptSnd s0 (Machine.mpuRange s m x a n) := by
  unfold Machine.mpuRange
  split
  · exact h
  · exact h.mpuRefuse

theorem Kept.fabricRange {m r : Nat} {x : Access} {a n : Nat} (h : Kept s0 s) :
    KeptSnd s0 (Machine.fabricRange s m r x a n) := by
  unfold Machine.fabricRange
  extract_lets sp off
  refine .ite h (.ite h (.ite h.mpuRefuse ?_))
  clear_value sp
  split
  · exact h
  · exact .ite h h.mpuRefuse
  · split
    · exact h
    · exact h.mpuRefuse
  · exact h.mpuRange

theorem Kept.fabricRanges {m r : Nat} {tenant : Option Nat} {priv : Bool} {l : List (AccessKind × Nat × Nat)}
    (h : Kept s0 s) : KeptSnd s0 (Machine.fabricRanges s m r tenant priv l) := by
  induction l generalizing s with
  | nil => exact h
  | cons e l ih =>
    rw [Machine.fabricRanges]
    split
    next t e => exact ih (h.fabricRange.get e)
    next t e => exact h.fabricRange.get e

/-- A protection entry and its register are written together. -/
theorem Kept.setMpuEntry {p : PageId} {off : Nat} {w : Word} {k : Nat} {e : Option MpuEntry} (h : Kept s0 s) :
    Kept s0 { s.setReg p off w with mpus := oset s.mpus k e } :=
  h.setReg.setMpus (mwf_mset _ _ _ _)

theorem Kept.execMpuEntryWrite {m i : Nat} {cfg : Word} (h : Kept s0 s) :
    KeptRes s0 (Machine.execMpuEntryWrite m i cfg s) := by
  unfold Machine.execMpuEntryWrite
  exact .onComplex h (.ite (.next h) (.ite (.next h.setMpuEntry) (.next h.raiseErr)))

theorem Kept.execMpuParityError {m : Nat} (h : Kept s0 s) : KeptRes s0 (Machine.execMpuParityError m s) := by
  unfold Machine.execMpuParityError
  exact .ite (.next h) (.next h.failPage)

/-! ### Boom -/

theorem Kept.setBoom {r : Nat} {b : Boom} (h : Kept s0 s) : Kept s0 (s.setBoom r b) :=
  h.frame

theorem Kept.boomDraw {r n : Nat} {tenant : Option Nat} (h : Kept s0 s) :
    KeptSnd s0 (Machine.boomDraw s r n tenant) := by
  unfold Machine.boomDraw
  exact .ite (.pmcEvent (.ite (.setIrq h.setBoom) h.setBoom)) (.pmcEvent h.bump)

theorem Kept.boomBytes {r n : Nat} {tenant : Option Nat} (h : Kept s0 s) :
    KeptSnd s0 (Machine.boomBytes s r n tenant) := by
  unfold Machine.boomBytes
  split
  next _ t1 e0 =>
    have h1 := h.boomDraw.get e0
    exact h1
  next t3 e1 =>
    have h3 := h.boomDraw.get e1
    exact h3

/-! ### Tasks -/

theorem Kept.commitCtx {i : Item} {c : Core} (h : Kept s0 s) : Kept s0 (Machine.commitCtx s i c) := by
  unfold Machine.commitCtx
  split
  · exact h
  · exact h.setCtx

theorem Kept.commitDone {k : Nat} {i : Item} {addr len status : Nat} (h : Kept s0 s) :
    Kept s0 (Machine.commitDone s k i addr len status) := by
  unfold Machine.commitDone
  exact .ite (.endItemRaw (.dupCommit (.takeFresh h.commitCtx))) h.endItemRaw

theorem Kept.wakeCore {k : Nat} (h : Kept s0 s) : Kept s0 (Machine.wakeCore s k) := by
  unfold Machine.wakeCore
  extract_lets _
  split
  · exact .ite h h.setCore
  · refine .ite ?_ h
    split
    · exact h.commitDone
    · exact h
  · exact h

theorem Kept.completeRaw {k n : Nat} {word : Bytes} (h : Kept s0 s) : Kept s0 (Machine.completeRaw s k n word) := by
  unfold Machine.completeRaw
  exact .ite (.wakeCore h.setCore) h

theorem Kept.ctxOpDone {r status : Nat} (h : Kept s0 s) : Kept s0 (Machine.ctxOpDone s r status) := by
  unfold Machine.ctxOpDone
  exact .setIrq (.setFlag h.setFld)

theorem Kept.settle {n : Nat} (h : Kept s0 s) : Kept s0 (Machine.settle n s) := by
  induction n generalizing s with
  | zero => exact h
  | succ n ih =>
    rw [Machine.settle]
    split
    · exact h
    next k sl l _ =>
      have h1 : Kept s0 { s with answers := l } := h.frame
      exact ih (.ite h1.ctxOpDone h1.completeRaw)

theorem Kept.complete {k n : Nat} {word : Bytes} (h : Kept s0 s) : Kept s0 (Machine.complete s k n word) := by
  unfold Machine.complete
  exact .settle h.completeRaw

theorem Kept.endItem {i : Item} {status : Nat} {payload : Bytes} {changing : Bool} (h : Kept s0 s) :
    Kept s0 (Machine.endItem s i status payload changing) := by
  unfold Machine.endItem
  exact .settle h.endItemRaw

theorem Kept.dropItem {i : Item} (h : Kept s0 s) : Kept s0 (Machine.dropItem s i) := by
  unfold Machine.dropItem
  exact .settle h.dropItemRaw

/-! ### Contexts -/

theorem Kept.ctxDraw {r idx : Nat} (h : Kept s0 s) : KeptSnd s0 (Machine.ctxDraw s r idx) := by
  unfold Machine.ctxDraw
  exact .ite h (.ite h (.ite h (.pmcEvent (.leaseTop (.bump h.setCtx)))))

theorem Kept.ctxMake {id : Word} {t' : Nat} {body : Bytes} {bound : Word} (h : Kept s0 s) :
    Kept s0 (Machine.ctxMake s id t' body bound) := by
  unfold Machine.ctxMake
  exact .ite (.leaseGrant h.setCtx) h.setCtx

theorem Kept.ctxWipe {r idx : Nat} (h : Kept s0 s) : Kept s0 (Machine.ctxWipe s r idx) := by
  unfold Machine.ctxWipe
  exact .ite h (.ite h.setCtx h.wipeAnswer)

theorem Kept.ctxWipeNow {r idx : Nat} (h : Kept s0 s) : Kept s0 (Machine.ctxWipeNow s r idx) := by
  unfold Machine.ctxWipeNow
  exact .settle h.wipeAnswer

theorem Kept.storeDraw {k n : Nat} {i : Item} {desc : Bytes} (h : Kept s0 s) :
    Kept s0 (Machine.storeDraw s k n i desc) := by
  unfold Machine.storeDraw
  extract_lets _
  refine .ite h.complete ?_
  split
  next _ t7 e0 =>
    have h7 := h.ctxDraw.get e0
    split
    · exact h7.complete
    · exact h7.complete

theorem Kept.storeFetch {k n : Nat} {i : Item} {desc : Bytes} (h : Kept s0 s) :
    Kept s0 (Machine.storeFetch s k n i desc) := by
  unfold Machine.storeFetch
  extract_lets _ _ _
  split
  · exact h.complete
  · split
    · exact .ite h.complete (.ite h.complete (.complete h.setCore))
    · exact h.complete

theorem Kept.storeCreate {k n seg : Nat} {i : Item} {desc : Bytes} (h : Kept s0 s) :
    Kept s0 (Machine.storeCreate s k n seg i desc) := by
  unfold Machine.storeCreate
  extract_lets _ _ _ _
  split
  · exact .complete h.quotaCounted
  · exact .ite h.complete (.complete h.ctxMake)

theorem Kept.storeDelete {k n seg : Nat} {i : Item} {desc : Bytes} (h : Kept s0 s) :
    Kept s0 (Machine.storeDelete s k n seg i desc) := by
  unfold Machine.storeDelete
  extract_lets _ _
  split
  · exact h.complete
  · refine .ite h.complete ?_
    split
    · exact .ite h.complete (.ite (.complete h.setCore) (.ite h.setCtx (.complete h.wipeAnswer)))
    · exact h.complete

theorem Kept.execCtxOpCreate {r : Nat} (h : Kept s0 s) : KeptRes s0 (Machine.execCtxOpCreate r s) := by
  unfold Machine.execCtxOpCreate
  refine .onComplex h ?_
  refine .ite (.next h) ?_
  extract_lets _ _
  split
  · exact .next (.ctxOpDone h.quotaCounted)
  · exact .next (.ctxOpDone h.ctxMake)

theorem Kept.execCtxOpDelete {r : Nat} (h : Kept s0 s) : KeptRes s0 (Machine.execCtxOpDelete r s) := by
  unfold Machine.execCtxOpDelete
  refine .onComplex h ?_
  refine .ite (.next h) ?_
  extract_lets _
  split
  · exact .next h.ctxOpDone
  · split
    · exact .ite (.next (.setFlag h.setCtx)) (.next (.settle (.ctxOpDone h.wipeAnswer)))
    · exact .next h.ctxOpDone

theorem Kept.execContextWindowWrite {r off : Nat} {b : Bytes} (h : Kept s0 s) :
    KeptRes s0 (Machine.execContextWindowWrite r off b s) := by
  unfold Machine.execContextWindowWrite
  exact .onComplex h (.ite (.next h) (.ite (.next h.accessErr) (.next h.setCtx)))

theorem Kept.ctxExpire {id : Word} (h : Kept s0 s) : Kept s0 (Machine.ctxExpire s id) := by
  unfold Machine.ctxExpire
  split
  · exact .settle (.ctxWipe (.bump h.setCtx))
  · exact h

/-! ### Vault -/

theorem Kept.setCtr {n : Nat} {c : Ctr} (h : Kept s0 s) : Kept s0 (s.setCtr n c) :=
  h.frame

theorem Kept.ctrWrite {n v : Nat} (h : Kept s0 s) : Kept s0 (Machine.ctrWrite s n v) := by
  unfold Machine.ctrWrite
  exact h.setCtr

theorem Kept.ctrTake {n v : Nat} (h : Kept s0 s) : Kept s0 (Machine.ctrTake s n v) := by
  unfold Machine.ctrTake
  exact h.setCtr

theorem Kept.setMeas {n : Nat} {d : Bytes} (h : Kept s0 s) : Kept s0 (Machine.setMeas s n d) := by
  unfold Machine.setMeas
  exact .foldl h (fun _ _ h1 => h1.setReg)

theorem Kept.maskBytes {n : Nat} (h : Kept s0 s) : KeptSnd s0 (Machine.maskBytes s n) :=
  h.frame

theorem Kept.rootMask {n : Nat} (h : Kept s0 s) : KeptSnd s0 (Machine.rootMask s n) := by
  unfold Machine.rootMask
  exact .ite h.maskBytes h.frame

theorem Kept.putCells {p : Nat} {img : Bytes} (h : Kept s0 s) : Kept s0 (Machine.putCells s p img) :=
  h.frame

theorem Kept.putImage {n wseq : Nat} {img : Bytes} {keep : Bool} (h : Kept s0 s) :
    Kept s0 (Machine.putImage s n wseq img keep) := by
  unfold Machine.putImage
  exact .putCells h.frame

theorem Kept.freeRec {n : Nat} (h : Kept s0 s) : Kept s0 (Machine.freeRec s n) := by
  unfold Machine.freeRec
  split
  · exact h
  · exact .putImage h.frame

theorem Kept.writeRec {n : Nat} {x : Rec} (h : Kept s0 s) : Kept s0 (Machine.writeRec s n x) := by
  unfold Machine.writeRec
  exact .putImage h.frame

theorem Kept.keepRecs {keep : Rec → Bool} (h : Kept s0 s) : Kept s0 (Machine.keepRecs s keep) :=
  h.frame

theorem Kept.takeAllowance {n : Nat} (h : Kept s0 s) : Kept s0 (Machine.takeAllowance s n) := by
  unfold Machine.takeAllowance
  exact h.setFld

theorem Kept.putCurve {n : Nat} {e : Option CurveEntry} (h : Kept s0 s) : Kept s0 (Machine.putCurve s n e) := by
  unfold Machine.putCurve
  exact .frame (h.setHbm (memWrite_wf _ (curveAddr s n) (curveImage e)))

theorem Kept.clearCurves (h : Kept s0 s) : Kept s0 (Machine.clearCurves s) := by
  unfold Machine.clearCurves
  extract_lets s3
  have h3 : Kept s0 s3 := .foldl h (fun _ _ h5 => h5.putCurve)
  exact h3.frame

theorem Kept.rebaseCurves (h : Kept s0 s) : Kept s0 (Machine.rebaseCurves s) :=
  h.frame

theorem Kept.countResolve {r : Except Nat KeyVal} (h : Kept s0 s) : Kept s0 (Machine.countResolve s r) := by
  unfold Machine.countResolve
  extract_lets _
  split
  · exact .ite (.bump h.bump) h.bump
  · exact h.bump

theorem Kept.resolveKey {h' : Word} (h : Kept s0 s) : KeptSnd s0 (Machine.resolveKey s h') := by
  unfold Machine.resolveKey
  exact h.countResolve

theorem Kept.resolveCred {h' : Word} (h : Kept s0 s) : KeptSnd s0 (Machine.resolveCred s h') := by
  unfold Machine.resolveCred
  exact h.countResolve

theorem Kept.putCache {slot t' : Nat} {attr bits : Bytes} {parent parentGen : Nat} {opt : Bytes} {bound : Word}
    {session : Bool} (h : Kept s0 s) :
    Kept s0 (Machine.putCache s slot t' attr bits parent parentGen opt bound session) := by
  unfold Machine.putCache
  split
  next _ t1 e0 =>
    have h1 := h.maskBytes.get e0
    exact h1.frame

theorem Kept.putVault {slot t' : Nat} {attr bits tmk : Bytes} {parent parentGen : Nat} {opt : Bytes} {bound : Word}
    (h : Kept s0 s) :
    Kept s0 (Machine.putVault s slot t' attr bits tmk parent parentGen opt bound) := by
  unfold Machine.putVault
  exact .takeAllowance (.foldl h (fun _ _ h7 => h7.writeRec))

theorem Kept.placeKey {cls t' : Nat} {attr bits opt : Bytes} {bound : Word} (h : Kept s0 s) :
    KeptOpt s0 (Machine.placeKey s cls t' attr bits opt bound) := by
  unfold Machine.placeKey
  extract_lets _
  split
  · exact .none
  · refine .ite (.map (fun _ => h.putCache)) ?_
    split
    · exact .some h.putVault
    · exact .none

theorem Kept.removeKey {h' : Word} (h : Kept s0 s) : Kept s0 (Machine.removeKey s h') := by
  unfold Machine.removeKey
  exact .ite h.frame (.takeAllowance (.foldl h (fun _ _ h5 => h5.freeRec)))

theorem Kept.placeSession {t' : Nat} {key : Bytes} (h : Kept s0 s) : KeptOpt s0 (Machine.placeSession s t' key) := by
  unfold Machine.placeSession
  exact .map (fun _ => h.putCache)

/-! ### Lanes -/

theorem Kept.grantJob {r : Nat} {u : UnitKind} {j : Job} (h : Kept s0 s) : Kept s0 (Machine.grantJob s r u j) := by
  unfold Machine.grantJob
  extract_lets _ _ s1 _
  have h1 : Kept s0 s1 := h.setQueue
  exact h1.frame

theorem Kept.fillUnit {p : PageId} {may : Job → Bool} (h : Kept s0 s) : Kept s0 (Machine.fillUnit s p may) := by
  unfold Machine.fillUnit
  split
  · refine .ite h ?_
    split
    · exact .setLane h.grantJob
    · exact h
  · exact h

theorem Kept.takeJob {p : PageId} {may : Job → Bool} (h : Kept s0 s) : KeptOpt s0 (Machine.takeJob s p may) := by
  unfold Machine.takeJob
  split
  · exact .none
  · split
    · exact .some h.setLane
    · split
      · exact .map (fun _ => h.setLane)
      · exact .map (fun _ => h.grantJob)

theorem Kept.jobWords {r : Nat} {j : Job} {n : Nat} (h : Kept s0 s) : KeptSnd s0 (Machine.jobWords s r j n) := by
  unfold Machine.jobWords
  exact .ite (.ite h.setCore h) h.boomDraw

theorem Kept.cipherCheck {r : Nat} {j : Job} (h : Kept s0 s) : KeptSnd s0 (Machine.cipherCheck s r j) := by
  unfold Machine.cipherCheck
  extract_lets _ _ _ _
  refine .ite h ?_
  refine .ite h ?_
  split
  · exact h
  · split
    next _ t1 e0 =>
      have h1 := h.fabricRanges.get e0
      refine .ite h1 ?_
      refine .ite h1 ?_
      refine .ite h1 ?_
      split
      next _ t2 e0 =>
        have h2 := h1.resolveKey.get e0
        split
        · exact h2
        · split
          · exact h2
          · refine .ite ?_ (.ite h2 h2)
            split
            next _ t3 e0 =>
              have h3 := h2.jobWords.get e0
              split
              · exact h3
              · exact h3

theorem Kept.hashCheck {r : Nat} {j : Job} (h : Kept s0 s) : KeptSnd s0 (Machine.hashCheck s r j) := by
  unfold Machine.hashCheck
  extract_lets _ _ _ _
  split
  · refine .ite h ?_
    refine .ite h ?_
    refine .ite h ?_
    extract_lets _
    split
    next _ t1 e0 =>
      have h1 := h.fabricRanges.get e0
      refine .ite h1 ?_
      refine .ite h1 ?_
      refine .ite ?_ h1
      split
      next _ t2 e0 =>
        have h2 := h1.resolveKey.get e0
        split
        · exact h2
        · exact .ite h2 h2

theorem Kept.stampItem {id : Nat} {f : Option Nat × Option Nat × Option Nat → Option Nat × Option Nat × Option Nat}
    (h : Kept s0 s) :
    Kept s0 (Machine.stampItem s id f) := by
  unfold Machine.stampItem
  split
  · exact h.setItem
  · exact h

theorem Kept.refuseJob {p : PageId} {j : Job} {st : Nat} (h : Kept s0 s) : Kept s0 (Machine.refuseJob s p j st) := by
  unfold Machine.refuseJob
  exact .complete (.ite (.setIrq h.bump) h.bump)

theorem Kept.bindJob {p : PageId} {r : Nat} {check : State → Nat → Job → BindRes} (h : Kept s0 s)
    (hcheck : ∀ x0 x1 x2, Kept s0 x0 → KeptSnd s0 (check x0 x1 x2)) :
    Kept s0 (Machine.bindJob s p r check) := by
  unfold Machine.bindJob
  split
  next _ t1 e0 =>
    have h1 := h.takeJob.get e0
    split
    next _ t3 e0 =>
      have h3 := (hcheck _ _ _ h1).get e0
      split
      · exact .stampItem h3.setLane
      · exact h3.refuseJob
  · exact h

theorem Kept.bindLane {p : PageId} {check : State → Nat → Job → BindRes} (h : Kept s0 s)
    (hcheck : ∀ x0 x1 x2, Kept s0 x0 → KeptSnd s0 (check x0 x1 x2)) :
    Kept s0 (Machine.bindLane s p check) := by
  unfold Machine.bindLane
  split
  · exact h
  · extract_lets _ s5
    have h5 : Kept s0 s5 := by
      refine .ite ?_ h
      split
      · exact .setLane h.setSeals
      · exact .bindJob h hcheck
    exact .ite h5.fillUnit h5

theorem Kept.execCipherJobBind {r k : Nat} (h : Kept s0 s) : KeptRes s0 (Machine.execCipherJobBind r k s) := by
  unfold Machine.execCipherJobBind
  exact .next (.bindLane h (fun _ _ _ h1 => h1.cipherCheck))

theorem Kept.execHashJobBind {r k : Nat} (h : Kept s0 s) : KeptRes s0 (Machine.execHashJobBind r k s) := by
  unfold Machine.execHashJobBind
  exact .next (.bindLane h (fun _ _ _ h1 => h1.hashCheck))

theorem Kept.jobWrite {r : Nat} {j : Job} {a : Nat} {b : Bytes} (h : Kept s0 s) :
    Kept s0 (Machine.jobWrite s r j a b) := by
  unfold Machine.jobWrite
  exact .ite h (.ite h h.fabricWrite)

theorem Kept.writeArea {r : Nat} {j : Job} {ch : Chain} (h : Kept s0 s) : Kept s0 (Machine.writeArea s r j ch) := by
  unfold Machine.writeArea
  exact .ite h (.jobWrite h.frame)

theorem Kept.countJob {p : PageId} {blocks : Nat} (h : Kept s0 s) : Kept s0 (Machine.countJob s p blocks) := by
  unfold Machine.countJob
  exact .setFld (.setFld h.bump)

theorem Kept.endSeal {p : PageId} {r : Nat} {x : SealJob} (h : Kept s0 s) : Kept s0 (Machine.endSeal s p r x) := by
  unfold Machine.endSeal
  exact .sendSealed (.pmcEvent (.pmcEvent (.countJob h.setLane)))

theorem Kept.endJob {p : PageId} {r : Nat} {j : Job} {st blocks outLen : Nat} {out16 : Bytes} {ev evB : Nat}
    (h : Kept s0 s) :
    Kept s0 (Machine.endJob s p r j st blocks outLen out16 ev evB) := by
  unfold Machine.endJob
  extract_lets _ s1 s2 s3 _ _ _
  have h1 : Kept s0 s1 := .countJob h.setLane
  have h2 : Kept s0 s2 := .ite h1.bump h1
  have h3 : Kept s0 s3 := .ite (.setIrq h2.bump) h2
  exact .complete (.stampItem (.ite h3.pmcEvent (.pmcEvent h3.pmcEvent)))

theorem Kept.refreshSpares {p : PageId} (h : Kept s0 s) : Kept s0 (Machine.refreshSpares s p) := by
  unfold Machine.refreshSpares
  exact .foldl h (fun _ _ h3 => .ite h3.setFld h3)

theorem Kept.katResult {p : PageId} {pass vec fail : Fld} {code : Nat} {res : Option Nat} (h : Kept s0 s) :
    Kept s0 (Machine.katResult s p pass vec fail code res) := by
  unfold Machine.katResult
  split
  · exact .setFlag h.bump
  · exact .refreshSpares (.setIrq (.failPage (.setFlag h.setFld)))

/-- A test that may not run leaves the state as it was, but for the error it reports. -/
theorem Kept.testTaken {p : PageId} {t : State} (h : Kept s0 s) (e : testTaken s p = .error t) : Kept s0 t := by
  unfold Machine.testTaken at e
  split_ifs at e <;> cases e
  · exact h
  · exact h.accessErr
  · exact h

theorem Kept.execCphTestRun {r k : Nat} {res : Option Byte} (h : Kept s0 s) :
    KeptRes s0 (Machine.execCphTestRun r k res s) := by
  unfold Machine.execCphTestRun
  refine .onComplex h ?_
  split
  next e => exact .next (h.testTaken e)
  · exact .next h.katResult

theorem Kept.execHshTestRun {r k : Nat} {res : Option Byte} (h : Kept s0 s) :
    KeptRes s0 (Machine.execHshTestRun r k res s) := by
  unfold Machine.execHshTestRun
  refine .onComplex h ?_
  split
  next e => exact .next (h.testTaken e)
  · exact .next h.katResult

theorem Kept.poolVectors {logical spares : List PageId} {fails : List (Nat × Byte)} {pass vec fail : Fld}
    {code : Nat} (h : Kept s0 s) :
    Kept s0 (Machine.poolVectors s logical spares fails pass vec fail code) := by
  unfold Machine.poolVectors
  extract_lets pages _ _ _ _ s1
  have h1 : Kept s0 s1 := by
    refine .foldl h fun _ _ h2 => ?_
    split
    · extract_lets s3 s4
      have h3 : Kept s0 s3 := .setFlag h2.setFld
      have h4 : Kept s0 s4 := h3.katResult
      exact .ite (.ite h4.setState h4) h3.katResult
    · exact h2
  clear_value s1
  clear_value pages
  split
  · exact h1.refreshSpares
  · exact h1

theorem Kept.execLaneStartupVectorsDone {r : Nat} {cphFails hshFails : List (Nat × Byte)} (h : Kept s0 s) :
    KeptRes s0 (Machine.execLaneStartupVectorsDone r cphFails hshFails s) := by
  unfold Machine.execLaneStartupVectorsDone
  exact .ite (.next h) (.next (.poolVectors h.poolVectors))

/-! ### PairBase -/

theorem Kept.discardTx {keep : Bool} {p : Nat} (h : Kept s0 s) : Kept s0 (Machine.discardTx keep s p) := by
  unfold Machine.discardTx
  exact .countDisc h.setPort

theorem Kept.brakePorts (h : Kept s0 s) : Kept s0 (Machine.brakePorts s) := by
  unfold Machine.brakePorts
  exact .foldl h (fun _ _ h1 => h1.discardTx)

theorem Kept.discardHeld (h : Kept s0 s) : Kept s0 (Machine.discardHeld s) := by
  unfold Machine.discardHeld
  extract_lets s1
  have h1 : Kept s0 s1 := h.bump
  exact h1.frame

theorem Kept.releaseHeld {e : Option Nat} (h : Kept s0 s) : Kept s0 (Machine.releaseHeld s e) := by
  unfold Machine.releaseHeld
  exact .foldl h.frame (fun _ _ h1 => .ite (.settleClose h1.respondSend) h1.frame)

theorem Kept.setRole {role cause : Nat} (h : Kept s0 s) : Kept s0 (Machine.setRole s role cause) := by
  unfold Machine.setRole
  extract_lets _ _ s1
  have h1 : Kept s0 s1 := .postEvent (.setIrq (.setFld h.setFld))
  exact .ite h (.ite h1.brakePorts h1)

theorem Kept.endAllItems {st : Option Nat} (h : Kept s0 s) : Kept s0 (Machine.endAllItems s st) := by
  unfold Machine.endAllItems
  refine .foldl h fun _ _ h1 => ?_
  split
  · split
    · exact h1.endItem
    · exact h1.dropItem
  · exact h1

theorem Kept.refreshBacklog {waiting : Nat} (h : Kept s0 s) : Kept s0 (Machine.refreshBacklog s waiting) := by
  unfold Machine.refreshBacklog
  exact .ite (.setIrq (.setFld h.setFld)) (.setFld h.setFld)

theorem Kept.unpair (h : Kept s0 s) : Kept s0 (Machine.unpair s) := by
  unfold Machine.unpair
  exact .refreshBacklog h.frame

theorem Kept.becomeAlone {cause : Nat} (h : Kept s0 s) : Kept s0 (Machine.becomeAlone s cause) := by
  unfold Machine.becomeAlone
  exact .releaseHeld (.unpair h.setRole)

theorem Kept.becomeFenced {cause : Nat} (h : Kept s0 s) : Kept s0 (Machine.becomeFenced s cause) := by
  unfold Machine.becomeFenced
  exact .discardHeld (.endAllItems (.unpair h.setRole))

theorem Kept.becomeNone {cause : Nat} (h : Kept s0 s) : Kept s0 (Machine.becomeNone s cause) := by
  unfold Machine.becomeNone
  exact .unpair h.setRole

theorem Kept.linkClosed (h : Kept s0 s) : Kept s0 (Machine.linkClosed s) := by
  unfold Machine.linkClosed
  extract_lets s3 _
  have h3 : Kept s0 s3 := h.setFlag
  exact h3.frame

theorem Kept.heartbeatOut (h : Kept s0 s) : Kept s0 (Machine.heartbeatOut s) :=
  h.frame

theorem Kept.pairLeaves {cause : Nat} (h : Kept s0 s) : Kept s0 (Machine.pairLeaves s cause) := by
  unfold Machine.pairLeaves
  extract_lets _ s5
  have h5 : Kept s0 s5 := .linkClosed h.frame
  exact .ite h5.becomeAlone h5.becomeNone

theorem Kept.pairDisable (h : Kept s0 s) : Kept s0 (Machine.pairDisable s) := by
  unfold Machine.pairDisable
  exact h.pairLeaves

theorem Kept.parFail {code : Nat} {parity : Bool} (h : Kept s0 s) : Kept s0 (Machine.parFail s code parity) := by
  unfold Machine.parFail
  exact .heartbeatOut (.pairLeaves (.takeFresh h.failPage))

/-! ### Rng -/

theorem Kept.setSites {lo hi : Fld} {m : Nat} (h : Kept s0 s) : Kept s0 (Machine.setSites s lo hi m) := by
  unfold Machine.setSites
  exact .setFld h.setFld

theorem Kept.refreshSource (h : Kept s0 s) : Kept s0 (Machine.refreshSource s) := by
  unfold Machine.refreshSource
  extract_lets s9 _ _ _
  have h9 : Kept s0 s9 := .setFld h.setFld
  exact .ite (.setIrq h9.setFlag) h9.setFlag

theorem Kept.setSeedQ {q : List Bytes} (h : Kept s0 s) : Kept s0 (Machine.setSeedQ s q) := by
  unfold Machine.setSeedQ
  extract_lets s1
  have h1 : Kept s0 s1 := h.setFld
  exact h1.frame

theorem Kept.execSourceStartupDone {fails : List Nat} (h : Kept s0 s) :
    KeptRes s0 (Machine.execSourceStartupDone fails s) := by
  unfold Machine.execSourceStartupDone
  exact .ite (.next h) (.next (.setState (.refreshSource (.setFlag (.setAux (.setFlag (.setSites h.setSites)))))))

theorem Kept.oscAwait {site : Nat} (h : Kept s0 s) : Kept s0 (Machine.oscAwait s site) := by
  unfold Machine.oscAwait
  exact .ite h.setAux h

theorem Kept.execOscillatorHealthFail {site held : Nat} (h : Kept s0 s) :
    KeptRes s0 (Machine.execOscillatorHealthFail site held s) := by
  unfold Machine.execOscillatorHealthFail
  exact .ite (.next h) (.next (.refreshSource (.oscAwait (.postEvent (.setIrq (.bump (.raiseErrs (.bumpSat
    (.setSites (.setSites h.bump))))))))))

theorem Kept.oscFailed {site : Nat} (h : Kept s0 s) : Kept s0 (Machine.oscFailed s site) := by
  unfold Machine.oscFailed
  exact h.setSites

theorem Kept.oscAdmission {ok : Bool} (h : Kept s0 s) : Kept s0 (Machine.oscAdmission s ok) := by
  unfold Machine.oscAdmission
  split
  · exact .ite h (.ite (.postEvent (.setIrq (.refreshSource (.setFlag (.setSites h.setAux))))) (.refreshSource
      (.postEvent h.oscFailed)))
  · exact h

theorem Kept.oscCruise {site : Nat} {ok : Option Bool} (h : Kept s0 s) : Kept s0 (Machine.oscCruise s site ok) := by
  unfold Machine.oscCruise
  refine .ite h ?_
  split
  · exact .ite h.oscAwait h
  · exact .ite h (.ite h.bump (.refreshSource (.postEvent (.oscFailed h.bump))))

theorem Kept.takeSeed (h : Kept s0 s) : KeptOpt s0 (Machine.takeSeed s) := by
  unfold Machine.takeSeed
  refine .ite .none ?_
  split
  · exact .some (.bump h.setSeedQ)
  · exact .none

theorem Kept.freshSeed {r : Nat} (h : Kept s0 s) : Kept s0 (Machine.freshSeed s r) := by
  unfold Machine.freshSeed
  exact .setFlag (.setFlag h.setFld)

theorem Kept.execExpanderInstantiated {r : Nat} (h : Kept s0 s) :
    KeptRes s0 (Machine.execExpanderInstantiated r s) := by
  unfold Machine.execExpanderInstantiated
  extract_lets _
  refine .ite (.next h) ?_
  split
  · exact .next h
  next _ t2 e1 =>
    have h2 := h.takeSeed.get e1
    split
    · extract_lets _ s3 _
      have h3 : Kept s0 s3 := .setFlag (.freshSeed h2.bump)
      exact .next (.setState (.setBoom (.ite h3.frame h3)))

theorem Kept.execDrbgReseed {r : Nat} (h : Kept s0 s) : KeptRes s0 (Machine.execDrbgReseed r s) := by
  unfold Machine.execDrbgReseed
  extract_lets _
  refine .ite (.next h) ?_
  split
  · exact .next h
  next _ t9 e1 =>
    have h9 := h.takeSeed.get e1
    exact .next (.freshSeed (.bump h9.setBoom))

theorem Kept.clearExpander {r : Nat} (h : Kept s0 s) : Kept s0 (Machine.clearExpander s r) := by
  unfold Machine.clearExpander
  exact .setBoom (.setFlag h.freshSeed)

theorem Kept.execRngRawEnable {en : Bool} (h : Kept s0 s) : KeptRes s0 (Machine.execRngRawEnable en s) := by
  unfold Machine.execRngRawEnable
  refine .onComplex h ?_
  refine .ite (.ite (.next h) (.ite (.next (.setFlag h.setFlag)) (.next h.accessErr))) ?_
  refine .ite (.next h) ?_
  extract_lets _ _ s1 s2 _
  have h1 : Kept s0 s1 := .setFld (.setFlag (.setFlag (.setFlag h.setFlag)))
  have h2 : Kept s0 s2 := .setSeedQ h1.frame
  exact .next (.ite (.setState h2.setFlag) h2.setFlag)

theorem Kept.execRngRawArm {sel : BitVec 6} (h : Kept s0 s) : KeptRes s0 (Machine.execRngRawArm sel s) := by
  unfold Machine.execRngRawArm
  exact .onComplex h (.ite (.next (.setFlag (.setFlag h.setFld))) (.next h.setFld))

theorem Kept.execRngRawFull (h : Kept s0 s) : KeptRes s0 (Machine.execRngRawFull s) := by
  unfold Machine.execRngRawFull
  refine .ite ?_ (.next h)
  extract_lets s7 _ _
  have h7 : Kept s0 s7 := h.takeFresh
  exact .next (.setIrq (.setFld (.setFlag (.setFlag h7.frame))))

theorem Kept.execRngRawPermit (h : Kept s0 s) : KeptRes s0 (Machine.execRngRawPermit s) := by
  unfold Machine.execRngRawPermit
  exact .onComplex h (.ite (.next h.accessErr) (.next h.setFlag))

/-! ### Admit -/

theorem Kept.countAdmitRefusal {r t' st : Nat} (h : Kept s0 s) : Kept s0 (Machine.countAdmitRefusal s r t' st) := by
  unfold Machine.countAdmitRefusal
  exact .ite (.pmcEvent (.bump h.quotaCounted)) h.quotaCounted

theorem Kept.tagDraw {r : Nat} (h : Kept s0 s) : KeptSnd s0 (Machine.tagDraw s r) := by
  unfold Machine.tagDraw
  refine .ite h ?_
  split
  · exact h.setBoom
  · exact .ite (.setBoom h.boomDraw) h

theorem Kept.tagItem {i : Item} (h : Kept s0 s) : KeptSnd s0 (Machine.tagItem s i) := by
  unfold Machine.tagItem
  extract_lets _
  refine .ite h ?_
  split
  next _ t7 e0 =>
    have h7 := h.tagDraw.get e0
    split
    · exact h7.bump
    · exact .ite h7.bump h7

theorem Kept.admitItem {i : Item} (h : Kept s0 s) : Kept s0 (Machine.admitItem s i) := by
  unfold Machine.admitItem
  extract_lets _
  split
  next _ t1 e0 =>
    have h1 := h.tagItem.get e0
    exact .pmcEvent (.setReady (.setItem h1.frame))

/-! ### Timers -/

theorem Kept.setTimers {r : Nat} {l : List Timer} (h : Kept s0 s) : Kept s0 (s.setTimers r l) :=
  h.frame

theorem Kept.setTimer {r delay : Nat} {k : TimerKind} (h : Kept s0 s) :
    KeptOpt s0 (Machine.setTimer s r delay k) := by
  unfold Machine.setTimer
  extract_lets _
  split
  · exact .some h.setTimers
  · exact .none

theorem Kept.dropTimers {r : Nat} {p : TimerKind → Bool} (h : Kept s0 s) : Kept s0 (Machine.dropTimers s r p) := by
  unfold Machine.dropTimers
  exact h.setTimers

theorem Kept.fireTimer {r : Nat} {t' : Timer} (h : Kept s0 s) : Kept s0 (Machine.fireTimer s r t') := by
  unfold Machine.fireTimer
  exact .ite (.bumpSat h.setTimers) h.setTimers

theorem Kept.timerSet {r k n delay : Nat} {kind : TimerKind} (h : Kept s0 s) :
    Kept s0 (Machine.timerSet s r k n delay kind) := by
  unfold Machine.timerSet
  split
  next _ t1 e0 =>
    have h1 := h.setTimer.get e0
    exact h1.complete
  · exact h.complete

theorem Kept.timerSubmit {k n : Nat} {i : Item} {desc : Bytes} (h : Kept s0 s) :
    Kept s0 (Machine.timerSubmit s k n i desc) := by
  unfold Machine.timerSubmit
  extract_lets _ _ _
  refine .ite h.complete ?_
  split
  · exact h.complete
  · exact h.timerSet

theorem Kept.timerExpire {k n : Nat} {i : Item} {desc : Bytes} (h : Kept s0 s) :
    Kept s0 (Machine.timerExpire s k n i desc) := by
  unfold Machine.timerExpire
  extract_lets _ _
  refine .ite h.complete ?_
  split
  · exact h.complete
  · split
    · refine .ite h.complete ?_
      split
      next _ t1 e0 =>
        have h1 := h.setTimer.get e0
        exact .complete h1.setCtx
      · exact h.complete
    · exact h.complete

theorem Kept.timerHeartbeat {k n : Nat} {i : Item} {desc : Bytes} (h : Kept s0 s) :
    Kept s0 (Machine.timerHeartbeat s k n i desc) := by
  unfold Machine.timerHeartbeat
  exact .ite h.complete (.ite h.complete (.timerSet h.dropTimers))

theorem Kept.timerCancel {k n : Nat} {i : Item} {desc : Bytes} (h : Kept s0 s) :
    Kept s0 (Machine.timerCancel s k n i desc) := by
  unfold Machine.timerCancel
  extract_lets _ _ s1
  have h1 : Kept s0 s1 := by
    unfold s1
    split
    · exact h.setCtx
    · exact h
  exact .ite (.complete h1.setTimers) h.complete

/-! ### Sched -/

theorem Kept.prefetchItem {k : Nat} {i : Item} (h : Kept s0 s) : Kept s0 (Machine.prefetchItem s k i) := by
  unfold Machine.prefetchItem
  exact .setCore (.setItem (.unready h.pmcEvent))

theorem Kept.unprefetch {k : Nat} (h : Kept s0 s) : Kept s0 (Machine.unprefetch s k) := by
  unfold Machine.unprefetch
  split
  · exact .setReady (.setItem h.setCore)
  · exact h.setCore

theorem Kept.fillPrefetch {k : Nat} (h : Kept s0 s) : Kept s0 (Machine.fillPrefetch s k) := by
  unfold Machine.fillPrefetch
  extract_lets _
  split
  · exact h.prefetchItem
  · exact .ite (.prefetchItem h.unprefetch) h
  · exact h

theorem Kept.saveTask {k : Nat} {i : Item} {c : Core} {asleep : Bool} (h : Kept s0 s) :
    Kept s0 (Machine.saveTask s k i c asleep) := by
  unfold Machine.saveTask
  exact .setItem (.setCore h.frame)

theorem Kept.joinReady {i : Item} (h : Kept s0 s) : Kept s0 (Machine.joinReady s i) := by
  unfold Machine.joinReady
  exact h.setReady

theorem Kept.sendDecrypt {k : Nat} {i : Item} (h : Kept s0 s) : Kept s0 (Machine.sendDecrypt s k i) := by
  unfold Machine.sendDecrypt
  exact .ite h (.ite (.joinReady h.saveTask) h.setQueue)

theorem Kept.startItem {k : Nat} {i : Item} (h : Kept s0 s) : Kept s0 (Machine.startItem s k i) := by
  unfold Machine.startItem
  refine .ite h.endItem ?_
  extract_lets _ s1 _ _ s2 _ _
  have h1 : Kept s0 s1 := by
    unfold s1
    split
    · exact h.setCtx
    · exact h
  have h2 : Kept s0 s2 := .setItem h1.setCore
  exact .sendDecrypt (.pmcEvent (.bump (.releaseBuffer h2.frame)))

theorem Kept.execDeadlineExpiry {item : Nat} (h : Kept s0 s) : KeptRes s0 (Machine.execDeadlineExpiry item s) := by
  unfold Machine.execDeadlineExpiry
  split
  · exact .next (.endItem h.advanceTo)
  · exact .next h

theorem Kept.execSleepWake {r : Nat} (h : Kept s0 s) : KeptRes s0 (Machine.execSleepWake r s) := by
  unfold Machine.execSleepWake
  split
  · extract_lets _ s1
    have h1 : Kept s0 s1 := .fireTimer h.advanceTo
    split
    · split
      · exact .next (.setReady h1.frame)
      · exact .next h1
    · exact .next h1
  · exact .next h

theorem Kept.execDelayTimerFire {r : Nat} (h : Kept s0 s) : KeptRes s0 (Machine.execDelayTimerFire r s) := by
  unfold Machine.execDelayTimerFire
  split
  · extract_lets _ _ _ _
    split
    · exact .ite (.next (.setTimers (.setTimers h.advanceTo))) (.next (.admitItem (.fireTimer h.advanceTo)))
    · exact .next h.advanceTo
  · exact .next h

theorem Kept.execContextExpiry {r : Nat} (h : Kept s0 s) : KeptRes s0 (Machine.execContextExpiry r s) := by
  unfold Machine.execContextExpiry
  split
  · extract_lets s3
    have h3 : Kept s0 s3 := .fireTimer h.advanceTo
    split
    · exact .next h3.ctxExpire
    · exact .next h3
  · exact .next h

theorem Kept.execSubmissionDoorbell {r : Nat} {tail : BitVec 10} (h : Kept s0 s) :
    KeptRes s0 (Machine.execSubmissionDoorbell r tail s) := by
  unfold Machine.execSubmissionDoorbell
  exact .onComplex h (.ite (.next h) (.next h.setFld))

theorem Kept.execSubmissionAccept {r : Nat} (h : Kept s0 s) : KeptRes s0 (Machine.execSubmissionAccept r s) := by
  unfold Machine.execSubmissionAccept
  extract_lets _ _ _ _ s1 _
  have h1 : Kept s0 s1 := h.setFld
  refine .ite (.next h) ?_
  split
  · exact .next (.postCompletion (.countAdmitRefusal h1.frame))
  · exact .next (.admitItem h1.frame)

theorem Kept.execProgramLoad {r : Nat} (h : Kept s0 s) : KeptRes s0 (Machine.execProgramLoad r s) := by
  unfold Machine.execProgramLoad
  refine .onComplex h ?_
  extract_lets _ _ _ _ _ _ s1 _
  have h1 : Kept s0 s1 := .setFlag (.setFlag h.setFlag)
  exact .ite (.next h) (.ite (.next h1.frame) (.next (.setIrq (.raiseErr (.setFlag h1.setFlag)))))

theorem Kept.execProgramLoadDone {r : Nat} (h : Kept s0 s) : KeptRes s0 (Machine.execProgramLoadDone r s) := by
  unfold Machine.execProgramLoadDone
  exact .ite (.next (.setIrq (.setFlag h.setFlag))) (.next h)

/-! ### Faults -/

theorem Kept.endItems {ids : List Nat} {st : Nat} (h : Kept s0 s) : Kept s0 (Machine.endItems s ids st) := by
  unfold Machine.endItems
  refine .foldl h fun _ _ h1 => ?_
  split
  · exact h1.endItem
  · exact h1

theorem Kept.portDown {x' : PageId} (h : Kept s0 s) : Kept s0 (Machine.portDown s x') := by
  unfold Machine.portDown
  split
  · exact .setFlag (.setFlag (.setFlag (.setFlag (.setFlag h.setPort))))
  · exact .setFlag (.setFlag (.setFlag h.setPort))
  · exact h

theorem Kept.abortTransfer (h : Kept s0 s) : Kept s0 (Machine.abortTransfer s) := by
  unfold Machine.abortTransfer
  exact .foldl h.setFlag (fun _ _ h3 => h3.setReg)

theorem Kept.endHeld {p : PageId} {st : Nat} (h : Kept s0 s) : Kept s0 (Machine.endHeld s p st) := by
  unfold Machine.endHeld
  split
  · exact .ite (.unprefetch h.endItems) h
  · exact .discardCurrent (.returnPrefetch h.returnSeal)
  · exact .discardCurrent (.returnPrefetch h.returnSeal)
  · exact .discardCurrent (.returnPrefetch h.returnSeal)
  · exact h.endItems
  · exact h.discardTx
  · exact h.discardTx
  · exact h.frame
  · exact .ite (.foldl h.setQueue (fun _ _ h3 => h3.complete)) h
  · exact .clearExpander h.endItems
  · exact .foldl h.frame (fun _ _ h5 => h5.complete)
  · exact h.abortTransfer
  · exact h

theorem Kept.swapSites {p q : PageId} {released : Nat} (h : Kept s0 s) :
    Kept s0 (Machine.swapSites s p q released) := by
  unfold Machine.swapSites
  exact .postEvent (.setIrq (.refreshSpares (.setState (.setFlag (.setFld (.setFld (.setAux h.setAux)))))))

theorem Kept.coppice {p : PageId} (h : Kept s0 s) : Kept s0 (Machine.coppice s p) := by
  unfold Machine.coppice
  refine .ite h ?_
  split
  · exact .refreshSpares (.setFld (.setAux h.setAux))
  · exact h

theorem Kept.chipLevelFault {cause : Nat} (h : Kept s0 s) : Kept s0 (Machine.chipLevelFault s cause) := by
  unfold Machine.chipLevelFault
  refine .ite h ?_
  extract_lets s1 _ _ _ s2
  have h1 : Kept s0 s1 := h.postEvent
  have h2 : Kept s0 s2 := .linkClosed (.discardTx (.brakePorts h1.frame))
  exact .heartbeatOut h2.frame

theorem Kept.loseItems {r : Nat} (h : Kept s0 s) : Kept s0 (Machine.loseItems s r) := by
  unfold Machine.loseItems
  refine .foldl h fun _ _ h1 => ?_
  split
  · exact .ite h1.dropItem h1.endItem
  · exact h1

theorem Kept.isolateRegion {r : Nat} {cause : Word} (h : Kept s0 s) : Kept s0 (Machine.isolateRegion s r cause) := by
  unfold Machine.isolateRegion
  refine .ite h ?_
  extract_lets s1 s2 _ _ _ _
  have h1 : Kept s0 s1 := h.loseItems
  have h2 : Kept s0 s2 := h1.frame
  exact .postEvent (.setFld (.foldl h2.frame (fun _ _ h3 => h3.portDown)))

theorem Kept.noteErrJob {p : PageId} (h : Kept s0 s) : Kept s0 (Machine.noteErrJob s p) := by
  unfold Machine.noteErrJob
  split
  · exact .setFld h.setFld
  · exact .setFld h.setFld
  · exact h

theorem Kept.noteErrAddr {p : PageId} {code : Nat} {addr : BitVec 40} (h : Kept s0 s) :
    Kept s0 (Machine.noteErrAddr s p code addr) := by
  unfold Machine.noteErrAddr
  split
  · exact .ite h.setFld h
  · exact .ite (.setFld h.setFld) h
  · exact .ite (.setFld h.setFld) h
  · exact h

theorem Kept.noteVector {p : PageId} {vec : Option Nat} (h : Kept s0 s) : Kept s0 (Machine.noteVector s p vec) := by
  unfold Machine.noteVector
  extract_lets put5
  have h5 : ∀ x0 x1 x2, Kept s0 x0 → Kept s0 (put5 x0 x1 x2) := by
    intro _ _ _ h7
    refine .setIrq ?_
    refine .setFlag ?_
    split
    · exact h7.setFld
    · exact h7
  split
  · exact h5 _ _ _ h
  · exact h5 _ _ _ h
  · exact h5 _ _ _ h
  · exact h.setFlag
  · exact h

theorem Kept.noteMismatch {p : PageId} {code : Nat} {addr : Word} (h : Kept s0 s) :
    Kept s0 (Machine.noteMismatch s p code addr) := by
  unfold Machine.noteMismatch
  extract_lets s3
  have h3 : Kept s0 s3 := by
    unfold s3
    split
    · exact .ite (.setIrq h.bumpSat) h
    · exact h
  exact .ite h3.noteVector h3

theorem Kept.coreLost {x' : PageId} (h : Kept s0 s) : Kept s0 (Machine.coreLost s x') := by
  unfold Machine.coreLost
  split
  · exact .ite h.chipLevelFault h
  · exact h

theorem Kept.afterFailure {p : PageId} (h : Kept s0 s) : Kept s0 (Machine.afterFailure s p) := by
  unfold Machine.afterFailure
  extract_lets s3
  have h3 : Kept s0 s3 := by
    unfold s3
    split
    · exact .portDown h.discardTx
    · exact .portDown h.discardTx
    · exact h.endHeld
  exact .coreLost (.heartbeatOut h3.coppice)

theorem Kept.failBlock {p : PageId} {code : Nat} {parity : Bool} {addr : Word} (h : Kept s0 s) :
    Kept s0 (Machine.failBlock s p code parity addr) := by
  unfold Machine.failBlock
  exact .afterFailure (.refreshSpares (.failPage (.noteMismatch h.noteErrJob)))

theorem Kept.failAccess {v : Victim} (h : Kept s0 s) : Kept s0 (Machine.failAccess s v) := by
  unfold Machine.failAccess
  split
  · exact h
  · exact h.endItems
  · exact h.discardCurrent
  · exact h.frame
  · exact .ite (.setIrq h.setFlag) h

theorem Kept.controlDrop {i : Item} (h : Kept s0 s) : Kept s0 (Machine.controlDrop s i) := by
  unfold Machine.controlDrop
  exact .settle (.settleClose h.releaseBuffer)

theorem Kept.dropFrame {stamp : Nat} (h : Kept s0 s) : Kept s0 (Machine.dropFrame s stamp) := by
  unfold Machine.dropFrame
  split
  · exact h.dropItem
  · split
    · exact .controlDrop h.frame
    · exact h

theorem Kept.controlParity {r : Nat} {mirror : Bool} (h : Kept s0 s) :
    Kept s0 (Machine.controlParity s r mirror) := by
  unfold Machine.controlParity
  extract_lets _ s9
  have h9 : Kept s0 s9 := .clsDrop (.raiseErrs h.bumpSat)
  refine .ite h9.frame ?_
  split
  · exact .controlDrop h9.frame
  · exact h9

theorem Kept.meetError {p : PageId} {code : Nat} {parity : Bool} {victim : Victim} {addr : BitVec 40}
    (h : Kept s0 s) : Kept s0 (Machine.meetError s p code parity victim addr) := by
  unfold Machine.meetError
  refine .ite h ?_
  extract_lets _ s1 _ s3 _ _
  have h1 : Kept s0 s1 := h.noteErrAddr
  have h3 : Kept s0 s3 := h1.reportUncorrected
  split
  · exact .isolateRegion h1.failPage
  · exact .isolateRegion h1.failPage
  · exact .chipLevelFault h1.failPage
  · exact .chipLevelFault h1.failPage
  · exact .ite (.failAccess (.setIrq (.bump h1.reportUncorrected))) (.chipLevelFault h1.failPage)
  · refine .ite h1.controlParity ?_
    split
    · exact h3.dropFrame
    · exact h3
  · exact .ite (.failAccess (.raiseErrs h1.bumpSat)) (.failAccess h3.setTriMarks)
  · exact .ite (.failAccess h1.reportUncorrected) h1.failBlock
  · exact .ite (.setSeedQ (.bump h1.reportUncorrected)) h1.failBlock
  · exact .ite (.frame h1.reportUncorrected) h1.failBlock
  · exact .ite h1.reportUncorrected h1.failBlock
  · exact h1.parFail
  · exact h1.reportUncorrected
  · exact h1.failBlock

theorem Kept.meetCorrected {p : PageId} {code : Nat} {addr : BitVec 40} (h : Kept s0 s) :
    Kept s0 (Machine.meetCorrected s p code addr) := by
  unfold Machine.meetCorrected
  refine .ite h ?_
  extract_lets s7 s9
  have h7 : Kept s0 s7 := .raiseErr h.bumpSat
  have h9 : Kept s0 s9 := by
    unfold s9
    split
    · exact h7.bump
    · exact h7.setFld
    · exact .ite h7.setIrq h7
    · exact h7
  split
  · exact h9.pmcEvent
  · exact h9

theorem Kept.touch {p : PageId} {victim : Victim} (h : Kept s0 s) : Kept s0 (Machine.touch s p victim) := by
  unfold Machine.touch
  split
  · exact h
  · extract_lets _ _
    split
    · exact .meetCorrected h.setAux
    · exact .meetError h.setAux
    · exact .meetError h.setAux

theorem Kept.touchIf {work : Bool} {p : PageId} {victim : Victim} (h : Kept s0 s) :
    Kept s0 (Machine.touchIf s work p victim) := by
  unfold Machine.touchIf
  exact .ite h.touch h

theorem Kept.execRegionFatalError {r : Nat} {p1 : Word} (h : Kept s0 s) :
    KeptRes s0 (Machine.execRegionFatalError r p1 s) := by
  unfold Machine.execRegionFatalError
  exact .next h.isolateRegion

theorem Kept.execChipLevelFault {cause : Nat} (h : Kept s0 s) : KeptRes s0 (Machine.execChipLevelFault cause s) := by
  unfold Machine.execChipLevelFault
  exact .next h.chipLevelFault

theorem Kept.execSingleBitError {p : PageId} {code : Byte} {addr : BitVec 40} (h : Kept s0 s) :
    KeptRes s0 (Machine.execSingleBitError p code addr s) := by
  unfold Machine.execSingleBitError
  exact .next h.meetCorrected

theorem Kept.execBlockUncorrectableError {p : PageId} {code : Byte} {parity : Bool} {victim : Victim}
    {addr : BitVec 40} (h : Kept s0 s) :
    KeptRes s0 (Machine.execBlockUncorrectableError p code parity victim addr s) := by
  unfold Machine.execBlockUncorrectableError
  exact .next h.meetError

/-! ### Blocks -/

theorem Kept.enterStopped {p : PageId} (h : Kept s0 s) : Kept s0 (Machine.enterStopped s p) := by
  unfold Machine.enterStopped
  extract_lets s7 s9
  have h7 : Kept s0 s7 := by
    unfold s7
    split
    · exact h.clearExpander
    · exact h.portDown
  have h9 : Kept s0 s9 := .heartbeatOut h7.setState
  exact .ite h9.setFld h9

theorem Kept.squashBlock {p : PageId} (h : Kept s0 s) : Kept s0 (Machine.squashBlock s p) := by
  unfold Machine.squashBlock
  exact .ite (.setFld h.endHeld) (.enterStopped h.endHeld)

theorem Kept.sparePasses {q : PageId} (h : Kept s0 s) : Kept s0 (Machine.sparePasses s q) := by
  unfold Machine.sparePasses
  exact .refreshSpares h.setState

theorem Kept.unitFails {q : PageId} {v : Nat} (h : Kept s0 s) : Kept s0 (Machine.unitFails s q v) := by
  unfold Machine.unitFails
  exact .refreshSpares (.ite (.setState h.noteVector) (.failPage h.noteVector))

theorem Kept.offerSpare {q : PageId} (h : Kept s0 s) : Kept s0 (Machine.offerSpare s q) := by
  unfold Machine.offerSpare
  split
  · exact h.coppice
  · exact h

theorem Kept.execSpareAdmissionDone {p : PageId} {res : Option Byte} (h : Kept s0 s) :
    KeptRes s0 (Machine.execSpareAdmissionDone p res s) := by
  unfold Machine.execSpareAdmissionDone
  refine .ite (.next h.oscAdmission) ?_
  split
  · exact .next h
  · extract_lets _ _
    split
    · exact .next h.setAux
    · refine .ite (.next h.setAux) ?_
      split
      · exact .next (.coreLost (.coppice (.unitFails h.setAux)))
      · exact .ite (.next (.ite (.setFld (.swapSites h.setAux)) (.setState (.swapSites h.setAux)))) (.ite (.next
          (.setAux (.swapSites h.setAux))) (.next (.sparePasses h.setAux)))

theorem Kept.cruiseFail {p : PageId} {v : Nat} (h : Kept s0 s) : Kept s0 (Machine.cruiseFail s p v) := by
  unfold Machine.cruiseFail
  extract_lets _ _
  split
  · exact .isolateRegion (.unitFails h.postEvent)
  · exact .isolateRegion (.unitFails h.postEvent)
  · exact .chipLevelFault (.unitFails h.postEvent)
  · exact .chipLevelFault (.unitFails h.postEvent)
  · exact .chipLevelFault (.unitFails h.postEvent)
  · exact .pairLeaves (.takeFresh (.unitFails h.postEvent))
  · exact .ite (.unitFails h.postEvent) (.afterFailure (.unitFails h.postEvent))

theorem Kept.cruiseCount {p : PageId} {ok : Bool} (h : Kept s0 s) : Kept s0 (Machine.cruiseCount s p ok) := by
  unfold Machine.cruiseCount
  extract_lets _
  refine .ite ?_ h.bump
  split
  · exact .setFlag (.bump h.bump)
  · exact .setFlag (.bump h.bump)
  · exact .setFlag (.bump h.bump)
  · exact .setFlag (.bump h.bump)
  · exact h.bump

theorem Kept.cruiseStart {p : PageId} (h : Kept s0 s) : Kept s0 (Machine.cruiseStart s p) := by
  unfold Machine.cruiseStart
  exact .ite h (.ite (.ite (.refreshSpares (.setFld h.setAux)) h) (.ite h (.ite h.coppice (.ite h.setAux h))))

theorem Kept.cruiseEnd {p : PageId} {res : CruiseResult} (h : Kept s0 s) : Kept s0 (Machine.cruiseEnd s p res) := by
  unfold Machine.cruiseEnd
  extract_lets _ _ _ ready97 _ s1 _
  have h2 : ∀ x0, Kept s0 x0 → Kept s0 (ready97 x0) := fun _ h3 => .ite h3.sparePasses h3
  have h1 : Kept s0 s1 := .cruiseCount h.setAux
  refine .ite h.setAux ?_
  split
  · exact h2 _ (.cruiseCount h.setAux)
  · exact .cruiseFail (.cruiseCount h.setAux)
  · exact h2 _ (.postEvent (.setAux h1.frame))
  · exact .meetError (.postEvent (.cruiseCount h.setAux))
  · exact h.setAux
  · exact h.setAux

theorem Kept.execCruiseTest {p : PageId} {res : CruiseResult} (h : Kept s0 s) :
    KeptRes s0 (Machine.execCruiseTest p res s) := by
  unfold Machine.execCruiseTest
  refine .onComplex h ?_
  refine .ite (.next h) ?_
  split
  · exact .next (.ite h.oscCruise h)
  · exact .next h.cruiseStart
  · exact .next (.ite h.cruiseEnd h)

theorem Kept.execSramRepairApply {p : PageId} (h : Kept s0 s) : KeptRes s0 (Machine.execSramRepairApply p s) := by
  unfold Machine.execSramRepairApply
  exact .ite (.next h) (.next h.setAux)

theorem Kept.storeCtrl {p : PageId} {c : CtrlPlain} (h : Kept s0 s) : Kept s0 (Machine.storeCtrl s p c) := by
  unfold Machine.storeCtrl
  refine .ite h ?_
  extract_lets s3
  have h3 : Kept s0 s3 := .setFlag h.setFld
  exact .ite h3.setFlag h3

theorem Kept.storeEn {p : PageId} {en drain : Bool} (h : Kept s0 s) : Kept s0 (Machine.storeEn s p en drain) := by
  unfold Machine.storeEn
  exact .ite (.setFlag h.setFlag) (.ite (.accessErr h.setFlag) (.ite h.setFlag (.setFlag h.setFlag)))

theorem Kept.startHook {x' : PageId} (h : Kept s0 s) : Kept s0 (Machine.startHook s x') := by
  unfold Machine.startHook
  split
  · extract_lets s5
    have h5 : Kept s0 s5 := h.endItems
    exact .foldl h5.frame (fun _ _ h7 => h7.setReady)
  · exact h.setFlag
  · exact .ite (.ite (.setRole h.takeFresh) h.frame) h
  · exact h

theorem Kept.execBlockEnable {p : PageId} {c : CtrlPlain} (h : Kept s0 s) :
    KeptRes s0 (Machine.execBlockEnable p c s) := by
  unfold Machine.execBlockEnable
  exact .onComplex h (.ite (.next h) (.ite (.next h.storeCtrl) (.ite (.next (.startHook (.setFld
    (.storeEn h.storeCtrl)))) (.next (.storeEn h.storeCtrl)))))

theorem Kept.drainHook {x' : PageId} (h : Kept s0 s) : Kept s0 (Machine.drainHook s x') := by
  unfold Machine.drainHook
  split
  · exact h.returnPrefetch
  · exact h.returnPrefetch
  · exact h.returnPrefetch
  · exact .ite h.unprefetch h
  · exact h.setSeedQ
  · exact h

theorem Kept.enterDraining {p : PageId} (h : Kept s0 s) : Kept s0 (Machine.enterDraining s p) := by
  unfold Machine.enterDraining
  refine .ite ?_ h
  extract_lets _ _ _ s1
  have h1 : Kept s0 s1 := .heartbeatOut (.drainHook (.setFld h.setAux))
  exact .ite h1.squashBlock h1

theorem Kept.disableHook {x' : PageId} (h : Kept s0 s) : Kept s0 (Machine.disableHook s x') := by
  unfold Machine.disableHook
  split
  · exact h.pairDisable
  · exact h

theorem Kept.execBlockDisable {p : PageId} {c : CtrlPlain} (h : Kept s0 s) :
    KeptRes s0 (Machine.execBlockDisable p c s) := by
  unfold Machine.execBlockDisable
  exact .onComplex h (.ite (.next h) (.ite (.next h.accessErr) (.ite (.next h.storeCtrl) (.next (.disableHook
    (.enterDraining (.storeEn h.storeCtrl)))))))

theorem Kept.execDrainReq {p : PageId} {c : CtrlPlain} {en : Bool} (h : Kept s0 s) :
    KeptRes s0 (Machine.execDrainReq p c en s) := by
  unfold Machine.execDrainReq
  exact .onComplex h (.ite (.next h) (.ite (.next h.accessErr) (.ite (.next h.storeCtrl) (.next (.enterDraining
    (.storeEn h.storeCtrl))))))

theorem Kept.execSquashReq {p : PageId} {c : CtrlPlain} {drainReq : Bool} (h : Kept s0 s) :
    KeptRes s0 (Machine.execSquashReq p c drainReq s) := by
  unfold Machine.execSquashReq
  exact .onComplex h (.ite (.next h) (.ite (.next h.accessErr) (.ite (.next h.storeCtrl) (.ite (.next (.disableHook
    (.squashBlock (.drainHook (.storeEn h.storeCtrl))))) (.next (.storeEn h.storeCtrl))))))

theorem Kept.settleHook {x' : PageId} (h : Kept s0 s) : Kept s0 (Machine.settleHook s x') := by
  unfold Machine.settleHook
  split
  · exact h.katResult
  · exact h.katResult
  · exact h.katResult
  · exact h

theorem Kept.execStartupSettled {p : PageId} (h : Kept s0 s) : KeptRes s0 (Machine.execStartupSettled p s) := by
  unfold Machine.execStartupSettled
  refine .ite (.next h) ?_
  refine .ite (.next (.ite h.unitFails (.afterFailure h.unitFails))) ?_
  refine .ite (.next (.ite h (.offerSpare h.sparePasses))) ?_
  split
  · exact .next h
  · exact .next h
  · exact .next h
  · exact .next h
  · exact .next (.heartbeatOut (.setFld h.settleHook))

theorem Kept.execDrainComplete {p : PageId} (h : Kept s0 s) : KeptRes s0 (Machine.execDrainComplete p s) := by
  unfold Machine.execDrainComplete
  exact .ite (.next h) (.next h.enterStopped)

theorem Kept.execDrainTimeout {p : PageId} (h : Kept s0 s) : KeptRes s0 (Machine.execDrainTimeout p s) := by
  unfold Machine.execDrainTimeout
  exact .ite (.next h) (.next (.squashBlock h.advanceTo))

/-! ### HostCmd -/

theorem Kept.hostRun {k code : Nat} {f : State → Item → State} (h : Kept s0 s)
    (hf : ∀ x0 x1, Kept s0 x0 → Kept s0 (f x0 x1)) :
    KeptRes s0 (Machine.hostRun s k code f) := by
  unfold Machine.hostRun
  split
  · exact .next h
  · exact .ite (.next h.endItem) (.next (hf _ _ h))

theorem Kept.answerStatus {i : Item} {st : Nat} (h : Kept s0 s) : Kept s0 (Machine.answerStatus s i st) := by
  unfold Machine.answerStatus
  exact h.endItem

theorem Kept.answer {i : Item} {st : Nat} {l : List Elem} (h : Kept s0 s) : Kept s0 (Machine.answer s i st l) := by
  unfold Machine.answer
  exact h.endItem

theorem Kept.answerCommit {i : Item} {result : Bytes} {l : List Elem} (h : Kept s0 s) :
    Kept s0 (Machine.answerCommit s i result l) := by
  unfold Machine.answerCommit
  exact .answer h.dupCommit

theorem Kept.answerRaw {i : Item} {st : Nat} {payload : Bytes} (h : Kept s0 s) :
    Kept s0 (Machine.answerRaw s i st payload) := by
  unfold Machine.answerRaw
  exact h.endItem

/-! ### SessionBase -/

theorem Kept.dropQueuedFor {p h' : Nat} (h : Kept s0 s) : Kept s0 (Machine.dropQueuedFor s p h') := by
  unfold Machine.dropQueuedFor
  exact .countDisc h.setPort

theorem Kept.hostSeen {t' p : Nat} {a : Addr} (h : Kept s0 s) : Kept s0 (Machine.hostSeen s t' p a) := by
  unfold Machine.hostSeen
  refine .ite h ?_
  split
  · exact h
  · exact .ite h.setHost (.ite (.bump h.setHost) (.postEvent (.dropQueuedFor (.bump h.setHost))))

theorem Kept.countAuth {r t' : Nat} (h : Kept s0 s) : Kept s0 (Machine.countAuth s r t') := by
  unfold Machine.countAuth
  exact .pmcEvent h.bump

theorem Kept.verifyItem {i : Item} (h : Kept s0 s) : KeptOpt s0 (Machine.verifyItem s i) := by
  unfold Machine.verifyItem
  split
  · exact .none
  · split
    · exact .none
    · exact .ite .none (.some (.hostSeen h.setSession))

theorem Kept.answerDup {i : Item} {st : Nat} {payload : Bytes} {dup : Bool} (h : Kept s0 s) :
    Kept s0 (Machine.answerDup s i st payload dup) := by
  unfold Machine.answerDup
  exact .settle (.settleClose (.tagEgress (.respondOn h.releaseItem)))

/-! ### Ports -/

theorem Kept.sendLink {p : Nat} {f : Bytes} (h : Kept s0 s) : Kept s0 (Machine.sendLink s p f) := by
  unfold Machine.sendLink
  exact h.setPort

theorem Kept.takeBuffer {p : Nat} {pool : Pool} {n : Nat} (h : Kept s0 s) :
    Kept s0 (Machine.takeBuffer s p pool n) := by
  unfold Machine.takeBuffer
  extract_lets _
  split
  · exact .spaceTaken h.setPort
  · exact h.setPort
  · exact h.setPort
  · exact h

theorem Kept.admitFrame {i : Item} (h : Kept s0 s) : Kept s0 (Machine.admitFrame s i) := by
  unfold Machine.admitFrame
  extract_lets s1 _
  have h1 : Kept s0 s1 := .ite h.bump h
  split
  · exact .ite (.spaceTaken h1.admitItem) h1.admitItem
  · extract_lets s2 s3
    have h2 : Kept s0 s2 := h1.countAdmitRefusal
    have h3 : Kept s0 s3 := .releaseBuffer h2.frame
    exact .ite h3.respondPlain h3.frame

theorem Kept.classify {p r c n : Nat} {src : Addr} {vlan : Option Nat} {b : Bytes} (h : Kept s0 s) :
    Kept s0 (Machine.classify s p r c n src vlan b) := by
  unfold Machine.classify
  extract_lets _ _ _
  refine .ite h.clsDrop ?_
  refine .ite (.foldl h.clsDrop (fun _ _ h1 => h1.bump)) ?_
  split
  · exact .ite h.bump (.ite (.pmcEvent (.setIrq h.bump)) (.pmcEvent (.setIrq h.bump)))
  · refine .ite h.clsDrop ?_
    extract_lets _ s2 _
    have h2 : Kept s0 s2 := .takeBuffer (.ite h.bump (.pmcEvent h.bump))
    exact .ite (.ite (.spaceTaken h2.frame) h2.frame) h2.admitFrame

theorem Kept.classifyTouched {p r c n : Nat} {src : Addr} {vlan : Option Nat} {b : Bytes} (h : Kept s0 s) :
    Kept s0 (Machine.classifyTouched s p r c n src vlan b) := by
  unfold Machine.classifyTouched
  split
  · exact h.touch
  · exact .touch h.classify
  · exact .classify h.touch

theorem Kept.execFrameReceived {p : Nat} {frame : Bytes} {fcsOk : Bool} (h : Kept s0 s) :
    KeptRes s0 (Machine.execFrameReceived p frame fcsOk s) := by
  unfold Machine.execFrameReceived
  extract_lets _ _
  refine .ite (.next h.touchIf) ?_
  refine .ite (.next (.bump h.touchIf)) ?_
  refine .ite (.next (.clsDrop h.touchIf)) ?_
  split
  · exact .next (.pmcEvent (.bump h.touchIf))
  · exact .next (.sendLink h.touchIf)
  · exact .next (.clsDrop h.touchIf)
  · exact .ite (.next (.clsDrop h.touchIf)) (.next (.classifyTouched h.touchIf))

theorem Kept.execBlockLockAcquired {p : Nat} (h : Kept s0 s) : KeptRes s0 (Machine.execBlockLockAcquired p s) := by
  unfold Machine.execBlockLockAcquired
  refine .ite (.next h) ?_
  extract_lets s3
  have h3 : Kept s0 s3 := .setFlag h.setFlag
  exact .next (.ite h3.setFlag h3)

theorem Kept.execLinkDown {p : Nat} (h : Kept s0 s) : KeptRes s0 (Machine.execLinkDown p s) := by
  unfold Machine.execLinkDown
  refine .ite (.next h) ?_
  extract_lets _ s1 _
  have h1 : Kept s0 s1 := .setFlag h.setFlag
  exact .next (.ite (.postEvent (.setIrq h1.discardTx)) h1.discardTx)

theorem Kept.execTrainingTimeout {p : Nat} (h : Kept s0 s) : KeptRes s0 (Machine.execTrainingTimeout p s) := by
  unfold Machine.execTrainingTimeout
  exact .ite (.next h) (.next (.raiseErrs (.setIrq h.setFlag)))

theorem Kept.execResponseTransmitDone {p : Nat} (h : Kept s0 s) :
    KeptRes s0 (Machine.execResponseTransmitDone p s) := by
  unfold Machine.execResponseTransmitDone
  exact .ite (.next h.touchIf) (.next (.startTx (.ite (.bump (.setPort h.touchIf)) (.bump (.setPort h.touchIf)))))

theorem Kept.execXoffRepeat {p : Nat} (h : Kept s0 s) : KeptRes s0 (Machine.execXoffRepeat p s) := by
  unfold Machine.execXoffRepeat
  exact .ite (.next h) (.ite (.next h.xoffCheck) (.next (.ite h.sendPause h.xonCheck)))

theorem Kept.setPaused {p : Nat} {m : Byte} (h : Kept s0 s) : Kept s0 (Machine.setPaused s p m) := by
  unfold Machine.setPaused
  exact .ite (.setFlag h.setPort) (.setFlag h.setPort)

theorem Kept.execPauseReceived {p : Nat} {hold resume : Byte} (h : Kept s0 s) :
    KeptRes s0 (Machine.execPauseReceived p hold resume s) := by
  unfold Machine.execPauseReceived
  exact .ite (.next h) (.ite (.next h) (.next (.startTx h.setPaused)))

theorem Kept.execPauseQuantaExpiry {p : Nat} {classes : Byte} (h : Kept s0 s) :
    KeptRes s0 (Machine.execPauseQuantaExpiry p classes s) := by
  unfold Machine.execPauseQuantaExpiry
  exact .ite (.next h) (.next (.startTx h.setPaused))

theorem Kept.execTxholdTimeout {p : Nat} (h : Kept s0 s) : KeptRes s0 (Machine.execTxholdTimeout p s) := by
  unfold Machine.execTxholdTimeout
  refine .ite (.next h) ?_
  extract_lets _ _
  split
  · exact .next (.countDisc h.setPort)
  · exact .next h

theorem Kept.execFenceAssert (h : Kept s0 s) : KeptRes s0 (Machine.execFenceAssert s) := by
  unfold Machine.execFenceAssert
  exact .next (.brakePorts h.frame)

theorem Kept.execFenceDeassert (h : Kept s0 s) : KeptRes s0 (Machine.execFenceDeassert s) := by
  unfold Machine.execFenceDeassert
  exact .next h.frame

theorem Kept.execHostEntryAgeOut {h' : Nat} (h : Kept s0 s) : KeptRes s0 (Machine.execHostEntryAgeOut h' s) := by
  unfold Machine.execHostEntryAgeOut
  split
  · exact .ite (.next h) (.next (.setHost h.advanceTo))
  · exact .next h

theorem Kept.htbDone {st : Nat} (h : Kept s0 s) : Kept s0 (Machine.htbDone s st) := by
  unfold Machine.htbDone
  extract_lets s3
  have h3 : Kept s0 s3 := .setFlag h.setFld
  exact .ite h3 h3.accessErr

theorem Kept.execHtbReadEntry (h : Kept s0 s) : KeptRes s0 (Machine.execHtbReadEntry s) := by
  unfold Machine.execHtbReadEntry
  refine .onComplex h ?_
  extract_lets _ _
  split
  · exact .next (.htbDone (.foldl (.setReg h.setReg) (fun _ _ h1 => h1.setReg)))
  · exact .next (.htbDone (.foldl (.setFld (.setFld (.setFld (.setFld (.setFld (.setFld (.setFlag (.setFlag
      (.setFlag h.setFlag))))))))) (fun _ _ h2 => h2.setFld)))

theorem Kept.unbindHost {h' : Nat} (h : Kept s0 s) : Kept s0 (Machine.unbindHost s h') :=
  h.frame

theorem Kept.execHtbWriteStatic (h : Kept s0 s) : KeptRes s0 (Machine.execHtbWriteStatic s) := by
  unfold Machine.execHtbWriteStatic
  exact .onComplex h (.ite (.next h.htbDone) (.ite (.next h.htbDone) (.next (.htbDone (.setHost
    (.ite h h.unbindHost))))))

theorem Kept.execHtbDeleteEntry (h : Kept s0 s) : KeptRes s0 (Machine.execHtbDeleteEntry s) := by
  unfold Machine.execHtbDeleteEntry
  exact .onComplex h (.ite (.next h.htbDone) (.next (.htbDone (.setHost h.unbindHost))))

/-! ### Brake -/

theorem Kept.controlAnswer {i : Item} {st : Nat} {payload : Bytes} {dup changing : Bool} (h : Kept s0 s) :
    Kept s0 (Machine.controlAnswer s i st payload dup changing) := by
  unfold Machine.controlAnswer
  exact .settle (.settleClose (.tagEgress (.respondOn h.releaseBuffer)))

theorem Kept.brakeStart {i : Item} {q : BrakeReq} (h : Kept s0 s) : Kept s0 (Machine.brakeStart s i q) := by
  unfold Machine.brakeStart
  split
  · split
    · exact .ite h.controlAnswer h.frame
    · split
      · exact h.frame
      · exact h.controlAnswer
  · extract_lets s5
    have h5 : Kept s0 s5 := h.dupEnter
    exact h5.frame

theorem Kept.brakeRun {i : Item} (h : Kept s0 s) : Kept s0 (Machine.brakeRun s i) := by
  unfold Machine.brakeRun
  split
  · exact h.controlAnswer
  · split
    · exact h.controlAnswer
    · extract_lets _
      refine .ite h.controlAnswer ?_
      split
      · exact h.controlAnswer
      · split
        · exact h.controlAnswer
        · exact h.brakeStart

theorem Kept.brakeTake {r : Nat} {release : Bool} (h : Kept s0 s) : Kept s0 (Machine.brakeTake s r release) := by
  unfold Machine.brakeTake
  split
  · exact h
  · extract_lets _
    split
    · exact .controlDrop (.countAuth h.frame)
    next _ t7 e1 =>
      have h7 := (Kept.verifyItem h.frame).get e1
      split
      · exact .ite h7.brakeRun h
      · exact .ite h h7.brakeRun
      · exact h7.brakeRun

theorem Kept.execBrakeSet {r : Nat} (h : Kept s0 s) : KeptRes s0 (Machine.execBrakeSet r s) := by
  unfold Machine.execBrakeSet
  exact .ite (.next h) (.next h.brakeTake)

theorem Kept.execBrakeRelease {r : Nat} (h : Kept s0 s) : KeptRes s0 (Machine.execBrakeRelease r s) := by
  unfold Machine.execBrakeRelease
  exact .ite (.next h) (.next h.brakeTake)

theorem Kept.mirrorBrake {f : Nat} {b : Option Brake} (h : Kept s0 s) : Kept s0 (Machine.mirrorBrake s f b) := by
  unfold Machine.mirrorBrake
  refine .foldl h fun _ _ h1 => ?_
  extract_lets _
  split
  · exact .setFld (.setFld (.setFld (.setFld h1.setFlag)))
  · exact .setFld (.setFld h1.setReg)

theorem Kept.brakeDiscard {b : Brake} (h : Kept s0 s) : Kept s0 (Machine.brakeDiscard s b) := by
  unfold Machine.brakeDiscard
  exact .foldl h (fun _ _ h1 => .ite h1.dropItem h1)

theorem Kept.execBrakeFilterPropagated (h : Kept s0 s) : KeptRes s0 (Machine.execBrakeFilterPropagated s) := by
  unfold Machine.execBrakeFilterPropagated
  split
  · exact .next h
  · extract_lets _ _
    split
    · exact .next (.controlAnswer (.dupRemove h.frame))
    · refine .ite (.next (.controlAnswer h.frame)) ?_
      extract_lets s1 _ _ _
      have h1 : Kept s0 s1 := .postEvent h.frame
      exact .ite (.next (.controlAnswer (.brakeDiscard (.mirrorBrake h1.frame)))) (.next (.controlAnswer (.dupCommit
        (.mirrorBrake h1.frame))))

theorem Kept.execClsControlParity {r : Nat} {mirror : Bool} (h : Kept s0 s) :
    KeptRes s0 (Machine.execClsControlParity r mirror s) := by
  unfold Machine.execClsControlParity
  exact .ite (.next h) (.next h.controlParity)

theorem Kept.execBrakeMirrorReloaded {r : Nat} (h : Kept s0 s) :
    KeptRes s0 (Machine.execBrakeMirrorReloaded r s) := by
  unfold Machine.execBrakeMirrorReloaded
  exact .next h.frame

theorem Kept.execEarlyEndTagVerify {stamp : Nat} (h : Kept s0 s) :
    KeptRes s0 (Machine.execEarlyEndTagVerify stamp s) := by
  unfold Machine.execEarlyEndTagVerify
  split
  · exact .next h
  · refine .ite (.next h) ?_
    extract_lets _
    split
    · exact .next (.controlDrop (.countAuth h.frame))
    next _ t7 e1 =>
      have h7 := (Kept.verifyItem h.frame).get e1
      exact .next h7.controlAnswer

theorem Kept.execEarlyEndVerifyTimeout {stamp : Nat} (h : Kept s0 s) :
    KeptRes s0 (Machine.execEarlyEndVerifyTimeout stamp s) := by
  unfold Machine.execEarlyEndVerifyTimeout
  split
  · exact .next h
  · exact .next (.controlDrop (.countAuth h.frame))

/-! ### Engine -/

theorem Kept.engineCheck {r : Nat} {j : Job} (h : Kept s0 s) : KeptSnd s0 (Machine.engineCheck s r j) := by
  unfold Machine.engineCheck
  extract_lets _ _
  split
  · exact h
  · split
    · exact h
    · split
      next hf =>
        have h1 := h.fabricRanges.get hf
        refine .ite h1 (.ite h1 ?_)
        split
        next hk =>
          have h2 : Kept s0 _ := KeptSnd.get (KeptSnd.ite (by split; next hr => exact h1.resolveKey.get hr)
            (.ite h1 (.ite h1 h1))) hk
          split
          · exact h2
          · refine .ite ?_ h2
            split
            next hw =>
              have h3 := h2.jobWords.get hw
              split
              · exact h3
              · exact h3

theorem Kept.execEngineJobBind {r k : Nat} (h : Kept s0 s) : KeptRes s0 (Machine.execEngineJobBind r k s) := by
  unfold Machine.execEngineJobBind
  extract_lets _
  refine .ite (.next h) ?_
  split
  · exact .next (.ite h.bump h)
  · extract_lets _
    split
    next _ t1 e0 =>
      have h1 := (Kept.engineCheck (.grantJob (.ite h h.bump))).get e0
      split
      · exact .next (.complete h1.bump)
      · exact .next (.touch (.stampItem (.setLane h1.bump)))

theorem Kept.endEngine {p : PageId} {r : Nat} {j : Job} {st : Nat} {h' : Word} {outLen : Nat} (h : Kept s0 s) :
    Kept s0 (Machine.endEngine s p r j st h' outLen) := by
  unfold Machine.endEngine
  extract_lets _ s1 _ _ _
  have h1 : Kept s0 s1 := .bump h.setLane
  exact .complete (.stampItem (.pmcEvent (.bump (.ite h1.bump h1))))

theorem Kept.copyOut {r : Nat} {j : Job} {o : List (Nat × Nat)} (h : Kept s0 s) :
    Kept s0 (Machine.copyOut s r j o) := by
  unfold Machine.copyOut
  exact .foldl h (fun _ _ h1 => h1.jobWrite)

theorem Kept.resultMismatch {p : PageId} (h : Kept s0 s) : Kept s0 (Machine.resultMismatch s p) := by
  unfold Machine.resultMismatch
  exact h.failBlock

/-- A key that an engine generated is placed, or no state comes back. -/
theorem Kept.placeGenerated {cls t : Nat} {spec : Bytes} {curve : Nat} {bits opt : Bytes} {x : Word} {s' : State}
    (h : Kept s0 s) (e : placeGenerated s cls t spec curve bits opt = .ok (x, s')) : Kept s0 s' := by
  unfold Machine.placeGenerated at e
  split at e
  · cases e
  · split at e
    · cases e
    · split at e
      next y hy =>
        cases e
        exact h.placeKey.get hy
      · cases e

theorem Kept.engineJobDone {r k : Nat} (h : Kept s0 s) : KeptRes s0 (Machine.engineJobDone r k s) := by
  unfold Machine.engineJobDone
  extract_lets p
  split
  · exact .next h
  · refine .ite ?_ (.next h)
    split
    · exact .next h.resultMismatch
    · exact .next h.endEngine
    · split
      · exact .next (.endEngine h.copyOut)
      · split
        · exact .next (.endEngine h.quotaCounted)
        next e => exact .next (.endEngine (.copyOut (h.placeGenerated e)))

theorem Kept.execEngineJobDone {r k : Nat} (h : Kept s0 s) : KeptRes s0 (Machine.execEngineJobDone r k s) := by
  unfold Machine.execEngineJobDone
  exact .engineJobDone h.touchIf

theorem Kept.zeroOutputs {r : Nat} {j : Job} {n : Nat} (h : Kept s0 s) : Kept s0 (Machine.zeroOutputs s r j n) := by
  unfold Machine.zeroOutputs
  exact foldl_fst h fun _ _ h => h.jobWrite

theorem Kept.execDiscardZeroiseDone {p : PageId} {written : Nat} (h : Kept s0 s) :
    KeptRes s0 (Machine.execDiscardZeroiseDone p written s) := by
  unfold Machine.execDiscardZeroiseDone
  split
  · extract_lets _ _ s1
    have h1 : Kept s0 s1 := .ite (.zeroOutputs h.setLane) (.ite (.jobWrite h.setLane) h.setLane)
    split
    · exact .next (.ite h1.endItems h1.complete)
    · exact .next h1
  · exact .next h

theorem Kept.execMicrocodeLoad {r : Nat} {words : BitVec 15} (h : Kept s0 s) :
    KeptRes s0 (Machine.execMicrocodeLoad r words s) := by
  unfold Machine.execMicrocodeLoad
  exact .onComplex h (.ite (.next h) (.ite (.next (.setIrq (.raiseErr h.setFlag))) (.next (.setFlag (.setFlag
    (.setFlag h.setFld))))))

theorem Kept.execMicrocodeLoadDone {r : Nat} (h : Kept s0 s) : KeptRes s0 (Machine.execMicrocodeLoadDone r s) := by
  unfold Machine.execMicrocodeLoadDone
  exact .ite (.next h) (.next (.setIrq (.foldl (.setFld (.setFlag (.setFlag h.frame))) (fun _ _ h1 =>
    .setFld h1.setFld))))

theorem Kept.execEngineStartupVectorsDone {r : Nat} {fails : List (Nat × Byte)} (h : Kept s0 s) :
    KeptRes s0 (Machine.execEngineStartupVectorsDone r fails s) := by
  unfold Machine.execEngineStartupVectorsDone
  exact .ite (.next h) (.next h.poolVectors)

theorem Kept.execPkeTestRun {r k : Nat} {res : Option Byte} (h : Kept s0 s) :
    KeptRes s0 (Machine.execPkeTestRun r k res s) := by
  unfold Machine.execPkeTestRun
  refine .onComplex h ?_
  split
  next e => exact .next (h.testTaken e)
  · exact .next h.katResult

/-! ### KreurRun -/

theorem Kept.trapTask {k : Nat} {i : Item} {code : Nat} (h : Kept s0 s) : Kept s0 (Machine.trapTask s k i code) := by
  unfold Machine.trapTask
  exact .endItem (.pmcEvent (.postEvent (.setFld (.setFld h.bump))))

theorem Kept.kStep {k g : Nat} {sense : Bool} {len cyc : Nat} {illegal : Bool}
    {f : State → Item → Core → Except Nat State} (h : Kept s0 s)
    (hf : ∀ x0 x1 x2, Kept s0 x0 → KeptExc s0 (f x0 x1 x2)) :
    KeptRes s0 (Machine.kStep s k g sense len cyc illegal f) := by
  unfold Machine.kStep
  extract_lets _ _ _
  split
  · exact .next h
  · refine .ite (.next h) ?_
    split
    · exact .next h.trapTask
    · refine .ite (.next h.trapTask) ?_
      refine .ite (.next h.setCore) ?_
      split
      next t3 e0 =>
        have h3 := (hf _ _ _ h.setCore).get e0
        exact .next h3
      · exact .next h.trapTask

theorem Kept.kRun {k g : Nat} {sense : Bool} {len cyc : Nat} {illegal : Bool}
    {f : State → Item → Core → Except Nat State} (h : Kept s0 s)
    (hf : ∀ x0 x1 x2, Kept s0 x0 → KeptExc s0 (f x0 x1 x2)) :
    KeptRes s0 (Machine.kRun s k g sense len cyc illegal f) := by
  unfold Machine.kRun
  exact .kStep (.ite h.touch h) hf

theorem Kept.kPure {k g : Nat} {sense : Bool} {len cyc : Nat} {illegal : Bool} {f : Item → Core → KRes}
    (h : Kept s0 s) :
    KeptRes s0 (Machine.kPure s k g sense len cyc illegal f) := by
  unfold Machine.kPure
  refine .kRun h fun _ _ _ h1 => ?_
  split
  · exact .ok h1.setCore
  · exact .error

/-! ### KreurAlu -/

theorem Kept.kAlu {k g : Nat} {sense : Bool} {cyc n p : Nat} {f : Core → List Cell → List Cell × FlagWrite}
    (h : Kept s0 s) :
    KeptRes s0 (Machine.kAlu s k g sense cyc n p f) := by
  unfold Machine.kAlu
  exact h.kPure

theorem Kept.kBin {k g : Nat} {sense : Bool} {f : Cell → Cell → Cell} (h : Kept s0 s) :
    KeptRes s0 (Machine.kBin s k g sense f) := by
  unfold Machine.kBin
  exact h.kAlu

theorem Kept.kBinF {k g : Nat} {sense : Bool} {f : Core → Cell → Cell → Cell × FlagWrite} (h : Kept s0 s) :
    KeptRes s0 (Machine.kBinF s k g sense f) := by
  unfold Machine.kBinF
  exact h.kAlu

theorem Kept.kUnF {k g : Nat} {sense : Bool} {f : Cell → Cell × FlagWrite} (h : Kept s0 s) :
    KeptRes s0 (Machine.kUnF s k g sense f) := by
  unfold Machine.kUnF
  exact h.kAlu

theorem Kept.kBin32 {k g : Nat} {sense : Bool} {f : Word → Word → Word × FlagWrite} (h : Kept s0 s) :
    KeptRes s0 (Machine.kBin32 s k g sense f) := by
  unfold Machine.kBin32
  exact h.kAlu

theorem Kept.execAdd {core g : Nat} {sense : Bool} (h : Kept s0 s) : KeptRes s0 (Machine.execAdd core g sense s) := by
  unfold Machine.execAdd
  exact h.kBinF

theorem Kept.execSub {core g : Nat} {sense : Bool} (h : Kept s0 s) : KeptRes s0 (Machine.execSub core g sense s) := by
  unfold Machine.execSub
  exact h.kBinF

theorem Kept.execAdc {core g : Nat} {sense : Bool} (h : Kept s0 s) : KeptRes s0 (Machine.execAdc core g sense s) := by
  unfold Machine.execAdc
  exact h.kBinF

theorem Kept.execSbc {core g : Nat} {sense : Bool} (h : Kept s0 s) : KeptRes s0 (Machine.execSbc core g sense s) := by
  unfold Machine.execSbc
  exact h.kBinF

theorem Kept.execAnd {core g : Nat} {sense : Bool} (h : Kept s0 s) : KeptRes s0 (Machine.execAnd core g sense s) := by
  unfold Machine.execAnd
  exact h.kBin

theorem Kept.execOr {core g : Nat} {sense : Bool} (h : Kept s0 s) : KeptRes s0 (Machine.execOr core g sense s) := by
  unfold Machine.execOr
  exact h.kBin

theorem Kept.execXor {core g : Nat} {sense : Bool} (h : Kept s0 s) : KeptRes s0 (Machine.execXor core g sense s) := by
  unfold Machine.execXor
  exact h.kBin

theorem Kept.execNot {core g : Nat} {sense : Bool} (h : Kept s0 s) : KeptRes s0 (Machine.execNot core g sense s) := by
  unfold Machine.execNot
  exact h.kUnF

theorem Kept.execNeg {core g : Nat} {sense : Bool} (h : Kept s0 s) : KeptRes s0 (Machine.execNeg core g sense s) := by
  unfold Machine.execNeg
  exact h.kUnF

theorem Kept.execAbs {core g : Nat} {sense : Bool} (h : Kept s0 s) : KeptRes s0 (Machine.execAbs core g sense s) := by
  unfold Machine.execAbs
  exact h.kUnF

theorem Kept.execMul {core g : Nat} {sense : Bool} (h : Kept s0 s) : KeptRes s0 (Machine.execMul core g sense s) := by
  unfold Machine.execMul
  exact h.kAlu

theorem Kept.execMuls {core g : Nat} {sense : Bool} (h : Kept s0 s) :
    KeptRes s0 (Machine.execMuls core g sense s) := by
  unfold Machine.execMuls
  exact h.kAlu

theorem Kept.execDiv {core g : Nat} {sense : Bool} (h : Kept s0 s) : KeptRes s0 (Machine.execDiv core g sense s) := by
  unfold Machine.execDiv
  exact h.kAlu

theorem Kept.execDivs {core g : Nat} {sense : Bool} (h : Kept s0 s) :
    KeptRes s0 (Machine.execDivs core g sense s) := by
  unfold Machine.execDivs
  exact h.kAlu

theorem Kept.execAdd32 {core g : Nat} {sense : Bool} (h : Kept s0 s) :
    KeptRes s0 (Machine.execAdd32 core g sense s) := by
  unfold Machine.execAdd32
  exact h.kBin32

theorem Kept.execSub32 {core g : Nat} {sense : Bool} (h : Kept s0 s) :
    KeptRes s0 (Machine.execSub32 core g sense s) := by
  unfold Machine.execSub32
  exact h.kBin32

theorem Kept.execInc {core g : Nat} {sense : Bool} (h : Kept s0 s) : KeptRes s0 (Machine.execInc core g sense s) := by
  unfold Machine.execInc
  exact h.kUnF

theorem Kept.execDec {core g : Nat} {sense : Bool} (h : Kept s0 s) : KeptRes s0 (Machine.execDec core g sense s) := by
  unfold Machine.execDec
  exact h.kUnF

theorem Kept.execAddi {core g : Nat} {sense : Bool} {n : BitVec 7} (h : Kept s0 s) :
    KeptRes s0 (Machine.execAddi core g sense n s) := by
  unfold Machine.execAddi
  exact h.kUnF

theorem Kept.execShl {core g : Nat} {sense : Bool} (h : Kept s0 s) : KeptRes s0 (Machine.execShl core g sense s) := by
  unfold Machine.execShl
  exact h.kBin

theorem Kept.execShr {core g : Nat} {sense : Bool} (h : Kept s0 s) : KeptRes s0 (Machine.execShr core g sense s) := by
  unfold Machine.execShr
  exact h.kBin

theorem Kept.execSar {core g : Nat} {sense : Bool} (h : Kept s0 s) : KeptRes s0 (Machine.execSar core g sense s) := by
  unfold Machine.execSar
  exact h.kBin

theorem Kept.execRol {core g : Nat} {sense : Bool} (h : Kept s0 s) : KeptRes s0 (Machine.execRol core g sense s) := by
  unfold Machine.execRol
  exact h.kBin

theorem Kept.execRor {core g : Nat} {sense : Bool} (h : Kept s0 s) : KeptRes s0 (Machine.execRor core g sense s) := by
  unfold Machine.execRor
  exact h.kBin

theorem Kept.kShift32 {k g : Nat} {sense : Bool} {f : Word → Nat → Word} (h : Kept s0 s) :
    KeptRes s0 (Machine.kShift32 s k g sense f) := by
  unfold Machine.kShift32
  exact h.kAlu

theorem Kept.execShl32 {core g : Nat} {sense : Bool} (h : Kept s0 s) :
    KeptRes s0 (Machine.execShl32 core g sense s) := by
  unfold Machine.execShl32
  exact h.kShift32

theorem Kept.execShr32 {core g : Nat} {sense : Bool} (h : Kept s0 s) :
    KeptRes s0 (Machine.execShr32 core g sense s) := by
  unfold Machine.execShr32
  exact h.kShift32

theorem Kept.execShli {core g : Nat} {sense : Bool} {n : BitVec 4} (h : Kept s0 s) :
    KeptRes s0 (Machine.execShli core g sense n s) := by
  unfold Machine.execShli
  exact h.kUnF

theorem Kept.execShri {core g : Nat} {sense : Bool} {n : BitVec 4} (h : Kept s0 s) :
    KeptRes s0 (Machine.execShri core g sense n s) := by
  unfold Machine.execShri
  exact h.kUnF

theorem Kept.execSari {core g : Nat} {sense : Bool} {n : BitVec 4} (h : Kept s0 s) :
    KeptRes s0 (Machine.execSari core g sense n s) := by
  unfold Machine.execSari
  exact h.kUnF

theorem Kept.execRoli {core g : Nat} {sense : Bool} {n : BitVec 4} (h : Kept s0 s) :
    KeptRes s0 (Machine.execRoli core g sense n s) := by
  unfold Machine.execRoli
  exact h.kUnF

/-! ### KreurBits -/

theorem Kept.kField {k g : Nat} {sense : Bool} {n : Nat} {imm : Cell} {f : Nat → Nat → List Cell → List Cell}
    (h : Kept s0 s) :
    KeptRes s0 (Machine.kField s k g sense n imm f) := by
  unfold Machine.kField
  exact h.kPure

theorem Kept.execBfx {core g : Nat} {sense : Bool} {imm : Cell} (h : Kept s0 s) :
    KeptRes s0 (Machine.execBfx core g sense imm s) := by
  unfold Machine.execBfx
  exact h.kField

theorem Kept.execBfxs {core g : Nat} {sense : Bool} {imm : Cell} (h : Kept s0 s) :
    KeptRes s0 (Machine.execBfxs core g sense imm s) := by
  unfold Machine.execBfxs
  exact h.kField

theorem Kept.execBfi {core g : Nat} {sense : Bool} {imm : Cell} (h : Kept s0 s) :
    KeptRes s0 (Machine.execBfi core g sense imm s) := by
  unfold Machine.execBfi
  exact h.kField

theorem Kept.execClz {core g : Nat} {sense : Bool} (h : Kept s0 s) : KeptRes s0 (Machine.execClz core g sense s) := by
  unfold Machine.execClz
  exact h.kUnF

theorem Kept.execCtz {core g : Nat} {sense : Bool} (h : Kept s0 s) : KeptRes s0 (Machine.execCtz core g sense s) := by
  unfold Machine.execCtz
  exact h.kUnF

theorem Kept.execPopc {core g : Nat} {sense : Bool} (h : Kept s0 s) :
    KeptRes s0 (Machine.execPopc core g sense s) := by
  unfold Machine.execPopc
  exact h.kUnF

theorem Kept.execBperm {core g : Nat} {sense : Bool} {imm : Cell} (h : Kept s0 s) :
    KeptRes s0 (Machine.execBperm core g sense imm s) := by
  unfold Machine.execBperm
  exact h.kPure

theorem Kept.kCmp2 {k g : Nat} {sense : Bool} {pd : Nat} {f : Cell → Cell → Bool} (h : Kept s0 s) :
    KeptRes s0 (Machine.kCmp2 s k g sense pd f) := by
  unfold Machine.kCmp2
  exact h.kPure

theorem Kept.kCmp1 {k g : Nat} {sense : Bool} {pd : Nat} {f : Cell → Bool} (h : Kept s0 s) :
    KeptRes s0 (Machine.kCmp1 s k g sense pd f) := by
  unfold Machine.kCmp1
  exact h.kPure

theorem Kept.kPred {k g : Nat} {sense : Bool} {pd : Nat} {f : Core → Bool} (h : Kept s0 s) :
    KeptRes s0 (Machine.kPred s k g sense pd f) := by
  unfold Machine.kPred
  exact h.kPure

theorem Kept.execEq {core g : Nat} {sense : Bool} {pd : Nat} (h : Kept s0 s) :
    KeptRes s0 (Machine.execEq core g sense pd s) := by
  unfold Machine.execEq
  exact h.kCmp2

theorem Kept.execNe {core g : Nat} {sense : Bool} {pd : Nat} (h : Kept s0 s) :
    KeptRes s0 (Machine.execNe core g sense pd s) := by
  unfold Machine.execNe
  exact h.kCmp2

theorem Kept.execLtu {core g : Nat} {sense : Bool} {pd : Nat} (h : Kept s0 s) :
    KeptRes s0 (Machine.execLtu core g sense pd s) := by
  unfold Machine.execLtu
  exact h.kCmp2

theorem Kept.execGeu {core g : Nat} {sense : Bool} {pd : Nat} (h : Kept s0 s) :
    KeptRes s0 (Machine.execGeu core g sense pd s) := by
  unfold Machine.execGeu
  exact h.kCmp2

theorem Kept.execGtu {core g : Nat} {sense : Bool} {pd : Nat} (h : Kept s0 s) :
    KeptRes s0 (Machine.execGtu core g sense pd s) := by
  unfold Machine.execGtu
  exact h.kCmp2

theorem Kept.execLeu {core g : Nat} {sense : Bool} {pd : Nat} (h : Kept s0 s) :
    KeptRes s0 (Machine.execLeu core g sense pd s) := by
  unfold Machine.execLeu
  exact h.kCmp2

theorem Kept.execLt {core g : Nat} {sense : Bool} {pd : Nat} (h : Kept s0 s) :
    KeptRes s0 (Machine.execLt core g sense pd s) := by
  unfold Machine.execLt
  exact h.kCmp2

theorem Kept.execGe {core g : Nat} {sense : Bool} {pd : Nat} (h : Kept s0 s) :
    KeptRes s0 (Machine.execGe core g sense pd s) := by
  unfold Machine.execGe
  exact h.kCmp2

theorem Kept.execGt {core g : Nat} {sense : Bool} {pd : Nat} (h : Kept s0 s) :
    KeptRes s0 (Machine.execGt core g sense pd s) := by
  unfold Machine.execGt
  exact h.kCmp2

theorem Kept.execLe {core g : Nat} {sense : Bool} {pd : Nat} (h : Kept s0 s) :
    KeptRes s0 (Machine.execLe core g sense pd s) := by
  unfold Machine.execLe
  exact h.kCmp2

theorem Kept.execEqz {core g : Nat} {sense : Bool} {pd : Nat} (h : Kept s0 s) :
    KeptRes s0 (Machine.execEqz core g sense pd s) := by
  unfold Machine.execEqz
  exact h.kCmp1

theorem Kept.execNez {core g : Nat} {sense : Bool} {pd : Nat} (h : Kept s0 s) :
    KeptRes s0 (Machine.execNez core g sense pd s) := by
  unfold Machine.execNez
  exact h.kCmp1

theorem Kept.execLtz {core g : Nat} {sense : Bool} {pd : Nat} (h : Kept s0 s) :
    KeptRes s0 (Machine.execLtz core g sense pd s) := by
  unfold Machine.execLtz
  exact h.kCmp1

theorem Kept.execGez {core g : Nat} {sense : Bool} {pd : Nat} (h : Kept s0 s) :
    KeptRes s0 (Machine.execGez core g sense pd s) := by
  unfold Machine.execGez
  exact h.kCmp1

theorem Kept.execBit {core g : Nat} {sense : Bool} {pd : Nat} (h : Kept s0 s) :
    KeptRes s0 (Machine.execBit core g sense pd s) := by
  unfold Machine.execBit
  exact h.kCmp2

theorem Kept.execPc {core g : Nat} {sense : Bool} {pd : Nat} (h : Kept s0 s) :
    KeptRes s0 (Machine.execPc core g sense pd s) := by
  unfold Machine.execPc
  exact h.kPred

theorem Kept.execPv {core g : Nat} {sense : Bool} {pd : Nat} (h : Kept s0 s) :
    KeptRes s0 (Machine.execPv core g sense pd s) := by
  unfold Machine.execPv
  exact h.kPred

theorem Kept.execPdz {core g : Nat} {sense : Bool} {pd : Nat} (h : Kept s0 s) :
    KeptRes s0 (Machine.execPdz core g sense pd s) := by
  unfold Machine.execPdz
  exact h.kPred

theorem Kept.execPredAnd {core g : Nat} {sense : Bool} {ps pd : Nat} (h : Kept s0 s) :
    KeptRes s0 (Machine.execPredAnd core g sense ps pd s) := by
  unfold Machine.execPredAnd
  exact h.kPred

theorem Kept.execPredOr {core g : Nat} {sense : Bool} {ps pd : Nat} (h : Kept s0 s) :
    KeptRes s0 (Machine.execPredOr core g sense ps pd s) := by
  unfold Machine.execPredOr
  exact h.kPred

theorem Kept.execPredXor {core g : Nat} {sense : Bool} {ps pd : Nat} (h : Kept s0 s) :
    KeptRes s0 (Machine.execPredXor core g sense ps pd s) := by
  unfold Machine.execPredXor
  exact h.kPred

theorem Kept.execPredMov {core g : Nat} {sense : Bool} {ps pd : Nat} (h : Kept s0 s) :
    KeptRes s0 (Machine.execPredMov core g sense ps pd s) := by
  unfold Machine.execPredMov
  exact h.kPred

theorem Kept.execLit8 {core g : Nat} {sense : Bool} {n : Byte} (h : Kept s0 s) :
    KeptRes s0 (Machine.execLit8 core g sense n s) := by
  unfold Machine.execLit8
  exact .ite h.kPure h.kPure

theorem Kept.execLit16 {core g : Nat} {sense : Bool} {n : Cell} (h : Kept s0 s) :
    KeptRes s0 (Machine.execLit16 core g sense n s) := by
  unfold Machine.execLit16
  exact h.kPure

/-! ### Trie -/

theorem Kept.triFault {slot : Nat} (h : Kept s0 s) : Kept s0 (Machine.triFault s slot) := by
  unfold Machine.triFault
  exact .reportUncorrected h.setFld

theorem Kept.triCount {miss : Bool} {bad : Nat} (h : Kept s0 s) : Kept s0 (Machine.triCount s miss bad) := by
  unfold Machine.triCount
  extract_lets _ s9
  have h9 : Kept s0 s9 := .ite (.bump h.bump) h.bump
  exact .ite h9 (.setIrq h9.bump)

theorem Kept.triRoute {ds : List Nat} (h : Kept s0 s) : KeptSnd s0 (Machine.triRoute s ds) := by
  unfold Machine.triRoute
  extract_lets _
  split
  · exact h.triFault
  · exact h.triCount

theorem Kept.markLocks (h : Kept s0 s) : Kept s0 (Machine.markLocks s) := by
  unfold Machine.markLocks
  exact h.setFld

theorem Kept.lockBlock {b : Nat} (h : Kept s0 s) : Kept s0 (Machine.lockBlock s b) := by
  unfold Machine.lockBlock
  refine .setFlag (.markLocks (h.setTri (fun ha _ => ha) fun _ hw => ?_))
  apply mwf_foldl _ hw
  exact fun _ _ hm => mwf_mset _ _ _ _ hm

theorem Kept.swapBlock {b : Nat} (h : Kept s0 s) : Kept s0 (Machine.swapBlock s b) := by
  unfold Machine.swapBlock
  refine .foldl h.setTriMarks fun _ _ h1 => h1.setTri (fun ha _ => ?_) fun _ hw => ?_
  · exact mwf_mset _ _ _ _ ha
  · exact mwf_mset _ _ _ _ hw

theorem Kept.execTriLockSet {b : Nat} {recent : Bool} (h : Kept s0 s) :
    KeptRes s0 (Machine.execTriLockSet b recent s) := by
  unfold Machine.execTriLockSet
  exact .onComplex h (.ite (.next h.accessErr) (.ite (.next (.setFlag h.setTriMarks)) (.next h.lockBlock)))

theorem Kept.execTriLockHoldRelease (h : Kept s0 s) : KeptRes s0 (Machine.execTriLockHoldRelease s) := by
  unfold Machine.execTriLockHoldRelease
  split
  · exact .next h
  · exact .next (.lockBlock (.setFlag h.setTriMarks))

theorem Kept.execTriLockCopyDone (h : Kept s0 s) : KeptRes s0 (Machine.execTriLockCopyDone s) := by
  unfold Machine.execTriLockCopyDone
  exact .next h.setFlag

theorem Kept.execTriLockClr {b : Nat} (h : Kept s0 s) : KeptRes s0 (Machine.execTriLockClr b s) := by
  unfold Machine.execTriLockClr
  exact .onComplex h (.ite (.next (.markLocks h.swapBlock.setTriMarks)) (.next h))

theorem Kept.execTriCommit (h : Kept s0 s) : KeptRes s0 (Machine.execTriCommit s) := by
  unfold Machine.execTriCommit
  refine .onComplex h ?_
  extract_lets s1
  have h1 : Kept s0 s1 := .foldl h fun _ _ h1 => h1.swapBlock
  exact .next (.markLocks h1.setTriMarks)

theorem Kept.execTriNodeWrite {b n : Nat} {v : BitVec 64} (h : Kept s0 s) :
    KeptRes s0 (Machine.execTriNodeWrite b n v s) := by
  unfold Machine.execTriNodeWrite
  exact .onComplex h (.ite (.next h)
    (.ite (.next (h.setTri (fun ha _ => ha) fun _ hw => mwf_mset _ _ _ _ hw)) (.next h.accessErr)))

theorem Kept.execTriDmaGo {first count : BitVec 13} (h : Kept s0 s) :
    KeptRes s0 (Machine.execTriDmaGo first count s) := by
  unfold Machine.execTriDmaGo
  exact .onComplex h (.ite (.next h) (.next (.setFlag (.setFld h.setFld))))

theorem Kept.dmaBlock {b src : Nat} (h : Kept s0 s) : Kept s0 (Machine.dmaBlock s b src) := by
  unfold Machine.dmaBlock
  refine h.setTri (fun ha _ => ha) fun _ hw => ?_
  apply mwf_foldl _ hw
  exact fun _ _ hm => mwf_mset _ _ _ _ hm

theorem Kept.dmaBlocks {src first n k : Nat} (h : Kept s0 s) : Kept s0 (Machine.dmaBlocks src first n k s) := by
  induction n generalizing k s with
  | zero => exact h.setIrq
  | succ n ih => exact .ite (ih h.dmaBlock) (.setIrq h.accessErr)

theorem Kept.execTriDmaDone (h : Kept s0 s) : KeptRes s0 (Machine.execTriDmaDone s) := by
  unfold Machine.execTriDmaDone
  exact .ite (.next h) (.next (.setFlag h.dmaBlocks))

/-! ### KreurEngine -/

theorem Kept.kSend {k g : Nat} {sense : Bool} {seg : Nat → Bool} {full : State → Bool} {len : Nat}
    {act : State → Nat → Nat → Item → Bytes → State} (h : Kept s0 s)
    (hact : ∀ x0 x1 x2 x3 x4, Kept s0 x0 → Kept s0 (act x0 x1 x2 x3 x4)) :
    KeptRes s0 (Machine.kSend s k g sense seg full len act) := by
  unfold Machine.kSend
  refine .kRun h fun _ _ _ h1 => ?_
  split
  · exact .error
  · extract_lets _
    refine .ite .error ?_
    split
    · exact .ok h1.setCore
    · refine .ite (.ok h1.setCore) ?_
      split
      · exact .error
      · exact .ok (hact _ _ _ _ _ h1.setCore)

theorem Kept.sendJob {u : UnitKind} {k n sg : Nat} {i : Item} {d : Bytes} (h : Kept s0 s) :
    Kept s0 (Machine.sendJob u k s n sg i d) := by
  unfold Machine.sendJob
  exact h.setQueue

theorem Kept.sendEngine {k n sg : Nat} {i : Item} {d : Bytes} (h : Kept s0 s) :
    Kept s0 (Machine.sendEngine k s n sg i d) := by
  unfold Machine.sendEngine
  exact .ite (.setIrq h.sendJob) h.sendJob

theorem Kept.execSendCipher {core g : Nat} {sense : Bool} (h : Kept s0 s) :
    KeptRes s0 (Machine.execSendCipher core g sense s) := by
  unfold Machine.execSendCipher
  exact .kSend h (fun _ _ _ _ _ h1 => h1.sendJob)

theorem Kept.execSendHash {core g : Nat} {sense : Bool} (h : Kept s0 s) :
    KeptRes s0 (Machine.execSendHash core g sense s) := by
  unfold Machine.execSendHash
  exact .kSend h (fun _ _ _ _ _ h1 => h1.sendJob)

theorem Kept.execSendEngine {core g : Nat} {sense : Bool} (h : Kept s0 s) :
    KeptRes s0 (Machine.execSendEngine core g sense s) := by
  unfold Machine.execSendEngine
  exact .kSend h (fun _ _ _ _ _ h1 => h1.sendEngine)

theorem Kept.execSendLookup {core g : Nat} {sense : Bool} (h : Kept s0 s) :
    KeptRes s0 (Machine.execSendLookup core g sense s) := by
  unfold Machine.execSendLookup
  exact .kSend h (fun _ _ _ _ _ h1 => h1.frame)

theorem Kept.execSendVault {core g : Nat} {sense : Bool} (h : Kept s0 s) :
    KeptRes s0 (Machine.execSendVault core g sense s) := by
  unfold Machine.execSendVault
  exact .kSend h (fun _ _ _ _ _ h1 => .complete h1.takeFresh)

theorem Kept.execCtxDraw {core g : Nat} {sense : Bool} (h : Kept s0 s) :
    KeptRes s0 (Machine.execCtxDraw core g sense s) := by
  unfold Machine.execCtxDraw
  exact .ite (.next h) (.kSend h (fun _ _ _ _ _ h1 => h1.storeDraw))

theorem Kept.execCtxFetch {core g : Nat} {sense : Bool} (h : Kept s0 s) :
    KeptRes s0 (Machine.execCtxFetch core g sense s) := by
  unfold Machine.execCtxFetch
  exact .ite (.next h) (.kSend h (fun _ _ _ _ _ h1 => h1.storeFetch))

theorem Kept.execCtxCreate {core g : Nat} {sense : Bool} (h : Kept s0 s) :
    KeptRes s0 (Machine.execCtxCreate core g sense s) := by
  unfold Machine.execCtxCreate
  exact .ite (.next h) (.kSend h (fun _ _ _ _ _ h1 => h1.storeCreate))

theorem Kept.execCtxDelete {core g : Nat} {sense : Bool} (h : Kept s0 s) :
    KeptRes s0 (Machine.execCtxDelete core g sense s) := by
  unfold Machine.execCtxDelete
  exact .ite (.next h) (.kSend h (fun _ _ _ _ _ h1 => h1.storeDelete))

theorem Kept.execTimerSubmit {core g : Nat} {sense : Bool} (h : Kept s0 s) :
    KeptRes s0 (Machine.execTimerSubmit core g sense s) := by
  unfold Machine.execTimerSubmit
  exact .ite (.next h) (.kSend h (fun _ _ _ _ _ h1 => h1.timerSubmit))

theorem Kept.execTimerExpire {core g : Nat} {sense : Bool} (h : Kept s0 s) :
    KeptRes s0 (Machine.execTimerExpire core g sense s) := by
  unfold Machine.execTimerExpire
  exact .ite (.next h) (.kSend h (fun _ _ _ _ _ h1 => h1.timerExpire))

theorem Kept.execTimerHeartbeat {core g : Nat} {sense : Bool} (h : Kept s0 s) :
    KeptRes s0 (Machine.execTimerHeartbeat core g sense s) := by
  unfold Machine.execTimerHeartbeat
  exact .ite (.next h) (.kSend h (fun _ _ _ _ _ h1 => h1.timerHeartbeat))

theorem Kept.execTimerCancel {core g : Nat} {sense : Bool} (h : Kept s0 s) :
    KeptRes s0 (Machine.execTimerCancel core g sense s) := by
  unfold Machine.execTimerCancel
  exact .ite (.next h) (.kSend h (fun _ _ _ _ _ h1 => h1.timerCancel))

theorem Kept.execWait {core g : Nat} {sense : Bool} (h : Kept s0 s) :
    KeptRes s0 (Machine.execWait core g sense s) := by
  unfold Machine.execWait
  exact h.kPure

theorem Kept.execGetw {core g : Nat} {sense : Bool} (h : Kept s0 s) :
    KeptRes s0 (Machine.execGetw core g sense s) := by
  unfold Machine.execGetw
  refine .kRun h fun _ _ _ h1 => ?_
  split
  · split
    · exact .ite (.ok h1.setCore) (.ok (.setCore h1.takeFresh))
    · exact .error
  · exact .error

theorem Kept.execRels {core g : Nat} {sense : Bool} (h : Kept s0 s) :
    KeptRes s0 (Machine.execRels core g sense s) := by
  unfold Machine.execRels
  exact h.kPure

theorem Kept.execResv {core g : Nat} {sense : Bool} (h : Kept s0 s) :
    KeptRes s0 (Machine.execResv core g sense s) := by
  unfold Machine.execResv
  refine .kRun h fun _ _ _ h1 => ?_
  split
  · exact .error
  · extract_lets _
    refine .ite (.ok h1.setCore) ?_
    split
    next _ t9 e0 =>
      have h9 := h1.boomDraw.get e0
      split
      · exact .ok h9.setCore
      · exact .ok h9.setCore

theorem Kept.execRand {core g : Nat} {sense : Bool} (h : Kept s0 s) :
    KeptRes s0 (Machine.execRand core g sense s) := by
  unfold Machine.execRand
  exact h.kPure

theorem Kept.execDone {core g : Nat} {sense : Bool} (h : Kept s0 s) :
    KeptRes s0 (Machine.execDone core g sense s) := by
  unfold Machine.execDone
  refine .kRun h fun _ _ _ h1 => ?_
  split
  · exact .ite .error (.ite .error (.ite (.ok (.settle (.commitDone h1.setCore))) (.ok (.setCore h1.setCore))))
  · exact .error

theorem Kept.yieldTask {k : Nat} {i : Item} {c : Core} (h : Kept s0 s) : KeptExc s0 (Machine.yieldTask s k i c) := by
  unfold Machine.yieldTask
  exact .ite (.ok (.joinReady h.saveTask)) .error

theorem Kept.execYield {core g : Nat} {sense : Bool} (h : Kept s0 s) :
    KeptRes s0 (Machine.execYield core g sense s) := by
  unfold Machine.execYield
  exact .kRun h (fun _ _ _ h1 => h1.yieldTask)

theorem Kept.execSleep {core g : Nat} {sense : Bool} (h : Kept s0 s) :
    KeptRes s0 (Machine.execSleep core g sense s) := by
  unfold Machine.execSleep
  refine .kRun h fun _ _ _ h1 => ?_
  split
  · exact .error
  · extract_lets _
    refine .ite h1.yieldTask ?_
    refine .ite .error ?_
    split
    next _ t9 e0 =>
      have h9 := h1.setTimer.get e0
      exact .ok h9.saveTask
    · exact .yieldTask h1.bumpSat

theorem Kept.execTrap {core g : Nat} {sense : Bool} {n : BitVec 6} (h : Kept s0 s) :
    KeptRes s0 (Machine.execTrap core g sense n s) := by
  unfold Machine.execTrap
  exact h.kPure

theorem Kept.execCsrget {core g : Nat} {sense : Bool} {n : BitVec 6} (h : Kept s0 s) :
    KeptRes s0 (Machine.execCsrget core g sense n s) := by
  unfold Machine.execCsrget
  refine .kRun h fun _ _ _ h1 => ?_
  split
  · exact .error
  · exact .ok h1.setCore

theorem Kept.execCsrput {core g : Nat} {sense : Bool} {n : BitVec 6} (h : Kept s0 s) :
    KeptRes s0 (Machine.execCsrput core g sense n s) := by
  unfold Machine.execCsrput
  exact h.kPure

theorem Kept.execIllegalInstruction {core : Nat} (h : Kept s0 s) :
    KeptRes s0 (Machine.execIllegalInstruction core s) := by
  unfold Machine.execIllegalInstruction
  exact h.kPure

/-! ### KreurMem -/

theorem Kept.kMem {k g : Nat} {sense : Bool} {cyc n : Nat} {f : Item → List Cell → Core → KRes} (h : Kept s0 s) :
    KeptRes s0 (Machine.kMem s k g sense cyc n f) := by
  unfold Machine.kMem
  exact h.kPure

theorem Kept.execLd {core g : Nat} {sense : Bool} (h : Kept s0 s) : KeptRes s0 (Machine.execLd core g sense s) := by
  unfold Machine.execLd
  exact h.kMem

theorem Kept.execSt {core g : Nat} {sense : Bool} (h : Kept s0 s) : KeptRes s0 (Machine.execSt core g sense s) := by
  unfold Machine.execSt
  exact h.kMem

theorem Kept.execLdb {core g : Nat} {sense : Bool} (h : Kept s0 s) : KeptRes s0 (Machine.execLdb core g sense s) := by
  unfold Machine.execLdb
  exact h.kMem

theorem Kept.execStb {core g : Nat} {sense : Bool} (h : Kept s0 s) : KeptRes s0 (Machine.execStb core g sense s) := by
  unfold Machine.execStb
  exact h.kMem

theorem Kept.execLd32 {core g : Nat} {sense : Bool} (h : Kept s0 s) :
    KeptRes s0 (Machine.execLd32 core g sense s) := by
  unfold Machine.execLd32
  exact h.kMem

theorem Kept.execSt32 {core g : Nat} {sense : Bool} (h : Kept s0 s) :
    KeptRes s0 (Machine.execSt32 core g sense s) := by
  unfold Machine.execSt32
  exact h.kMem

theorem Kept.execLdp {core g : Nat} {sense : Bool} (h : Kept s0 s) : KeptRes s0 (Machine.execLdp core g sense s) := by
  unfold Machine.execLdp
  exact h.kMem

theorem Kept.execStp {core g : Nat} {sense : Bool} (h : Kept s0 s) : KeptRes s0 (Machine.execStp core g sense s) := by
  unfold Machine.execStp
  exact h.kMem

theorem Kept.execCopy {core g : Nat} {sense : Bool} (h : Kept s0 s) :
    KeptRes s0 (Machine.execCopy core g sense s) := by
  unfold Machine.execCopy
  exact h.kMem

theorem Kept.execZero {core g : Nat} {sense : Bool} (h : Kept s0 s) :
    KeptRes s0 (Machine.execZero core g sense s) := by
  unfold Machine.execZero
  exact h.kMem

theorem Kept.execLdw {core g : Nat} {sense : Bool} {w : BitVec 5} (h : Kept s0 s) :
    KeptRes s0 (Machine.execLdw core g sense w s) := by
  unfold Machine.execLdw
  exact h.kMem

theorem Kept.execStw {core g : Nat} {sense : Bool} {w : BitVec 5} (h : Kept s0 s) :
    KeptRes s0 (Machine.execStw core g sense w s) := by
  unfold Machine.execStw
  exact h.kMem

theorem Kept.execLdc {core g : Nat} {sense : Bool} {w : BitVec 7} (h : Kept s0 s) :
    KeptRes s0 (Machine.execLdc core g sense w s) := by
  unfold Machine.execLdc
  exact h.kMem

theorem Kept.execBr {core g : Nat} {sense : Bool} {d : BitVec 8} (h : Kept s0 s) :
    KeptRes s0 (Machine.execBr core g sense d s) := by
  unfold Machine.execBr
  exact .ite (.next h) h.kPure

theorem Kept.execCall {core g : Nat} {sense : Bool} {target : Cell} (h : Kept s0 s) :
    KeptRes s0 (Machine.execCall core g sense target s) := by
  unfold Machine.execCall
  exact h.kPure

theorem Kept.execJmp {core g : Nat} {sense : Bool} {target : Cell} (h : Kept s0 s) :
    KeptRes s0 (Machine.execJmp core g sense target s) := by
  unfold Machine.execJmp
  exact h.kPure

theorem Kept.execLoop {core g : Nat} {sense : Bool} {target : Cell} (h : Kept s0 s) :
    KeptRes s0 (Machine.execLoop core g sense target s) := by
  unfold Machine.execLoop
  exact h.kPure

theorem Kept.execRet {core g : Nat} {sense : Bool} (h : Kept s0 s) : KeptRes s0 (Machine.execRet core g sense s) := by
  unfold Machine.execRet
  exact h.kPure

theorem Kept.execCalls {core g : Nat} {sense : Bool} (h : Kept s0 s) :
    KeptRes s0 (Machine.execCalls core g sense s) := by
  unfold Machine.execCalls
  exact h.kPure

theorem Kept.execJmps {core g : Nat} {sense : Bool} (h : Kept s0 s) :
    KeptRes s0 (Machine.execJmps core g sense s) := by
  unfold Machine.execJmps
  exact h.kPure

/-! ### KreurStack -/

theorem Kept.kStack {k g : Nat} {sense : Bool} {n p : Nat} {f : List Cell → List Cell} (h : Kept s0 s) :
    KeptRes s0 (Machine.kStack s k g sense n p f) := by
  unfold Machine.kStack
  exact h.kPure

theorem Kept.execNop {core g : Nat} {sense : Bool} (h : Kept s0 s) : KeptRes s0 (Machine.execNop core g sense s) := by
  unfold Machine.execNop
  exact h.kStack

theorem Kept.execDup {core g : Nat} {sense : Bool} (h : Kept s0 s) : KeptRes s0 (Machine.execDup core g sense s) := by
  unfold Machine.execDup
  exact h.kStack

theorem Kept.execDrop {core g : Nat} {sense : Bool} (h : Kept s0 s) :
    KeptRes s0 (Machine.execDrop core g sense s) := by
  unfold Machine.execDrop
  exact h.kStack

theorem Kept.execSwap {core g : Nat} {sense : Bool} (h : Kept s0 s) :
    KeptRes s0 (Machine.execSwap core g sense s) := by
  unfold Machine.execSwap
  exact h.kStack

theorem Kept.execOver {core g : Nat} {sense : Bool} (h : Kept s0 s) :
    KeptRes s0 (Machine.execOver core g sense s) := by
  unfold Machine.execOver
  exact h.kStack

theorem Kept.execRot {core g : Nat} {sense : Bool} (h : Kept s0 s) : KeptRes s0 (Machine.execRot core g sense s) := by
  unfold Machine.execRot
  exact h.kStack

theorem Kept.execNip {core g : Nat} {sense : Bool} (h : Kept s0 s) : KeptRes s0 (Machine.execNip core g sense s) := by
  unfold Machine.execNip
  exact h.kStack

theorem Kept.execTuck {core g : Nat} {sense : Bool} (h : Kept s0 s) :
    KeptRes s0 (Machine.execTuck core g sense s) := by
  unfold Machine.execTuck
  exact h.kStack

theorem Kept.execDup2 {core g : Nat} {sense : Bool} (h : Kept s0 s) :
    KeptRes s0 (Machine.execDup2 core g sense s) := by
  unfold Machine.execDup2
  exact h.kStack

theorem Kept.execDrop2 {core g : Nat} {sense : Bool} (h : Kept s0 s) :
    KeptRes s0 (Machine.execDrop2 core g sense s) := by
  unfold Machine.execDrop2
  exact h.kStack

theorem Kept.execSwap2 {core g : Nat} {sense : Bool} (h : Kept s0 s) :
    KeptRes s0 (Machine.execSwap2 core g sense s) := by
  unfold Machine.execSwap2
  exact h.kStack

theorem Kept.execPick {core g : Nat} {sense : Bool} (h : Kept s0 s) :
    KeptRes s0 (Machine.execPick core g sense s) := by
  unfold Machine.execPick
  exact h.kPure

theorem Kept.execDepth {core g : Nat} {sense : Bool} (h : Kept s0 s) :
    KeptRes s0 (Machine.execDepth core g sense s) := by
  unfold Machine.execDepth
  exact h.kPure

theorem Kept.execTor {core g : Nat} {sense : Bool} (h : Kept s0 s) : KeptRes s0 (Machine.execTor core g sense s) := by
  unfold Machine.execTor
  exact h.kPure

theorem Kept.execFromr {core g : Nat} {sense : Bool} (h : Kept s0 s) :
    KeptRes s0 (Machine.execFromr core g sense s) := by
  unfold Machine.execFromr
  exact h.kPure

theorem Kept.execCopyr {core g : Nat} {sense : Bool} (h : Kept s0 s) :
    KeptRes s0 (Machine.execCopyr core g sense s) := by
  unfold Machine.execCopyr
  exact h.kPure

theorem Kept.execRdrop {core g : Nat} {sense : Bool} (h : Kept s0 s) :
    KeptRes s0 (Machine.execRdrop core g sense s) := by
  unfold Machine.execRdrop
  exact h.kPure

theorem Kept.execRdepth {core g : Nat} {sense : Bool} (h : Kept s0 s) :
    KeptRes s0 (Machine.execRdepth core g sense s) := by
  unfold Machine.execRdepth
  exact h.kPure

/-! ### Sessions -/

theorem Kept.dispatchRequest {i : Item} (h : Kept s0 s) : Kept s0 (Machine.dispatchRequest s i) := by
  unfold Machine.dispatchRequest
  split
  · exact h.answerDup
  · refine .ite ?_ h
    split
    · exact h.answerDup
    · exact h.dupEnter

theorem Kept.tagVerified {p : PageId} {j : Job} {i : Item} (h : Kept s0 s) :
    Kept s0 (Machine.tagVerified s p j i) := by
  unfold Machine.tagVerified
  extract_lets _ done
  have hd : ∀ x st, Kept s0 x → Kept s0 (done x st) := fun _ _ h1 => h1.endJob
  split
  · exact .dropItem (.countAuth (hd _ _ h))
  next e => exact .dispatchRequest (hd _ _ ((h.verifyItem.get e).setItem.setFb (memWrite_wf _ _ _)))

theorem Kept.execTagVerifyDone {core : Nat} (h : Kept s0 s) : KeptRes s0 (Machine.execTagVerifyDone core s) := by
  unfold Machine.execTagVerifyDone
  refine .ite (.next h) ?_
  split
  · exact .next h
  · refine .ite (.next h) ?_
    split
    · exact .next h
    · extract_lets _
      refine .next ?_
      split
      · exact .ite (.tagVerified h.touch) h.touch
      · exact h.touch

theorem Kept.credKey {t' : Nat} {h' : Word} (h : Kept s0 s) : KeptSnd s0 (Machine.credKey s t' h') := by
  unfold Machine.credKey
  refine .ite h ?_
  split
  next _ t1 e0 =>
    have h1 := h.resolveCred.get e0
    split
    · exact h1
    · extract_lets _ _
      split
      · exact .ite h1 (.ite h1 h1)
      · exact .ite h1 h1

/-- A session that opens keeps the rest. -/
theorem Kept.openSession {i : Item} {c : Curve} {l : List Elem} {q : Nat × Nat} {host : Option Nat}
    {pred : Option (Nat × Nat)} {rand : Bytes} {o : Opened} (h : Kept s0 s)
    (e : openSession s i c l q host pred rand = some o) : Kept s0 o.state := by
  unfold Machine.openSession at e
  extract_lets d at e
  split at e
  · extract_lets at e
    split at e
    · cases e
    next ha =>
      split at e
      · cases e
      next hb =>
        cases e
        exact .leaseGrant (.setSession (Kept.placeSession (h.placeSession.get ha) |>.get hb))
  · cases e

/-- The state that a HELLO or REKEY leaves: where it is refused, and with the session it opens. -/
def KeptHello (s0 : State) : Except (Nat × State) Opened → Prop
  | .error x => Kept s0 x.2
  | .ok o => Kept s0 o.state

theorem KeptHello.ite {c : Prop} [Decidable c] {x y : Except (Nat × State) Opened} (h : KeptHello s0 x)
    (h' : KeptHello s0 y) : KeptHello s0 (if c then x else y) := by
  split
  · exact h
  · exact h'

theorem Kept.helloRun {i : Item} {pred : Option (Nat × Session)} (h : Kept s0 s) :
    KeptHello s0 (Machine.helloRun s i pred) := by
  unfold Machine.helloRun
  refine .ite h ?_
  split
  · exact h
  · split
    · exact h
    · refine .ite h (.ite h.countRefused ?_)
      extract_lets hr
      clear_value hr
      split
      · exact h.quotaCounted
      · split
        next hc =>
          have h1 := h.credKey.get hc
          split
          · exact h1
          · split
            next hb =>
              have h2 := h1.boomBytes.get hb
              split
              · exact h2
              · split
                · exact h2
                · extract_lets s3
                  have h3 : Kept s0 s3 := by
                    unfold s3
                    split
                    · exact .ite h2 h2.setHost
                    · exact h2
                  split
                  next ho => exact h3.openSession ho
                  · exact h3

theorem Kept.execSessionHello {core : Nat} (h : Kept s0 s) : KeptRes s0 (Machine.execSessionHello core s) := by
  unfold Machine.execSessionHello
  refine .hostRun h fun x i h1 => ?_
  have h2 : KeptHello s0 (Machine.helloRun x i none) := h1.helloRun
  split
  next e =>
    rw [e] at h2
    exact Kept.endItem h2
  next o e =>
    rw [e] at h2
    exact .settle (.tagEgress (.respondPlain (Kept.releaseItem h2)))

theorem Kept.execSessionFinish {core : Nat} (h : Kept s0 s) : KeptRes s0 (Machine.execSessionFinish core s) := by
  unfold Machine.execSessionFinish
  refine .hostRun h fun _ _ h1 => ?_
  split
  · exact h1.dropItem
  · refine .ite h1.answerStatus ?_
    split
    · exact h1.answerStatus
    · split
      next _ t2 e0 =>
        have h2 := h1.credKey.get e0
        extract_lets _ _ s3
        have h3 : Kept s0 s3 := by
          unfold s3
          split
          · split
            · exact .setHost h2.setSession
            · exact h2.setSession
          · exact h2.setSession
        split
        · exact h2.answerStatus
        · exact .ite h2.answerStatus (.ite h2.answerStatus h3.answerCommit)

theorem Kept.execSessionClose {core : Nat} (h : Kept s0 s) : KeptRes s0 (Machine.execSessionClose core s) := by
  unfold Machine.execSessionClose
  refine .hostRun h fun _ _ h1 => ?_
  split
  · exact h1.answerStatus
  · exact h1.dropItem
  · exact .ite h1.answerStatus (.settle (.settleClose (.setSession (.dupCommit h1.releaseItem))))

theorem Kept.execSessionRekey {core : Nat} (h : Kept s0 s) : KeptRes s0 (Machine.execSessionRekey core s) := by
  unfold Machine.execSessionRekey
  refine .hostRun h fun x i h1 => ?_
  split
  · exact h1.dropItem
  next se _ =>
    have h2 : KeptHello s0 (Machine.helloRun x i (some (i.session, se))) := h1.helloRun
    split
    next e =>
      rw [e] at h2
      exact Kept.endItem h2
    next o e =>
      rw [e] at h2
      have h3 : Kept s0 o.state := h2
      refine .answerRaw (.dupCommit ?_)
      split
      · exact h3.setSession
      · exact h3

theorem Kept.execRekeyPredecessorClose {id : Nat} (h : Kept s0 s) :
    KeptRes s0 (Machine.execRekeyPredecessorClose id s) := by
  unfold Machine.execRekeyPredecessorClose
  split
  · exact .next (.closeSession h.advanceTo)
  · exact .next h

theorem Kept.execEcho {core : Nat} (h : Kept s0 s) : KeptRes s0 (Machine.execEcho core s) := by
  unfold Machine.execEcho
  refine .hostRun h fun _ _ h1 => ?_
  split
  · exact h1.answerStatus
  · exact h1.answer

theorem Kept.execCodepageLoad {core : Nat} (h : Kept s0 s) : KeptRes s0 (Machine.execCodepageLoad core s) := by
  unfold Machine.execCodepageLoad
  refine .hostRun h fun _ _ h1 => ?_
  split
  · exact h1.answerStatus
  · exact .ite h1.answerStatus (.answerCommit h1.setTenant)

/-! ### PayBase -/

theorem KeptCmd.need {b : Bool} {st : Nat} : KeptCmd s0 (Machine.need b st) := by
  unfold Machine.need
  exact .ite .pure .throw

theorem KeptCmd.refuseIf {o : Option Nat} : KeptCmd s0 (Machine.refuseIf o) := by
  unfold Machine.refuseIf
  split
  · exact .throw
  · exact .pure

theorem KeptCmd.refuseClaim {t' : Nat} {o : Option Nat} : KeptCmd s0 (Machine.refuseClaim t' o) := by
  unfold Machine.refuseClaim
  split
  · exact .bind (.modifies (fun _ h1 => h1.quotaCounted)) (fun _ => .throw)
  · exact .pure

theorem KeptCmd.act {α : Type} {f : State → α × State} (hf : ∀ s, Kept s0 s → KeptSnd s0 (f s)) :
    KeptCmd s0 (Machine.act f) :=
  .get fun s h => .bind (.set (hf s h)) fun _ => .pure

theorem KeptCmd.actE {α : Type} {f : State → Except Nat α × State} (hf : ∀ x0, Kept s0 x0 → KeptSnd s0 (f x0)) :
    KeptCmd s0 (Machine.actE f) := by
  unfold Machine.actE
  refine .bind (.act hf) fun _ => ?_
  split
  · exact .pure
  · exact .throw

theorem Kept.runCmd {i : Item} {m : Cmd Answer} (h : Kept s0 s) (hm : KeptCmd s0 m) :
    Kept s0 (Machine.runCmd s i m) := by
  unfold Machine.runCmd
  split
  next e => exact .endItem (KeptSnd.get (hm s h) e)
  next e => exact .answerRaw (KeptSnd.get (hm s h) e)

theorem Kept.runCommit {i : Item} {m : Cmd (Bytes × Bytes)} (h : Kept s0 s) (hm : KeptCmd s0 m) :
    Kept s0 (Machine.runCommit s i m) := by
  unfold Machine.runCommit
  split
  next e => exact .endItem (KeptSnd.get (hm s h) e)
  next e => exact .answerRaw (.dupCommit (KeptSnd.get (hm s h) e))

theorem KeptCmd.payCheck {i : Item} {defs : List ElemDef} {layout : List FixField} {present : List Elem → Bool} :
    KeptCmd s0 (Machine.payCheck i defs layout present) := by
  unfold Machine.payCheck
  refine .get fun _ h1 => ?_
  split
  · exact .throw
  · exact .bind .need (fun _ => .bind .refuseIf (fun _ => .bind .refuseIf (fun _ => .pure)))

theorem KeptCmd.handleTenants {i : Item} {l : List Elem} {ts : List Nat} :
    KeptCmd s0 (Machine.handleTenants i l ts) := by
  unfold Machine.handleTenants
  exact .need

theorem KeptCmd.getKey {h' : Word} : KeptCmd s0 (Machine.getKey h') := by
  unfold Machine.getKey
  exact .actE (fun _ h1 => h1.resolveKey)

theorem KeptCmd.getKeyFor {h' : Word} {usages : List Nat} {algs modes : List Char} :
    KeptCmd s0 (Machine.getKeyFor h' usages algs modes) := by
  unfold Machine.getKeyFor
  exact .bind .getKey (fun _ => .bind .need (fun _ => .pure))

theorem KeptCmd.getCtx {i : Item} {id : Word} {types : Nat → Bool} : KeptCmd s0 (Machine.getCtx i id types) := by
  unfold Machine.getCtx
  refine .get fun _ h1 => ?_
  split
  · exact .throw
  · exact .bind .need (fun _ => .bind .need (fun _ => .pure))

theorem KeptCmd.drawCtx {id : Word} : KeptCmd s0 (Machine.drawCtx id) := by
  unfold Machine.drawCtx
  exact .actE (fun _ h1 => h1.ctxDraw)

theorem KeptCmd.needRandom {i : Item} : KeptCmd s0 (Machine.needRandom i) := by
  unfold Machine.needRandom
  refine .get fun _ h1 => ?_
  split
  · exact .pure
  · exact .throw

theorem KeptCmd.needTmk {i : Item} : KeptCmd s0 (Machine.needTmk i) := by
  unfold Machine.needTmk
  exact .get (fun _ h1 => .need)

theorem KeptCmd.randomBytes {i : Item} {n : Nat} : KeptCmd s0 (Machine.randomBytes i n) := by
  unfold Machine.randomBytes
  refine .bind (.act (fun _ h1 => h1.boomBytes)) fun _ => ?_
  split
  · exact .pure
  · exact .throw

/-! ### PayMac -/

theorem KeptCmd.macOf {i : Item} {verify : Bool} : KeptCmd s0 (Machine.macOf i verify) := by
  unfold Machine.macOf
  refine .bind .payCheck fun _ => ?_
  extract_lets _ _ _
  split
  · exact .throw
  · exact .bind .need (fun _ => .bind .need (fun _ => .bind .need (fun _ => .bind .need (fun _ => .bind
      .handleTenants (fun _ => .bind .getKeyFor (fun _ => .pure))))))

theorem KeptCmd.macGenerate {i : Item} : KeptCmd s0 (Machine.macGenerate i) := by
  unfold Machine.macGenerate
  exact .bind .macOf (fun _ => .pure)

theorem KeptCmd.macVerify {i : Item} : KeptCmd s0 (Machine.macVerify i) := by
  unfold Machine.macVerify
  exact .bind .macOf (fun _ => .pure)

theorem Kept.execMacGenerate {core : Nat} (h : Kept s0 s) : KeptRes s0 (Machine.execMacGenerate core s) := by
  unfold Machine.execMacGenerate
  exact .hostRun h (fun _ _ h1 => .runCmd h1 .macGenerate)

theorem Kept.execMacVerify {core : Nat} (h : Kept s0 s) : KeptRes s0 (Machine.execMacVerify core s) := by
  unfold Machine.execMacVerify
  exact .hostRun h (fun _ _ h1 => .runCmd h1 .macVerify)

theorem KeptCmd.emvKey {i : Item} {defs : List ElemDef} {arpc : Bool} : KeptCmd s0 (Machine.emvKey i defs arpc) := by
  unfold Machine.emvKey
  exact .bind .payCheck (fun _ => .bind .handleTenants (fun _ => .bind .getKeyFor (fun _ => .bind .need (fun _ =>
    .bind .need (fun _ => .bind .need (fun _ => .pure))))))

theorem KeptCmd.arqcVerify {i : Item} : KeptCmd s0 (Machine.arqcVerify i) := by
  unfold Machine.arqcVerify
  exact .bind .emvKey (fun _ => .pure)

theorem KeptCmd.arqcVerifyArpc {i : Item} : KeptCmd s0 (Machine.arqcVerifyArpc i) := by
  unfold Machine.arqcVerifyArpc
  exact .bind .emvKey (fun _ => .pure)

theorem KeptCmd.arpcGenerate {i : Item} : KeptCmd s0 (Machine.arpcGenerate i) := by
  unfold Machine.arpcGenerate
  exact .bind .emvKey (fun _ => .pure)

theorem KeptCmd.arqcGenerate {i : Item} : KeptCmd s0 (Machine.arqcGenerate i) := by
  unfold Machine.arqcGenerate
  exact .bind .payCheck (fun _ => .bind .getCtx (fun _ => .bind .getKeyFor (fun _ => .bind .need (fun _ => .bind
    .drawCtx (fun _ => .pure)))))

theorem Kept.execArqcVerify {core : Nat} (h : Kept s0 s) : KeptRes s0 (Machine.execArqcVerify core s) := by
  unfold Machine.execArqcVerify
  exact .hostRun h (fun _ _ h1 => .runCmd h1 .arqcVerify)

theorem Kept.execArqcVerifyArpc {core : Nat} (h : Kept s0 s) : KeptRes s0 (Machine.execArqcVerifyArpc core s) := by
  unfold Machine.execArqcVerifyArpc
  exact .hostRun h (fun _ _ h1 => .runCmd h1 .arqcVerifyArpc)

theorem Kept.execArpcGenerate {core : Nat} (h : Kept s0 s) : KeptRes s0 (Machine.execArpcGenerate core s) := by
  unfold Machine.execArpcGenerate
  exact .hostRun h (fun _ _ h1 => .runCmd h1 .arpcGenerate)

theorem Kept.execArqcGenerate {core : Nat} (h : Kept s0 s) : KeptRes s0 (Machine.execArqcGenerate core s) := by
  unfold Machine.execArqcGenerate
  exact .hostRun h (fun _ _ h1 => .runCmd h1 .arqcGenerate)

/-! ### PayPin -/

theorem KeptCmd.pinFormats {fin : Nat} {fout : Option Nat} {l : List Elem} :
    KeptCmd s0 (Machine.pinFormats fin fout l) := by
  unfold Machine.pinFormats
  exact .bind .need (fun _ => .need)

theorem KeptCmd.pinFill {i : Item} {f : Nat} : KeptCmd s0 (Machine.pinFill i f) := by
  unfold Machine.pinFill
  exact .ite .pure .randomBytes

theorem KeptCmd.answerForm {i : Item} {l : List Elem} {field : Bytes} :
    KeptCmd s0 (Machine.answerForm i l field) := by
  unfold Machine.answerForm
  exact .get (fun _ h1 => .pure)

theorem KeptCmd.pinTranslate {i : Item} : KeptCmd s0 (Machine.pinTranslate i) := by
  unfold Machine.pinTranslate
  refine .bind .payCheck fun _ => ?_
  extract_lets _ _
  refine .bind .pinFormats fun _ => ?_
  refine .bind .handleTenants fun _ => ?_
  refine .bind .getKeyFor fun _ => ?_
  refine .bind .getKeyFor fun _ => ?_
  refine .get fun _ h1 => ?_
  refine .bind .need fun _ => ?_
  refine .bind .pinFill fun _ => ?_
  split
  · exact .throw
  · exact .answerForm

theorem Kept.execPinTranslate {core : Nat} (h : Kept s0 s) : KeptRes s0 (Machine.execPinTranslate core s) := by
  unfold Machine.execPinTranslate
  exact .hostRun h (fun _ _ h1 => .runCmd h1 .pinTranslate)

theorem KeptCmd.offsetPins {i : Item} {verify : Bool} : KeptCmd s0 (Machine.offsetPins i verify) := by
  unfold Machine.offsetPins
  exact .bind .payCheck (fun _ => .bind .pinFormats (fun _ => .bind .need (fun _ => .bind .need (fun _ => .bind
    .handleTenants (fun _ => .bind .getKeyFor (fun _ => .bind .getKeyFor (fun _ => .pure)))))))

theorem KeptCmd.pinVerifyOffset {i : Item} : KeptCmd s0 (Machine.pinVerifyOffset i) := by
  unfold Machine.pinVerifyOffset
  refine .bind .offsetPins fun _ => ?_
  split
  · split
    · exact .throw
    · exact .pure

theorem KeptCmd.pinGenOffset {i : Item} : KeptCmd s0 (Machine.pinGenOffset i) := by
  unfold Machine.pinGenOffset
  refine .bind .offsetPins fun _ => ?_
  split
  · split
    · exact .throw
    · exact .bind (.act (fun _ h1 => h1.takeFresh)) (fun _ => .pure)

theorem Kept.execPinVerifyOffset {core : Nat} (h : Kept s0 s) : KeptRes s0 (Machine.execPinVerifyOffset core s) := by
  unfold Machine.execPinVerifyOffset
  exact .hostRun h (fun _ _ h1 => .runCmd h1 .pinVerifyOffset)

theorem Kept.execPinGenOffset {core : Nat} (h : Kept s0 s) : KeptRes s0 (Machine.execPinGenOffset core s) := by
  unfold Machine.execPinGenOffset
  exact .hostRun h (fun _ _ h1 => .runCmd h1 .pinGenOffset)

theorem KeptCmd.pvvPin {i : Item} {verify : Bool} : KeptCmd s0 (Machine.pvvPin i verify) := by
  unfold Machine.pvvPin
  exact .bind .payCheck (fun _ => .bind .pinFormats (fun _ => .bind .need (fun _ => .bind .handleTenants (fun _ =>
    .bind .getKeyFor (fun _ => .bind .getKeyFor (fun _ => .pure))))))

theorem KeptCmd.pinVerifyPvv {i : Item} : KeptCmd s0 (Machine.pinVerifyPvv i) := by
  unfold Machine.pinVerifyPvv
  refine .bind .pvvPin fun _ => ?_
  split
  · split
    · exact .throw
    · exact .pure

theorem KeptCmd.pinGenPvv {i : Item} : KeptCmd s0 (Machine.pinGenPvv i) := by
  unfold Machine.pinGenPvv
  refine .bind .pvvPin fun _ => ?_
  split
  · split
    · exact .throw
    · exact .pure

theorem Kept.execPinVerifyPvv {core : Nat} (h : Kept s0 s) : KeptRes s0 (Machine.execPinVerifyPvv core s) := by
  unfold Machine.execPinVerifyPvv
  exact .hostRun h (fun _ _ h1 => .runCmd h1 .pinVerifyPvv)

theorem Kept.execPinGenPvv {core : Nat} (h : Kept s0 s) : KeptRes s0 (Machine.execPinGenPvv core s) := by
  unfold Machine.execPinGenPvv
  exact .hostRun h (fun _ _ h1 => .runCmd h1 .pinGenPvv)

theorem KeptCmd.cscKey {i : Item} {verify : Bool} : KeptCmd s0 (Machine.cscKey i verify) := by
  unfold Machine.cscKey
  exact .bind .payCheck (fun _ => .bind .handleTenants (fun _ => .bind .getKeyFor (fun _ => .pure)))

theorem KeptCmd.cscGenerate {i : Item} : KeptCmd s0 (Machine.cscGenerate i) := by
  unfold Machine.cscGenerate
  exact .bind .cscKey (fun _ => .answerForm)

theorem KeptCmd.cscVerify {i : Item} : KeptCmd s0 (Machine.cscVerify i) := by
  unfold Machine.cscVerify
  exact .bind .cscKey (fun _ => .pure)

theorem Kept.execCscGenerate {core : Nat} (h : Kept s0 s) : KeptRes s0 (Machine.execCscGenerate core s) := by
  unfold Machine.execCscGenerate
  exact .hostRun h (fun _ _ h1 => .runCmd h1 .cscGenerate)

theorem Kept.execCscVerify {core : Nat} (h : Kept s0 s) : KeptRes s0 (Machine.execCscVerify core s) := by
  unfold Machine.execCscVerify
  exact .hostRun h (fun _ _ h1 => .runCmd h1 .cscVerify)

/-! ### PayDukpt -/

theorem KeptCmd.dukptBase {i : Item} {defs : List ElemDef} {rules : List Elem → Cmd Unit} {handles : List Nat}
    (hrules : ∀ x0, KeptCmd s0 (rules x0)) :
    KeptCmd s0 (Machine.dukptBase i defs rules handles) := by
  unfold Machine.dukptBase
  exact .bind .payCheck (fun _ => .bind (hrules _) (fun _ => .bind .need (fun _ => .bind .handleTenants (fun _ =>
    .bind .getKeyFor (fun _ => .bind .need (fun _ => .bind .need (fun _ => .pure)))))))

theorem KeptCmd.dukptPinTranslate {i : Item} : KeptCmd s0 (Machine.dukptPinTranslate i) := by
  unfold Machine.dukptPinTranslate
  refine .bind (.dukptBase (fun _ => .bind .pinFormats (fun _ => .need))) fun _ => ?_
  split
  · extract_lets _ _
    refine .bind .getKeyFor fun _ => ?_
    refine .get fun _ h1 => ?_
    refine .bind .need fun _ => ?_
    refine .bind .pinFill fun _ => ?_
    split
    · exact .throw
    · exact .pure

theorem KeptCmd.dukptMacVerify {i : Item} : KeptCmd s0 (Machine.dukptMacVerify i) := by
  unfold Machine.dukptMacVerify
  exact .bind (.dukptBase (fun _ => .bind .need (fun _ => .need))) (fun _ => .pure)

theorem KeptCmd.dukptDecrypt {i : Item} : KeptCmd s0 (Machine.dukptDecrypt i) := by
  unfold Machine.dukptDecrypt
  exact .bind (.dukptBase (fun _ => .need)) (fun _ => .pure)

theorem Kept.execDukptPinTranslate {core : Nat} (h : Kept s0 s) :
    KeptRes s0 (Machine.execDukptPinTranslate core s) := by
  unfold Machine.execDukptPinTranslate
  exact .hostRun h (fun _ _ h1 => .runCmd h1 .dukptPinTranslate)

theorem Kept.execDukptMacVerify {core : Nat} (h : Kept s0 s) : KeptRes s0 (Machine.execDukptMacVerify core s) := by
  unfold Machine.execDukptMacVerify
  exact .hostRun h (fun _ _ h1 => .runCmd h1 .dukptMacVerify)

theorem Kept.execDukptDecrypt {core : Nat} (h : Kept s0 s) : KeptRes s0 (Machine.execDukptDecrypt core s) := by
  unfold Machine.execDukptDecrypt
  exact .hostRun h (fun _ _ h1 => .runCmd h1 .dukptDecrypt)

theorem KeptCmd.dukptTxnKey {i : Item} : KeptCmd s0 (Machine.dukptTxnKey i) := by
  unfold Machine.dukptTxnKey
  refine .get fun _ _ => .bind .payCheck fun _ => ?_
  extract_lets _ _ _ _ _ _
  refine .bind .need fun _ => .bind .need fun _ => .bind .need fun _ => .bind .need fun _ => ?_
  refine .bind .handleTenants fun _ => .bind .getCtx fun _ => ?_
  extract_lets bound
  have hbound : ∀ k, KeptCmd s0 (bound k) := by
    intro _
    refine .bind .getKeyFor fun _ => .bind .need fun _ => .get fun _ _ => .bind .need fun _ => ?_
    extract_lets drawn
    have hdrawn : ∀ r, KeptCmd s0 (drawn r) := by
      intro _
      refine .get fun _ h1 => .bind .drawCtx fun _ => ?_
      split
      · exact .pure
      · exact .bind (.set h1) fun _ => .throw
    exact .ite (.bind .randomBytes fun _ => hdrawn _) (.bind .pure fun _ => hdrawn _)
  exact .ite (.bind (.bind .getKeyFor fun _ => .pure) fun _ => hbound _) (.bind .pure fun _ => hbound _)

theorem Kept.execDukptTxnKey {core : Nat} (h : Kept s0 s) : KeptRes s0 (Machine.execDukptTxnKey core s) := by
  unfold Machine.execDukptTxnKey
  exact .hostRun h (fun _ _ h1 => .runCmd h1 .dukptTxnKey)

/-! ### PayKeys -/

theorem KeptCmd.createdKcv {alg : Nat} {bits : Bytes} : KeptCmd s0 (Machine.createdKcv alg bits) := by
  unfold Machine.createdKcv
  exact .ite (.act (fun _ h1 => h1.takeFresh)) .pure

theorem KeptCmd.createChecks {i : Item} {l : List Elem} {init : Bool} {len : Nat} :
    KeptCmd s0 (Machine.createChecks i l init len) := by
  unfold Machine.createChecks
  refine .get fun _ h1 => ?_
  exact .ite (.bind .refuseClaim fun _ => .refuseClaim) .refuseClaim

theorem KeptCmd.createKey {i : Item} {l : List Elem} {x : BlockKey} {body : Bytes} :
    KeptCmd s0 (Machine.createKey i l x body) := by
  unfold Machine.createKey
  refine .bind .needTmk fun _ => ?_
  refine .get fun _ h1 => ?_
  refine .bind .refuseClaim fun _ => ?_
  extract_lets _
  split
  · exact .throw
  next _ t9 e1 =>
    have h9 := h1.placeKey.get e1
    exact .bind (.set (.ite h9.ctxMake h9)) (fun _ => .pure)

theorem KeptCmd.getK1 {h' : Word} {modes : List Char} : KeptCmd s0 (Machine.getK1 h' modes) := by
  unfold Machine.getK1
  exact .getKeyFor

theorem KeptCmd.orStatus {α : Type} {r : Except Nat α} : KeptCmd s0 (Machine.orStatus r) := by
  unfold Machine.orStatus
  split
  · exact .pure
  · exact .throw

theorem KeptCmd.keyImport {i : Item} : KeptCmd s0 (Machine.keyImport i) := by
  unfold Machine.keyImport
  exact .bind .payCheck (fun _ => .bind .handleTenants (fun _ => .bind .createChecks (fun _ => .bind .needTmk
    (fun _ => .bind .getK1 (fun _ => .bind .orStatus (fun _ => .bind .createKey (fun _ => .bind .createdKcv
      (fun _ => .pure))))))))

theorem KeptCmd.dukptInit {i : Item} : KeptCmd s0 (Machine.dukptInit i) := by
  unfold Machine.dukptInit
  exact .bind .payCheck (fun _ => .bind .need (fun _ => .bind .handleTenants (fun _ => .bind .createChecks (fun _ =>
    .bind .needTmk (fun _ => .bind .getK1 (fun _ => .bind .orStatus (fun _ => .bind .need (fun _ => .bind .need
      (fun _ => .bind .createKey (fun _ => .bind .createdKcv (fun _ => .pure)))))))))))

theorem KeptCmd.blockOut {i : Item} {k1 : KeyVal} {x : BlockKey} : KeptCmd s0 (Machine.blockOut i k1 x) := by
  unfold Machine.blockOut
  refine .bind .need fun _ => ?_
  extract_lets _ jp9
  have h9 : ∀ x0, KeptCmd s0 (jp9 x0) := fun _ => .pure
  exact .bind .need (fun _ => .ite (.bind .pure (fun _ => h9 _)) (.bind .randomBytes (fun _ => h9 _)))

theorem KeptCmd.keyExport {i : Item} : KeptCmd s0 (Machine.keyExport i) := by
  unfold Machine.keyExport
  exact .bind .payCheck (fun _ => .bind .handleTenants (fun _ => .bind .getKey (fun _ => .bind .getK1 (fun _ =>
    .bind .blockOut (fun _ => .pure)))))

theorem KeptCmd.keyTranslate {i : Item} : KeptCmd s0 (Machine.keyTranslate i) := by
  unfold Machine.keyTranslate
  exact .bind .payCheck (fun _ => .bind .handleTenants (fun _ => .bind .getK1 (fun _ => .bind .getK1 (fun _ => .bind
    .needRandom (fun _ => .bind .orStatus (fun _ => .bind .blockOut (fun _ => .pure)))))))

theorem KeptCmd.keyGenerate {i : Item} : KeptCmd s0 (Machine.keyGenerate i) := by
  unfold Machine.keyGenerate
  refine .bind .payCheck fun _ => ?_
  extract_lets _ _ k1
  have h1 : ∀ x, KeptCmd s0 (k1 x) := fun _ => .bind .randomBytes (fun _ => .bind .createKey (fun _ => .pure))
  exact .bind .need (fun _ => .bind .need (fun _ => .bind .handleTenants (fun _ => .bind .createChecks (fun _ =>
    .bind .needTmk (fun _ => .ite (.bind (.map .getK1) (fun _ => h1 _)) (.bind .pure (fun _ => h1 _)))))))

theorem KeptCmd.keyCheckValue {i : Item} : KeptCmd s0 (Machine.keyCheckValue i) := by
  unfold Machine.keyCheckValue
  exact .bind .payCheck (fun _ => .bind .handleTenants (fun _ => .bind .getKey (fun _ => .bind .need (fun _ => .bind
    .need (fun _ => .pure)))))

theorem Kept.deleteKey {h' : Word} (h : Kept s0 s) : Kept s0 (Machine.deleteKey s h') := by
  unfold Machine.deleteKey
  extract_lets id s1
  have h1 : Kept s0 s1 := .ite (h.setHbm (memWrite_wf _ _ _)) h.removeKey
  split
  · exact .ite h1.ctxWipeNow h1
  · exact h1

theorem KeptCmd.keyDelete {i : Item} : KeptCmd s0 (Machine.keyDelete i) := by
  unfold Machine.keyDelete
  refine .bind .payCheck fun _ => .bind .handleTenants fun _ => ?_
  extract_lets _ wipe
  have hwipe : ∀ u, KeptCmd s0 (wipe u) := fun _ =>
    .get fun _ h1 => .bind .need fun _ => .bind (.set h1.deleteKey) fun _ => .pure
  refine .get fun _ h1 => .bind .need fun _ => .bind (.act fun _ h2 => h2.resolveKey) fun _ => ?_
  split
  · exact hwipe ()
  · exact .bind .need hwipe

theorem Kept.execKeyImport {core : Nat} (h : Kept s0 s) : KeptRes s0 (Machine.execKeyImport core s) := by
  unfold Machine.execKeyImport
  exact .hostRun h (fun _ _ h1 => .runCommit h1 .keyImport)

theorem Kept.execKeyExport {core : Nat} (h : Kept s0 s) : KeptRes s0 (Machine.execKeyExport core s) := by
  unfold Machine.execKeyExport
  exact .hostRun h (fun _ _ h1 => .runCmd h1 .keyExport)

theorem Kept.execKeyGenerate {core : Nat} (h : Kept s0 s) : KeptRes s0 (Machine.execKeyGenerate core s) := by
  unfold Machine.execKeyGenerate
  exact .hostRun h (fun _ _ h1 => .runCommit h1 .keyGenerate)

theorem Kept.execKeyCheckValue {core : Nat} (h : Kept s0 s) : KeptRes s0 (Machine.execKeyCheckValue core s) := by
  unfold Machine.execKeyCheckValue
  exact .hostRun h (fun _ _ h1 => .runCmd h1 .keyCheckValue)

theorem Kept.execKeyDelete {core : Nat} (h : Kept s0 s) : KeptRes s0 (Machine.execKeyDelete core s) := by
  unfold Machine.execKeyDelete
  exact .hostRun h (fun _ _ h1 => .runCommit h1 .keyDelete)

theorem Kept.execKeyTranslate {core : Nat} (h : Kept s0 s) : KeptRes s0 (Machine.execKeyTranslate core s) := by
  unfold Machine.execKeyTranslate
  exact .hostRun h (fun _ _ h1 => .runCmd h1 .keyTranslate)

theorem Kept.execDukptInit {core : Nat} (h : Kept s0 s) : KeptRes s0 (Machine.execDukptInit core s) := by
  unfold Machine.execDukptInit
  exact .hostRun h (fun _ _ h1 => .runCommit h1 .dukptInit)

/-! ### PkCmds -/

theorem KeptCmd.pkCodes {l : List Elem} : KeptCmd s0 (Machine.pkCodes l) := by
  unfold Machine.pkCodes
  exact .bind .need (fun _ => .need)

theorem KeptCmd.needFn {i : Item} {f : Nat} : KeptCmd s0 (Machine.needFn i f) := by
  unfold Machine.needFn
  exact .get (fun _ h1 => .ite (.bind (.modifies (fun _ h3 => h3.advanceTo)) (fun _ => .throw)) .need)

theorem KeptCmd.engine {i : Item} {r : EngRes} : KeptCmd s0 (Machine.engine i r) := by
  unfold Machine.engine
  split
  · exact .pure
  · exact .throw
  · refine .bind (.modifies fun s h => ?_) fun _ => .throw
    cases (enginesRunning s i.region).head? with
    | none => exact h
    | some p => exact h.resultMismatch

theorem KeptCmd.digestChecks {l : List Elem} : KeptCmd s0 (Machine.digestChecks l) := by
  unfold Machine.digestChecks
  exact .bind .need (fun _ => .bind .need (fun _ => .need))

theorem KeptCmd.curveOfKey {i : Item} {id : Nat} : KeptCmd s0 (Machine.curveOfKey i id) := by
  unfold Machine.curveOfKey
  refine .get fun _ h1 => ?_
  split
  · exact .pure
  · exact .throw

theorem KeptCmd.pkSign {i : Item} : KeptCmd s0 (Machine.pkSign i) := by
  unfold Machine.pkSign
  exact .bind .payCheck (fun _ => .bind .pkCodes (fun _ => .bind .digestChecks (fun _ => .bind .handleTenants
    (fun _ => .bind .getKey (fun _ => .bind .need (fun _ => .bind .randomBytes (fun _ => .bind .needFn (fun _ =>
      .ite (.bind .need (fun _ => .bind .engine (fun _ => .pure))) (.ite (.bind .curveOfKey (fun _ => .bind .engine
        (fun _ => .pure))) (.bind .engine (fun _ => .pure)))))))))))

theorem KeptCmd.rsaCheck {l : List Elem} {n e : Nat} : KeptCmd s0 (Machine.rsaCheck l n e) := by
  unfold Machine.rsaCheck
  exact .bind .need (fun _ => .ite .pure .pure)

theorem KeptCmd.verdict {r : EngRes} : KeptCmd s0 (Machine.verdict r) := by
  unfold Machine.verdict
  split
  · exact .pure
  · exact .ite .pure .throw
  · exact .throw

theorem KeptCmd.ecCheck {l : List Elem} {c : Curve} {q : Nat × Nat} : KeptCmd s0 (Machine.ecCheck l c q) := by
  unfold Machine.ecCheck
  exact .verdict

theorem KeptCmd.pkVerify {i : Item} : KeptCmd s0 (Machine.pkVerify i) := by
  unfold Machine.pkVerify
  refine .bind .payCheck fun _ => ?_
  refine .bind .pkCodes fun _ => ?_
  extract_lets _ _ _ _ _
  refine .get fun _ h1 => ?_
  refine .ite ?_ ?_
  · refine .bind .handleTenants fun _ => ?_
    refine .bind .getKey fun _ => ?_
    refine .bind .need fun _ => ?_
    split
    · exact .pure
    · exact .throw
  · refine .bind .digestChecks fun _ => ?_
    refine .ite ?_ ?_
    · refine .bind .need fun _ => ?_
      refine .bind .handleTenants fun _ => ?_
      refine .bind .getKey fun _ => ?_
      refine .bind .need fun _ => ?_
      refine .bind .needFn fun _ => ?_
      refine .ite .rsaCheck ?_
      refine .ite .verdict ?_
      split
      · exact .ecCheck
      · exact .throw
    · refine .ite (.bind .need (fun _ => .bind .need (fun _ => .bind .need (fun _ => .bind .needFn (fun _ =>
        .rsaCheck))))) ?_
      refine .bind .need fun _ => ?_
      refine .ite (.bind .need (fun _ => .bind .need (fun _ => .bind .needFn (fun _ => .verdict)))) ?_
      refine .bind .curveOfKey fun _ => ?_
      refine .bind .refuseIf fun _ => ?_
      refine .bind .need fun _ => ?_
      refine .bind .need fun _ => ?_
      refine .bind .needFn fun _ => ?_
      split
      · exact .ecCheck
      · exact .throw

theorem KeptCmd.pkEcdh {i : Item} : KeptCmd s0 (Machine.pkEcdh i) := by
  unfold Machine.pkEcdh
  refine .bind .payCheck fun _ => ?_
  extract_lets _ _
  refine .get fun _ h1 => ?_
  refine .bind .refuseIf fun _ => ?_
  refine .bind .need fun _ => ?_
  refine .bind .need fun _ => ?_
  refine .bind .handleTenants fun _ => ?_
  refine .bind .getKey fun _ => ?_
  refine .bind .need fun _ => ?_
  refine .bind .getK1 fun _ => ?_
  refine .bind .need fun _ => ?_
  refine .bind .randomBytes fun _ => ?_
  refine .bind .needFn fun _ => ?_
  refine .bind .curveOfKey fun _ => ?_
  split
  · exact .throw
  · exact .bind .engine (fun _ => .pure)

theorem KeptCmd.pkRsaDecrypt {i : Item} : KeptCmd s0 (Machine.pkRsaDecrypt i) := by
  unfold Machine.pkRsaDecrypt
  refine .bind .payCheck fun _ => ?_
  refine .bind .pkCodes fun _ => ?_
  refine .get fun _ h1 => ?_
  refine .bind .need fun _ => ?_
  refine .bind .need fun _ => ?_
  refine .bind .handleTenants fun _ => ?_
  refine .bind .getKey fun _ => ?_
  refine .bind .need fun _ => ?_
  refine .bind .randomBytes fun _ => ?_
  refine .bind .needFn fun _ => ?_
  extract_lets _
  refine .bind .need fun _ => ?_
  refine .bind .engine fun _ => ?_
  split
  · exact .bind .need (fun _ => .pure)
  · exact .throw

theorem KeptCmd.pkKeygen {i : Item} : KeptCmd s0 (Machine.pkKeygen i) := by
  unfold Machine.pkKeygen
  refine .bind .payCheck fun _ => ?_
  extract_lets _ _ _ _ _
  refine .get fun _ _ => .bind .need fun _ => .bind .need fun _ => .bind .refuseClaim fun _ => ?_
  extract_lets _
  refine .bind .needTmk fun _ => .bind .need fun _ => .bind .randomBytes fun _ => .bind .needFn fun _ => ?_
  extract_lets _
  refine .bind .engine fun _ => ?_
  extract_lets _
  refine .bind (.actE fun _ h1 => ?_) fun _ => .pure
  split
  next he => exact h1.placeGenerated he
  · exact h1.quotaCounted

theorem KeptCmd.pkCurveLoad {i : Item} : KeptCmd s0 (Machine.pkCurveLoad i) := by
  unfold Machine.pkCurveLoad
  refine .bind .payCheck fun _ => ?_
  extract_lets _ _ _ _ _
  refine .bind .need fun _ => ?_
  refine .bind .need fun _ => ?_
  refine .get fun _ h1 => ?_
  split
  · exact .bind .need (fun _ => .pure)
  · exact .bind .randomBytes (fun _ => .bind .needFn (fun _ => .bind .engine (fun _ => .bind (.modifies
      (fun _ h2 => h2.putCurve)) (fun _ => .pure))))

theorem Kept.execPkSign {core : Nat} (h : Kept s0 s) : KeptRes s0 (Machine.execPkSign core s) := by
  unfold Machine.execPkSign
  exact .hostRun h (fun _ _ h1 => .runCmd h1 .pkSign)

theorem Kept.execPkVerify {core : Nat} (h : Kept s0 s) : KeptRes s0 (Machine.execPkVerify core s) := by
  unfold Machine.execPkVerify
  exact .hostRun h (fun _ _ h1 => .runCmd h1 .pkVerify)

theorem Kept.execPkEcdh {core : Nat} (h : Kept s0 s) : KeptRes s0 (Machine.execPkEcdh core s) := by
  unfold Machine.execPkEcdh
  exact .hostRun h (fun _ _ h1 => .runCmd h1 .pkEcdh)

theorem Kept.execPkKeygen {core : Nat} (h : Kept s0 s) : KeptRes s0 (Machine.execPkKeygen core s) := by
  unfold Machine.execPkKeygen
  exact .hostRun h (fun _ _ h1 => .runCommit h1 .pkKeygen)

theorem Kept.execPkRsaDecrypt {core : Nat} (h : Kept s0 s) : KeptRes s0 (Machine.execPkRsaDecrypt core s) := by
  unfold Machine.execPkRsaDecrypt
  exact .hostRun h (fun _ _ h1 => .runCmd h1 .pkRsaDecrypt)

theorem Kept.execPkCurveLoad {core : Nat} (h : Kept s0 s) : KeptRes s0 (Machine.execPkCurveLoad core s) := by
  unfold Machine.execPkCurveLoad
  exact .hostRun h (fun _ _ h1 => .runCommit h1 .pkCurveLoad)

/-! ### Ledger -/

theorem KeptCmd.ldgValues {l : List Elem} : KeptCmd s0 (Machine.ldgValues l) := by
  unfold Machine.ldgValues
  exact .refuseIf

theorem KeptCmd.getLedger {l : List Elem} : KeptCmd s0 (Machine.getLedger l) := by
  unfold Machine.getLedger
  exact .getKeyFor

theorem KeptCmd.ldgCalc {i : Item} : KeptCmd s0 (Machine.ldgCalc i) := by
  unfold Machine.ldgCalc
  refine .bind .payCheck fun _ => ?_
  refine .bind .ldgValues fun _ => ?_
  refine .bind .handleTenants fun _ => ?_
  extract_lets _ _ _
  refine .ite (.bind .getCtx (fun _ => .bind .getLedger (fun _ => .pure))) ?_
  refine .bind .getLedger fun _ => ?_
  refine .bind .needFn fun _ => ?_
  split
  · exact .throw
  · exact .ite .pure .pure

theorem KeptCmd.ldgAccrue {i : Item} : KeptCmd s0 (Machine.ldgAccrue i) := by
  unfold Machine.ldgAccrue
  refine .bind .payCheck fun _ => ?_
  refine .bind .ldgValues fun _ => ?_
  refine .bind .handleTenants fun _ => ?_
  refine .bind .getLedger fun _ => ?_
  refine .bind .needFn fun _ => ?_
  extract_lets _
  split
  · exact .throw
  · exact .pure

theorem KeptCmd.ldgOpen {i : Item} {l : List Elem} : KeptCmd s0 (Machine.ldgOpen i l) := by
  unfold Machine.ldgOpen
  extract_lets _ _ _
  refine .get fun _ h1 => ?_
  refine .bind .refuseIf fun _ => ?_
  refine .bind .getLedger fun _ => ?_
  refine .bind .needFn fun _ => ?_
  split
  · exact .throw
  · exact .bind .need (fun _ => .bind (.modifies (fun _ h2 => h2.ctxMake)) (fun _ => .pure))

theorem KeptCmd.ldgAdd {i : Item} {l : List Elem} : KeptCmd s0 (Machine.ldgAdd i l) := by
  unfold Machine.ldgAdd
  extract_lets _ _
  refine .bind .getCtx fun _ => ?_
  refine .bind .need fun _ => ?_
  refine .bind .getLedger fun _ => ?_
  refine .bind .needFn fun _ => ?_
  split
  · exact .throw
  · exact .bind .need (fun _ => .bind (.modifies (fun _ h1 => h1.setCtx)) (fun _ => .pure))

theorem KeptCmd.ldgPost {i : Item} : KeptCmd s0 (Machine.ldgPost i) := by
  unfold Machine.ldgPost
  exact .bind .payCheck (fun _ => .bind .ldgValues (fun _ => .bind .handleTenants (fun _ => .ite .ldgOpen .ldgAdd)))

theorem Kept.ldgRunOn {i : Item} {f : State → Item → State} (h : Kept s0 s)
    (hf : ∀ x0 x1, Kept s0 x0 → Kept s0 (f x0 x1)) :
    Kept s0 (Machine.ldgRunOn s i f) := by
  unfold Machine.ldgRunOn
  exact .ite (hf _ _ h) h.endItem

theorem Kept.execLdgCalc {core : Nat} (h : Kept s0 s) : KeptRes s0 (Machine.execLdgCalc core s) := by
  unfold Machine.execLdgCalc
  exact .hostRun h (fun _ _ h1 => .ldgRunOn h1 (fun _ _ h3 => .runCmd h3 .ldgCalc))

theorem Kept.execLdgAccrue {core : Nat} (h : Kept s0 s) : KeptRes s0 (Machine.execLdgAccrue core s) := by
  unfold Machine.execLdgAccrue
  exact .hostRun h (fun _ _ h1 => .ldgRunOn h1 (fun _ _ h3 => .runCmd h3 .ldgAccrue))

theorem Kept.execLdgPost {core : Nat} (h : Kept s0 s) : KeptRes s0 (Machine.execLdgPost core s) := by
  unfold Machine.execLdgPost
  exact .hostRun h (fun _ _ h1 => .ldgRunOn h1 (fun _ _ h3 => .runCommit h3 .ldgPost))

/-! ### Mgmt -/

theorem Kept.execMgtLinkUp {mbps : Nat} (h : Kept s0 s) : KeptRes s0 (Machine.execMgtLinkUp mbps s) := by
  unfold Machine.execMgtLinkUp
  exact .ite (.next h) (.ite (.next (.setFlag h.setFlag)) (.next (.bump (.setFlag h.setFlag))))

theorem Kept.execMgtLinkDown {syncLost : Bool} (h : Kept s0 s) : KeptRes s0 (Machine.execMgtLinkDown syncLost s) := by
  unfold Machine.execMgtLinkDown
  refine .ite (.next h) ?_
  extract_lets _ _ s1
  have h1 : Kept s0 s1 := .ite (.setFlag h.setFlag) h.setFlag
  exact .next (.ite (.setIrq h1.discardTx) h1)

theorem Kept.romView (h : Kept s0 s) : Kept s0 (Machine.romView s) := by
  unfold Machine.romView
  exact .setFld (.setReg (.setFld h.setFld))

theorem Kept.romRefuse (h : Kept s0 s) : Kept s0 (Machine.romRefuse s) := by
  unfold Machine.romRefuse
  exact .setIrq h.bump

theorem Kept.romFrame {frame : Bytes} {fcsOk : Bool} (h : Kept s0 s) : Kept s0 (Machine.romFrame s frame fcsOk) := by
  unfold Machine.romFrame
  split
  · refine .ite h.romRefuse ?_
    extract_lets _ s1 _ _ s2
    have h1 : Kept s0 s1 := h.bump
    have h2 : Kept s0 s2 := h1.frame
    exact .ite h.bump (.ite h2.frame h2.respondPlain)
  · exact h.romRefuse

theorem Kept.execMgtFrameReceived {frame : Bytes} {fcsOk : Bool} (h : Kept s0 s) :
    KeptRes s0 (Machine.execMgtFrameReceived frame fcsOk s) := by
  unfold Machine.execMgtFrameReceived
  extract_lets _
  refine .ite (.next h.touchIf) ?_
  refine .ite (.next (.romFrame h.touchIf)) ?_
  split
  · exact .next (.bump h.touchIf)
  · exact .next (.bump h.touchIf)
  · exact .next (.sendLink h.touchIf)
  · refine .ite (.next (.bump h.touchIf)) ?_
    split
    · exact .next (.bump h.touchIf)
    · exact .next (.classifyTouched h.touchIf)

theorem Kept.mdioStart {write : Bool} {phy regad data : Nat} (h : Kept s0 s) :
    Kept s0 (Machine.mdioStart s write phy regad data) := by
  unfold Machine.mdioStart
  refine .ite h ?_
  extract_lets _ s9
  have h9 : Kept s0 s9 := .setFlag (.setFld (.setFld h.setFld))
  exact h9.frame

theorem Kept.execMdioWrite {phy regad : BitVec 5} {data : Cell} (h : Kept s0 s) :
    KeptRes s0 (Machine.execMdioWrite phy regad data s) := by
  unfold Machine.execMdioWrite
  exact .onComplex h (.next h.mdioStart)

theorem Kept.execMdioRead {phy regad : BitVec 5} {data : Cell} (h : Kept s0 s) :
    KeptRes s0 (Machine.execMdioRead phy regad data s) := by
  unfold Machine.execMdioRead
  exact .onComplex h (.next h.mdioStart)

theorem Kept.execMdioDone {data : Cell} (h : Kept s0 s) : KeptRes s0 (Machine.execMdioDone data s) := by
  unfold Machine.execMdioDone
  split
  · exact .next h
  · extract_lets s3
    have h3 : Kept s0 s3 := .setIrq (.setFlag h.frame)
    exact .next (.ite h3 h3.setFld)

theorem Kept.execMdioTimeout (h : Kept s0 s) : KeptRes s0 (Machine.execMdioTimeout s) := by
  unfold Machine.execMdioTimeout
  split
  · exact .next h
  · exact .next (.raiseErr (.setFlag h.frame))

/-! ### PayToken -/

theorem KeptCmd.getD0 {h' : Word} {modes : List Char} : KeptCmd s0 (Machine.getD0 h' modes) := by
  unfold Machine.getD0
  exact .getKeyFor

theorem KeptCmd.tokenMap {i : Item} {src dst : Nat} {modes : List Char} {f : Bytes → Bytes → List Nat → List Nat} :
    KeptCmd s0 (Machine.tokenMap i src dst modes f) := by
  unfold Machine.tokenMap
  exact .bind .payCheck (fun _ => .bind .need (fun _ => .bind .handleTenants (fun _ => .bind .getD0 (fun _ =>
    .pure))))

theorem KeptCmd.tokeniseCounted {i : Item} : KeptCmd s0 (Machine.tokeniseCounted i) := by
  unfold Machine.tokeniseCounted
  exact .bind .payCheck (fun _ => .bind .need (fun _ => .bind .handleTenants (fun _ => .bind .getCtx (fun _ => .bind
    .getD0 (fun _ => .bind .drawCtx (fun _ => .pure))))))

theorem KeptCmd.dataEncrypt {i : Item} : KeptCmd s0 (Machine.dataEncrypt i) := by
  unfold Machine.dataEncrypt
  exact .bind .payCheck (fun _ => .bind .need (fun _ => .bind .handleTenants (fun _ => .bind .getCtx (fun _ => .bind
    .getD0 (fun _ => .bind .need (fun _ => .bind .drawCtx (fun _ => .ite .pure .pure)))))))

theorem KeptCmd.dataDecrypt {i : Item} : KeptCmd s0 (Machine.dataDecrypt i) := by
  unfold Machine.dataDecrypt
  refine .bind .payCheck fun _ => ?_
  refine .bind .need fun _ => ?_
  refine .bind .handleTenants fun _ => ?_
  refine .bind .getD0 fun _ => ?_
  extract_lets _
  refine .ite ?_ .pure
  split
  · exact .pure
  · exact .pure

theorem Kept.execTokenise {core : Nat} (h : Kept s0 s) : KeptRes s0 (Machine.execTokenise core s) := by
  unfold Machine.execTokenise
  exact .hostRun h (fun _ _ h1 => .runCmd h1 .tokenMap)

theorem Kept.execDetokenise {core : Nat} (h : Kept s0 s) : KeptRes s0 (Machine.execDetokenise core s) := by
  unfold Machine.execDetokenise
  exact .hostRun h (fun _ _ h1 => .runCmd h1 .tokenMap)

theorem Kept.execTokeniseCounted {core : Nat} (h : Kept s0 s) : KeptRes s0 (Machine.execTokeniseCounted core s) := by
  unfold Machine.execTokeniseCounted
  exact .hostRun h (fun _ _ h1 => .runCmd h1 .tokeniseCounted)

theorem Kept.execDataEncrypt {core : Nat} (h : Kept s0 s) : KeptRes s0 (Machine.execDataEncrypt core s) := by
  unfold Machine.execDataEncrypt
  exact .hostRun h (fun _ _ h1 => .runCmd h1 .dataEncrypt)

theorem Kept.execDataDecrypt {core : Nat} (h : Kept s0 s) : KeptRes s0 (Machine.execDataDecrypt core s) := by
  unfold Machine.execDataDecrypt
  exact .hostRun h (fun _ _ h1 => .runCmd h1 .dataDecrypt)

/-! ### VaultUpdate -/

theorem Kept.setMig {m : Nat} (h : Kept s0 s) : Kept s0 (Machine.setMig s m) := by
  unfold Machine.setMig
  exact .postEvent (.setIrq h.frame)

theorem Kept.mapOther {f : Nat → Nat → Bytes → Bytes} (h : Kept s0 s) : Kept s0 (Machine.mapOther s f) := by
  unfold Machine.mapOther
  exact .foldl h (fun _ _ h1 => h1.writeRec)

theorem Kept.putPublic {typ t' index : Nat} {attr pub : Bytes} (h : Kept s0 s) :
    Kept s0 (Machine.putPublic s typ t' index attr pub) := by
  unfold Machine.putPublic
  exact h.writeRec

theorem Kept.putAuth {t' : Nat} {pub : Bytes} (h : Kept s0 s) : Kept s0 (Machine.putAuth s t' pub) := by
  unfold Machine.putAuth
  exact h.putPublic

theorem Kept.putCustodians {t' : Nat} {pubs : List Bytes} (h : Kept s0 s) :
    Kept s0 (Machine.putCustodians s t' pubs) := by
  unfold Machine.putCustodians
  exact .foldl (.foldl h (fun _ _ h3 => .ite h3.freeRec h3)) (fun _ _ h5 => h5.putPublic)

theorem Kept.putTmk {t' i : Nat} {key attr : Bytes} (h : Kept s0 s) : Kept s0 (Machine.putTmk s t' i key attr) := by
  unfold Machine.putTmk
  exact h.writeRec

theorem Kept.fellTmk {t' i : Nat} (h : Kept s0 s) : Kept s0 (Machine.fellTmk s t' i) := by
  unfold Machine.fellTmk
  extract_lets _
  split
  · exact .writeRec h.ctrWrite
  · exact h.ctrWrite

theorem Kept.updApply {u : UpdMsg} {rand : Bytes} (h : Kept s0 s) : Kept s0 (Machine.updApply s u rand) := by
  unfold Machine.updApply
  extract_lets _ _ _ _ _ _ _ s1 _ s2 _
  have h1 : Kept s0 s1 := h.frame
  have h2 : Kept s0 s2 := h.mapOther
  split
  · exact h.putAuth
  · exact h.putCustodians
  · exact h.putTmk
  · split
    · exact h.putTmk
    · exact h
  · exact h.fellTmk
  · exact h.frame
  · exact h.writeRec
  · exact h.freeRec
  · exact .ite h1.setMig (.setMig h1.frame)
  · exact .ite h (.setMig h2.frame)

theorem Kept.updRefused {t' op step : Nat} (h : Kept s0 s) : Kept s0 (Machine.updRefused s t' op step) := by
  unfold Machine.updRefused
  exact .postEvent (.setIrq h.bump)

theorem Kept.devUpdate {i : Item} {op : Nat} (h : Kept s0 s) : Kept s0 (Machine.devUpdate s i op) := by
  unfold Machine.devUpdate
  split
  · exact h.endItem
  · extract_lets _
    split
    · exact .endItem h.updRefused
    · refine .ite h ?_
      split
      · exact .endItem (.quotaCounted h.updRefused)
      · split
        next _ t1 e0 =>
          have h1 := (KeptSnd.ite h.boomBytes h).get e0
          split
          · exact .endItem h1.updRefused
          · exact .answerCommit (.postEvent (.bump (.ctrWrite (.updApply h1.takeAllowance))))

theorem Kept.execAuthSet {core : Nat} (h : Kept s0 s) : KeptRes s0 (Machine.execAuthSet core s) := by
  unfold Machine.execAuthSet
  exact .hostRun h (fun _ _ h1 => h1.devUpdate)

theorem Kept.execCustodianSet {core : Nat} (h : Kept s0 s) : KeptRes s0 (Machine.execCustodianSet core s) := by
  unfold Machine.execCustodianSet
  exact .hostRun h (fun _ _ h1 => h1.devUpdate)

theorem Kept.execTmkGenerate {core : Nat} (h : Kept s0 s) : KeptRes s0 (Machine.execTmkGenerate core s) := by
  unfold Machine.execTmkGenerate
  exact .hostRun h (fun _ _ h1 => h1.devUpdate)

theorem Kept.execTmkLoad {core : Nat} (h : Kept s0 s) : KeptRes s0 (Machine.execTmkLoad core s) := by
  unfold Machine.execTmkLoad
  exact .hostRun h (fun _ _ h1 => h1.devUpdate)

theorem Kept.execTmkInvalidate {core : Nat} (h : Kept s0 s) : KeptRes s0 (Machine.execTmkInvalidate core s) := by
  unfold Machine.execTmkInvalidate
  exact .hostRun h (fun _ _ h1 => h1.devUpdate)

theorem Kept.execTmkSelect {core : Nat} (h : Kept s0 s) : KeptRes s0 (Machine.execTmkSelect core s) := by
  unfold Machine.execTmkSelect
  exact .hostRun h (fun _ _ h1 => h1.devUpdate)

theorem Kept.execCredLoad {core : Nat} (h : Kept s0 s) : KeptRes s0 (Machine.execCredLoad core s) := by
  unfold Machine.execCredLoad
  exact .hostRun h (fun _ _ h1 => h1.devUpdate)

theorem Kept.execCredDelete {core : Nat} (h : Kept s0 s) : KeptRes s0 (Machine.execCredDelete core s) := by
  unfold Machine.execCredDelete
  exact .hostRun h (fun _ _ h1 => h1.devUpdate)

theorem Kept.execFirmwareMigrate {core : Nat} (h : Kept s0 s) : KeptRes s0 (Machine.execFirmwareMigrate core s) := by
  unfold Machine.execFirmwareMigrate
  exact .hostRun h (fun _ _ h1 => h1.devUpdate)

theorem Kept.execMigrateCancel {core : Nat} (h : Kept s0 s) : KeptRes s0 (Machine.execMigrateCancel core s) := by
  unfold Machine.execMigrateCancel
  exact .hostRun h (fun _ _ h1 => h1.devUpdate)

/-! ### VaultOps -/

theorem Kept.execMigConfirm {v : Byte} (h : Kept s0 s) : KeptRes s0 (Machine.execMigConfirm v s) := by
  unfold Machine.execMigConfirm
  exact .onComplex h (.ite (.next h) (.ite (.next h.accessErr) (.next (.setMig (.ite (.ctrWrite h.frame) h.frame)))))

theorem Kept.execMigrationRewrapDone (h : Kept s0 s) : KeptRes s0 (Machine.execMigrationRewrapDone s) := by
  unfold Machine.execMigrationRewrapDone
  refine .ite (.next h) ?_
  extract_lets _ s1 _
  have h1 : Kept s0 s1 := h.mapOther
  exact .next (.setMig h1.frame)

theorem Kept.execMigrationConfirmDone (h : Kept s0 s) : KeptRes s0 (Machine.execMigrationConfirmDone s) := by
  unfold Machine.execMigrationConfirmDone
  refine .ite (.next h) ?_
  extract_lets s3 _
  have h3 : Kept s0 s3 := h.mapOther
  exact .next (.setMig h3.frame)

theorem Kept.remaskSlot {n : Nat} (h : Kept s0 s) : Kept s0 (Machine.remaskSlot s n) := by
  unfold Machine.remaskSlot
  split
  · exact h
  · extract_lets _ _
    split
    next _ t1 e0 =>
      have h1 := h.maskBytes.get e0
      exact h1.frame

theorem Kept.execKeyCacheRemask (h : Kept s0 s) : KeptRes s0 (Machine.execKeyCacheRemask s) := by
  unfold Machine.execKeyCacheRemask
  exact .ite (.next h) (.next (.bump (.foldl h (fun _ _ h1 => h1.remaskSlot))))

theorem Kept.remaskRoot {data : Bytes} (h : Kept s0 s) : Kept s0 (Machine.remaskRoot s data) := by
  unfold Machine.remaskRoot
  split
  next _ t1 e0 =>
    have h1 := h.rootMask.get e0
    exact h1.frame

theorem Kept.execBbramRemask (h : Kept s0 s) : KeptRes s0 (Machine.execBbramRemask s) := by
  unfold Machine.execBbramRemask
  exact .next (.ite h h.remaskRoot)

theorem Kept.settleRec {n : Nat} {x : Rec} (h : Kept s0 s) : Kept s0 (Machine.settleRec s n x) := by
  unfold Machine.settleRec
  exact .ite h.writeRec h

theorem Kept.retireSector {sector : Nat} (h : Kept s0 s) : Kept s0 (Machine.retireSector s sector) := by
  unfold Machine.retireSector
  extract_lets _ s9
  have h9 : Kept s0 s9 := .ite h.frame h.frame
  exact .ite h9.setIrq h9

theorem Kept.execNvmBankRemask {fails : List Nat} (h : Kept s0 s) :
    KeptRes s0 (Machine.execNvmBankRemask fails s) := by
  unfold Machine.execNvmBankRemask
  refine .ite (.next h) ?_
  extract_lets _ _
  split
  next _ t1 e0 =>
    have h1 := (Kept.maskBytes (.foldl h (fun _ _ h2 => h2.settleRec))).get e0
    extract_lets _ s3 _ _ s4 _
    have h3 : Kept s0 s3 := h1.remaskRoot
    have h4 : Kept s0 s4 := .foldl (.ite h1 h3.frame) (fun _ _ h5 => h5.retireSector)
    exact .next (.bump h4.frame)

theorem Kept.vaultRandom {n : Nat} (h : Kept s0 s) : KeptSnd s0 (Machine.vaultRandom s n) := by
  unfold Machine.vaultRandom
  split
  · exact h
  · exact h.boomBytes

theorem Kept.execVaultMaskReseed (h : Kept s0 s) : KeptRes s0 (Machine.execVaultMaskReseed s) := by
  unfold Machine.execVaultMaskReseed
  refine .ite (.next h) ?_
  split
  next _ t1 e0 =>
    have h1 := h.vaultRandom.get e0
    exact .next (.setFlag h1.frame)
  next t3 e1 =>
    have h3 := h.vaultRandom.get e1
    exact .ite (.next h3) (.next (.setIrq h3.setFlag))

theorem Kept.execWriteAllowanceRefill (h : Kept s0 s) : KeptRes s0 (Machine.execWriteAllowanceRefill s) := by
  unfold Machine.execWriteAllowanceRefill
  exact .next h.setFld

theorem Kept.execCounterWriteRefill {n : Nat} (h : Kept s0 s) : KeptRes s0 (Machine.execCounterWriteRefill n s) := by
  unfold Machine.execCounterWriteRefill
  exact .next (.ite h.setCtr h)

theorem Kept.loseRecord {n : Nat} (h : Kept s0 s) : Kept s0 (Machine.loseRecord s n) := by
  unfold Machine.loseRecord
  split
  · exact h
  · exact .postEvent (.raiseErr (.ite h.fellTmk (.ite (.foldl h (fun _ _ h3 => .ite h3.writeRec h3)) h.freeRec)))

theorem Kept.reconcileRec {bad : List Nat} {n : Nat} {x : Rec} (h : Kept s0 s) :
    Kept s0 (Machine.reconcileRec s bad n x) := by
  unfold Machine.reconcileRec
  refine .ite h ?_
  extract_lets _
  split
  · exact .ite h (.foldl h.putCells (fun _ _ h7 => .raiseErr h7.bumpSat))
  · exact h.loseRecord

theorem Kept.reconcile {bad : List Nat} (h : Kept s0 s) : Kept s0 (Machine.reconcile s bad) := by
  unfold Machine.reconcile
  exact .foldl h (fun _ _ h1 => h1.reconcileRec)

theorem Kept.fellAll (h : Kept s0 s) : Kept s0 (Machine.fellAll s) := by
  unfold Machine.fellAll
  extract_lets s5 _
  have h5 : Kept s0 s5 := .foldl h (fun _ _ h7 => h7.fellTmk)
  exact h5.frame

theorem Kept.rebank (h : Kept s0 s) : Kept s0 (Machine.rebank s) := by
  unfold Machine.rebank
  refine .foldl h.frame fun _ _ h1 => ?_
  extract_lets _ _ _
  split
  · exact .putCells h1.frame
  · exact h1.frame

theorem Kept.newRoot {rand : Bytes} (h : Kept s0 s) : Kept s0 (Machine.newRoot s rand) := by
  unfold Machine.newRoot
  exact .setFlag (.rebank (.remaskRoot (.ite h.fellAll h)))

theorem Kept.deriveRoot (h : Kept s0 s) : Kept s0 (Machine.deriveRoot s) := by
  unfold Machine.deriveRoot
  exact .ite h.frame h

theorem Kept.applyMig (h : Kept s0 s) : Kept s0 (Machine.applyMig s) := by
  unfold Machine.applyMig
  exact .ite h.setMig (.ite h.setMig h.frame)

theorem Kept.firstRoot (h : Kept s0 s) : Kept s0 (Machine.firstRoot s) := by
  unfold Machine.firstRoot
  refine .ite h ?_
  split
  next _ t1 e0 =>
    have h1 := h.vaultRandom.get e0
    extract_lets s5 _
    have h5 : Kept s0 s5 := h1.newRoot
    exact h5.frame
  next t9 e1 =>
    have h9 := h.vaultRandom.get e1
    exact h9

theorem Kept.execVaultStartup {bad : List Nat} (h : Kept s0 s) : KeptRes s0 (Machine.execVaultStartup bad s) := by
  unfold Machine.execVaultStartup
  refine .ite (.next h) ?_
  extract_lets _ _ s1 _
  have h1 : Kept s0 s1 := .applyMig (.firstRoot (.ite (.reconcile h.frame) h.frame))
  exact .next (.setState (.deriveRoot (.ite (.ite h1.fellAll h1) (.setFlag h1.fellAll))))

theorem Kept.execMeasWrite {n w : Nat} {v : Word} (h : Kept s0 s) : KeptRes s0 (Machine.execMeasWrite n w v s) := by
  unfold Machine.execMeasWrite
  exact .onComplex h (.ite (.next h) (.ite (.next h.setReg) (.next h.accessErr)))

theorem Kept.sealMeas {v : Nat} (h : Kept s0 s) : Kept s0 (Machine.sealMeas s v) := by
  unfold Machine.sealMeas
  exact .ite (.deriveRoot h.setFld) h.setFld

theorem Kept.execMeasSeal {v : Byte} (h : Kept s0 s) : KeptRes s0 (Machine.execMeasSeal v s) := by
  unfold Machine.execMeasSeal
  exact .onComplex h (.next h.sealMeas)

theorem Kept.vltOpDone {st : Nat} (h : Kept s0 s) : Kept s0 (Machine.vltOpDone s st) := by
  unfold Machine.vltOpDone
  exact .setIrq h.setFld

theorem Kept.execVltSeal (h : Kept s0 s) : KeptRes s0 (Machine.execVltSeal s) := by
  unfold Machine.execVltSeal
  refine .onComplex h ?_
  split
  · exact .next h.vltOpDone
  · extract_lets _ _
    refine .ite (.next h.vltOpDone) ?_
    split
    next he =>
      exact .next (.vltOpDone (h.resolveKey.get he))
    next hk =>
      have h1 := h.resolveKey.get hk
      refine .ite (.next h1.vltOpDone) ?_
      split
      · exact .next h1.vltOpDone
      · split
        · exact .next h1.vltOpDone
        · exact .next (.vltOpDone (h1.setHbm (memWrite_wf _ _ _)))

theorem Kept.execVltInfo (h : Kept s0 s) : KeptRes s0 (Machine.execVltInfo s) := by
  unfold Machine.execVltInfo
  refine .onComplex h ?_
  split
  · exact .next h.vltOpDone
  · split
    · exact .next h.vltOpDone
    · split
      · exact .next h.vltOpDone
      · exact .next (.vltOpDone (.setReg (.setReg (.setReg h.setReg))))

theorem Kept.execVaultDebugAccess (h : Kept s0 s) : KeptRes s0 (Machine.execVaultDebugAccess s) := by
  unfold Machine.execVaultDebugAccess
  exact .next (.bumpSat (.setIrq h.accessErr))

theorem KeptCmd.devAttest {i : Item} : KeptCmd s0 (Machine.devAttest i) := by
  unfold Machine.devAttest
  exact .bind .orStatus (fun _ => .get (fun _ h3 => .bind .need (fun _ => .bind .refuseIf (fun _ => .bind
    .randomBytes (fun _ => .get (fun _ h5 => .pure))))))

theorem Kept.execDevAttest {core : Nat} (h : Kept s0 s) : KeptRes s0 (Machine.execDevAttest core s) := by
  unfold Machine.execDevAttest
  exact .hostRun h (fun _ _ h1 => .runCmd h1 .devAttest)

/-! ### StandIn -/

theorem Kept.setSi {t' : Nat} {v : SiTenant} (h : Kept s0 s) : Kept s0 (s.setSi t' v) :=
  h.frame

theorem Kept.setIssuer {t' : Nat} {reach : Bool} {cause : Nat} (h : Kept s0 s) :
    Kept s0 (Machine.setIssuer s t' reach cause) := by
  unfold Machine.setIssuer
  exact .ite h (.postEvent h.setSi)

theorem Kept.armHeartbeat {t' : Nat} (h : Kept s0 s) : Kept s0 (Machine.armHeartbeat s t') := by
  unfold Machine.armHeartbeat
  extract_lets s1 _
  have h1 : Kept s0 s1 := .foldl h (fun _ _ h2 => h2.dropTimers)
  refine .ite h1 ?_
  split
  next _ t3 e0 =>
    have h3 := h1.setTimer.get e0
    exact h3
  · exact h1

theorem Kept.execHeartbeatExpiry {r t' : Nat} (h : Kept s0 s) : KeptRes s0 (Machine.execHeartbeatExpiry r t' s) := by
  unfold Machine.execHeartbeatExpiry
  split
  · exact .next h
  · refine .ite (.next h) ?_
    extract_lets s3
    have h3 : Kept s0 s3 := .fireTimer h.advanceTo
    exact .next (.ite h3.setIssuer h3)

theorem Kept.execHeartbeatRearm {r : Nat} (h : Kept s0 s) : KeptRes s0 (Machine.execHeartbeatRearm r s) := by
  unfold Machine.execHeartbeatRearm
  exact .onComplex h (.ite (.next h) (.next (.foldl h (fun _ _ h1 => .ite h1.armHeartbeat h1))))

theorem KeptCmd.siTarget {i : Item} {l : List Elem} : KeptCmd s0 (Machine.siTarget i l) := by
  unfold Machine.siTarget
  exact .get (fun _ h1 => .ite (.bind .need (fun _ => .bind .refuseIf (fun _ => .pure))) .pure)

theorem KeptCmd.siFitted : KeptCmd s0 (Machine.siFitted) := by
  unfold Machine.siFitted
  exact .get (fun _ h1 => .need)

theorem KeptCmd.siIssuerState {i : Item} : KeptCmd s0 (Machine.siIssuerState i) := by
  unfold Machine.siIssuerState
  refine .bind .siFitted fun _ => ?_
  refine .bind .payCheck fun _ => ?_
  extract_lets _ _
  refine .bind .need fun _ => ?_
  refine .bind .need fun _ => ?_
  refine .bind .siTarget fun _ => ?_
  refine .get fun _ h1 => ?_
  extract_lets _ s2 _
  have h2 : Kept s0 s2 := .ite (.armHeartbeat h1.setSi) h1
  exact .bind (.set (.ite h2.setIssuer (.ite h2.setIssuer h2))) (fun _ => .pure)

theorem KeptCmd.siHeartbeat {i : Item} : KeptCmd s0 (Machine.siHeartbeat i) := by
  unfold Machine.siHeartbeat
  exact .bind .siFitted (fun _ => .bind .payCheck (fun _ => .bind .siTarget (fun _ => .get (fun _ h1 => .bind (.set
    (.ite (.setIssuer h1.armHeartbeat) h1.armHeartbeat)) (fun _ => .pure)))))

theorem KeptCmd.zoneKey {z : Bytes} : KeptCmd s0 (Machine.zoneKey z) := by
  unfold Machine.zoneKey
  exact .bind .getKeyFor (fun _ => .bind .need (fun _ => .bind .need (fun _ => .pure)))

theorem KeptCmd.siRulesLoad {i : Item} : KeptCmd s0 (Machine.siRulesLoad i) := by
  unfold Machine.siRulesLoad
  exact .bind .siFitted (fun _ => .bind .payCheck (fun _ => .ite (.bind .need (fun _ => .get (fun _ h3 => .bind
    (.set h3.frame) (fun _ => .pure)))) (.bind .need (fun _ => .bind .need (fun _ => .bind .zoneKey (fun _ => .get
      (fun _ h9 => .bind (.set h9.frame) (fun _ => .pure))))))))

theorem KeptCmd.siCardUpdate {i : Item} : KeptCmd s0 (Machine.siCardUpdate i) := by
  unfold Machine.siCardUpdate
  exact .bind .siFitted (fun _ => .bind .payCheck (fun _ => .bind .need (fun _ => .ite (.get (fun _ h5 => .bind
    .refuseClaim (fun _ => .bind (.set h5.ctxMake) (fun _ => .pure)))) (.bind .getCtx (fun _ => .bind .need
      (fun _ => .get (fun _ h1 => .bind (.set h1.setCtx) (fun _ => .pure))))))))

theorem Kept.jseqReserve {t' : Nat} (h : Kept s0 s) : Kept s0 (Machine.jseqReserve s t') := by
  unfold Machine.jseqReserve
  exact .ite h.ctrWrite h

theorem Kept.jseqLeaseTop {t' next : Nat} (h : Kept s0 s) : Kept s0 (Machine.jseqLeaseTop s t' next) := by
  unfold Machine.jseqLeaseTop
  exact h.leaseTop

theorem Kept.jseqGrant {t' : Nat} (h : Kept s0 s) : Kept s0 (Machine.jseqGrant s t') := by
  unfold Machine.jseqGrant
  exact .leaseGrant (.jseqReserve h.setSi)

theorem Kept.journalPut {t' next : Nat} {e : Bytes} (h : Kept s0 s) : Kept s0 (Machine.journalPut s t' next e) := by
  unfold Machine.journalPut
  exact h.setSi.setHbm (memWrite_wf _ _ _)

theorem KeptCmd.siAuthorise {i : Item} : KeptCmd s0 (Machine.siAuthorise i) := by
  unfold Machine.siAuthorise
  refine .bind .siFitted fun _ => .bind .payCheck fun _ => .bind (.act fun _ h1 => h1.triRoute) fun _ => ?_
  extract_lets _ _ routed
  have hrouted : ∀ r, KeptCmd s0 (routed r) := by
    intro _
    refine .get fun _ h1 => ?_
    extract_lets _ zone _ carded
    have hcarded : ∀ c, KeptCmd s0 (carded c) := by
      intro card
      refine .bind .refuseClaim fun _ => ?_
      extract_lets decided
      have hdecided : ∀ k, KeptCmd s0 (decided k) := by
        intro _
        refine .get fun _ h2 => .ite .pure (.bind .need fun _ => .bind .need fun _ => ?_)
        extract_lets _ _ body _ _ _ _ _ _ _ _ s3 _ _
        have h3 : Kept s0 s3 := by
          cases card with
          | none => exact h2.jseqReserve
          | some c => exact .setCtx h2.jseqReserve
        exact .bind (.set (.jseqLeaseTop (.takeFresh h3.journalPut))) fun _ => .pure
      refine .ite (.bind ?_ fun _ => hdecided _) (.bind .pure fun _ => hdecided _)
      clear_value zone
      split
      · exact .throw
      · exact .bind .zoneKey fun _ => .pure
    exact .bind .need fun _ => .ite (.bind (.bind .getCtx fun _ => .bind .need fun _ => .pure) fun _ => hcarded _)
      (.bind .pure fun _ => hcarded _)
  split
  · exact .bind .pure fun _ => hrouted _
  · exact .bind .throw fun _ => hrouted _

theorem KeptCmd.siJournalRead {i : Item} : KeptCmd s0 (Machine.siJournalRead i) := by
  unfold Machine.siJournalRead
  exact .bind .siFitted (fun _ => .bind .payCheck (fun _ => .bind .need (fun _ => .bind .handleTenants (fun _ =>
    .bind .getKeyFor (fun _ => .get (fun _ h3 => .pure))))))

theorem Kept.journalLay {t' : Nat} {l : List Bytes} (h : Kept s0 s) : Kept s0 (Machine.journalLay s t' l) := by
  unfold Machine.journalLay
  exact h.setSi.setHbm (memWrite_wf _ _ _)

theorem KeptCmd.siJournalRelease {i : Item} : KeptCmd s0 (Machine.siJournalRelease i) := by
  unfold Machine.siJournalRelease
  exact .bind .siFitted (fun _ => .bind .payCheck (fun _ => .get (fun _ h1 => .bind (.set h1.journalLay) (fun _ =>
    .pure))))

theorem Kept.execSiAuthorise {core : Nat} (h : Kept s0 s) : KeptRes s0 (Machine.execSiAuthorise core s) := by
  unfold Machine.execSiAuthorise
  refine .hostRun h fun _ _ h1 => ?_
  split
  next e => exact .ite h1 (.endItem (KeptSnd.get (KeptCmd.siAuthorise _ h1) e))
  next e => exact .answerRaw (.dupCommit (KeptSnd.get (KeptCmd.siAuthorise _ h1) e))

theorem Kept.execSiIssuerState {core : Nat} (h : Kept s0 s) : KeptRes s0 (Machine.execSiIssuerState core s) := by
  unfold Machine.execSiIssuerState
  exact .hostRun h (fun _ _ h1 => .runCmd h1 .siIssuerState)

theorem Kept.execSiJournalRead {core : Nat} (h : Kept s0 s) : KeptRes s0 (Machine.execSiJournalRead core s) := by
  unfold Machine.execSiJournalRead
  exact .hostRun h (fun _ _ h1 => .runCmd h1 .siJournalRead)

theorem Kept.execSiJournalRelease {core : Nat} (h : Kept s0 s) :
    KeptRes s0 (Machine.execSiJournalRelease core s) := by
  unfold Machine.execSiJournalRelease
  exact .hostRun h (fun _ _ h1 => .runCommit h1 .siJournalRelease)

theorem Kept.execSiRulesLoad {core : Nat} (h : Kept s0 s) : KeptRes s0 (Machine.execSiRulesLoad core s) := by
  unfold Machine.execSiRulesLoad
  exact .hostRun h (fun _ _ h1 => .runCommit h1 .siRulesLoad)

theorem Kept.execSiCardUpdate {core : Nat} (h : Kept s0 s) : KeptRes s0 (Machine.execSiCardUpdate core s) := by
  unfold Machine.execSiCardUpdate
  exact .hostRun h (fun _ _ h1 => .runCommit h1 .siCardUpdate)

theorem Kept.execSiHeartbeat {core : Nat} (h : Kept s0 s) : KeptRes s0 (Machine.execSiHeartbeat core s) := by
  unfold Machine.execSiHeartbeat
  exact .hostRun h (fun _ _ h1 => .runCmd h1 .siHeartbeat)

/-! ### Tamper -/

theorem Kept.bufferEntry {e : Bytes} (h : Kept s0 s) : Kept s0 (Machine.bufferEntry s e) := by
  unfold Machine.bufferEntry
  exact .ite h.frame h.frame

theorem Kept.lockLeaves (h : Kept s0 s) : Kept s0 (Machine.lockLeaves s) := by
  unfold Machine.lockLeaves
  exact .ite (.becomeFenced h.takeFresh) (.ite (.setRole h.takeFresh) h)

theorem Kept.enterLock (h : Kept s0 s) : Kept s0 (Machine.enterLock s) := by
  unfold Machine.enterLock
  exact .ite h (.lockLeaves (.setIrq (.ctrWrite h.frame)))

theorem Kept.eraseRoot (h : Kept s0 s) : Kept s0 (Machine.eraseRoot s) :=
  h.frame

theorem Kept.endSessions (h : Kept s0 s) : Kept s0 (Machine.endSessions s) := by
  unfold Machine.endSessions
  exact .foldl h (fun _ _ h1 => h1.closeSession)

theorem Kept.eraseNow (h : Kept s0 s) : Kept s0 (Machine.eraseNow s) := by
  unfold Machine.eraseNow
  extract_lets _ _ s1 _
  have h1 : Kept s0 s1 := .eraseRoot (.endSessions (.endAllItems h.frame))
  exact .setIrq (.setFlag h1.frame)

theorem Kept.respond {resp : Nat} {defer : Bool} (h : Kept s0 s) : Kept s0 (Machine.respond s resp defer) := by
  unfold Machine.respond
  refine .ite ?_ ?_
  · extract_lets s3 _
    have h3 : Kept s0 s3 := .ite h.eraseRoot h
    exact .ite h3.frame h3
  · extract_lets s1 _ s2
    have h1 : Kept s0 s1 := h.setIrq
    have h2 : Kept s0 s2 := .ite (.ite h1.frame h1.enterLock) h1
    exact .ite h2.eraseNow h2

theorem Kept.tripMonitors {ms : List Nat} {defer : Bool} (h : Kept s0 s) :
    Kept s0 (Machine.tripMonitors s ms defer) := by
  unfold Machine.tripMonitors
  refine .ite h (.respond (.foldl_fst h fun _ _ h1 => ?_))
  exact .ite (.postEvent (.frame h1.bufferEntry)) (.frame h1.bufferEntry)

theorem Kept.postResult {status step src dst : Nat} (h : Kept s0 s) :
    Kept s0 (Machine.postResult s status step src dst) := by
  unfold Machine.postResult
  exact .postEvent (.setIrq (.setFld (.setFld h.setFlag)))

theorem Kept.stopTransition (h : Kept s0 s) : Kept s0 (Machine.stopTransition s) := by
  unfold Machine.stopTransition
  split
  · refine .ite h ?_
    extract_lets s7 _ _
    have h7 : Kept s0 s7 := h.setFlag
    exact .postResult h7.frame
  · exact h

theorem Kept.execTamperTrip {v : Cell} {pulsed : Bool} (h : Kept s0 s) :
    KeptRes s0 (Machine.execTamperTrip v pulsed s) := by
  unfold Machine.execTamperTrip
  exact .next (.tripMonitors (.ite (.stopTransition h.frame) h.frame))

theorem Kept.execMonitorRearm {m : Nat} (h : Kept s0 s) : KeptRes s0 (Machine.execMonitorRearm m s) := by
  unfold Machine.execMonitorRearm
  exact .ite (.next h) (.next h.frame)

theorem Kept.execTmpRespWrite {v : Word} (h : Kept s0 s) : KeptRes s0 (Machine.execTmpRespWrite v s) := by
  unfold Machine.execTmpRespWrite
  exact .onComplex h (.ite (.next h.accessErr) (.next h.frame))

theorem Kept.execTmpCfgWrite {v : Word} (h : Kept s0 s) : KeptRes s0 (Machine.execTmpCfgWrite v s) := by
  unfold Machine.execTmpCfgWrite
  exact .onComplex h (.ite (.next h.accessErr) (.next h.frame))

theorem Kept.logMark (h : Kept s0 s) : Kept s0 (Machine.logMark s) := by
  unfold Machine.logMark
  extract_lets s3
  have h3 : Kept s0 s3 := .ite h.setIrq h
  exact .ite (.enterLock h3.setIrq) h3

theorem Kept.logAppend {e : Bytes} (h : Kept s0 s) : Kept s0 (Machine.logAppend s e) := by
  unfold Machine.logAppend
  exact .logMark h.frame

theorem Kept.moveEntry (h : Kept s0 s) : Kept s0 (Machine.moveEntry s) := by
  unfold Machine.moveEntry
  split
  · exact h
  · exact .ite h (.logAppend h.frame)

theorem Kept.execBlazeLogNvmWriteDone (h : Kept s0 s) : KeptRes s0 (Machine.execBlazeLogNvmWriteDone s) := by
  unfold Machine.execBlazeLogNvmWriteDone
  exact .next (.ite h.moveEntry h)

theorem Kept.startEntry {head : Bytes} {event resp : Nat} (h : Kept s0 s) :
    Kept s0 (Machine.startEntry s head event resp) := by
  unfold Machine.startEntry
  exact .postEvent (.ite h.bufferEntry h.logAppend)

theorem Kept.tamperStart (h : Kept s0 s) : Kept s0 (Machine.tamperStart s) := by
  unfold Machine.tamperStart
  extract_lets _ _ _ _ s1 _ s2 _
  have h1 : Kept s0 s1 := .foldl (.ite (.raiseErr (.startEntry h.frame)) h.frame) (fun _ _ h3 => h3.moveEntry)
  have h2 : Kept s0 s2 := .ite h1 (.startEntry h1.frame)
  exact .ite (.enterLock h2.frame) h2

theorem Kept.execTmpLogRead (h : Kept s0 s) : KeptRes s0 (Machine.execTmpLogRead s) := by
  unfold Machine.execTmpLogRead
  exact .onComplex h (.next h.bump)

theorem Kept.markTesting (h : Kept s0 s) : Kept s0 (Machine.markTesting s) := by
  unfold Machine.markTesting
  exact h.setFlag

theorem Kept.queueTest {m : Nat} {sw : Bool} (h : Kept s0 s) : Kept s0 (Machine.queueTest s m sw) := by
  unfold Machine.queueTest
  exact .markTesting h.frame

theorem Kept.execStimulusTestPeriod (h : Kept s0 s) : KeptRes s0 (Machine.execStimulusTestPeriod s) := by
  unfold Machine.execStimulusTestPeriod
  exact .ite (.next h) (.next (.queueTest h.frame))

theorem Kept.execTmpTestRun {sel : BitVec 5} (h : Kept s0 s) : KeptRes s0 (Machine.execTmpTestRun sel s) := by
  unfold Machine.execTmpTestRun
  exact .onComplex h (.ite (.next h) (.ite (.next h.setFld) (.next (.queueTest (.setFlag (.setFlag
    (.setFlag h.setFld)))))))

theorem Kept.testFailed {m : Nat} (h : Kept s0 s) : Kept s0 (Machine.testFailed s m) := by
  unfold Machine.testFailed
  exact .respond (.postEvent (.setIrq (.raiseErr h.bufferEntry)))

theorem Kept.execStimulusWindowClose {tripped persists : Bool} (h : Kept s0 s) :
    KeptRes s0 (Machine.execStimulusWindowClose tripped persists s) := by
  unfold Machine.execStimulusWindowClose
  split
  · exact .next h
  · extract_lets _ _ s1 s2 s3
    have h1 : Kept s0 s1 := .markTesting h.frame
    have h2 : Kept s0 s2 := .ite (.setFlag (.setFlag h1.setFlag)) h1
    have h3 : Kept s0 s3 := .ite h2.bump h2.testFailed
    exact .next (.ite h3.tripMonitors h3)

theorem Kept.execTmpLogicParity {code : Byte} (h : Kept s0 s) : KeptRes s0 (Machine.execTmpLogicParity code s) := by
  unfold Machine.execTmpLogicParity
  exact .next (.foldl h.reportUncorrected (fun _ _ h3 => h3.queueTest))

theorem Kept.execBatteryDomainError (h : Kept s0 s) : KeptRes s0 (Machine.execBatteryDomainError s) := by
  unfold Machine.execBatteryDomainError
  exact .next (.ite (.eraseNow (.enterLock h.reportUncorrected)) h.respond)

theorem Kept.execCellInserted (h : Kept s0 s) : KeptRes s0 (Machine.execCellInserted s) := by
  unfold Machine.execCellInserted
  exact .next h.frame

theorem Kept.execVholdCharged (h : Kept s0 s) : KeptRes s0 (Machine.execVholdCharged s) := by
  unfold Machine.execVholdCharged
  exact .next (.ite h.frame h)

theorem Kept.domainDies (h : Kept s0 s) : Kept s0 (Machine.domainDies s) :=
  h.frame

theorem Kept.execHoldUpExhausted (h : Kept s0 s) : KeptRes s0 (Machine.execHoldUpExhausted s) := by
  unfold Machine.execHoldUpExhausted
  exact .next (.ite h h.domainDies)

theorem KeptCmd.devStatus {i : Item} : KeptCmd s0 (Machine.devStatus i) := by
  unfold Machine.devStatus
  exact .bind .orStatus (fun _ => .get (fun _ h1 => .bind (.set h1.takeFresh) (fun _ => .pure)))

theorem KeptCmd.devUnlock {i : Item} : KeptCmd s0 (Machine.devUnlock i) := by
  unfold Machine.devUnlock
  refine .bind .need fun _ => ?_
  refine .bind .orStatus fun _ => ?_
  extract_lets _
  refine .bind .need fun _ => ?_
  refine .get fun _ h1 => ?_
  refine .bind .need fun _ => ?_
  refine .bind .need fun _ => ?_
  refine .bind .need fun _ => ?_
  refine .bind .need fun _ => ?_
  refine .bind .need fun _ => ?_
  refine .bind .need fun _ => ?_
  extract_lets _ k2
  have h2 : ∀ x, KeptCmd s0 (k2 x) := by
    intro _
    refine .get fun _ h3 => ?_
    extract_lets s4 _ _ _
    have h4 : Kept s0 s4 := by
      unfold s4
      split
      · exact .ite (.deriveRoot h3.newRoot) h3.newRoot
      · exact h3
    exact .bind (.set (.postEvent (.bufferEntry h4.frame))) (fun _ => .get (fun _ h5 => .pure))
  refine .ite (.bind .pure (fun _ => h2 _)) ?_
  refine .bind ?_ (fun _ => h2 _)
  refine .bind (.act (fun _ h6 => h6.vaultRandom)) fun _ => ?_
  split
  · exact .pure
  · exact .throw

theorem Kept.execDevStatus {core : Nat} (h : Kept s0 s) : KeptRes s0 (Machine.execDevStatus core s) := by
  unfold Machine.execDevStatus
  exact .hostRun h (fun _ _ h1 => .runCmd h1 .devStatus)

theorem Kept.execDevUnlock {core : Nat} (h : Kept s0 s) : KeptRes s0 (Machine.execDevUnlock core s) := by
  unfold Machine.execDevUnlock
  exact .hostRun h (fun _ _ h1 => .runCommit h1 .devUnlock)

/-! ### Pair -/

theorem Kept.discardLasting (h : Kept s0 s) : Kept s0 (Machine.discardLasting s) := by
  have h1 : Kept s0 (Machine.keepRecs (Machine.clearCurves s) fun x => decide
    (x.typ = 2 ∧ x.tenant = 0)) := h.clearCurves.keepRecs
  refine ⟨h1.pending, h1.fuse, fun h0 => ?_⟩
  obtain ⟨hh, hs, hb, hr, hp, _, _⟩ := h1.canonical h0
  obtain ⟨_, _, _, _, _, _, hw⟩ := h.canonical h0
  exact ⟨hh, hs, hb, hr, hp, rfl, hw⟩

theorem Kept.applyItem {x : DeltaItem} (h : Kept s0 s) : Kept s0 (Machine.applyItem s x) := by
  cases x with
  | context r i c => exact h.setCtx
  | lease k b => exact h.setLease
  | tmk t i gen attr key => exact .putTmk h.ctrTake
  | fell t i gen =>
    unfold Machine.applyItem
    dsimp only
    split
    · exact .writeRec h.ctrTake
    · exact h.ctrTake
  | record n x =>
    cases x with
    | none => exact h.freeRec
    | some x => exact h.writeRec
  | counter n v => exact h.ctrTake
  | active t i => exact h.frame
  | key n k => exact h.frame
  | session id x =>
    cases x with
    | none => exact .frame h.setSession
    | some x => exact h.setSession
  | window w l => exact h.frame
  | host n x => exact h.setHost
  | tenant t x => exact h.setTenant
  | issuer t x => exact h.setSi
  | rules n b => exact h.frame
  | zone n b => exact h.frame
  | curve n e => exact h.putCurve
  | nodes b l =>
    refine h.setTri (fun ha _ => ?_) fun _ hw => hw
    apply mwf_foldl _ ha
    exact fun _ _ hm => mwf_mset _ _ _ _ hm
  | brake n b => exact h.frame

theorem Kept.setEpoch {e : Nat} (h : Kept s0 s) : Kept s0 (Machine.setEpoch s e) := by
  unfold Machine.setEpoch
  exact .setFld h.setFld

theorem Kept.applyDelta {d : Delta} (h : Kept s0 s) : Kept s0 (Machine.applyDelta s d) := by
  unfold Machine.applyDelta
  extract_lets _ s1 _ _
  have h1 : Kept s0 s1 := .setFld (.setEpoch (.foldl h (fun _ _ h2 => h2.applyItem)))
  exact h1.frame

theorem Kept.applyStaged {whole : Bool} {l : List Delta} (h : Kept s0 s) :
    Kept s0 (Machine.applyStaged whole l s) := by
  induction l generalizing s with
  | nil => exact h.frame
  | cons d l ih => exact .ite (ih h.applyDelta) h.frame

theorem Kept.grantAll (h : Kept s0 s) : Kept s0 (Machine.grantAll s) := by
  unfold Machine.grantAll
  exact .foldl (.foldl (.foldl h (fun _ _ h3 => .ite h3.leaseGrant h3)) (fun _ _ h9 => h9.leaseGrant))
    (fun _ _ h1 => .ite h1.jseqGrant h1)

theorem Kept.raiseCounter {k bound : Nat} (h : Kept s0 s) : Kept s0 (Machine.raiseCounter s k bound) := by
  unfold Machine.raiseCounter
  refine .ite (.ite h.setCtx h) ?_
  refine .ite ?_ h.setSi
  split
  · exact .ite h.closeSession h.setSession
  · exact h

theorem Kept.raiseCounters (h : Kept s0 s) : Kept s0 (Machine.raiseCounters s) := by
  unfold Machine.raiseCounters
  exact .foldl h (fun _ _ h1 => h1.raiseCounter)

theorem Kept.rearmTimers (h : Kept s0 s) : Kept s0 (Machine.rearmTimers s) := by
  unfold Machine.rearmTimers
  exact .ite (.foldl h (fun _ _ h1 => .ite h1.armHeartbeat h1)) h

theorem Kept.promote {cause : Nat} (h : Kept s0 s) : Kept s0 (Machine.promote s cause) := by
  unfold Machine.promote
  exact .bumpSat (.setRole (.unpair (.rearmTimers (.raiseCounters h.applyStaged))))

theorem Kept.takePartner (h : Kept s0 s) : Kept s0 (Machine.takePartner s) := by
  unfold Machine.takePartner
  extract_lets s1 _ s2 _
  have h1 : Kept s0 s1 := .setRole h.takeFresh
  have h2 : Kept s0 s2 := .grantAll h1.frame
  exact h2.frame

theorem Kept.startSync (h : Kept s0 s) : Kept s0 (Machine.startSync s) := by
  unfold Machine.startSync
  extract_lets s3 _
  have h3 : Kept s0 s3 := .setRole (.discardLasting h.takeFresh)
  exact h3.frame

theorem Kept.meetPartner {x : Partner} (h : Kept s0 s) : Kept s0 (Machine.meetPartner s x) := by
  unfold Machine.meetPartner
  exact .ite (.ite (.setIrq h.setFlag) (.ite (.takePartner h.setFlag) h.setFlag)) (.ite
    (.startSync h.setFlag) h.setFlag)

theorem Kept.execPairLinkUp {lanes : Byte} {x : Partner} (h : Kept s0 s) :
    KeptRes s0 (Machine.execPairLinkUp lanes x s) := by
  unfold Machine.execPairLinkUp
  refine .ite (.next h) ?_
  extract_lets _ s1 s2 _
  have h1 : Kept s0 s1 := .setFlag (.setFlag h.setFld)
  have h2 : Kept s0 s2 := h1.setFlag
  exact .ite (.next (.meetPartner h2.frame)) (.next h1.raiseErr)

theorem Kept.linkDown (h : Kept s0 s) : Kept s0 (Machine.linkDown s) := by
  unfold Machine.linkDown
  exact .setIrq (.linkClosed h.frame)

theorem Kept.execPairLinkDown {abandoned : Bool} (h : Kept s0 s) :
    KeptRes s0 (Machine.execPairLinkDown abandoned s) := by
  unfold Machine.execPairLinkDown
  exact .ite (.next h) (.ite (.next (.linkDown h.raiseErr)) (.next (.linkDown h.setFld)))

theorem Kept.execPairLaneBlockLock {n : BitVec 3} {lock : Bool} (h : Kept s0 s) :
    KeptRes s0 (Machine.execPairLaneBlockLock n lock s) := by
  unfold Machine.execPairLaneBlockLock
  exact .ite (.next h) (.next (.ite (.linkDown h.setFlag) h.setFlag))

theorem Kept.execPairJoinTimeout (h : Kept s0 s) : KeptRes s0 (Machine.execPairJoinTimeout s) := by
  unfold Machine.execPairJoinTimeout
  exact .next (.ite h.frame h)

theorem Kept.execFullCopyDone {mib : Cell} {copy : List DeltaItem} (h : Kept s0 s) :
    KeptRes s0 (Machine.execFullCopyDone mib copy s) := by
  unfold Machine.execFullCopyDone
  refine .ite (.next h) ?_
  extract_lets _ _ s1 _
  have h1 : Kept s0 s1 := .setIrq (.setRole (.takeFresh (.setFld (.setFld (.foldl h (fun _ _ h2 => h2.applyItem))))))
  exact .next h1.frame

theorem Kept.execPairHeartbeatLost (h : Kept s0 s) : KeptRes s0 (Machine.execPairHeartbeatLost s) := by
  unfold Machine.execPairHeartbeatLost
  extract_lets _ s1 _ _
  have h1 : Kept s0 s1 := h.setFlag
  exact .next (.ite (.setIrq h1.frame) h1.frame)

theorem Kept.execPairHeartbeatPresent (h : Kept s0 s) : KeptRes s0 (Machine.execPairHeartbeatPresent s) := by
  unfold Machine.execPairHeartbeatPresent
  refine .next ?_
  extract_lets s1 _
  have h1 : Kept s0 s1 := h.setFlag
  exact h1.frame

theorem Kept.closeEpoch {bytes sent retries : Nat} (h : Kept s0 s) :
    Kept s0 (Machine.closeEpoch s bytes sent retries) := by
  unfold Machine.closeEpoch
  extract_lets _ s1 _ _ s2 _ _
  have h1 : Kept s0 s1 := .setFld h.setEpoch
  have h2 : Kept s0 s2 := .ite h1.bump h1
  exact .ite h1 (.refreshBacklog h2.frame)

theorem Kept.execEpochClose {bytes sent : BitVec 24} {retries : Byte} (h : Kept s0 s) :
    KeptRes s0 (Machine.execEpochClose bytes sent retries s) := by
  unfold Machine.execEpochClose
  refine .ite (.next h) ?_
  extract_lets s5 _ _
  have h5 : Kept s0 s5 := .closeEpoch h.touch
  exact .ite (.next h5) (.ite (.next h5.frame) (.ite (.next h5.frame) (.ite (.next (.becomeFenced h5.frame)) (.next
    (.becomeAlone h5.frame)))))

theorem Kept.execDeltaReceived {d : Delta} (h : Kept s0 s) : KeptRes s0 (Machine.execDeltaReceived d s) := by
  unfold Machine.execDeltaReceived
  exact .ite (.next h) (.ite (.next h) (.next h.applyStaged))

theorem Kept.execDeltaAckReceived {e : Nat} {standby : Bool} (h : Kept s0 s) :
    KeptRes s0 (Machine.execDeltaAckReceived e standby s) := by
  unfold Machine.execDeltaAckReceived
  refine .ite (.next h) ?_
  extract_lets s5 _ _
  have h5 : Kept s0 s5 := h.setFld
  exact .next (.releaseHeld (.refreshBacklog h5.frame))

theorem Kept.execStandbyTimeout (h : Kept s0 s) : KeptRes s0 (Machine.execStandbyTimeout s) := by
  unfold Machine.execStandbyTimeout
  exact .ite (.next h) (.next (.promote h.advanceTo))

theorem Kept.execPartnerPromotedMsg (h : Kept s0 s) : KeptRes s0 (Machine.execPartnerPromotedMsg s) := by
  unfold Machine.execPartnerPromotedMsg
  exact .next (.ite h.becomeFenced h)

theorem Kept.execPartnerWithdrawMsg (h : Kept s0 s) : KeptRes s0 (Machine.execPartnerWithdrawMsg s) := by
  unfold Machine.execPartnerWithdrawMsg
  exact .next (.ite h.becomeAlone h)

theorem Kept.execRoleMessageReceived {switchover : Bool} (h : Kept s0 s) :
    KeptRes s0 (Machine.execRoleMessageReceived switchover s) := by
  unfold Machine.execRoleMessageReceived
  refine .ite (.next h) ?_
  extract_lets s3 _
  have h3 : Kept s0 s3 := h.promote
  exact .next (.ite (.takePartner h3.frame) h3)

theorem Kept.pairRefused (h : Kept s0 s) : Kept s0 (Machine.pairRefused s) := by
  unfold Machine.pairRefused
  exact h.raiseErr

theorem Kept.execPairSwitch (h : Kept s0 s) : KeptRes s0 (Machine.execPairSwitch s) := by
  unfold Machine.execPairSwitch
  exact .onComplex h (.ite (.next h.frame) (.next h.pairRefused))

theorem Kept.execSwitchDrainTimeout (h : Kept s0 s) : KeptRes s0 (Machine.execSwitchDrainTimeout s) := by
  unfold Machine.execSwitchDrainTimeout
  refine .ite (.next h) ?_
  extract_lets _ _ _ _ s1 _
  have h1 : Kept s0 s1 := .setRole (.discardHeld (.unpair (.releaseHeld (.setFld (.setEpoch h.endAllItems)))))
  exact .next h1.frame

theorem Kept.execPairPromote (h : Kept s0 s) : KeptRes s0 (Machine.execPairPromote s) := by
  unfold Machine.execPairPromote
  exact .onComplex h (.ite (.next h.pairRefused) (.ite (.next h.promote) (.ite (.next (.setRole h.frame))
    (.next h.pairRefused))))

theorem Kept.execAbandonState (h : Kept s0 s) : KeptRes s0 (Machine.execAbandonState s) := by
  unfold Machine.execAbandonState
  refine .onComplex h ?_
  extract_lets _ _ s1 _
  have h1 : Kept s0 s1 := .setFlag (.becomeNone (.discardLasting (.discardHeld h.endAllItems)))
  exact .next h1.frame

theorem Kept.execParUncorrectableError {parity : Bool} (h : Kept s0 s) :
    KeptRes s0 (Machine.execParUncorrectableError parity s) := by
  unfold Machine.execParUncorrectableError
  exact .ite (.next h) (.next h.parFail)

/-! ### Reset -/

theorem Kept.eraseUser (h : Kept s0 s) : Kept s0 (Machine.eraseUser s) := by
  unfold Machine.eraseUser
  extract_lets s1
  have h1 : Kept s0 s1 := h.keepRecs
  exact h1.frame

theorem Kept.eraseNvm (h : Kept s0 s) : Kept s0 (Machine.eraseNvm s) :=
  h.frame

theorem Kept.eraseFor {target : Nat} (h : Kept s0 s) : Kept s0 (Machine.eraseFor s target) := by
  unfold Machine.eraseFor
  exact .ite h.eraseUser (.ite (.eraseNvm h.eraseUser) (.ite (.eraseNvm h.frame) h))

theorem Kept.finishErase (h : Kept s0 s) : Kept s0 (Machine.finishErase s) := by
  unfold Machine.finishErase
  split
  · extract_lets s1 _
    have h1 : Kept s0 s1 := h.eraseFor
    exact h1.frame
  · exact h

theorem Kept.slotWritten {target : Nat} {pub : Bytes} (h : Kept s0 s) :
    Kept s0 (Machine.slotWritten s target pub) := by
  unfold Machine.slotWritten
  exact .ite (.putAuth (.ctrTake h.addSlot)) h.addSlot

theorem Kept.slotStopped {w : Word} (h : Kept s0 s) : Kept s0 (Machine.slotStopped s w) := by
  unfold Machine.slotStopped
  split
  · exact h
  · exact .ite h.slotWritten (.ite h.frame h.addSlot)

theorem Kept.keepRegs {old : State} {p : PageId} {offs : List Nat} (h : Kept s0 s) :
    Kept s0 (Machine.keepRegs old s p offs) :=
  .foldl h fun _ _ h1 => h1.setReg

theorem Kept.resetEvr {old : State} {cause : Nat} (h : Kept s0 s) : Kept s0 (Machine.resetEvr old s cause) := by
  unfold Machine.resetEvr
  exact .ite h (.postEvent h.keepRegs.frame)

theorem Kept.chipReset {cause : Nat} (h : Kept s0 s) : Kept s0 (Machine.chipReset s cause) := by
  unfold Machine.chipReset
  extract_lets s1 _ _ _ _ _ _ _ _ s2 _ s3 s4 s5 s6 _
  have h1 : Kept s0 s1 := .slotStopped h.takeFresh
  have h2 : Kept s0 s2 := h1.of_canonical rfl rfl fun _ => ⟨rfl, rfl, rfl, rfl, rfl, rfl, rfl⟩
  have h3 : Kept s0 s3 := .setFld h2.setFld
  have h4 : Kept s0 s4 := .ite h3.keepRegs h3
  have h5 : Kept s0 s5 := .ite h4.keepRegs h4
  have h6 : Kept s0 s6 := .setFld h5.setFld
  exact .resetEvr (.ite h6 (.foldl h6 fun _ _ h => h.setFld))

theorem Kept.execPowerOn (h : Kept s0 s) : KeptRes s0 (Machine.execPowerOn s) := by
  unfold Machine.execPowerOn
  exact .next (.chipReset h.frame)

theorem Kept.execResetN (h : Kept s0 s) : KeptRes s0 (Machine.execResetN s) := by
  unfold Machine.execResetN
  exact .next (.ite h.chipReset h)

theorem Kept.execRstCmd {v : Word} (h : Kept s0 s) : KeptRes s0 (Machine.execRstCmd v s) := by
  unfold Machine.execRstCmd
  exact .ite (.next h) (.ite (.next h.chipReset) (.next h.accessErr))

theorem Kept.execWatchdogHalf (h : Kept s0 s) : KeptRes s0 (Machine.execWatchdogHalf s) := by
  unfold Machine.execWatchdogHalf
  exact .ite (.next h) (.next (.setIrq h.advanceTo))

theorem Kept.execWatchdogExpiry (h : Kept s0 s) : KeptRes s0 (Machine.execWatchdogExpiry s) := by
  unfold Machine.execWatchdogExpiry
  exact .ite (.next h) (.next (.chipReset h.advanceTo))

theorem Kept.execRstWdtKick (h : Kept s0 s) : KeptRes s0 (Machine.execRstWdtKick s) := by
  unfold Machine.execRstWdtKick
  exact .onComplex h (.next h.frame)

theorem Kept.bootFail {typ status : Nat} (h : Kept s0 s) : Kept s0 (Machine.bootFail s typ status) := by
  unfold Machine.bootFail
  exact .chipReset (.setFld h.setFld)

theorem Kept.execBootFailure {typ : Byte} {status : Cell} (h : Kept s0 s) :
    KeptRes s0 (Machine.execBootFailure typ status s) := by
  unfold Machine.execBootFailure
  exact .ite (.next h) (.next h.bootFail)

theorem Kept.execRstReady {on : Bool} (h : Kept s0 s) : KeptRes s0 (Machine.execRstReady on s) := by
  unfold Machine.execRstReady
  refine .ite (.next h) ?_
  refine .ite (.next h.accessErr) ?_
  refine .next ?_
  extract_lets s1 _
  have h1 : Kept s0 s1 := h.setFlag
  exact h1.frame

theorem Kept.beginTransition {q : LcReq} (h : Kept s0 s) : Kept s0 (Machine.beginTransition s q) := by
  unfold Machine.beginTransition
  extract_lets _ _ s1
  have h1 : Kept s0 s1 := .eraseFor h.setFlag
  exact h1.frame

theorem Kept.execLcsArm (h : Kept s0 s) : KeptRes s0 (Machine.execLcsArm s) := by
  unfold Machine.execLcsArm
  exact .ite (.next h) (.next h.chipReset)

theorem Kept.execLcsProgramDone {partly : Option Word} (h : Kept s0 s) :
    KeptRes s0 (Machine.execLcsProgramDone partly s) := by
  unfold Machine.execLcsProgramDone
  split
  · exact .next h
  · extract_lets _ s1 _ _
    have h1 : Kept s0 s1 := h.setFlag
    split
    · exact .next (.postResult (.slotWritten h1.frame))
    · exact .next (.slotStopped (.raiseErr h1.frame))

theorem Kept.debugSetup (h : Kept s0 s) : Kept s0 (Machine.debugSetup s) := by
  unfold Machine.debugSetup
  extract_lets _ _ s1 _ s2 s3
  have h1 : Kept s0 s1 := .setFld (.setFlag h.setFlag)
  have h3 : Kept s0 s3 := .ite h1.setMpuEntry h1
  exact h3.setFlag

theorem Kept.romEnable {p : PageId} (h : Kept s0 s) : Kept s0 (Machine.romEnable s p) := by
  unfold Machine.romEnable
  exact .ite h (.setFld h.setFlag)

theorem Kept.measure {n : Nat} {d : Bytes} (h : Kept s0 s) : Kept s0 (Machine.measure s n d) := by
  unfold Machine.measure
  exact .sealMeas h.setMeas

theorem Kept.clearReq (h : Kept s0 s) : Kept s0 (Machine.clearReq s) := by
  unfold Machine.clearReq
  exact .setFld (.foldl h (fun _ _ h1 => h1.setReg))

theorem Kept.startSpares (h : Kept s0 s) : Kept s0 (Machine.startSpares s) := by
  unfold Machine.startSpares
  exact .foldl h (fun _ _ h3 => .ite (.refreshSpares h3.setFld) h3)

theorem Kept.applyRepairs (h : Kept s0 s) : Kept s0 (Machine.applyRepairs s) := by
  unfold Machine.applyRepairs
  refine .foldl h fun _ _ h1 => ?_
  split
  · exact h1.setAux
  · exact h1

theorem Kept.romBoot {f : FirstStage} (h : Kept s0 s) : Kept s0 (Machine.romBoot s f) := by
  unfold Machine.romBoot
  refine .ite ?_ ?_
  · extract_lets s1 _
    have h1 : Kept s0 s1 := h.setFlag
    exact h1.frame
  · extract_lets _ s2 _
    have h2 : Kept s0 s2 := .setFlag (.startSpares (.measure h.setFld))
    split
    · exact .bootFail h.setFld
    · exact .ite (.bootFail h.setFld) h2.frame

theorem Kept.execRomStart {f : FirstStage} {vdd vbat : Bool} (h : Kept s0 s) :
    KeptRes s0 (Machine.execRomStart f vdd vbat s) := by
  unfold Machine.execRomStart
  refine .ite (.next h) ?_
  extract_lets _ _ s1 _ _ _
  have h1 : Kept s0 s1 := .debugSetup (.tamperStart (.romEnable (.romEnable (.finishErase
    (.measure h.applyRepairs)))))
  refine .ite ?_ (.next (.romBoot h1.setFld))
  split
  · exact .next (.beginTransition (.clearReq h1.setFld))
  · exact .next (.romBoot (.postResult (.clearReq h1.setFld)))

theorem Kept.romTake {code : Nat} (h : Kept s0 s) : KeptOpt s0 (Machine.romTake s code) := by
  unfold Machine.romTake
  refine .ite .none ?_
  split
  · exact .ite (.some h.frame) .none
  · exact .none

theorem Kept.romAnswer {i : Item} {st : Nat} {l : List Elem} (h : Kept s0 s) :
    Kept s0 (Machine.romAnswer s i st l) := by
  unfold Machine.romAnswer
  exact h.respondPlain

theorem Kept.execRomReport (h : Kept s0 s) : KeptRes s0 (Machine.execRomReport s) := by
  unfold Machine.execRomReport
  split
  · exact .next h
  next _ t1 e1 =>
    have h1 := h.romTake.get e1
    split
    · exact .next h1.romAnswer
    · exact .ite (.ite (.next h1.romAnswer) (.next h1.romAnswer)) (.next h1.romAnswer)

theorem Kept.execRomLcsRequest {vdd vbat : Bool} (h : Kept s0 s) :
    KeptRes s0 (Machine.execRomLcsRequest vdd vbat s) := by
  unfold Machine.execRomLcsRequest
  split
  · exact .next h
  next _ t1 e1 =>
    have h1 := h.romTake.get e1
    split
    · exact .next h1.romAnswer
    · extract_lets _
      split
      · exact .next h1.beginTransition
      · exact .next (.romAnswer h1.postResult)

/-! ### Rails -/

theorem Kept.seedCell (h : Kept s0 s) : Kept s0 (Machine.seedCell s) := by
  unfold Machine.seedCell
  split
  next _ t1 e0 =>
    have h1 := h.vaultRandom.get e0
    exact h1.frame
  next t3 e1 =>
    have h3 := h.vaultRandom.get e1
    split
    next _ t5 e0 =>
      have h5 := h3.maskBytes.get e0
      exact h5.frame

theorem Kept.powerLoss (h : Kept s0 s) : Kept s0 (Machine.powerLoss s) := by
  unfold Machine.powerLoss
  extract_lets s1 _ s2 _ _
  have h1 : Kept s0 s1 := .chipReset h.seedCell
  have h2 : Kept s0 s2 := h1.frame
  exact .ite h2 (.ite (.tripMonitors h2.frame) h2.domainDies)

theorem Kept.execRailFall {core : Bool} (h : Kept s0 s) : KeptRes s0 (Machine.execRailFall core s) := by
  unfold Machine.execRailFall
  exact .ite (.next h) (.next h.frame)

theorem Kept.reopen (h : Kept s0 s) : Kept s0 (Machine.reopen s) := by
  unfold Machine.reopen
  exact .ite h.frame h

theorem Kept.execRailFallWindowEnd (h : Kept s0 s) : KeptRes s0 (Machine.execRailFallWindowEnd s) := by
  unfold Machine.execRailFallWindowEnd
  split
  · exact .next h
  · exact .ite (.next (.powerLoss h.frame)) (.next (.reopen (.tripMonitors h.frame)))

theorem Kept.execRailReturn {core : Bool} (h : Kept s0 s) : KeptRes s0 (Machine.execRailReturn core s) := by
  unfold Machine.execRailReturn
  exact .ite (.next h) (.ite (.next (.reopen h.frame)) (.next (.reopen h.frame)))

theorem Kept.tapInstr {code : Byte} {allowed : Bool} (h : Kept s0 s) : Kept s0 (Machine.tapInstr s code allowed) := by
  unfold Machine.tapInstr
  refine .ite h.frame ?_
  extract_lets s1 _
  have h1 : Kept s0 s1 := h.bumpSat
  exact h1.frame

theorem Kept.execExtest (h : Kept s0 s) : KeptRes s0 (Machine.execExtest s) := by
  unfold Machine.execExtest
  exact .next h.tapInstr

theorem Kept.execIdcode (h : Kept s0 s) : KeptRes s0 (Machine.execIdcode s) := by
  unfold Machine.execIdcode
  exact .next h.tapInstr

theorem Kept.execSamplePreload (h : Kept s0 s) : KeptRes s0 (Machine.execSamplePreload s) := by
  unfold Machine.execSamplePreload
  exact .next h.tapInstr

theorem Kept.execDtmcs (h : Kept s0 s) : KeptRes s0 (Machine.execDtmcs s) := by
  unfold Machine.execDtmcs
  exact .next h.tapInstr

theorem Kept.execDmi (h : Kept s0 s) : KeptRes s0 (Machine.execDmi s) := by
  unfold Machine.execDmi
  exact .next h.tapInstr

theorem Kept.execBypass (h : Kept s0 s) : KeptRes s0 (Machine.execBypass s) := by
  unfold Machine.execBypass
  exact .next h.tapInstr

theorem Kept.execBflTransfer (h : Kept s0 s) : KeptRes s0 (Machine.execBflTransfer s) := by
  unfold Machine.execBflTransfer
  exact .onComplex h (.ite (.next h) (.next (.setFlag (.setFlag h.setFlag))))

theorem Kept.setDigest {d : Bytes} (h : Kept s0 s) : Kept s0 (Machine.setDigest s d) := by
  unfold Machine.setDigest
  exact .foldl h (fun _ _ h1 => h1.setFld)

theorem Kept.execBflTransferDone {r : BflResult} (h : Kept s0 s) : KeptRes s0 (Machine.execBflTransferDone r s) := by
  unfold Machine.execBflTransferDone
  refine .ite (.next h) ?_
  extract_lets s5
  have h5 : Kept s0 s5 := .setIrq (.setFlag h.setFlag)
  split
  · exact .next (.setDigest h5.physWrite)
  · exact .next (.raiseErr (.setDigest h5.setFlag))
  · exact .next (.raiseErr (.setDigest h5.setFlag))

theorem Kept.execBflCommand {op : Byte} {reply : Bytes} (h : Kept s0 s) :
    KeptRes s0 (Machine.execBflCommand op reply s) := by
  unfold Machine.execBflCommand
  exact .onComplex h (.ite (.next h) (.ite (.next h.accessErr) (.ite (.next h) (.next (.foldl h
    (fun _ _ h3 => h3.setReg))))))

theorem Kept.execHbmTrainingDone {ok : Bool} {us : BitVec 24} (h : Kept s0 s) :
    KeptRes s0 (Machine.execHbmTrainingDone ok us s) := by
  unfold Machine.execHbmTrainingDone
  refine .ite (.next h) ?_
  extract_lets s1 s2
  have h1 : Kept s0 s1 := h.setFld
  refine .ite (.next (.setState h1.raiseErr)) ?_
  split
  next hv =>
    have h3 := h1.setFlag.vaultRandom.get hv
    exact .next (.setState (.setFlag (.frame (h3.setHbm (m := []) fun _ => rfl))))
  next hv => exact .next (h1.setFlag.vaultRandom.get hv)

theorem Kept.execHbmInitDone (h : Kept s0 s) : KeptRes s0 (Machine.execHbmInitDone s) := by
  unfold Machine.execHbmInitDone
  exact .ite (.next h) (.next (.setFlag h.setFlag))

theorem Kept.execHbmScrubPass (h : Kept s0 s) : KeptRes s0 (Machine.execHbmScrubPass s) := by
  unfold Machine.execHbmScrubPass
  exact .ite (.next h) (.next (.setIrq h.bump))

theorem Kept.execHbmTempThreshold {t' : Cell} (h : Kept s0 s) : KeptRes s0 (Machine.execHbmTempThreshold t' s) := by
  unfold Machine.execHbmTempThreshold
  extract_lets _ s9
  have h9 : Kept s0 s9 := .setFlag h.setFld
  exact .next (.ite h9.setIrq h9)

theorem Kept.execSerdesPllLockLoss {q : BitVec 6} (h : Kept s0 s) :
    KeptRes s0 (Machine.execSerdesPllLockLoss q s) := by
  unfold Machine.execSerdesPllLockLoss
  exact .next (.setIrq (.raiseErr (.bumpSat (.ite h.setFlag h.setFlag))))

theorem Kept.execDieTempAlarm {t' : Cell} (h : Kept s0 s) : KeptRes s0 (Machine.execDieTempAlarm t' s) := by
  unfold Machine.execDieTempAlarm
  exact .next (.ite (.setIrq h.setFld) h.setFld)

theorem Kept.execI2cRead {c : Byte} (h : Kept s0 s) : KeptRes s0 (Machine.execI2cRead c s) := by
  unfold Machine.execI2cRead
  exact .next (.ite h.frame h)

/-! ### Recorder -/

theorem Kept.writeEvent {e : EvRec} (h : Kept s0 s) : Kept s0 (Machine.writeEvent s e) := by
  unfold Machine.writeEvent
  extract_lets _ _ s1 s2 s3 _ _ _ s4
  have h1 : Kept s0 s1 := h.setFld
  have h2 : Kept s0 s2 := h1.setFld
  have h3 : Kept s0 s3 := h1.bumpSat
  have h4 : Kept s0 s4 := .setFld (.ite h1.setIrq h1)
  exact .ite (.ite h1.frame (.ite h2.frame h3.frame)) h4.frame

theorem Kept.unfreeze (h : Kept s0 s) : Kept s0 (Machine.unfreeze s) := by
  unfold Machine.unfreeze
  extract_lets _ s1 _
  have h1 : Kept s0 s1 := h.setFlag
  exact .postEvent h1.frame

theorem Kept.execEvrFreeze {on : Bool} (h : Kept s0 s) : KeptRes s0 (Machine.execEvrFreeze on s) := by
  unfold Machine.execEvrFreeze
  refine .onComplex h ?_
  refine .ite (.next h) ?_
  refine .ite ?_ (.next h.unfreeze)
  refine .next ?_
  extract_lets s1 _
  have h1 : Kept s0 s1 := h.setFlag
  exact h1.frame

theorem Kept.execEvrFreezeTimeout (h : Kept s0 s) : KeptRes s0 (Machine.execEvrFreezeTimeout s) := by
  unfold Machine.execEvrFreezeTimeout
  exact .ite (.next (.setIrq (.unfreeze h.advance))) (.next h)

theorem Kept.clearEvents {i : Item} (h : Kept s0 s) : KeptSnd s0 (Machine.clearEvents s i) := by
  unfold Machine.clearEvents
  exact .writeEvent h.frame

theorem Kept.execEvrClear {core : Nat} (h : Kept s0 s) : KeptRes s0 (Machine.execEvrClear core s) := by
  unfold Machine.execEvrClear
  refine .hostRun h fun _ _ h1 => ?_
  refine .ite h1.answerStatus ?_
  split
  · exact h1.answerStatus
  · exact .ite h1.answerStatus (.answerCommit h1.clearEvents)

theorem Kept.execEvrTimeSet (h : Kept s0 s) : KeptRes s0 (Machine.execEvrTimeSet s) := by
  unfold Machine.execEvrTimeSet
  exact .onComplex h (.next (.postEvent h.frame))

theorem Kept.execEvrPost {code : BitVec 12} (h : Kept s0 s) : KeptRes s0 (Machine.execEvrPost code s) := by
  unfold Machine.execEvrPost
  exact .onComplex h (.next h.postEvent)

theorem Kept.zeroWords {p : PageId} {off n : Nat} (h : Kept s0 s) : Kept s0 (Machine.zeroWords s p off n) := by
  unfold Machine.zeroWords
  exact .foldl h (fun _ _ h1 => h1.setReg)

theorem Kept.zeroCounter {r c : Nat} (h : Kept s0 s) : Kept s0 (Machine.zeroCounter s r c) := by
  unfold Machine.zeroCounter
  exact .setFld h.setFld

/-- A judged access leaves the state as it was, but for the fault that refuses it. -/
def KeptReach (s0 : State) : Except State State → Prop
  | .error t => Kept s0 t
  | .ok t => Kept s0 t

theorem Kept.judge {x : Master} {k : AccessKind} {a n : Nat} (h : Kept s0 s) :
    KeptReach s0 (Machine.pageReach.judge s x k a n) := by
  unfold Machine.pageReach.judge
  split
  next e => exact h.mpuRange.get e
  next e => exact h.mpuRange.get e

theorem Kept.pageReach {x : Master} {k : AccessKind} {p : Option PageId} {a n : Nat} (h : Kept s0 s) :
    KeptReach s0 (Machine.pageReach s x k p a n) := by
  unfold Machine.pageReach
  split
  · exact .bumpSat (.setIrq h.accessErr)
  · split
    · split
      · exact h.judge
      · exact .ite h.accessErr h
    · exact h.judge

theorem Kept.pmcWrite {x : Master} {r off : Nat} {f : State → State} (h : Kept s0 s)
    (hf : ∀ s, Kept s0 s → Kept s0 (f s)) : KeptRes s0 (Machine.pmcWrite s x r off f) := by
  unfold Machine.pmcWrite
  refine .ite (.next h) ?_
  have hr := h.pageReach (x := x) (k := .write) (p := some (.pmc r)) (a := pageBase (.pmc r) + off) (n := 4)
  split
  next e =>
    rw [e] at hr
    exact .next hr
  next e =>
    rw [e] at hr
    exact .next (hf _ hr)

theorem Kept.execPmcZero {x : Master} {r : Nat} (h : Kept s0 s) : KeptRes s0 (Machine.execPmcZero x r s) := by
  unfold Machine.execPmcZero
  exact .pmcWrite h (fun _ h3 => .zeroWords (.zeroWords (.setFld (.setFld (.foldl h3
    (fun _ _ h7 => h7.zeroCounter))))))

theorem Kept.execPmcFreeze {x : Master} {r : Nat} {on : Bool} (h : Kept s0 s) :
    KeptRes s0 (Machine.execPmcFreeze x r on s) := by
  unfold Machine.execPmcFreeze
  exact .pmcWrite h (fun _ h1 => h1.setFlag)

theorem Kept.execPmcHistClr {x : Master} {r : Nat} {groups : Cell} (h : Kept s0 s) :
    KeptRes s0 (Machine.execPmcHistClr x r groups s) := by
  unfold Machine.execPmcHistClr
  exact .pmcWrite h (fun _ h1 => .foldl h1 (fun _ _ h3 => .ite h3.zeroWords h3))

theorem Kept.execPmcCounterWrap {r c : Nat} (h : Kept s0 s) : KeptRes s0 (Machine.execPmcCounterWrap r c s) := by
  unfold Machine.execPmcCounterWrap
  exact .ite (.next h) (.next h.pmcAdd)

theorem Kept.execPmcCounterUncorrectable {r c : Nat} (h : Kept s0 s) :
    KeptRes s0 (Machine.execPmcCounterUncorrectable r c s) := by
  unfold Machine.execPmcCounterUncorrectable
  exact .ite (.next h) (.next (.setFlag (.zeroCounter (.raiseErr h.bumpSat))))

/-! ### RegWrite -/

theorem Kept.writeRow {p : PageId} {off : Nat} {v : Word} {d : FieldDef} (h : Kept s0 s) :
    Kept s0 (Machine.writeRow p off v s d) := by
  unfold Machine.writeRow
  extract_lets _
  refine .ite h ?_
  split
  · exact h.setFld
  · exact h.setFld
  · exact h

theorem Kept.writeTenant {t' off : Nat} {v : Word} (h : Kept s0 s) : Kept s0 (Machine.writeTenant s t' off v) := by
  unfold Machine.writeTenant
  extract_lets _
  split
  · exact .ite h.setTenant h
  · exact h.setFld
  · exact h.setTenant
  · exact h.setTenant
  · exact h.setTenant
  · exact h.setTenant
  · exact h.setTenant
  · exact h.setTenant
  · exact h.setTenant
  · exact .ite h.setTenant h.accessErr
  · exact h.setTenant
  · exact h

theorem Kept.writeExt {off : Nat} {v : Word} (h : Kept s0 s) : Kept s0 (Machine.writeExt s off v) := by
  unfold Machine.writeExt
  exact .ite h (.ite h.setTenant h.setTenant)

theorem Kept.writeRows {p : PageId} {off : Nat} {v : Word} (h : Kept s0 s) :
    Kept s0 (Machine.writeRows s p off v) := by
  unfold Machine.writeRows
  exact .foldl h (fun _ _ h3 => h3.writeRow)

theorem Kept.writeHook {p : PageId} {off : Nat} (h : Kept s0 s) : Kept s0 (Machine.writeHook s p off) := by
  unfold Machine.writeHook
  split
  · exact .ite h.accessErr h
  · exact .ite h.frame h
  · exact .ite h.rebaseCurves h
  · exact .ite h.refreshSource h
  · exact h

theorem Kept.writePage {p : PageId} {off : Nat} {v : Word} (h : Kept s0 s) :
    Kept s0 (Machine.writePage s p off v) := by
  unfold Machine.writePage
  refine .ite h ?_
  refine .ite ?_ (.ite h.frame (.ite (.ite h h.writeExt) (.ite h (.ite h.accessErr (.ite h.accessErr (.writeHook
    (.writeRows (.ite h.accessErr h))))))))
  split
  · exact h.writeTenant
  · exact h

theorem Kept.malformed {a : Nat} (h : Kept s0 s) : Kept s0 (Machine.malformed s a) := by
  unfold Machine.malformed
  split
  · exact .ite h.accessErr h
  · exact h

theorem Kept.masterPage {x : Master} {p : PageId} {off : Nat} {v : Word} (h : Kept s0 s) :
    Kept s0 (Machine.masterPage s x p off v) := by
  unfold Machine.masterPage
  split
  · exact h
  · exact h
  · exact h
  · extract_lets s3
    have h3 : Kept s0 s3 := .ite h.touch h
    exact .ite h3.writePage h3

theorem Kept.masterMemory {a : Nat} {b : Bytes} (h : Kept s0 s) : Kept s0 (Machine.masterMemory s a b) := by
  unfold Machine.masterMemory
  exact .ite (.ite h.accessErr (.ite (.physWrite h.touch) h.touch)) h.physWrite

theorem Kept.writeWords {x : Master} {a : Nat} {l : List Word} (h : Kept s0 s) :
    Kept s0 (Machine.writeWords s x a l) := by
  induction l generalizing s a with
  | nil => exact h
  | cons v l ih =>
    refine ih ?_
    split
    · exact h.masterPage
    · exact h

theorem Kept.execRegisterWrite {x : Master} {a : Nat} {v : Word} {hi : Option Word} (h : Kept s0 s) :
    KeptRes s0 (Machine.execRegisterWrite x a v hi s) := by
  unfold Machine.execRegisterWrite
  refine .ite (.next h) ?_
  have hr := h.pageReach (x := x) (k := .write) (p := pageOfAddr a) (a := a) (n := 4 * (v :: hi.toList).length)
  split
  next e =>
    rw [e] at hr
    exact .next hr
  next e =>
    rw [e] at hr
    have h1 : Kept s0 _ := hr
    exact .ite (.next h1.masterMemory) (.ite (.ite (.next h1.malformed) (.next h1.writeWords)) .fault)

theorem Kept.execMalformedAccess {x : Master} {a : Nat} (h : Kept s0 s) :
    KeptRes s0 (Machine.execMalformedAccess x a s) := by
  unfold Machine.execMalformedAccess
  refine .ite (.next h) ?_
  have hr := h.pageReach (x := x) (k := .read) (p := pageOfAddr a) (a := a) (n := 1)
  split
  next e =>
    rw [e] at hr
    exact .next hr
  next e =>
    rw [e] at hr
    exact .next (Kept.malformed hr)

theorem Kept.execErrWrite {p : PageId} {v : Word} (h : Kept s0 s) : KeptRes s0 (Machine.execErrWrite p v s) := by
  unfold Machine.execErrWrite
  exact .onComplex h (.ite (.next h) (.next h.setReg))

theorem Kept.execErrinj {p : PageId} {v : Word} (h : Kept s0 s) : KeptRes s0 (Machine.execErrinj p v s) := by
  unfold Machine.execErrinj
  exact .onComplex h (.ite (.next h) (.next h.setAux))

theorem Kept.execLock {p : PageId} (h : Kept s0 s) : KeptRes s0 (Machine.execLock p s) := by
  unfold Machine.execLock
  exact .onComplex h (.next (.ite h.setFlag h))

/-! ### Tenants -/

theorem Kept.squashTenant {t' : Nat} (h : Kept s0 s) : Kept s0 (Machine.squashTenant s t') := by
  unfold Machine.squashTenant
  exact .foldl (.endItems h.setTenant) (fun _ _ h7 => h7.dropTimers)

theorem Kept.startReset {t' : Nat} {release : Bool} (h : Kept s0 s) : Kept s0 (Machine.startReset s t' release) := by
  unfold Machine.startReset
  exact .ite (.squashTenant h.setTenant) h.setTenant

theorem Kept.wipeTenant {t' : Nat} (h : Kept s0 s) : Kept s0 (Machine.wipeTenant s t') := by
  unfold Machine.wipeTenant
  extract_lets _ _ _ s1 _ _
  have h1 : Kept s0 s1 := .foldl (.foldl h.setTenant (fun _ _ h2 => h2.ctxWipeNow)) (fun _ _ h3 => h3.closeSession)
  exact .foldl (.foldl h1.frame (fun _ _ h4 => h4.setHost)) (fun _ _ h5 => .mirrorBrake h5.frame)

theorem Kept.releaseTenant {t' : Nat} (h : Kept s0 s) : Kept s0 (Machine.releaseTenant s t') := by
  unfold Machine.releaseTenant
  extract_lets _ s1 _ _ _ _ _
  have h1 : Kept s0 s1 := .foldl (.foldl h (fun _ _ h2 => .ite h2.fellTmk h2)) (fun _ _ h3 => h3.freeRec)
  exact .setTenant (.setSi (.foldl h1.frame (fun _ _ h4 => h4.putCurve)))

theorem Kept.completeReset {t' : Nat} (h : Kept s0 s) : Kept s0 (Machine.completeReset s t') := by
  unfold Machine.completeReset
  extract_lets _ _ s1
  have h1 : Kept s0 s1 := .postEvent (.setIrq h.setTenant)
  exact .ite h1.releaseTenant (.ite h1.armHeartbeat h1)

theorem Kept.execTenantReset {core : Nat} (h : Kept s0 s) : KeptRes s0 (Machine.execTenantReset core s) := by
  unfold Machine.execTenantReset
  refine .hostRun h fun _ _ h1 => ?_
  refine .ite h1.answerStatus ?_
  split
  · exact h1.answerStatus
  · exact .ite h1.answerStatus (.ite h1.answerStatus (.ite h1.answerStatus (.answerCommit h1.startReset)))

theorem Kept.execTenantResetDrainEnd {t' : Nat} (h : Kept s0 s) :
    KeptRes s0 (Machine.execTenantResetDrainEnd t' s) := by
  unfold Machine.execTenantResetDrainEnd
  exact .ite (.next h) (.ite (.next h.squashTenant) (.next (.squashTenant h.advanceTo)))

theorem Kept.execTenantResetSquashDone {t' : Nat} (h : Kept s0 s) :
    KeptRes s0 (Machine.execTenantResetSquashDone t' s) := by
  unfold Machine.execTenantResetSquashDone
  exact .ite (.next h) (.next h.wipeTenant)

theorem Kept.execTenantResetComplete {t' : Nat} (h : Kept s0 s) :
    KeptRes s0 (Machine.execTenantResetComplete t' s) := by
  unfold Machine.execTenantResetComplete
  exact .ite (.next h) (.next h.completeReset)

theorem Kept.tenStatus {st : Nat} (h : Kept s0 s) : Kept s0 (Machine.tenStatus s st) := by
  unfold Machine.tenStatus
  exact h.setFld

theorem Kept.tenRefused {st : Nat} (h : Kept s0 s) : Kept s0 (Machine.tenRefused s st) := by
  unfold Machine.tenRefused
  exact .raiseErr h.tenStatus

theorem Kept.tenOp {state : Nat} {f : State → Nat → State} (h : Kept s0 s)
    (hf : ∀ x0 x1, Kept s0 x0 → Kept s0 (f x0 x1)) :
    KeptRes s0 (Machine.tenOp s state f) := by
  unfold Machine.tenOp
  exact .ite (.next h.tenRefused) (.ite (.next h.tenRefused) (.next (hf _ _ h)))

theorem Kept.execTenCreate (h : Kept s0 s) : KeptRes s0 (Machine.execTenCreate s) := by
  unfold Machine.execTenCreate
  exact .onComplex h (.tenOp h (fun _ _ h1 => .tenStatus (.ite (.armHeartbeat (.setSi h1.setTenant))
    (.setSi h1.setTenant))))

theorem Kept.execTenReset (h : Kept s0 s) : KeptRes s0 (Machine.execTenReset s) := by
  unfold Machine.execTenReset
  exact .onComplex h (.tenOp h (fun _ _ h1 => .tenStatus h1.startReset))

theorem Kept.execTenRelease (h : Kept s0 s) : KeptRes s0 (Machine.execTenRelease s) := by
  unfold Machine.execTenRelease
  exact .onComplex h (.tenOp h (fun _ _ h1 => .tenStatus h1.startReset))

theorem Kept.execTenBind (h : Kept s0 s) : KeptRes s0 (Machine.execTenBind s) := by
  unfold Machine.execTenBind
  exact .onComplex h (.tenOp h (fun _ _ h1 => .ite (.accessErr h1.tenStatus) (.tenStatus h1.setTenant)))

theorem Kept.execTenUnbind (h : Kept s0 s) : KeptRes s0 (Machine.execTenUnbind s) := by
  unfold Machine.execTenUnbind
  exact .onComplex h (.tenOp h (fun _ _ h1 => .tenStatus h1.setTenant))

theorem Kept.execTenDoorbell {user : Option (Cell)} (h : Kept s0 s) :
    KeptRes s0 (Machine.execTenDoorbell user s) := by
  unfold Machine.execTenDoorbell
  refine .onComplex h ?_
  split
  · exact .next (.setIrq h.setFlag)
  · exact .next h

/-! ### Units -/

theorem Kept.cipherJobDone {r k : Nat} (h : Kept s0 s) : KeptRes s0 (Machine.cipherJobDone r k s) := by
  unfold Machine.cipherJobDone
  extract_lets _
  split
  · exact .next (.ite h.endSeal h)
  · exact .next h
  · exact .ite (.next h) (.ite (.ite (.next (.endJob (.ite h.jobWrite h))) (.next (.endJob (.writeArea
      (.ite h.jobWrite h))))) (.next h))

theorem Kept.execCipherJobDone {r k : Nat} (h : Kept s0 s) : KeptRes s0 (Machine.execCipherJobDone r k s) := by
  unfold Machine.execCipherJobDone
  exact .cipherJobDone h.touchIf

theorem Kept.hashJobDone {r k : Nat} (h : Kept s0 s) : KeptRes s0 (Machine.hashJobDone r k s) := by
  unfold Machine.hashJobDone
  extract_lets _
  split
  · exact .next h
  · exact .ite (.ite (.next (.endJob h.writeArea)) (.ite (.next h.endJob) (.next (.endJob (.ite h.jobWrite h)))))
      (.next h)

theorem Kept.execHashJobDone {r k : Nat} (h : Kept s0 s) : KeptRes s0 (Machine.execHashJobDone r k s) := by
  unfold Machine.execHashJobDone
  exact .hashJobDone h.touchIf

theorem Kept.workItemDispatch {core : Nat} (h : Kept s0 s) : KeptRes s0 (Machine.workItemDispatch core s) := by
  unfold Machine.workItemDispatch
  refine .ite (.next h) ?_
  extract_lets _
  split
  · exact .next (.startItem h.fillPrefetch)
  · exact .next h.fillPrefetch

theorem Kept.execWorkItemDispatch {core : Nat} (h : Kept s0 s) :
    KeptRes s0 (Machine.execWorkItemDispatch core s) := by
  unfold Machine.execWorkItemDispatch
  exact .workItemDispatch (.touchIf h.touchIf)

theorem Kept.drbgGenerate {r : Nat} (h : Kept s0 s) : KeptRes s0 (Machine.drbgGenerate r s) := by
  unfold Machine.drbgGenerate
  extract_lets _ _ _
  refine .ite (.next h) ?_
  split
  · extract_lets _ _ s1 _ _ s2 _
    have h1 : Kept s0 s1 := .setFld (.setFld h.setBoom)
    have h2 : Kept s0 s2 := .ite (.postEvent (.setIrq (.setFlag h1.setFld))) h1.setFld
    exact .next (.ite (.postEvent (.setIrq h2.setFlag)) h2)

theorem Kept.execDrbgGenerateRequest {r : Nat} (h : Kept s0 s) :
    KeptRes s0 (Machine.execDrbgGenerateRequest r s) := by
  unfold Machine.execDrbgGenerateRequest
  exact .drbgGenerate h.touchIf

theorem Kept.conditionedBlock (h : Kept s0 s) : KeptRes s0 (Machine.conditionedBlock s) := by
  unfold Machine.conditionedBlock
  exact .ite (.next h) (.next (.setSeedQ h.takeFresh))

theorem Kept.execConditionedBlockRelease (h : Kept s0 s) : KeptRes s0 (Machine.execConditionedBlockRelease s) := by
  unfold Machine.execConditionedBlockRelease
  exact .conditionedBlock h.touchIf

theorem Kept.prefixLookupDone (h : Kept s0 s) : KeptRes s0 (Machine.prefixLookupDone s) := by
  unfold Machine.prefixLookupDone
  split
  · exact .next h
  · extract_lets _ s9
    have h9 : Kept s0 s9 := by
      unfold s9
      split
      · exact .triFault h.frame
      · exact .ite (.triCount h.frame) h.frame
    exact .next h9.complete

theorem Kept.execPrefixLookupDone (h : Kept s0 s) : KeptRes s0 (Machine.execPrefixLookupDone s) := by
  unfold Machine.execPrefixLookupDone
  refine .prefixLookupDone ?_
  split
  · exact h.touch
  · exact h

theorem Kept.eventRecordWrite (h : Kept s0 s) : KeptRes s0 (Machine.eventRecordWrite s) := by
  unfold Machine.eventRecordWrite
  refine .ite (.next h) ?_
  refine .ite (.next (.writeEvent h.frame)) ?_
  split
  · exact .next (.writeEvent h.frame)
  · exact .next h

theorem Kept.execEventRecordWrite (h : Kept s0 s) : KeptRes s0 (Machine.execEventRecordWrite s) := by
  unfold Machine.execEventRecordWrite
  exact .eventRecordWrite h.touchIf

/-! ### Dispatch -/

theorem Kept.exec {i : Instr} (h : Kept s0 s) : KeptRes s0 (Machine.exec i s) := by
  unfold Machine.exec
  split
  · exact h.execSingleBitError
  · exact h.execBlockUncorrectableError
  · exact h.execSpareAdmissionDone
  · exact h.execRegionFatalError
  · exact h.execChipLevelFault
  · exact h.execCruiseTest
  · exact h.execSramRepairApply
  · exact h.execBlockEnable
  · exact h.execBlockDisable
  · exact h.execDrainReq
  · exact h.execSquashReq
  · exact h.execStartupSettled
  · exact h.execDrainComplete
  · exact h.execDrainTimeout
  · exact h.execErrWrite
  · exact h.execErrinj
  · exact h.execLock
  · exact h.execMalformedAccess
  · exact h.execRegisterWrite
  · exact h.execFrameReceived
  · exact h.execXoffRepeat
  · exact h.execPauseReceived
  · exact h.execTxholdTimeout
  · exact h.execTrainingTimeout
  · exact h.execBlockLockAcquired
  · exact h.execLinkDown
  · exact h.execResponseTransmitDone
  · exact h.execBrakeSet
  · exact h.execBrakeRelease
  · exact h.execBrakeFilterPropagated
  · exact h.execClsControlParity
  · exact h.execBrakeMirrorReloaded
  · exact h.execFenceAssert
  · exact h.execFenceDeassert
  · exact h.execHostEntryAgeOut
  · exact h.execHtbReadEntry
  · exact h.execHtbWriteStatic
  · exact h.execHtbDeleteEntry
  · exact h.execMgtFrameReceived
  · exact h.execMgtLinkUp
  · exact h.execMdioWrite
  · exact h.execMdioRead
  · exact h.execMdioDone
  · exact h.execMdioTimeout
  · exact h.execRomReport
  · exact h.execRomLcsRequest
  · exact h.execTagVerifyDone
  · exact h.execEarlyEndTagVerify
  · exact h.execEarlyEndVerifyTimeout
  · exact h.execSessionHello
  · exact h.execSessionFinish
  · exact h.execSessionClose
  · exact h.execSessionRekey
  · exact h.execRekeyPredecessorClose
  · exact h.execEcho
  · exact h.execCodepageLoad
  · exact h.execDeadlineExpiry
  · exact h.execPinTranslate
  · exact h.execPinVerifyOffset
  · exact h.execPinVerifyPvv
  · exact h.execPinGenOffset
  · exact h.execPinGenPvv
  · exact h.execMacGenerate
  · exact h.execMacVerify
  · exact h.execArqcVerify
  · exact h.execArqcVerifyArpc
  · exact h.execArpcGenerate
  · exact h.execArqcGenerate
  · exact h.execDukptPinTranslate
  · exact h.execDukptMacVerify
  · exact h.execDukptDecrypt
  · exact h.execDukptTxnKey
  · exact h.execDukptInit
  · exact h.execKeyImport
  · exact h.execKeyExport
  · exact h.execKeyGenerate
  · exact h.execKeyCheckValue
  · exact h.execKeyDelete
  · exact h.execKeyTranslate
  · exact h.execTokenise
  · exact h.execDetokenise
  · exact h.execTokeniseCounted
  · exact h.execDataEncrypt
  · exact h.execDataDecrypt
  · exact h.execCscGenerate
  · exact h.execCscVerify
  · exact h.execSiAuthorise
  · exact h.execSiIssuerState
  · exact h.execSiHeartbeat
  · exact h.execSiJournalRead
  · exact h.execSiJournalRelease
  · exact h.execSiRulesLoad
  · exact h.execSiCardUpdate
  · exact h.execHeartbeatExpiry
  · exact h.execHeartbeatRearm
  · exact h.execTriLockSet
  · exact h.execTriLockCopyDone
  · exact h.execTriLockHoldRelease
  · exact h.execTriLockClr
  · exact h.execTriCommit
  · exact h.execTriNodeWrite
  · exact h.execTriDmaGo
  · exact h.execTriDmaDone
  · exact h.execPrefixLookupDone
  · exact h.execAuthSet
  · exact h.execCustodianSet
  · exact h.execTmkGenerate
  · exact h.execTmkLoad
  · exact h.execTmkInvalidate
  · exact h.execTmkSelect
  · exact h.execCredLoad
  · exact h.execCredDelete
  · exact h.execFirmwareMigrate
  · exact h.execMigrateCancel
  · exact h.execMigrationRewrapDone
  · exact h.execMigConfirm
  · exact h.execMigrationConfirmDone
  · exact h.execKeyCacheRemask
  · exact h.execBbramRemask
  · exact h.execNvmBankRemask
  · exact h.execVaultMaskReseed
  · exact h.execWriteAllowanceRefill
  · exact h.execVaultStartup
  · exact h.execMeasWrite
  · exact h.execMeasSeal
  · exact h.execVltSeal
  · exact h.execVltInfo
  · exact h.execVaultDebugAccess
  · exact h.execDevAttest
  · exact h.execCipherJobBind
  · exact h.execCipherJobDone
  · exact h.execDiscardZeroiseDone
  · exact h.execHashJobBind
  · exact h.execHashJobDone
  · exact h.execLaneStartupVectorsDone
  · exact h.execCphTestRun
  · exact h.execHshTestRun
  · exact h.execEngineJobBind
  · exact h.execEngineJobDone
  · exact h.execEngineStartupVectorsDone
  · exact h.execPkeTestRun
  · exact h.execMicrocodeLoad
  · exact h.execMicrocodeLoadDone
  · exact h.execPkSign
  · exact h.execPkVerify
  · exact h.execPkEcdh
  · exact h.execPkKeygen
  · exact h.execPkRsaDecrypt
  · exact h.execPkCurveLoad
  · exact h.execLdgCalc
  · exact h.execLdgAccrue
  · exact h.execLdgPost
  · exact h.execOscillatorHealthFail
  · exact h.execConditionedBlockRelease
  · exact h.execDrbgGenerateRequest
  · exact h.execDrbgReseed
  · exact h.execSourceStartupDone
  · exact h.execExpanderInstantiated
  · exact h.execRngRawEnable
  · exact h.execRngRawArm
  · exact h.execRngRawFull
  · exact h.execRngRawPermit
  · exact h.execWorkItemDispatch
  · exact h.execNop
  · exact h.execDup
  · exact h.execDrop
  · exact h.execSwap
  · exact h.execOver
  · exact h.execRot
  · exact h.execNip
  · exact h.execTuck
  · exact h.execDup2
  · exact h.execDrop2
  · exact h.execSwap2
  · exact h.execPick
  · exact h.execDepth
  · exact h.execAdd
  · exact h.execSub
  · exact h.execAdc
  · exact h.execSbc
  · exact h.execAnd
  · exact h.execOr
  · exact h.execXor
  · exact h.execNot
  · exact h.execNeg
  · exact h.execAbs
  · exact h.execMul
  · exact h.execMuls
  · exact h.execDiv
  · exact h.execDivs
  · exact h.execAdd32
  · exact h.execSub32
  · exact h.execInc
  · exact h.execDec
  · exact h.execAddi
  · exact h.execShl
  · exact h.execShr
  · exact h.execSar
  · exact h.execRol
  · exact h.execRor
  · exact h.execShl32
  · exact h.execShr32
  · exact h.execShli
  · exact h.execShri
  · exact h.execSari
  · exact h.execRoli
  · exact h.execBfx
  · exact h.execBfxs
  · exact h.execBfi
  · exact h.execClz
  · exact h.execCtz
  · exact h.execPopc
  · exact h.execBperm
  · exact h.execEq
  · exact h.execNe
  · exact h.execLtu
  · exact h.execGeu
  · exact h.execGtu
  · exact h.execLeu
  · exact h.execLt
  · exact h.execGe
  · exact h.execGt
  · exact h.execLe
  · exact h.execEqz
  · exact h.execNez
  · exact h.execLtz
  · exact h.execGez
  · exact h.execBit
  · exact h.execPc
  · exact h.execPv
  · exact h.execPdz
  · exact h.execPredAnd
  · exact h.execPredOr
  · exact h.execPredXor
  · exact h.execPredMov
  · exact h.execLit8
  · exact h.execLit16
  · exact h.execLd
  · exact h.execSt
  · exact h.execLdb
  · exact h.execStb
  · exact h.execLd32
  · exact h.execSt32
  · exact h.execLdp
  · exact h.execStp
  · exact h.execCopy
  · exact h.execZero
  · exact h.execLdw
  · exact h.execStw
  · exact h.execLdc
  · exact h.execBr
  · exact h.execCall
  · exact h.execJmp
  · exact h.execLoop
  · exact h.execRet
  · exact h.execCalls
  · exact h.execJmps
  · exact h.execTor
  · exact h.execFromr
  · exact h.execCopyr
  · exact h.execRdrop
  · exact h.execRdepth
  · exact h.execSendCipher
  · exact h.execSendHash
  · exact h.execSendEngine
  · exact h.execSendLookup
  · exact h.execSendVault
  · exact h.execCtxDraw
  · exact h.execCtxFetch
  · exact h.execCtxCreate
  · exact h.execCtxDelete
  · exact h.execTimerSubmit
  · exact h.execTimerExpire
  · exact h.execTimerHeartbeat
  · exact h.execTimerCancel
  · exact h.execWait
  · exact h.execGetw
  · exact h.execRels
  · exact h.execResv
  · exact h.execRand
  · exact h.execDone
  · exact h.execYield
  · exact h.execSleep
  · exact h.execTrap
  · exact h.execCsrget
  · exact h.execCsrput
  · exact h.execSleepWake
  · exact h.execDelayTimerFire
  · exact h.execContextExpiry
  · exact h.execContextWindowWrite
  · exact h.execSubmissionDoorbell
  · exact h.execSubmissionAccept
  · exact h.execProgramLoad
  · exact h.execProgramLoadDone
  · exact h.execCtxOpCreate
  · exact h.execCtxOpDelete
  · exact h.execTenantReset
  · exact h.execTenantResetDrainEnd
  · exact h.execTenantResetSquashDone
  · exact h.execTenantResetComplete
  · exact h.execTenCreate
  · exact h.execTenReset
  · exact h.execTenRelease
  · exact h.execTenBind
  · exact h.execTenUnbind
  · exact h.execTenDoorbell
  · exact h.execMpuEntryWrite
  · exact h.execMpuParityError
  · exact h.execPairLinkUp
  · exact h.execPairLinkDown
  · exact h.execPairJoinTimeout
  · exact h.execFullCopyDone
  · exact h.execPairHeartbeatLost
  · exact h.execPairHeartbeatPresent
  · exact h.execEpochClose
  · exact h.execDeltaReceived
  · exact h.execDeltaAckReceived
  · exact h.execStandbyTimeout
  · exact h.execPartnerPromotedMsg
  · exact h.execPartnerWithdrawMsg
  · exact h.execPairSwitch
  · exact h.execSwitchDrainTimeout
  · exact h.execPairPromote
  · exact h.execAbandonState
  · exact h.execParUncorrectableError
  · exact h.execTamperTrip
  · exact h.execMonitorRearm
  · exact h.execRailFall
  · exact h.execRailFallWindowEnd
  · exact h.execStimulusTestPeriod
  · exact h.execTmpTestRun
  · exact h.execStimulusWindowClose
  · exact h.execBlazeLogNvmWriteDone
  · exact h.execTmpRespWrite
  · exact h.execTmpCfgWrite
  · exact h.execTmpLogRead
  · exact h.execBatteryDomainError
  · exact h.execDevStatus
  · exact h.execDevUnlock
  · exact h.execLcsArm
  · exact h.execLcsProgramDone
  · exact h.execExtest
  · exact h.execIdcode
  · exact h.execSamplePreload
  · exact h.execDtmcs
  · exact h.execDmi
  · exact h.execBypass
  · exact h.execEventRecordWrite
  · exact h.execEvrFreeze
  · exact h.execEvrFreezeTimeout
  · exact h.execEvrClear
  · exact h.execEvrTimeSet
  · exact h.execEvrPost
  · exact h.execPmcZero
  · exact h.execPmcFreeze
  · exact h.execPmcHistClr
  · exact h.execPmcCounterWrap
  · exact h.execPowerOn
  · exact h.execResetN
  · exact h.execRstCmd
  · exact h.execWatchdogHalf
  · exact h.execWatchdogExpiry
  · exact h.execRstWdtKick
  · exact h.execBootFailure
  · exact h.execRomStart
  · exact h.execRstReady
  · exact h.execBflTransfer
  · exact h.execBflTransferDone
  · exact h.execBflCommand
  · exact h.execHbmTrainingDone
  · exact h.execHbmInitDone
  · exact h.execHbmScrubPass
  · exact h.execHbmTempThreshold
  · exact h.execSerdesPllLockLoss
  · exact h.execDieTempAlarm
  · exact h.execI2cRead
  · exact h.execMgtLinkDown
  · exact h.execPauseQuantaExpiry
  · exact h.execPairLaneBlockLock
  · exact h.execRoleMessageReceived
  · exact h.execRailReturn
  · exact h.execIllegalInstruction
  · exact h.execTmpLogicParity
  · exact h.execPmcCounterUncorrectable
  · exact h.execCounterWriteRefill
  · exact h.execCellInserted
  · exact h.execVholdCharged
  · exact h.execHoldUpExhausted

/-! ### Step -/

theorem Kept.idle (h : Kept s0 s) : Kept s0 (Machine.idle s) := by
  unfold Machine.idle
  exact h.advance

end

/-- A step on a queue: what it keeps, it keeps of the state whose queue has lost its front. -/
theorem Kept.step {s t : State} (h : Machine.step s = .next t) : Kept { s with pending := s.pending.tail } t := by
  unfold Machine.step at h
  split at h
  next he =>
    cases h
    have h0 : Kept { s with pending := s.pending.tail } s :=
      Kept.of_canonical (.refl _) (by rw [he]; rfl) rfl id
    exact h0.idle
  next i rest he =>
    have h0 : Kept { s with pending := s.pending.tail } { s with pending := rest } :=
      Kept.of_canonical (.refl _) (by rw [he]; rfl) rfl id
    exact h0.exec t h

/-- Settles O59: the canonical part of what every step keeps. -/
theorem stepKeepsTheTablesCanonical : Obligations.StepKeepsTheTablesCanonical := by
  unfold Obligations.StepKeepsTheTablesCanonical
  exact fun s t hs h => (Kept.step h).canonical hs

/-- Settles O60: the fuses and the queue in what every step keeps. -/
theorem stepKeepsTheFusedIdentityAndTheQueue : Obligations.StepKeepsTheFusedIdentityAndTheQueue := by
  unfold Obligations.StepKeepsTheFusedIdentityAndTheQueue
  intro s t h
  obtain ⟨hpending, ⟨hvariant, hdevid, hstep, hmac, huds, hcert, htokens, hslots⟩, -⟩ := Kept.step h
  exact ⟨hpending, hvariant, hdevid, hstep, hmac, huds, hcert, htokens, hslots⟩

end Sys2Proof.Machine

/-! # The maps of the state: what is read after a write -/

namespace Sys2Proof.Machine

/-- What does not look at the registers is the same where the registers alone differ. -/
theorem OnlyRegs.proj {α : Type} {s t : State} (h : OnlyRegs s t) (f : State → α)
    (hf : ∀ g, f { s with regs := g } = f s) : f t = f s := by
  rw [h.1]
  exact hf _

theorem oget_oset_some {α : Type} [DecidableEq α] (m : SMap (Option α)) (k : Nat) (v : α) :
    oget (oset m k (some v)) k = some v := mget_mset_of_ne _ m k _ (by simp)

theorem oget_oset_other {α : Type} [DecidableEq α] (m : SMap (Option α)) {k j : Nat} (v : Option α) (h : j ≠ k) :
    oget (oset m k v) j = oget m j := mget_mset_other _ m k j v h

theorem lget_lset {α : Type} [DecidableEq α] (m : SMap (List α)) (k : Nat) {v : List α} (h : v ≠ []) :
    lget (lset m k v) k = v := mget_mset_of_ne _ m k v h

theorem lget_lset_other {α : Type} [DecidableEq α] (m : SMap (List α)) {k j : Nat} (v : List α) (h : j ≠ k) :
    lget (lset m k v) j = lget m j := mget_mset_other _ m k j v h

end Sys2Proof.Machine

/-! # Admission of a work item (R64, R65, R447) -/

namespace Sys2Proof.Machine

/-- The items and ready levels of `t` are those of `s`, and so is the next stamp. -/
def SameItems (s t : State) : Prop := t.items = s.items ∧ t.nextItem = s.nextItem ∧ t.ready = s.ready

theorem pmcEvent_sameItems (s : State) (r code : Nat) (tenant : Option Nat) (n : Nat) :
    SameItems s (pmcEvent s r code tenant n) := by
  have h := pmcEvent_onlyRegs s r code tenant n
  exact ⟨h.proj State.items fun _ => rfl, h.proj State.nextItem fun _ => rfl, h.proj State.ready fun _ => rfl⟩

theorem boomDraw_sameItems (s : State) (r n : Nat) (tenant : Option Nat) : SameItems s (boomDraw s r n tenant).2 := by
  unfold boomDraw
  split
  · dsimp only
    split
    · exact pmcEvent_sameItems (setIrq (s.setBoom r _) _ _) _ _ _ _
    · exact pmcEvent_sameItems (s.setBoom r _) _ _ _ _
  · exact pmcEvent_sameItems (s.bump _ _) _ _ _ _

theorem tagDraw_sameItems (s : State) (r : Nat) : SameItems s (tagDraw s r).2 := by
  unfold tagDraw
  split
  · exact ⟨rfl, rfl, rfl⟩
  · split
    · exact ⟨rfl, rfl, rfl⟩
    · split
      · exact boomDraw_sameItems s r 1 none
      · exact ⟨rfl, rfl, rfl⟩

/-- Tagging gives an item at most its time stamps. -/
theorem tagItem_item (s : State) (i : Item) : (tagItem s i).1 = { i with stamps := (tagItem s i).1.stamps } := by
  unfold tagItem
  dsimp only
  split
  · rfl
  · split
    · rfl
    · split <;> rfl

theorem tagItem_sameItems (s : State) (i : Item) : SameItems s (tagItem s i).2 := by
  unfold tagItem
  dsimp only
  have h := tagDraw_sameItems s i.ingress
  split
  · exact ⟨rfl, rfl, rfl⟩
  · split
    · exact h
    · split
      · exact h
      · exact h

/-- Where tagging is off an item enters as it is. -/
theorem tagItem_of_off {s : State} {i : Item} (h : s.flag (.pmc i.ingress) PMC_TAG_EN = false) :
    tagItem s i = (i, s) := by
  unfold tagItem
  rw [if_pos (.inr h)]

/-- Admission of the item that tagging gives. -/
theorem admitItem_eq (s : State) (i : Item) :
    ∃ u, SameItems s u ∧ admitItem s i =
      let m := (tagItem s { i with stamp := s.nextItem, place := .ready }).1
      pmcEvent ((State.setItem { u with nextItem := u.nextItem + 1 } s.nextItem (some m)).setReady i.region i.level
        (u.readyList i.region i.level ++ [s.nextItem])) i.region 0x03 (some i.tenant) := by
  refine ⟨_, tagItem_sameItems s { i with stamp := s.nextItem, place := .ready }, ?_⟩
  have hm := tagItem_item s { i with stamp := s.nextItem, place := .ready }
  unfold admitItem
  dsimp only
  rw [hm]
  rfl

/-- Settles O25, from what tagging keeps and the maps of items and ready levels. -/
theorem admittedItemJoinsTheTailOfItsLevel : Obligations.AdmittedItemJoinsTheTailOfItsLevel := by
  unfold Obligations.AdmittedItemJoinsTheTailOfItsLevel
  intro s i j
  obtain ⟨u, ⟨hitems, hnext, hready⟩, h⟩ := admitItem_eq s i
  obtain ⟨hitems', hnext', hready'⟩ := h ▸ pmcEvent_sameItems _ i.region 0x03 (some i.tenant) 1
  have hlist (r l : Nat) : u.readyList r l = s.readyList r l := congrArg (lget · (8 * r + l)) hready
  have htag : s.flag (.pmc i.ingress) PMC_TAG_EN = false → (tagItem s j).1 = j := fun hoff =>
    congrArg Prod.fst (tagItem_of_off (i := j) hoff)
  refine ⟨_, _, rfl, rfl, tagItem_item s j, htag, ?_, ?_, ?_, fun n hn => ?_, fun r l hne => ?_⟩
  · rw [hnext', ← hnext]
    rfl
  · rw [State.item, hitems']
    exact oget_oset_some _ _ _
  · rw [← hlist, State.readyList, hready']
    exact lget_lset _ _ (by simp)
  · rw [State.item, State.item, hitems', ← hitems]
    exact oget_oset_other _ _ hn
  · rw [← hlist, State.readyList, hready']
    exact lget_lset_other _ _ hne

end Sys2Proof.Machine

/-! # Page addresses (R40, R43, R44) -/

namespace Sys2Proof.Machine

/-- An address of the chip-wide pages. -/
theorem pageOfAddr_chip {n o : Nat} (hn : n < 0x40) (ho : o < 0x1000) :
    pageOfAddr (0xF0000000 + n * 0x1000 + o) = chipPage n := by
  unfold pageOfAddr
  rw [if_pos (by omega), show (0xF0000000 + n * 0x1000 + o - 0xF0000000) / 0x1000 = n by omega]

/-- An address of a region's pages. -/
theorem pageOfAddr_region {r n o : Nat} (hr : r < 4) (hn : n < 0x400) (ho : o < 0x1000) :
    pageOfAddr (regionBase r + n * 0x1000 + o) = regionPage r n := by
  unfold pageOfAddr regionBase
  rw [if_neg (by omega), if_pos (by omega),
    show (0xF1000000 + r * 0x400000 + n * 0x1000 + o - 0xF1000000) / 0x400000 = r by omega,
    show (0xF1000000 + r * 0x400000 + n * 0x1000 + o - 0xF1000000) % 0x400000 / 0x1000 = n by omega]

theorem lt_four_of_regionFitted {s : State} {r : Nat} (h : regionFitted s r = true) : r < 4 := by
  have h1 : r < s.fuse.variant.regions := of_decide_eq_true h
  have h2 : s.fuse.variant.regions ≤ 4 := by cases s.fuse.variant <;> decide
  omega

theorem cphPerRegion_le (v : Variant) : v.cphPerRegion ≤ 16 := by cases v <;> decide

theorem pkePerRegion_le (v : Variant) : v.pkePerRegion ≤ 4 := by cases v <;> decide

theorem chipPage_ccr {c : Nat} (h : c < 10) : chipPage (0x14 + c) = some (.ccr c) := by
  interval_cases c <;> rfl

theorem chipPage_mpu {m : Nat} (h : m < 20) : chipPage (0x20 + m) = some (.mpu m) := by
  interval_cases m <;> rfl

theorem regionPage_lnk {r n : Nat} (h : n < 0x20) : regionPage r n = some (.lnk (32 * r + n)) := if_pos h

theorem regionPage_kcr {r k : Nat} (h : k < 36) : regionPage r (0x40 + k) = some (.kcr r k) := by
  simp (disch := omega) only [regionPage, if_neg, if_pos, Nat.add_sub_cancel_left]

theorem regionPage_cph {r k : Nat} (h : k < 18) : regionPage r (0x80 + k) = some (.cph r k) := by
  simp (disch := omega) only [regionPage, if_neg, if_pos, Nat.add_sub_cancel_left]

theorem regionPage_hsh {r k : Nat} (h : k < 5) : regionPage r (0xA0 + k) = some (.hsh r k) := by
  simp (disch := omega) only [regionPage, if_neg, if_pos, Nat.add_sub_cancel_left]

theorem regionPage_pke {r k : Nat} (h : k < 5) : regionPage r (0xB0 + k) = some (.pke r k) := by
  simp (disch := omega) only [regionPage, if_neg, if_pos, Nat.add_sub_cancel_left]

/-- Settles O56: each page's base is its place among the chip-wide pages or those of its region. -/
theorem addressesNameTheirPage : Obligations.AddressesNameTheirPage := by
  unfold Obligations.AddressesNameTheirPage
  intro s p o hp ho
  cases p with
  | ccr c =>
    have hc : c < 10 := of_decide_eq_true hp
    rw [pageBase, show 0xF0014000 + c * 0x1000 + o = 0xF0000000 + (0x14 + c) * 0x1000 + o by omega,
      pageOfAddr_chip (by omega) ho, chipPage_ccr hc]
  | mpu m =>
    have hm : m < 20 := of_decide_eq_true hp
    rw [pageBase, show 0xF0020000 + m * 0x1000 + o = 0xF0000000 + (0x20 + m) * 0x1000 + o by omega,
      pageOfAddr_chip (by omega) ho, chipPage_mpu hm]
  | lnk p =>
    obtain ⟨hr, -⟩ := (Bool.and_eq_true _ _).mp hp
    rw [pageBase, pageOfAddr_region (lt_four_of_regionFitted hr) (by omega) ho, regionPage_lnk (by omega),
      Nat.div_add_mod]
  | kcr r k =>
    obtain ⟨hr, hk⟩ := (Bool.and_eq_true _ _).mp hp
    have hk := of_decide_eq_true hk
    rw [pageBase, show regionBase r + 0x40000 + k * 0x1000 + o = regionBase r + (0x40 + k) * 0x1000 + o by omega,
      pageOfAddr_region (lt_four_of_regionFitted hr) (by omega) ho, regionPage_kcr hk]
  | cph r k =>
    obtain ⟨hr, hk⟩ := (Bool.and_eq_true _ _).mp hp
    have hk : k < 18 := by
      have := cphPerRegion_le s.fuse.variant
      simp only [Bool.or_eq_true, decide_eq_true_eq] at hk
      omega
    rw [pageBase, show regionBase r + 0x80000 + k * 0x1000 + o = regionBase r + (0x80 + k) * 0x1000 + o by omega,
      pageOfAddr_region (lt_four_of_regionFitted hr) (by omega) ho, regionPage_cph hk]
  | hsh r k =>
    obtain ⟨hr, hk⟩ := (Bool.and_eq_true _ _).mp hp
    have hk := of_decide_eq_true hk
    rw [pageBase, show regionBase r + 0xA0000 + k * 0x1000 + o = regionBase r + (0xA0 + k) * 0x1000 + o by omega,
      pageOfAddr_region (lt_four_of_regionFitted hr) (by omega) ho, regionPage_hsh hk]
  | pke r k =>
    obtain ⟨hr, hk⟩ := (Bool.and_eq_true _ _).mp hp
    have hk : k < 5 := by
      have := pkePerRegion_le s.fuse.variant
      simp only [Bool.or_eq_true, decide_eq_true_eq] at hk
      omega
    rw [pageBase, show regionBase r + 0xB0000 + k * 0x1000 + o = regionBase r + (0xB0 + k) * 0x1000 + o by omega,
      pageOfAddr_region (lt_four_of_regionFitted hr) (by omega) ho, regionPage_pke hk]
  | cls r => exact pageOfAddr_region (n := 0x20) (lt_four_of_regionFitted hp) (by omega) ho
  | sch r => exact pageOfAddr_region (n := 0x21) (lt_four_of_regionFitted hp) (by omega) ho
  | ctx r => exact pageOfAddr_region (n := 0x22) (lt_four_of_regionFitted hp) (by omega) ho
  | odm r => exact pageOfAddr_region (n := 0x23) (lt_four_of_regionFitted hp) (by omega) ho
  | rnx r => exact pageOfAddr_region (n := 0x24) (lt_four_of_regionFitted hp) (by omega) ho
  | pmc r => exact pageOfAddr_region (n := 0x25) (lt_four_of_regionFitted hp) (by omega) ho
  | top => exact pageOfAddr_chip (n := 0) (by omega) ho
  | clk => exact pageOfAddr_chip (n := 1) (by omega) ho
  | pwr => exact pageOfAddr_chip (n := 2) (by omega) ho
  | rst => exact pageOfAddr_chip (n := 3) (by omega) ho
  | lcs => exact pageOfAddr_chip (n := 4) (by omega) ho
  | tmp => exact pageOfAddr_chip (n := 5) (by omega) ho
  | vlt => exact pageOfAddr_chip (n := 6) (by omega) ho
  | rng => exact pageOfAddr_chip (n := 7) (by omega) ho
  | evr => exact pageOfAddr_chip (n := 8) (by omega) ho
  | ten => exact pageOfAddr_chip (n := 9) (by omega) ho
  | htb => exact pageOfAddr_chip (n := 10) (by omega) ho
  | tri => exact pageOfAddr_chip (n := 11) (by omega) ho
  | par => exact pageOfAddr_chip (n := 12) (by omega) ho
  | mgt => exact pageOfAddr_chip (n := 13) (by omega) ho
  | bfl => exact pageOfAddr_chip (n := 14) (by omega) ho
  | hbc => exact pageOfAddr_chip (n := 15) (by omega) ho
  | dbg => exact pageOfAddr_chip (n := 16) (by omega) ho

end Sys2Proof.Machine

/-! # Big-endian byte strings -/

namespace Sys2Proof.Machine

@[simp] theorem length_beBytes (w n : Nat) : (beBytes w n).length = w := by
  induction w with
  | zero => rfl
  | succ w ih => rw [beBytes, List.length_cons, ih]

/-- Reading continues with the bytes that follow. -/
theorem foldl_beBytes (w n a : Nat) :
    (beBytes w n).foldl (fun n x => n * 256 + x.toNat) a = a * 256 ^ w + n % 256 ^ w := by
  induction w generalizing a with
  | zero => simp [beBytes, Nat.mod_one]
  | succ w ih =>
    have h : n % 256 ^ (w + 1) = 256 ^ w * (n / 256 ^ w % 256) + n % 256 ^ w := by
      rw [Nat.pow_succ, Nat.mod_mul, Nat.add_comm]
    rw [beBytes, List.foldl_cons, ih, h, BitVec.toNat_ofNat, Nat.pow_succ]
    ring

/-- A number written in `w` bytes reads modulo 256 ^ w. -/
theorem beNat_beBytes (w n : Nat) : beNat (beBytes w n) = n % 256 ^ w := by
  rw [beNat, foldl_beBytes, Nat.zero_mul, Nat.zero_add]

/-- What was put over a byte string's front is read there. -/
theorem slice_patch_zero (b v : Bytes) : slice (patch b 0 v) 0 v.length = v := by
  simp [slice, patch]

/-- What was put in a byte string at an offset within it is read there. -/
theorem byteAt_patch_singleton (b : Bytes) (o : Nat) (x : Byte) (h : o ≤ b.length) :
    byteAt (patch b o [x]) o = x.toNat := by
  have hl : (b.take o).length = o := by rw [List.length_take]; omega
  rw [byteAt, patch, List.append_assoc, List.getD_append_right _ _ _ _ (by omega), hl, Nat.sub_self]
  rfl

@[simp] theorem length_fitR (n : Nat) (b : Bytes) : (fitR n b).length = n := by
  simp only [fitR, zeros, List.length_append, List.length_take, List.length_replicate]
  omega

end Sys2Proof.Machine

/-! # Counter contexts (R121, R143, R495) -/

namespace Sys2Proof.Machine

theorem lowBit_pos (v : Nat) : 0 < lowBit v := by
  unfold lowBit
  split
  · exact Nat.two_pow_pos _
  · decide

theorem lowBit_le (v : Nat) : lowBit v ≤ 2 ^ 63 := by
  unfold lowBit
  split
  next i h =>
    have hi : i < 64 := List.mem_range.mp (List.mem_of_find?_eq_some h)
    exact Nat.pow_le_pow_right (by decide) (by omega)
  · decide

/-- The value after one below the last is higher and fits its eight bytes. -/
theorem counterNext_of_lt {typ scheme v : Nat} (h : v < counterLast typ scheme) :
    v < counterNext typ scheme v ∧ counterNext typ scheme v < 2 ^ 64 := by
  have hpos := lowBit_pos v
  have hle := lowBit_le v
  by_cases h5 : typ = 5
  · have hlast : counterLast typ scheme < 2 ^ 32 := by
      rw [h5, counterLast]
      split <;> decide
    have hnext : counterNext typ scheme v = v + lowBit v ∨ counterNext typ scheme v = v + 1 := ite_eq_or_eq _ _ _
    omega
  · have hlast : counterLast typ scheme < 2 ^ 64 := by
      unfold counterLast
      split
      · decide
      · split <;> decide
      · decide
    have hnext : counterNext typ scheme v = v + 1 := if_neg fun h => h5 h.1
    omega

/-- A draw of the last value sets EXHAUSTED. -/
theorem ctxExhausted_ctxDrawn {c : Ctx} {v : Nat} (h : v = counterLast c.typ (ctxScheme c)) :
    ctxExhausted (ctxDrawn c v) = true := by
  have hs : ctxScheme c < 4 := Nat.mod_lt _ (by decide)
  unfold ctxExhausted ctxDrawn
  dsimp only
  rw [if_pos h, byteAt_patch_singleton _ _ _ (by simp)]
  interval_cases ctxScheme c <;> rfl

/-- A draw of another value leaves the value after it. -/
theorem ctxCounter_ctxDrawn {c : Ctx} {v : Nat} (h : v < counterLast c.typ (ctxScheme c)) :
    ctxCounter (ctxDrawn c v) = counterNext c.typ (ctxScheme c) v := by
  have hn := (counterNext_of_lt h).2
  have hs := slice_patch_zero (fitR 248 c.body) (beBytes 8 (counterNext c.typ (ctxScheme c) v))
  rw [length_beBytes] at hs
  unfold ctxCounter ctxDrawn
  dsimp only
  rw [if_neg (by omega), field, hs, beNat_beBytes, Nat.mod_eq_of_lt (by omega)]

theorem leaseTop_ctxs (s : State) (k next block cap : Nat) : (leaseTop s k next block cap).ctxs = s.ctxs := by
  unfold leaseTop
  split
  · split
    · split <;> rfl
    · rfl
  · rfl

/-- What a draw that gives a value says of it, and of the context afterwards. -/
theorem ctxDraw_ok {s t : State} {r idx v : Nat} (h : ctxDraw s r idx = (.ok v, t)) :
    v = ctxCounter (s.ctxAt r idx) ∧ t.ctxAt r idx = ctxDrawn (s.ctxAt r idx) v := by
  unfold ctxDraw at h
  dsimp only at h
  split at h
  · cases h
  next hv =>
    split at h
    · cases h
    · split at h
      · cases h
      · cases h
        have hne : ctxDrawn (s.ctxAt r idx) (ctxCounter (s.ctxAt r idx)) ≠ Ctx.free := by
          intro he
          exact hv (.inl (congrArg Ctx.valid he))
        refine ⟨rfl, ?_⟩
        rw [State.ctxAt, (pmcEvent_onlyRegs _ _ _ _ _).proj State.ctxs fun _ => rfl, leaseTop_ctxs]
        exact mget_mset_of_ne _ _ _ _ hne

/-- Settles O57, by whether the value drawn is the last one. -/
theorem counterContextsNeverRepeatAValue : Obligations.CounterContextsNeverRepeatAValue := by
  unfold Obligations.CounterContextsNeverRepeatAValue
  intro s t r idx v
  refine ⟨fun hle h => ?_, fun hvalid hlo hhi hex => ?_⟩
  · obtain ⟨hv, ht⟩ := ctxDraw_ok h
    rw [ht]
    refine ⟨hv, rfl, ?_⟩
    rcases Nat.lt_or_eq_of_le hle with hlt | heq
    · rw [← hv] at hlt
      exact .inr (ctxCounter_ctxDrawn hlt ▸ (counterNext_of_lt hlt).1)
    · exact .inl (ctxExhausted_ctxDrawn (hv.trans heq))
  · unfold ctxDraw
    dsimp only
    rw [if_neg (by simp [hvalid]; omega), if_pos hex]

end Sys2Proof.Machine

/-! # Tokens (R151, R152): the rounds of the Feistel network undo one another -/

namespace Sys2Proof.Machine

theorem strRadix_succ (m v : Nat) : strRadix (m + 1) v = v / 10 ^ m % 10 :: strRadix m v := by
  simp [strRadix, List.range_succ]

@[simp] theorem length_strRadix (m v : Nat) : (strRadix m v).length = m := by
  simp [strRadix]

theorem lt_ten_of_mem_strRadix {m v d : Nat} (h : d ∈ strRadix m v) : d < 10 := by
  obtain ⟨i, -, rfl⟩ := List.mem_map.mp h
  exact Nat.mod_lt _ (by decide)

/-- The digits of a number are those of its remainder. -/
theorem strRadix_mod (m v : Nat) : strRadix m (v % 10 ^ m) = strRadix m v := by
  refine List.map_congr_left fun i hi => ?_
  have hi : i < m := by simpa using hi
  have hpow : 10 ^ m = 10 ^ i * 10 ^ (m - i) := by rw [← Nat.pow_add, Nat.add_sub_cancel' hi.le]
  rw [hpow, Nat.mod_mul_right_div_self, Nat.mod_mod_of_dvd _ (dvd_pow_self 10 (by omega))]

theorem foldl_digits (l : List Nat) (a : Nat) :
    l.foldl (fun a d => a * 10 + d) a = a * 10 ^ l.length + numRadix l := by
  induction l generalizing a with
  | nil => simp [numRadix]
  | cons d l ih =>
    rw [numRadix, List.foldl_cons, List.foldl_cons, ih, ih (0 * 10 + d), List.length_cons, Nat.pow_succ]
    ring

theorem numRadix_cons (d : Nat) (l : List Nat) : numRadix (d :: l) = d * 10 ^ l.length + numRadix l := by
  rw [numRadix, List.foldl_cons, foldl_digits, Nat.zero_mul, Nat.zero_add]

theorem numRadix_strRadix (m v : Nat) : numRadix (strRadix m v) = v % 10 ^ m := by
  induction m with
  | zero => simp [strRadix, numRadix, Nat.mod_one]
  | succ m ih =>
    rw [strRadix_succ, numRadix_cons, ih, length_strRadix, Nat.pow_succ, Nat.mod_mul, Nat.mul_comm, Nat.add_comm]

theorem numRadix_lt {l : List Nat} (h : ∀ d ∈ l, d < 10) : numRadix l < 10 ^ l.length := by
  induction l with
  | nil => simp [numRadix]
  | cons d l ih =>
    have hd : d < 10 := h d (by simp)
    have hl := ih fun x hx => h x (List.mem_cons_of_mem d hx)
    rw [numRadix_cons, List.length_cons, Nat.pow_succ]
    nlinarith

theorem strRadix_numRadix {l : List Nat} (h : ∀ d ∈ l, d < 10) : strRadix l.length (numRadix l) = l := by
  induction l with
  | nil => rfl
  | cons d l ih =>
    have hd : d < 10 := h d (by simp)
    have hl : ∀ x ∈ l, x < 10 := fun x hx => h x (List.mem_cons_of_mem d hx)
    have hlt := numRadix_lt hl
    have hdigit : (d * 10 ^ l.length + numRadix l) / 10 ^ l.length = d := by
      rw [Nat.mul_comm, Nat.mul_add_div (Nat.pow_pos (by decide)), Nat.div_eq_of_lt hlt, Nat.add_zero]
    have hrest : (d * 10 ^ l.length + numRadix l) % 10 ^ l.length = numRadix l := by
      rw [Nat.mul_comm, Nat.mul_add_mod, Nat.mod_eq_of_lt hlt]
    rw [List.length_cons, strRadix_succ, numRadix_cons, hdigit, Nat.mod_eq_of_lt hd, ← strRadix_mod, hrest, ih hl]

/-- A half of the digit string. -/
def DigitHalf (m : Nat) (l : List Nat) : Prop := l.length = m ∧ ∀ d ∈ l, d < 10

theorem digitHalf_strRadix (m v : Nat) : DigitHalf m (strRadix m v) :=
  ⟨length_strRadix m v, fun _ h => lt_ten_of_mem_strRadix h⟩

/-- The length of the half that round `i` replaces, of halves of `u` and `v` digits. -/
def roundLen (u v i : Nat) : Nat := if i % 2 = 0 then u else v

/-- One round of tokenising, with the round's number under `f`. -/
def encRound (f : Nat → List Nat → Nat) (u v : Nat) (ab : List Nat × List Nat) (i : Nat) : List Nat × List Nat :=
  (ab.2, strRadix (roundLen u v i) ((numRadix ab.1 + f i ab.2) % 10 ^ roundLen u v i))

/-- One round of detokenising. -/
def decRound (f : Nat → List Nat → Nat) (u v : Nat) (ab : List Nat × List Nat) (i : Nat) : List Nat × List Nat :=
  (strRadix (roundLen u v i)
    ((numRadix ab.2 + 10 ^ roundLen u v i - f i ab.1 % 10 ^ roundLen u v i) % 10 ^ roundLen u v i), ab.1)

theorem ff1Enc_eq (key tweak : Bytes) (x : List Nat) :
    ff1Enc key tweak x =
      let u := x.length / 2
      let v := x.length - u
      let r := (List.range 10).foldl (encRound (ff1Round key tweak x.length u v) u v) (x.take u, x.drop u)
      r.1 ++ r.2 := rfl

theorem ff1Dec_eq (key tweak : Bytes) (x : List Nat) :
    ff1Dec key tweak x =
      let u := x.length / 2
      let v := x.length - u
      let r := (List.range 10).reverse.foldl (decRound (ff1Round key tweak x.length u v) u v) (x.take u, x.drop u)
      r.1 ++ r.2 := rfl

/-- Modulo `m`, what was added is taken away again. -/
theorem sub_mod_of_add_mod {a f m : Nat} (h : a < m) : ((a + f) % m % m + m - f % m) % m = a := by
  have hf := Nat.mod_lt f (by omega : 0 < m)
  rw [Nat.mod_mod, Nat.add_mod, Nat.mod_eq_of_lt h]
  rcases Nat.lt_or_ge (a + f % m) m with hlt | hge
  · rw [Nat.mod_eq_of_lt hlt, show a + f % m + m - f % m = a + m by omega, Nat.add_mod_right, Nat.mod_eq_of_lt h]
  · rw [Nat.mod_eq_sub_mod hge, Nat.mod_eq_of_lt (show a + f % m - m < m by omega), show a + f % m - m + m - f % m = a by omega,
      Nat.mod_eq_of_lt h]

theorem decRound_encRound (f : Nat → List Nat → Nat) (u v i : Nat) (a b : List Nat) (h : DigitHalf (roundLen u v i) a) :
    decRound f u v (encRound f u v (a, b) i) i = (a, b) := by
  obtain ⟨hlen, hdig⟩ := h
  have hlt : numRadix a < 10 ^ roundLen u v i := hlen ▸ numRadix_lt hdig
  have ha : strRadix (roundLen u v i) (numRadix a) = a := hlen ▸ strRadix_numRadix hdig
  unfold decRound encRound
  dsimp only
  rw [numRadix_strRadix, sub_mod_of_add_mod hlt, ha]

/-- After `k` rounds the halves have the lengths that round `k` needs. -/
theorem digitHalf_encRounds (f : Nat → List Nat → Nat) {u v : Nat} {a b : List Nat} (ha : DigitHalf u a)
    (hb : DigitHalf v b) (k : Nat) :
    DigitHalf (roundLen u v k) ((List.range k).foldl (encRound f u v) (a, b)).1 ∧
      DigitHalf (roundLen u v (k + 1)) ((List.range k).foldl (encRound f u v) (a, b)).2 := by
  induction k with
  | zero => exact ⟨ha, hb⟩
  | succ k ih =>
    have hlen : roundLen u v (k + 2) = roundLen u v k := by
      rw [roundLen, roundLen, Nat.add_mod_right]
    rw [List.range_succ, List.foldl_append, hlen]
    exact ⟨ih.2, digitHalf_strRadix _ _⟩

/-- Detokenising takes the rounds back in the other order. -/
theorem decRounds_encRounds (f : Nat → List Nat → Nat) {u v : Nat} {a b : List Nat} (ha : DigitHalf u a)
    (hb : DigitHalf v b) (k : Nat) :
    (List.range k).reverse.foldl (decRound f u v) ((List.range k).foldl (encRound f u v) (a, b)) = (a, b) := by
  induction k with
  | zero => rfl
  | succ k ih =>
    have hhalf := (digitHalf_encRounds f ha hb k).1
    rw [List.range_succ, List.reverse_append, List.foldl_append, List.foldl_append]
    change (List.range k).reverse.foldl (decRound f u v) (decRound f u v (encRound f u v _ k) k) = (a, b)
    rw [decRound_encRound f u v k _ _ hhalf, ih]

/-- Settles O58: the ten rounds of the one map take back those of the other. -/
theorem detokeniseUndoesTokenise : Obligations.DetokeniseUndoesTokenise := by
  unfold Obligations.DetokeniseUndoesTokenise
  intro key tweak x hx
  have htake : DigitHalf (x.length / 2) (x.take (x.length / 2)) :=
    ⟨by rw [List.length_take]; omega, fun d hd => hx d (List.mem_of_mem_take hd)⟩
  have hdrop : DigitHalf (x.length - x.length / 2) (x.drop (x.length / 2)) :=
    ⟨List.length_drop, fun d hd => hx d (List.mem_of_mem_drop hd)⟩
  have hrounds := decRounds_encRounds (ff1Round key tweak x.length (x.length / 2) (x.length - x.length / 2)) htake hdrop 10
  have hhalves := digitHalf_encRounds (ff1Round key tweak x.length (x.length / 2) (x.length - x.length / 2)) htake hdrop 10
  rw [ff1Enc_eq]
  dsimp only
  generalize (List.range 10).foldl (encRound (ff1Round key tweak x.length (x.length / 2) (x.length - x.length / 2))
    (x.length / 2) (x.length - x.length / 2)) (x.take (x.length / 2), x.drop (x.length / 2)) = r at hrounds hhalves ⊢
  obtain ⟨⟨hl, -⟩, ⟨hr, -⟩⟩ := hhalves
  have hl : r.1.length = x.length / 2 := hl
  have hr : r.2.length = x.length - x.length / 2 := hr
  have hlen : (r.1 ++ r.2).length = x.length := by rw [List.length_append]; omega
  rw [ff1Dec_eq]
  dsimp only
  rw [hlen, ← hl, List.take_left, List.drop_left, hl, hrounds, List.take_append_drop]

end Sys2Proof.Machine

/-! # The TRI table: locks, swaps and DMA (R177 to R180) -/

namespace Sys2Proof.Machine
open Sys2Proof.Claims

/-- What a run of writes from `base` on leaves at a key. -/
theorem mget_foldl_mset {α : Type} [DecidableEq α] {d : Nat → α} {m : SMap α} (hm : mwf d m = true) (base N : Nat)
    (v : Nat → α) (j : Nat) :
    mget d ((List.range N).foldl (fun m n => mset d m (base + n) (v n)) m) j =
      if base ≤ j ∧ j < base + N then v (j - base) else mget d m j := by
  induction N with
  | zero => rw [if_neg (by omega)]; rfl
  | succ N ih =>
    have hwf : mwf d ((List.range N).foldl (fun m n => mset d m (base + n) (v n)) m) = true :=
      mwf_foldl (fun _ _ h => mwf_mset _ _ _ _ h) hm
    rw [List.range_succ, List.foldl_append, List.foldl_cons, List.foldl_nil]
    by_cases hj : j = base + N
    · rw [hj, mget_mset_self _ _ _ _ hwf, if_pos (by omega), Nat.add_sub_cancel_left]
    · rw [mget_mset_other _ _ _ _ _ hj, ih]
      exact if_congr (by omega) rfl rfl

/-- Slots of other blocks lie elsewhere. -/
theorem slot_block_eq {b c n m : Nat} (hn : n < 128) (hm : m < 128) (h : 128 * c + n = 128 * b + m) : c = b ∧ n = m := by
  omega

theorem lockBlock_tri (s : State) (b : Nat) : (lockBlock s b).tri = { s.tri with
    shadow := (List.range 128).foldl (fun m n => mset (fun _ => 0) m (128 * b + n) (triSlot s b n)) s.tri.shadow
    locks := if s.tri.locks.contains b then s.tri.locks else s.tri.locks ++ [b] } := by
  simp only [lockBlock, markLocks, State.setFlag_keeps, State.setFld_keeps]

theorem dmaBlock_shadow (s : State) (b src : Nat) : (dmaBlock s b src).tri.shadow =
    (List.range 128).foldl (fun m n => mset (fun _ => 0) m (128 * b + n)
      (BitVec.ofNat 64 (beNat (memRead s.hbm (src + 8 * n) 8)))) s.tri.shadow := by
  simp only [dmaBlock]

/-- A lock copies its block into the shadow, sets it, and leaves the rest of the table. -/
theorem lockBlock_spec {s : State} (hw : mwf (fun _ => 0) s.tri.shadow = true) (b : Nat) :
    b ∈ (lockBlock s b).tri.locks ∧ (lockBlock s b).tri.active = s.tri.active ∧
      (lockBlock s b).tri.hold = s.tri.hold ∧ (∀ n, n < 128 → triShadow (lockBlock s b) b n = triSlot s b n) ∧
      ∀ c n, c ≠ b → n < 128 → triShadow (lockBlock s b) c n = triShadow s c n := by
  have hget := mget_foldl_mset hw (128 * b) 128 (triSlot s b)
  simp only [triShadow, lockBlock_tri]
  refine ⟨?_, trivial, trivial, fun n hn => ?_, fun c n hc hn => ?_⟩
  · split
    next h => exact List.contains_iff_mem.mp h
    · simp
  · rw [hget, if_pos (by omega), Nat.add_sub_cancel_left]
  · rw [hget, if_neg fun h => hc (by omega)]

/-- One slot of a block swapped. -/
def swapSlot (b : Nat) (s : State) (n : Nat) : State :=
  { s with tri := { s.tri with
    active := mset (fun _ => 0) s.tri.active (128 * b + n) (triShadow s b n)
    shadow := mset (fun _ => 0) s.tri.shadow (128 * b + n) (triSlot s b n) } }

theorem swapBlock_eq (s : State) (b : Nat) : swapBlock s b = (List.range 128).foldl (swapSlot b)
    { s with tri := { s.tri with bad := s.tri.bad.filter fun x => decide (x / 128 ≠ b) } } := by
  unfold swapBlock swapSlot
  dsimp only

/-- `t` has the table of `s` with the copies of the keys that `p` picks exchanged. -/
structure Exchanged (p : Nat → Prop) [DecidablePred p] (s t : State) : Prop where
  activeWf : mwf (fun _ => 0) t.tri.active = true
  shadowWf : mwf (fun _ => 0) t.tri.shadow = true
  active : ∀ x, mget (fun _ => 0) t.tri.active x = mget (fun _ => 0) (if p x then s.tri.shadow else s.tri.active) x
  shadow : ∀ x, mget (fun _ => 0) t.tri.shadow x = mget (fun _ => 0) (if p x then s.tri.active else s.tri.shadow) x

/-- The slots of a block swapped one by one. -/
theorem exchanged_swapSlots {s : State} (ha : mwf (fun _ => 0) s.tri.active = true)
    (hw : mwf (fun _ => 0) s.tri.shadow = true) (b N : Nat) :
    Exchanged (fun x => 128 * b ≤ x ∧ x < 128 * b + N) s ((List.range N).foldl (swapSlot b) s) ∧
      ((List.range N).foldl (swapSlot b) s).tri.locks = s.tri.locks ∧
      ((List.range N).foldl (swapSlot b) s).tri.bad = s.tri.bad := by
  induction N with
  | zero =>
    exact ⟨⟨ha, hw, fun x => by rw [if_neg (by omega)]; rfl, fun x => by rw [if_neg (by omega)]; rfl⟩, rfl, rfl⟩
  | succ N ih =>
    rw [List.range_succ, List.foldl_append]
    generalize (List.range N).foldl (swapSlot b) s = t at ih
    obtain ⟨⟨hta, htw, hactive, hshadow⟩, hlocks, hbad⟩ := ih
    refine ⟨⟨mwf_mset _ _ _ _ hta, mwf_mset _ _ _ _ htw, fun x => ?_, fun x => ?_⟩, hlocks, hbad⟩
    · change mget _ (mset _ t.tri.active (128 * b + N) (triShadow t b N)) x = _
      by_cases hx : x = 128 * b + N
      · rw [hx, mget_mset_self _ _ _ _ hta, triShadow, hshadow, if_neg (by omega), if_pos (by omega)]
      · rw [mget_mset_other _ _ _ _ _ hx, hactive]
        exact congrArg (mget _ · x) (if_congr (by omega) rfl rfl)
    · change mget _ (mset _ t.tri.shadow (128 * b + N) (triSlot t b N)) x = _
      by_cases hx : x = 128 * b + N
      · rw [hx, mget_mset_self _ _ _ _ htw, triSlot, hactive, if_neg (by omega), if_pos (by omega)]
      · rw [mget_mset_other _ _ _ _ _ hx, hshadow]
        exact congrArg (mget _ · x) (if_congr (by omega) rfl rfl)

/-- A block's swap exchanges its copies, and its slots are no longer uncorrectable. -/
theorem swapBlock_spec {s : State} (ha : mwf (fun _ => 0) s.tri.active = true)
    (hw : mwf (fun _ => 0) s.tri.shadow = true) (b : Nat) :
    Exchanged (fun x => x / 128 = b) s (swapBlock s b) ∧ (swapBlock s b).tri.locks = s.tri.locks ∧
      ∀ x ∈ (swapBlock s b).tri.bad, x / 128 ≠ b := by
  rw [swapBlock_eq]
  have h := exchanged_swapSlots
    (s := { s with tri := { s.tri with bad := s.tri.bad.filter fun x => decide (x / 128 ≠ b) } }) ha hw b 128
  generalize (List.range 128).foldl (swapSlot b) _ = t at h ⊢
  obtain ⟨⟨hta, htw, hactive, hshadow⟩, hlocks, hbad⟩ := h
  refine ⟨⟨hta, htw, fun x => (hactive x).trans ?_, fun x => (hshadow x).trans ?_⟩, hlocks, fun x hx => ?_⟩
  · exact congrArg (mget _ · x) (if_congr (by omega) rfl rfl)
  · exact congrArg (mget _ · x) (if_congr (by omega) rfl rfl)
  · rw [hbad] at hx
    exact of_decide_eq_true (List.mem_filter.mp hx).2

/-- Each block of a list without repeats is swapped once. -/
theorem exchanged_swapBlocks {l : List Nat} (hl : l.Nodup) {s : State} (ha : mwf (fun _ => 0) s.tri.active = true)
    (hw : mwf (fun _ => 0) s.tri.shadow = true) : Exchanged (fun x => x / 128 ∈ l) s (l.foldl swapBlock s) := by
  induction l generalizing s with
  | nil => exact ⟨ha, hw, fun x => by rw [if_neg (by simp)]; rfl, fun x => by rw [if_neg (by simp)]; rfl⟩
  | cons b l ih =>
    obtain ⟨hb, hl⟩ := List.nodup_cons.mp hl
    have hswap := (swapBlock_spec ha hw b).1
    rw [List.foldl_cons]
    generalize swapBlock s b = t at hswap ⊢
    obtain ⟨hta, htw, hactive, hshadow⟩ := hswap
    obtain ⟨hua, huw, hactive', hshadow'⟩ := ih hl hta htw
    refine ⟨hua, huw, fun x => (hactive' x).trans ?_, fun x => (hshadow' x).trans ?_⟩
    · by_cases hx : x / 128 = b
      · rw [if_neg (hx ▸ hb), if_pos (by simp [hx]), hactive, if_pos hx]
      · by_cases hxl : x / 128 ∈ l
        · rw [if_pos hxl, if_pos (by simp [hxl]), hshadow, if_neg hx]
        · rw [if_neg hxl, if_neg (by simp [hx, hxl]), hactive, if_neg hx]
    · by_cases hx : x / 128 = b
      · rw [if_neg (hx ▸ hb), if_pos (by simp [hx]), hshadow, if_pos hx]
      · by_cases hxl : x / 128 ∈ l
        · rw [if_pos hxl, if_pos (by simp [hxl]), hactive, if_neg hx]
        · rw [if_neg hxl, if_neg (by simp [hx, hxl]), hshadow, if_neg hx]

/-- The slots of exchanged blocks, and those of the others. -/
theorem Exchanged.slots {p : Nat → Prop} [DecidablePred p] {s t : State} (h : Exchanged (fun x => p (x / 128)) s t) {b n : Nat}
    (hn : n < 128) :
    (p b → triSlot t b n = triShadow s b n ∧ triShadow t b n = triSlot s b n) ∧
      (¬ p b → triSlot t b n = triSlot s b n ∧ triShadow t b n = triShadow s b n) := by
  have hb : (128 * b + n) / 128 = b := by omega
  have hactive := h.active (128 * b + n)
  have hshadow := h.shadow (128 * b + n)
  rw [hb] at hactive hshadow
  refine ⟨fun hp => ?_, fun hp => ?_⟩
  · rw [if_pos hp] at hactive hshadow
    exact ⟨hactive, hshadow⟩
  · rw [if_neg hp] at hactive hshadow
    exact ⟨hactive, hshadow⟩

/-- A transfer leaves the active copy, the locks and the HBM, and of the blocks it loads each holds what was read for it. -/
theorem dmaBlocks_spec {src first n k : Nat} {s : State} (hw : mwf (fun _ => 0) s.tri.shadow = true)
    (hl : ∀ i, i < n → first + (k + i) ∈ s.tri.locks) :
    (dmaBlocks src first n k s).tri.active = s.tri.active ∧ (dmaBlocks src first n k s).tri.locks = s.tri.locks ∧
      ∀ c m, m < 128 → triShadow (dmaBlocks src first n k s) c m =
        if first + k ≤ c ∧ c < first + (k + n) then
          BitVec.ofNat 64 (beNat (memRead s.hbm (src + 1024 * (c - first) + 8 * m) 8)) else triShadow s c m := by
  induction n generalizing k s with
  | zero => exact ⟨rfl, rfl, fun c m _ => by rw [if_neg (by omega)]; rfl⟩
  | succ n ih =>
    have hb : first + k ∈ s.tri.locks := hl 0 (by omega)
    have hblock : ∀ c m, m < 128 → triShadow (dmaBlock s (first + k) (src + 1024 * k)) c m =
        if c = first + k then BitVec.ofNat 64 (beNat (memRead s.hbm (src + 1024 * k + 8 * m) 8)) else triShadow s c m := by
      intro c m hm
      rw [triShadow, dmaBlock_shadow, mget_foldl_mset hw]
      split
      · rw [if_pos (by omega), show 128 * c + m - 128 * (first + k) = m by omega]
      · rw [if_neg (by omega), triShadow]
    have hw' : mwf (fun _ => 0) (dmaBlock s (first + k) (src + 1024 * k)).tri.shadow = true := by
      rw [dmaBlock_shadow]
      apply mwf_foldl _ hw
      exact fun _ _ h => mwf_mset _ _ _ _ h
    have hkeep : (dmaBlock s (first + k) (src + 1024 * k)).tri.active = s.tri.active ∧
        (dmaBlock s (first + k) (src + 1024 * k)).tri.locks = s.tri.locks ∧
        (dmaBlock s (first + k) (src + 1024 * k)).hbm = s.hbm := by simp only [dmaBlock, and_self]
    rw [dmaBlocks, if_pos (List.contains_iff_mem.mpr hb)]
    generalize dmaBlock s (first + k) (src + 1024 * k) = t at hblock hw' hkeep ⊢
    obtain ⟨hta, htl, hth⟩ := hkeep
    obtain ⟨hactive, hlocks, hshadow⟩ := ih (k := k + 1) hw' fun i hi => by
      have := hl (i + 1) (by omega)
      rwa [htl, show k + 1 + i = k + (i + 1) by omega]
    refine ⟨hactive.trans hta, hlocks.trans htl, fun c m hm => ?_⟩
    rw [hshadow c m hm, hblock c m hm, hth]
    by_cases hc : c = first + k
    · rw [if_neg (by omega), if_pos hc, if_pos (by omega), hc, Nat.add_sub_cancel_left]
    · rw [if_neg hc]
      exact if_congr (by omega) rfl rfl

/-- What the control complex asks for, while it runs. -/
theorem onComplex_of_acts {s : State} {k : Res} (h : ComplexActs s) : onComplex s k = k := if_pos h

/-- An access without an injected error meets none. -/
theorem touch_of_unarmed {s : State} {p : PageId} {v : Victim} (h : Unarmed s p) : touch s p v = s := touch_of_none h

/-- TRI_LOCK_SET on a block that was not swapped just now, and on one that was. -/
theorem execTriLockSet_lock {s : State} {b : Nat} (hrun : ComplexActs s) (hb : b < s.fuse.variant.triBlocks) :
    execTriLockSet b false s = .next (lockBlock s b) := by
  rw [execTriLockSet, onComplex_of_acts hrun, if_neg (by omega)]
  rfl

theorem execTriLockSet_hold {s : State} {b : Nat} (hrun : ComplexActs s) (hb : b < s.fuse.variant.triBlocks) :
    execTriLockSet b true s =
      .next ({ s with tri := { s.tri with hold := s.tri.hold ++ [b] } }.setFlag .tri TRI_STATUS_HOLD true) := by
  rw [execTriLockSet, onComplex_of_acts hrun, if_neg (by omega), if_pos rfl]

theorem execTriNodeWrite_locked {s : State} {b n : Nat} {v : BitVec 64} (hrun : ComplexActs s)
    (hb : b < s.fuse.variant.triBlocks) (hn : n < 128) (hl : b ∈ s.tri.locks) :
    execTriNodeWrite b n v s =
      .next { s with tri := { s.tri with shadow := mset (fun _ => 0) s.tri.shadow (128 * b + n) v } } := by
  rw [execTriNodeWrite, onComplex_of_acts hrun, if_neg (by omega), if_pos (List.contains_iff_mem.mpr hl)]

theorem execTriNodeWrite_unlocked {s : State} {b n : Nat} {v : BitVec 64} (hrun : ComplexActs s)
    (hb : b < s.fuse.variant.triBlocks) (hn : n < 128) (hl : b ∉ s.tri.locks) :
    execTriNodeWrite b n v s = .next (accessErr s .tri) := by
  rw [execTriNodeWrite, onComplex_of_acts hrun, if_neg (by omega), if_neg (by simpa using hl)]

/-- Clearing a lock swaps its block and takes it off the locks. -/
theorem execTriLockClr_locked {s : State} {b : Nat} (hrun : ComplexActs s) (hl : b ∈ s.tri.locks) :
    ∃ t, execTriLockClr b s = .next t ∧
      t.tri = { (swapBlock s b).tri with locks := (swapBlock s b).tri.locks.filter fun x => x ≠ b } := by
  rw [execTriLockClr, onComplex_of_acts hrun, if_pos (List.contains_iff_mem.mpr hl)]
  exact ⟨_, rfl, by simp only [markLocks, State.setFld_keeps]⟩

theorem execTriCommit_acts {s : State} (hrun : ComplexActs s) :
    ∃ t, execTriCommit s = .next t ∧ t.tri = { (s.tri.locks.foldl swapBlock s).tri with locks := [] } := by
  rw [execTriCommit, onComplex_of_acts hrun]
  exact ⟨_, rfl, by simp only [markLocks, State.setFld_keeps]⟩

/-- An exchange goes by the two copies alone. -/
theorem Exchanged.congr {p : Nat → Prop} [DecidablePred p] {s t u : State} (h : Exchanged p s t)
    (ha : u.tri.active = t.tri.active) (hw : u.tri.shadow = t.tri.shadow) : Exchanged p s u :=
  ⟨ha ▸ h.activeWf, hw ▸ h.shadowWf, ha ▸ h.active, hw ▸ h.shadow⟩

/-- A lookup that completes is counted or reports its slot first. -/
theorem execPrefixLookupDone_cons {s : State} {x : Lookup} {l : List Lookup} (hl : s.lookups = x :: l)
    (hu : Unarmed s .tri) : execPrefixLookupDone s = .next (complete (match x.fault with
      | some slot => triFault { s with lookups := l } slot
      | none => if x.counted then triCount { s with lookups := l } x.miss x.bad else { s with lookups := l })
      x.core x.slot x.word) := by
  rw [execPrefixLookupDone, hl]
  dsimp only
  rw [touch_of_unarmed hu, prefixLookupDone, hl] <;> rfl

/-- A transfer that is asked for ends with GO clear. -/
theorem execTriDmaDone_go {s : State} (hgo : s.flag .tri TRI_DMA_GO = true) :
    execTriDmaDone s = .next ((dmaBlocks
      ((s.fld .tri TRI_DMA_SRC_LO + s.fld .tri TRI_DMA_SRC_HI * 2 ^ 32) / 1024 * 1024)
      (s.fld .tri TRI_DMA_FIRST) (s.fld .tri TRI_DMA_COUNT) 0 s).setFlag .tri TRI_DMA_GO false) := by
  rw [execTriDmaDone, if_neg (by simp [hgo])]

/-- Settles O35, from what a lock, a swap and a transfer do to the two copies. -/
theorem prefixTableLocksCopyAndSwap : Obligations.PrefixTableLocksCopyAndSwap := by
  unfold Obligations.PrefixTableLocksCopyAndSwap
  intro s hcanon
  obtain ⟨-, -, -, -, -, ha, hw⟩ := id hcanon
  refine ⟨fun hrun => ⟨fun b hb => ?_, fun b hb => ?_, fun b recent hb => ?_, fun b n v hb hn hl => ?_,
    fun b n v hb hn hl => execTriNodeWrite_unlocked hrun hb hn hl, fun b hl => ?_, fun hnodup => ?_,
    fun first count hgo => ?_⟩, fun b l hhold => ?_, rfl, fun hgo => ⟨fun hlocked => ?_, fun hcount hfirst => ?_⟩,
    fun hgo => ?_, fun hl => ?_, fun x l hl hu => ?_⟩
  · obtain ⟨hlock, hactive, -, hcopy, hothers⟩ := lockBlock_spec hw b
    exact ⟨_, execTriLockSet_lock hrun hb, hlock, hcopy, hactive, hothers⟩
  · refine ⟨_, execTriLockSet_hold hrun hb, ?_⟩
    simp only [State.setFlag_keeps, and_self]
  · change execTriLockSet b recent s = _
    rw [execTriLockSet, onComplex_of_acts hrun, if_pos hb]
  · refine ⟨_, execTriNodeWrite_locked hrun hb hn hl, mget_mset_self _ _ _ _ hw, rfl, rfl, fun c m hm hne => ?_⟩
    exact mget_mset_other _ _ _ _ _ fun h => hne (by omega)
  · obtain ⟨t, ht, htri⟩ := execTriLockClr_locked hrun hl
    obtain ⟨hswap, -, hbad⟩ := swapBlock_spec ha hw b
    have hslots : Exchanged (fun x => x / 128 = b) s t := hswap.congr (by rw [htri]) (by rw [htri])
    refine ⟨t, ht, by simp [htri], fun n hn => ?_, by simpa [htri] using hbad, fun c n hc hn => ?_⟩
    · exact (Exchanged.slots (p := (· = b)) hslots hn).1 rfl
    · exact (Exchanged.slots (p := (· = b)) hslots hn).2 hc
  · obtain ⟨t, ht, htri⟩ := execTriCommit_acts hrun
    have hslots : Exchanged (fun x => x / 128 ∈ s.tri.locks) s t :=
      (exchanged_swapBlocks hnodup ha hw).congr (by rw [htri]) (by rw [htri])
    refine ⟨t, ht, by rw [htri], fun b n hb hn => ?_, fun b n hb hn => ?_⟩
    · exact (Exchanged.slots (p := (· ∈ s.tri.locks)) hslots hn).1 hb
    · exact (Exchanged.slots (p := (· ∈ s.tri.locks)) hslots hn).2 hb
  · change execTriDmaGo first count s = _
    rw [execTriDmaGo, onComplex_of_acts hrun, hgo]
    rfl
  · obtain ⟨hlock, -, hhold', hcopy, -⟩ :=
      lockBlock_spec (s := { s with tri := { s.tri with hold := l } }.setFlag .tri TRI_STATUS_HOLD (l ≠ [])) hw b
    refine ⟨_, ?_, hhold', hlock, hcopy⟩
    change execTriLockHoldRelease s = _
    rw [execTriLockHoldRelease, hhold]
  · have hkept := (Kept.dmaBlocks (.refl s) (n := s.fld .tri TRI_DMA_COUNT) (k := 0) (first := s.fld .tri TRI_DMA_FIRST)
      (src := (s.fld .tri TRI_DMA_SRC_LO + s.fld .tri TRI_DMA_SRC_HI * 2 ^ 32) / 1024 * 1024)).canonical hcanon
    obtain ⟨-, -, -, hregs, -⟩ := hkept
    obtain ⟨hactive, hlocks, hshadow⟩ := dmaBlocks_spec (n := s.fld .tri TRI_DMA_COUNT) (k := 0)
      (src := (s.fld .tri TRI_DMA_SRC_LO + s.fld .tri TRI_DMA_SRC_HI * 2 ^ 32) / 1024 * 1024) hw
      fun i hi => (Nat.zero_add i).symm ▸ hlocked i hi
    refine ⟨_, execTriDmaDone_go hgo, ?_, ?_, State.flag_setFlag _ _ _ _ _ hregs (by decide), fun k n hk hn => ?_⟩
    · simpa only [State.setFlag_keeps] using hactive
    · simpa only [State.setFlag_keeps] using hlocks
    · refine (hshadow (s.fld .tri TRI_DMA_FIRST + k) n hn).trans ?_
      rw [if_pos (by omega), Nat.add_sub_cancel_left]
  · obtain ⟨n, hn⟩ := Nat.exists_eq_succ_of_ne_zero hcount
    change execTriDmaDone s = _
    rw [execTriDmaDone_go hgo, hn, dmaBlocks, if_neg (by simpa using hfirst)]
  · change execTriDmaDone s = _
    rw [execTriDmaDone, if_pos hgo]
  · change execPrefixLookupDone s = _
    rw [execPrefixLookupDone, hl]
    dsimp only
    rw [prefixLookupDone, hl]
  · have h := execPrefixLookupDone_cons hl hu
    refine ⟨fun slot hf => ?_, fun hf hc => ?_, fun hf hc => ?_⟩
    · rw [hf] at h
      exact h
    · rw [hf] at h
      exact h.trans (by rw [if_pos hc])
    · rw [hf] at h
      exact h.trans (by rw [if_neg (Bool.eq_false_iff.mp hc)])

end Sys2Proof.Machine

/-! # Return stack, arithmetic and divisions (R311, R312, R324) -/

namespace Sys2Proof.Machine
open Sys2Proof.Claims

/-! ## Class 0x9 -/

/-- A push with room. -/
theorem pushCell_of_lt {x : Cell} {c : Core} (h : c.ds.length < 32) : pushCell x c = .ok { c with ds := x :: c.ds } :=
  if_neg (by omega)

/-- Settles O2: each instruction acts on the core alone, and its own match picks the case of the stacks. -/
theorem returnStackClassMovesCells : Obligations.ReturnStackClassMovesCells := by
  unfold Obligations.ReturnStackClassMovesCells
  intro s k g sense i hr hg
  refine ⟨fun a l hds hroom => ?tor, fun a b r hrs hroom => ⟨?fromr, ?copyr⟩, fun e r hrs => ?rdrop, fun hroom => ?rdepth⟩
  case tor =>
    change execTor k g sense s = _
    rw [execTor]
    refine kPure_of_ok hr hg ?_
    simp only [passed, hds]
    exact if_neg (by omega)
  case fromr =>
    change execFromr k g sense s = _
    rw [execFromr]
    refine kPure_of_ok hr hg ?_
    simp only [passed, hrs]
    exact pushCell_of_lt hroom
  case copyr =>
    change execCopyr k g sense s = _
    rw [execCopyr]
    refine kPure_of_ok hr hg ?_
    simp only [passed, hrs]
    exact pushCell_of_lt hroom
  case rdrop =>
    change execRdrop k g sense s = _
    rw [execRdrop]
    refine kPure_of_ok hr hg ?_
    simp only [passed, hrs]
  case rdepth =>
    change execRdepth k g sense s = _
    rw [execRdepth]
    refine kPure_of_ok hr hg ?_
    exact pushCell_of_lt hroom

/-! ## Flags and their traps -/

/-- An arithmetic operation with room: its cells replaced, then its flags. -/
theorem aluOp_eq {n p : Nat} {f : Core → List Cell → List Cell × FlagWrite} {l pops pushes : List Cell} {w : FlagWrite}
    {c : Core} (hn : pops.length = n) (hp : pushes.length = p) (hf : f c pops = (pushes, w)) (hds : c.ds = pops ++ l)
    (hroom : l.length + p ≤ 32) : aluOp n p f c = writeFlags w { c with ds := pushes ++ l } := by
  have htake : c.ds.take n = pops := by simp [hds, ← hn]
  have hop : stackOp n p (fun l => (f c l).1) c = .ok { c with ds := pushes ++ l } :=
    stackOp_ok hn hds hp hroom (by rw [hf])
  simp only [aluOp, hop, htake, hf]

theorem writeFlags_of_v {w : FlagWrite} {c : Core} (hv : w.v = some true) (ht : c.trapV = true) :
    writeFlags w c = .error trV := if_pos ⟨hv, ht⟩

theorem writeFlags_of_dz {w : FlagWrite} {c : Core} (hv : w.v ≠ some true) (hdz : w.dz = some true)
    (ht : c.trapDz = true) : writeFlags w c = .error trDZ :=
  (if_neg fun h => hv h.1).trans (if_pos ⟨hdz, ht⟩)

theorem writeFlags_of_ok {w : FlagWrite} {c : Core} (hv : ¬ (w.v = some true ∧ c.trapV = true))
    (hdz : ¬ (w.dz = some true ∧ c.trapDz = true)) :
    writeFlags w c = .ok { c with c := w.c.getD c.c, v := w.v.getD c.v, dz := w.dz.getD c.dz } :=
  (if_neg hv).trans (if_neg hdz)

/-- An arithmetic instruction gives the cells and flags that its function gives on the popped cells. -/
theorem aluResult_of_kAlu {ins : Core → Guarded} {cyc n : Nat} {pops : List Cell} {pushes : Core → List Cell}
    {w : Core → FlagWrite} {f : Core → List Cell → List Cell × FlagWrite}
    (he : ∀ c s k g sense, exec (ins c k g sense) s = kAlu s k g sense cyc pops.length n f)
    (hn : ∀ c, (pushes c).length = n) (hf : ∀ c, f (passed c 1 cyc) pops = (pushes c, w c)) :
    AluResult ins cyc pops pushes w := by
  intro s k g sense i l hr hg hds hroom
  have hop : aluOp pops.length n f (passed (s.core k) 1 cyc) =
      writeFlags (w (s.core k)) { passed (s.core k) 1 cyc with ds := pushes (s.core k) ++ l } :=
    aluOp_eq rfl (hn _) (hf _) hds (hn _ ▸ hroom)
  refine ⟨fun hv ht => ?_, fun hv hdz ht => ?_, fun hv hdz => ?_⟩
  · rw [he]
    exact kPure_of_error hr hg (hop.trans (writeFlags_of_v hv ht))
  · rw [he]
    exact kPure_of_error hr hg (hop.trans (writeFlags_of_dz hv hdz ht))
  · rw [he]
    exact kPure_of_ok hr hg (hop.trans (writeFlags_of_ok hv hdz))

/-- As `aluResult_of_kAlu`, for an instruction that writes no flag and does not look at the core. -/
theorem aluResult_of_noFlags {ins : Guarded} {cyc : Nat} {pops pushes : List Cell}
    {f : Core → List Cell → List Cell × FlagWrite}
    (he : ∀ s k g sense, exec (ins k g sense) s = kAlu s k g sense cyc pops.length pushes.length f)
    (hf : ∀ c, f c pops = (pushes, noFlags)) : AluResult (fun _ => ins) cyc pops (fun _ => pushes) fun _ => keepFlags :=
  aluResult_of_kAlu (fun _ => he) (fun _ => rfl) fun _ => hf _

/-! ## Sums and differences -/

/-- A signed result of `w` bits differs from the exact one when that is outside the range. -/
theorem toInt_ofInt_ne_iff {w : Nat} (hw : 0 < w) (z : Int) :
    (BitVec.ofInt w z).toInt ≠ z ↔ z < -2 ^ (w - 1) ∨ 2 ^ (w - 1) - 1 < z := by
  have hpow : (2 : Int) ^ w = 2 ^ (w - 1) + 2 ^ (w - 1) := by
    rw [← two_mul, ← pow_succ', Nat.sub_add_cancel hw]
  have hpos : (0 : Int) < 2 ^ (w - 1) := by positivity
  constructor
  · intro h
    by_contra hc
    push Not at hc
    refine h ?_
    rw [BitVec.toInt_ofInt]
    apply Int.bmod_eq_of_le <;> push_cast <;> omega
  · intro h he
    have hlo := BitVec.le_two_mul_toInt (x := BitVec.ofInt w z)
    have hhi := BitVec.two_mul_toInt_lt (x := BitVec.ofInt w z)
    rw [he] at hlo hhi
    omega

/-- The sum with carry of a bit vector is that of its values. -/
theorem ofNat_add_eq_ofInt {w : Nat} (a b : BitVec w) (n : Nat) :
    BitVec.ofNat w (a.toNat + b.toNat + n) = BitVec.ofInt w (a.toInt + b.toInt + n) := by
  rw [BitVec.ofInt_add, BitVec.ofInt_add, BitVec.ofInt_toInt, BitVec.ofInt_toInt, BitVec.ofInt_natCast, BitVec.ofNat_add,
    BitVec.ofNat_add, BitVec.ofNat_toNat, BitVec.ofNat_toNat, BitVec.setWidth_eq, BitVec.setWidth_eq]

theorem sub_ofNat_eq_ofInt {w : Nat} (a b : BitVec w) (n : Nat) :
    a - b - BitVec.ofNat w n = BitVec.ofInt w (a.toInt - b.toInt - n) := by
  rw [Int.sub_eq_add_neg, Int.sub_eq_add_neg, BitVec.ofInt_add, BitVec.ofInt_add, BitVec.ofInt_neg, BitVec.ofInt_neg,
    BitVec.ofInt_toInt, BitVec.ofInt_toInt, BitVec.ofInt_natCast, BitVec.sub_eq_add_neg, BitVec.sub_eq_add_neg]

/-- The flags of a sum: carry out of the word, and a signed sum outside it. -/
theorem addFlags_eq {w : Nat} (hw : 0 < w) (a b : BitVec w) (c : Bool) : addFlags a b c =
    (a + b + BitVec.ofNat w c.toNat, cv (decide (2 ^ w ≤ a.toNat + b.toNat + c.toNat))
      (decide (a.toInt + b.toInt + c.toNat < -2 ^ (w - 1) ∨ 2 ^ (w - 1) - 1 < a.toInt + b.toInt + c.toNat))) := by
  have hsum : BitVec.ofNat w (a.toNat + b.toNat + c.toNat) = a + b + BitVec.ofNat w c.toNat := by
    rw [BitVec.ofNat_add, BitVec.ofNat_add, BitVec.ofNat_toNat, BitVec.ofNat_toNat, BitVec.setWidth_eq, BitVec.setWidth_eq]
  have hover := toInt_ofInt_ne_iff hw (a.toInt + b.toInt + c.toNat)
  simp only [addFlags, flagsCV, cv, Prod.mk.injEq]
  refine ⟨hsum, ?_⟩
  rw [ofNat_add_eq_ofInt, decide_eq_decide.mpr hover]

/-- The flags of a difference: a borrow, and a signed difference outside the word. -/
theorem subFlags_eq {w : Nat} (hw : 0 < w) (a b : BitVec w) (c : Bool) : subFlags a b c =
    (a - b - BitVec.ofNat w c.toNat, cv (decide (a.toNat < b.toNat + c.toNat))
      (decide (a.toInt - b.toInt - c.toNat < -2 ^ (w - 1) ∨ 2 ^ (w - 1) - 1 < a.toInt - b.toInt - c.toNat))) := by
  have hover := toInt_ofInt_ne_iff hw (a.toInt - b.toInt - c.toNat)
  simp only [subFlags, flagsCV, cv, Prod.mk.injEq, true_and]
  rw [sub_ofNat_eq_ofInt, decide_eq_decide.mpr hover]

theorem addFlags_cell (a b : Cell) (c : Bool) : addFlags a b c =
    (a + b + BitVec.ofNat 16 c.toNat, cv (decide (65536 ≤ a.toNat + b.toNat + c.toNat))
      (over16 (a.toInt + b.toInt + c.toNat))) := addFlags_eq (by decide) a b c

theorem subFlags_cell (a b : Cell) (c : Bool) : subFlags a b c =
    (a - b - BitVec.ofNat 16 c.toNat, cv (decide (a.toNat < b.toNat + c.toNat))
      (over16 (a.toInt - b.toInt - c.toNat))) := subFlags_eq (by decide) a b c

theorem addFlags_word (a b : Word) : addFlags a b false =
    (a + b, cv (decide (4294967296 ≤ a.toNat + b.toNat)) (over32 (a.toInt + b.toInt))) := by
  have h := addFlags_eq (by decide) a b false
  simpa [over32] using h

theorem subFlags_word (a b : Word) : subFlags a b false =
    (a - b, cv (decide (a.toNat < b.toNat)) (over32 (a.toInt - b.toInt))) := by
  have h := subFlags_eq (by decide) a b false
  simpa [over32] using h

/-- An increment carries from the highest cell and overflows from the highest signed one. -/
theorem addFlags_one (a : Cell) : addFlags a 1 false = (a + 1, cv (decide (a = 0xFFFF)) (decide (a = 0x7FFF))) := by
  have hc : 65536 ≤ a.toNat + 1 ↔ a = 0xFFFF := by bv_omega
  have hv : (a.toInt + (1 : Cell).toInt + (false.toNat : Nat) < -32768 ∨
      32767 < a.toInt + (1 : Cell).toInt + (false.toNat : Nat)) ↔ a = 0x7FFF := by
    have hlo := BitVec.le_two_mul_toInt (x := a)
    have hhi := BitVec.two_mul_toInt_lt (x := a)
    rw [← BitVec.toInt_inj, show (0x7FFF : Cell).toInt = 32767 from rfl, show (1 : Cell).toInt = 1 from rfl,
      show ((false.toNat : Nat) : Int) = 0 from rfl]
    omega
  rw [addFlags_cell]
  exact congrArg₂ Prod.mk (BitVec.add_zero _) (congrArg₂ cv (decide_eq_decide.mpr hc) (decide_eq_decide.mpr hv))

/-- A decrement borrows from zero and overflows from the lowest signed cell. -/
theorem subFlags_one (a : Cell) : subFlags a 1 false = (a - 1, cv (decide (a = 0)) (decide (a = 0x8000))) := by
  have hc : a.toNat < 1 ↔ a = 0 := by bv_omega
  have hv : (a.toInt - (1 : Cell).toInt - (false.toNat : Nat) < -32768 ∨
      32767 < a.toInt - (1 : Cell).toInt - (false.toNat : Nat)) ↔ a = 0x8000 := by
    have hlo := BitVec.le_two_mul_toInt (x := a)
    have hhi := BitVec.two_mul_toInt_lt (x := a)
    rw [← BitVec.toInt_inj, show (0x8000 : Cell).toInt = -32768 from rfl, show (1 : Cell).toInt = 1 from rfl,
      show ((false.toNat : Nat) : Int) = 0 from rfl]
    omega
  rw [subFlags_cell]
  exact congrArg₂ Prod.mk (BitVec.sub_zero _) (congrArg₂ cv (decide_eq_decide.mpr hc) (decide_eq_decide.mpr hv))

/-- Settles O3, from the flags of sums and differences of any width. -/
theorem arithmeticGivesResultAndFlags : Obligations.ArithmeticGivesResultAndFlags := by
  unfold Obligations.ArithmeticGivesResultAndFlags
  refine ⟨fun a b => ⟨?add, ?sub, ?adc, ?sbc, ?and, ?or, ?xor⟩, fun a => ⟨?not, ?neg, ?abs, ?inc, ?dec, fun n => ?addi⟩,
    fun al ah bl bh => ⟨?add32, ?sub32⟩⟩
  case add =>
    refine aluResult_of_kAlu (n := 1) (fun _ _ _ _ _ => rfl) (fun _ => rfl) fun c => ?_
    simp [addFlags_cell]
  case sub =>
    refine aluResult_of_kAlu (n := 1) (fun _ _ _ _ _ => rfl) (fun _ => rfl) fun c => ?_
    simp [subFlags_cell]
  case adc =>
    refine aluResult_of_kAlu (n := 1) (fun _ _ _ _ _ => rfl) (fun _ => rfl) fun c => ?_
    simp [addFlags_cell, passed]
  case sbc =>
    refine aluResult_of_kAlu (n := 1) (fun _ _ _ _ _ => rfl) (fun _ => rfl) fun c => ?_
    simp [subFlags_cell, passed]
  case and => exact aluResult_of_noFlags (fun _ _ _ _ => rfl) fun _ => rfl
  case or => exact aluResult_of_noFlags (fun _ _ _ _ => rfl) fun _ => rfl
  case xor => exact aluResult_of_noFlags (fun _ _ _ _ => rfl) fun _ => rfl
  case not => exact aluResult_of_noFlags (fun _ _ _ _ => rfl) fun _ => rfl
  case neg =>
    refine aluResult_of_kAlu (n := 1) (fun _ _ _ _ _ => rfl) (fun _ => rfl) fun c => ?_
    simp [negFlags]
  case abs =>
    refine aluResult_of_kAlu (n := 1) (fun _ _ _ _ _ => rfl) (fun _ => rfl) fun c => ?_
    simp [absFlags, BitVec.msb_eq_toInt]
  case inc =>
    refine aluResult_of_kAlu (n := 1) (fun _ _ _ _ _ => rfl) (fun _ => rfl) fun c => ?_
    change ([(addFlags a 1 false).1], (addFlags a 1 false).2) = _
    rw [addFlags_one]
  case dec =>
    refine aluResult_of_kAlu (n := 1) (fun _ _ _ _ _ => rfl) (fun _ => rfl) fun c => ?_
    change ([(subFlags a 1 false).1], (subFlags a 1 false).2) = _
    rw [subFlags_one]
  case addi =>
    refine aluResult_of_kAlu (n := 1) (fun _ _ _ _ _ => rfl) (fun _ => rfl) fun c => ?_
    simp [addFlags_cell, BitVec.toInt_signExtend_of_le]
  case add32 =>
    refine aluResult_of_kAlu (n := 2) (fun _ _ _ _ _ => rfl) (fun _ => rfl) fun c => ?_
    simp [addFlags_word]
  case sub32 =>
    refine aluResult_of_kAlu (n := 2) (fun _ _ _ _ _ => rfl) (fun _ => rfl) fun c => ?_
    simp [subFlags_word]

/-! ## Products and quotients -/

/-- The two cells of a double cell given as a signed number. -/
theorem cells32_ofInt (z : Int) : cells32 (BitVec.ofInt 32 z) = [BitVec.ofInt 16 (z / 65536), BitVec.ofInt 16 z] := by
  have hn : BitVec.ofInt 32 z = BitVec.ofNat 32 (z % 2 ^ 32).toNat := by
    apply BitVec.eq_of_toNat_eq
    rw [BitVec.toNat_ofInt, BitVec.toNat_ofNat]
    omega
  rw [hn, cells32_ofNat, List.cons.injEq, List.cons.injEq]
  refine ⟨?_, ?_, rfl⟩ <;> apply BitVec.eq_of_toNat_eq <;> rw [BitVec.toNat_ofNat, BitVec.toNat_ofInt] <;> omega

theorem divFlags_eq (a b : Cell) :
    ([(divFlags a b).2.1, (divFlags a b).1], (divFlags a b).2.2) =
      (if b = 0 then [0, a] else [BitVec.ofNat 16 (a.toNat / b.toNat), BitVec.ofNat 16 (a.toNat % b.toNat)],
        { c := none, v := none, dz := some (decide (b = 0)) }) := by
  unfold divFlags
  split
  next h => simp [h]
  next h =>
    have hq : a.udiv b = BitVec.ofNat 16 (a.toNat / b.toNat) := by
      rw [BitVec.udiv_eq, ← BitVec.toNat_udiv, BitVec.ofNat_toNat, BitVec.setWidth_eq]
    have hr : a.umod b = BitVec.ofNat 16 (a.toNat % b.toNat) := by
      rw [BitVec.umod_eq, ← BitVec.toNat_umod, BitVec.ofNat_toNat, BitVec.setWidth_eq]
    simp only [decide_eq_false h, hq, hr]

theorem divsFlags_eq (a b : Cell) :
    ([(divsFlags a b).2.1, (divsFlags a b).1], (divsFlags a b).2.2) =
      (if b = 0 then [0, a] else [BitVec.ofInt 16 (a.toInt.tdiv b.toInt), BitVec.ofInt 16 (a.toInt.tmod b.toInt)],
        { c := none, v := some (decide (a = 0x8000 ∧ b = 0xFFFF)), dz := some (decide (b = 0)) }) := by
  unfold divsFlags
  split
  next h => simp [h]
  next h =>
    have hq : a.sdiv b = BitVec.ofInt 16 (a.toInt.tdiv b.toInt) :=
      BitVec.eq_of_toInt_eq (by rw [BitVec.toInt_sdiv, BitVec.toInt_ofInt])
    have hr : a.srem b = BitVec.ofInt 16 (a.toInt.tmod b.toInt) := by
      rw [← BitVec.toInt_srem, BitVec.ofInt_toInt]
    simp only [decide_eq_false h, hq, hr]

/-- Settles O4. -/
theorem multiplyAndDivideGiveDoubleResults : Obligations.MultiplyAndDivideGiveDoubleResults := by
  unfold Obligations.MultiplyAndDivideGiveDoubleResults
  refine fun a b => ⟨?mul, ?muls, ?div, ?divs⟩
  case mul =>
    rw [← cells32_ofNat]
    exact aluResult_of_noFlags (fun _ _ _ _ => rfl) fun _ => rfl
  case muls =>
    rw [← cells32_ofInt]
    exact aluResult_of_noFlags (fun _ _ _ _ => rfl) fun _ => rfl
  case div => exact aluResult_of_kAlu (n := 2) (fun _ _ _ _ _ => rfl) (fun _ => by split <;> rfl) fun _ => divFlags_eq a b
  case divs => exact aluResult_of_kAlu (n := 2) (fun _ _ _ _ _ => rfl) (fun _ => by split <;> rfl) fun _ => divsFlags_eq a b

end Sys2Proof.Machine

/-! # Compares, predicates and literals (R316 to R318) -/

namespace Sys2Proof.Machine
open Sys2Proof.Claims

theorem decide_toNat_le (a b : Cell) : decide (b.toNat ≤ a.toNat) = ! a.ult b := by
  rw [BitVec.ult_eq_decide, ← decide_not, decide_eq_decide]
  omega

theorem decide_toInt_le (a b : Cell) : decide (b.toInt ≤ a.toInt) = ! a.slt b := by
  rw [BitVec.slt_eq_decide, ← decide_not, decide_eq_decide]
  omega

/-- A predicate written reads its value, P0 none of it, and the others stay. -/
theorem predGet_predSet {c : Core} {pd n : Nat} {b : Bool} (hpd : pd < 8) (hn : n < 8) :
    predGet (predSet c pd b) n = if n = pd ∧ pd ≠ 0 then b else predGet c n := by
  have hbit : (BitVec.ofNat 8 (2 ^ pd)).getLsbD n = decide (pd = n) := by
    rw [← BitVec.testBit_toNat, BitVec.toNat_ofNat, Nat.mod_eq_of_lt (Nat.pow_lt_pow_right (by decide) hpd),
      Nat.testBit_two_pow]
  unfold predSet
  by_cases h0 : pd = 0
  · rw [if_pos (.inl h0), if_neg fun h => h.2 h0]
  · rw [if_neg (by omega)]
    generalize BitVec.ofNat 8 (2 ^ pd) = m at hbit
    unfold predGet
    by_cases he : n = pd
    · subst he
      cases b with
      | false => simp [h0, BitVec.testBit_toNat, hbit, -BitVec.toNat_and, -BitVec.toNat_not]
      | true => simp [h0, BitVec.testBit_toNat, hbit, -BitVec.toNat_or]
    · have he' : pd ≠ n := fun h => he h.symm
      cases b with
      | false =>
        have hm : m[n] = false := by rw [← BitVec.getLsbD_eq_getElem hn, hbit, decide_eq_false he']
        simp [he, hn, BitVec.testBit_toNat, hm, -BitVec.toNat_and, -BitVec.toNat_not]
      | true => simp [he, he', BitVec.testBit_toNat, hbit, -BitVec.toNat_or]

/-- What `predSet` leaves is what `withPred` asks for. -/
theorem withPred_predSet {c : Core} {pd : Nat} {b : Bool} (hpd : pd < 8) : withPred c pd b (predSet c pd b) := by
  refine ⟨(predSet c pd b).preds, ?_, fun n hn => predGet_predSet hpd hn⟩
  unfold predSet
  split <;> rfl

section Compare
variable {s : State} {k g pd : Nat} {sense : Bool} {i : Item} (hr : TaskReady s k i)
  (hg : GuardOpen (s.core k) g sense) (hpd : pd < 8)
include hr hg hpd

/-- A compare of two cells pops them and writes its condition. -/
theorem kCmp2_result {a b : Cell} {l : List Cell} {f : Cell → Cell → Bool} (hds : (s.core k).ds = b :: a :: l) :
    ∃ c', withPred { passed (s.core k) 1 1 with ds := l } pd (f a b) c' ∧ kCmp2 s k g sense pd f = .next (s.setCore k c') := by
  refine ⟨_, withPred_predSet hpd, kPure_of_ok hr hg ?_⟩
  simp only [passed, hds]

/-- So does a compare of one cell with zero. -/
theorem kCmp1_result {a : Cell} {l : List Cell} {f : Cell → Bool} (hds : (s.core k).ds = a :: l) :
    ∃ c', withPred { passed (s.core k) 1 1 with ds := l } pd (f a) c' ∧ kCmp1 s k g sense pd f = .next (s.setCore k c') := by
  refine ⟨_, withPred_predSet hpd, kPure_of_ok hr hg ?_⟩
  simp only [passed, hds]

/-- A predicate instruction leaves the stack alone. -/
theorem kPred_result {f : Core → Bool} :
    ∃ c', withPred { passed (s.core k) 1 1 with ds := (s.core k).ds } pd (f (passed (s.core k) 1 1)) c' ∧
      kPred s k g sense pd f = .next (s.setCore k c') :=
  ⟨_, withPred_predSet hpd, kPure_of_ok hr hg rfl⟩

end Compare

/-- Settles O7. -/
theorem comparesAndPredicatesWriteTheirPredicate : Obligations.ComparesAndPredicatesWriteTheirPredicate := by
  unfold Obligations.ComparesAndPredicatesWriteTheirPredicate
  intro s k g sense i pd hr hg hpd
  have two {a b : Cell} {l : List Cell} (f : Cell → Cell → Bool) (hds : (s.core k).ds = b :: a :: l) :=
    kCmp2_result (f := f) hr hg hpd hds
  have one {a : Cell} {l : List Cell} (f : Cell → Bool) (hds : (s.core k).ds = a :: l) := kCmp1_result (f := f) hr hg hpd hds
  refine ⟨fun a b l hds => ?_, fun a l hds => ?_, ?_, fun ps hps => ?_, fun hroom => ⟨fun n hn => ?_, ?_, fun n => ?_⟩⟩
  · have hne : decide (a ≠ b) = (a != b) := decide_not
    rw [decide_toNat_le, decide_toNat_le, decide_toInt_le, decide_toInt_le, hne, ← BitVec.ult_eq_decide, ← BitVec.ult_eq_decide, ← BitVec.slt_eq_decide,
      ← BitVec.slt_eq_decide, ← BitVec.testBit_toNat]
    exact ⟨two (· == ·) hds, two (· != ·) hds, two (·.ult ·) hds, two (! ·.ult ·) hds, two (fun a b => b.ult a) hds,
      two (fun a b => ! b.ult a) hds, two (·.slt ·) hds, two (! ·.slt ·) hds, two (fun a b => b.slt a) hds,
      two (fun a b => ! b.slt a) hds, two (fun a n => a.toNat.testBit (n.toNat % 16)) hds⟩
  · have hlt : decide (a.toInt < 0) = a.msb := BitVec.msb_eq_toInt.symm
    have hge : decide (0 ≤ a.toInt) = ! a.msb := by
      rw [BitVec.msb_eq_toInt, ← decide_not, decide_eq_decide]
      omega
    have hne : decide (a ≠ 0) = (a != 0) := decide_not
    rw [hlt, hge, hne]
    exact ⟨one (· == 0) hds, one (· != 0) hds, one (·.msb) hds, one (! ·.msb) hds⟩
  · exact ⟨kPred_result (f := fun c => c.c) hr hg hpd, kPred_result (f := fun c => c.v) hr hg hpd,
      kPred_result (f := fun c => c.dz) hr hg hpd⟩
  · exact ⟨kPred_result (f := fun c => predGet c pd && predGet c ps) hr hg hpd,
      kPred_result (f := fun c => predGet c pd || predGet c ps) hr hg hpd,
      kPred_result (f := fun c => predGet c pd != predGet c ps) hr hg hpd,
      kPred_result (f := fun c => predGet c ps) hr hg hpd⟩
  · change execLit8 k g sense n s = _
    rw [execLit8, if_neg hn]
    exact kPure_of_ok hr hg (pushCell_of_lt hroom)
  · change execLit8 k g sense 0xFF s = _
    rw [execLit8, if_pos rfl]
    refine kPure_of_ok hr hg ?_
    have hpc : (passed (s.core k) 2 2).pc - 1 = (s.core k).pc + 1 := by
      change (s.core k).pc + 2 - 1 = (s.core k).pc + 1
      bv_omega
    rw [hpc]
    exact pushCell_of_lt hroom
  · exact kPure_of_ok hr hg (pushCell_of_lt hroom)

end Sys2Proof.Machine

/-! # Loads and stores of the local space (R319, R321) -/

namespace Sys2Proof.Machine
open Sys2Proof.Claims

section Memory
variable {s : State} {k g cyc n : Nat} {sense : Bool} {i : Item} {pops l : List Cell} {f : Item → List Cell → Core → KRes}

/-- What a memory instruction does with the cells it pops. -/
theorem kMem_of_ok {c' : Core} (hr : TaskReady s k i) (hg : GuardOpen (s.core k) g sense) (hds : (s.core k).ds = pops ++ l)
    (hn : pops.length = n) (hf : f i pops { passed (s.core k) 1 cyc with ds := l } = .ok c') :
    kMem s k g sense cyc n f = .next (s.setCore k c') := by
  refine kPure_of_ok hr hg ?_
  simpa [popN, passed, hds, ← hn] using hf

/-- The trap it takes. -/
theorem kMem_of_error {t : Nat} (hr : TaskReady s k i) (hg : GuardOpen (s.core k) g sense)
    (hds : (s.core k).ds = pops ++ l) (hn : pops.length = n)
    (hf : f i pops { passed (s.core k) 1 cyc with ds := l } = .error t) :
    kMem s k g sense cyc n f = .next (trapTask s k i t) := by
  refine kPure_of_error hr hg ?_
  simpa [popN, passed, hds, ← hn] using hf

end Memory

/-! ## Reads -/

section Reads
variable {i : Item} {c : Core} {a len cyc : Nat} {ds : List Cell}

/-- The local space does not look at the PC, the counts and the stack. -/
theorem localRead_passed (n : Nat) :
    localRead i { passed c len cyc with ds := ds } a n = localRead i c a n := by
  induction n generalizing a with
  | zero => rfl
  | succ n ih =>
    rw [localRead, localRead, ih]
    rfl

theorem localRead_length {n : Nat} {b : Bytes} (h : localRead i c a n = .ok b) : b.length = n := by
  induction n generalizing a b with
  | zero =>
    cases h
    rfl
  | succ n ih =>
    rw [localRead] at h
    split at h
    next hl =>
      cases h
      rw [List.length_cons, ih hl]
    · cases h

/-- A cell whose two bytes can be read. -/
theorem loadCell_of_bytes {x y : Byte} (ha : a % 2 = 0) (hx : localByte i c a = some x)
    (hy : localByte i c (a + 1) = some y) : loadCell i c a = .ok (x ++ y) := by
  rw [loadCell, if_neg (by omega), localRead, localRead, localRead, hx, hy, append_bytes_eq_ofNat]
  simp [beNat]

theorem loadCell_of_odd (ha : a % 2 = 1) : loadCell i c a = .error trALIGN := if_pos ha

theorem loadCell_of_none (ha : a % 2 = 0) (hx : localByte i c a = none) : loadCell i c a = .error trMEM := by
  rw [loadCell, if_neg (by omega), localRead, hx]

/-- A byte of the item window. -/
theorem localByte_window (h : a < 64) : localByte i c (0x4100 + a) = some ((itemWindow i c).getD a 0) := by
  rw [localByte, if_neg (by omega), if_neg (by omega), if_pos (by omega), Nat.add_sub_cancel_left]

/-- A byte of the context, where the item has one. -/
theorem localByte_context (h : a < 256) (hc : i.ctxId ≠ 0) : localByte i c (0x4000 + a) = some (c.ctx.getD a 0) := by
  rw [localByte, if_neg (by omega), if_pos (by omega), if_neg hc, Nat.add_sub_cancel_left]

theorem localByte_noContext (h : a < 256) (hc : i.ctxId = 0) : localByte i c (0x4000 + a) = none := by
  rw [localByte, if_neg (by omega), if_pos (by omega), if_pos hc]

end Reads

theorem kLoad_of_loadCell {i : Item} {c : Core} {a : Nat} {x : Cell} (h : loadCell i c a = .ok x)
    (hroom : c.ds.length < 32) : kLoad i a c = .ok { c with ds := x :: c.ds } := by
  rw [kLoad, h]
  exact pushCell_of_lt hroom

theorem kLoad_of_error {i : Item} {c : Core} {a t : Nat} (h : loadCell i c a = .error t) : kLoad i a c = .error t := by
  rw [kLoad, h]

/-- Settles O8: a load reads the bytes of a byte string of the local space, which the pop has not changed. -/
theorem loadsReadLocalSpaceBigEndian : Obligations.LoadsReadLocalSpaceBigEndian := by
  unfold Obligations.LoadsReadLocalSpaceBigEndian
  intro s k g sense i hr hg
  refine ⟨fun a l hds hroom => ⟨fun h b heven hh hb => ⟨?ld, fun hroom' => ?ldp, fun h2 b2 hh2 hb2 hroom' => ?ld32⟩,
    fun b hb => ?ldb, fun hodd => ?odd, fun heven hnone => ?none, fun hnone => ?noneByte⟩,
    fun hroom => ⟨fun w => ?ldw, fun w hctx => ?ldc, fun w hctx => ?noContext⟩⟩
  case ld =>
    exact kMem_of_ok (pops := [a]) hr hg hds rfl (kLoad_of_loadCell (loadCell_of_bytes heven hh hb) hroom)
  case ldp =>
    refine kMem_of_ok (pops := [a]) hr hg hds rfl ?_
    have hx : loadCell i { passed (s.core k) 1 1 with ds := l } a.toNat = .ok (h ++ b) := loadCell_of_bytes heven hh hb
    simp only [List.getD_cons_zero, hx]
    exact if_neg (by omega)
  case ld32 =>
    refine kMem_of_ok (pops := [a]) hr hg hds rfl ?_
    have hx : loadCell i { passed (s.core k) 1 2 with ds := l } a.toNat = .ok (h ++ b) := loadCell_of_bytes heven hh hb
    have hy : loadCell i { passed (s.core k) 1 2 with ds := l } (a.toNat + 2) = .ok (h2 ++ b2) :=
      loadCell_of_bytes (by omega) hh2 hb2
    simp only [List.getD_cons_zero, hx, hy]
    exact if_neg (by omega)
  case ldb =>
    refine kMem_of_ok (pops := [a]) hr hg hds rfl ?_
    have hb : localByte i { passed (s.core k) 1 1 with ds := l } a.toNat = some b := hb
    simp only [List.getD_cons_zero, hb]
    exact pushCell_of_lt hroom
  case odd => exact kMem_of_error (pops := [a]) hr hg hds rfl (kLoad_of_error (loadCell_of_odd hodd))
  case none => exact kMem_of_error (pops := [a]) hr hg hds rfl (kLoad_of_error (loadCell_of_none heven hnone))
  case noneByte =>
    refine kMem_of_error (pops := [a]) hr hg hds rfl ?_
    have hnone : localByte i { passed (s.core k) 1 1 with ds := l } a.toNat = none := hnone
    simp only [List.getD_cons_zero, hnone]
  case ldw =>
    have hlt := w.isLt
    change execLdw k g sense w s = _
    rw [execLdw]
    refine kMem_of_ok (pops := []) (n := 0) hr hg rfl rfl ?_
    exact kLoad_of_loadCell (loadCell_of_bytes (by omega) (localByte_window (by omega))
      (localByte_window (a := 2 * w.toNat + 1) (by omega))) hroom
  case ldc =>
    have hlt := w.isLt
    change execLdc k g sense w s = _
    rw [execLdc]
    refine kMem_of_ok (pops := []) (n := 0) hr hg rfl rfl ?_
    exact kLoad_of_loadCell (loadCell_of_bytes (by omega) (localByte_context (by omega) hctx)
      (localByte_context (a := 2 * w.toNat + 1) (by omega) hctx)) hroom
  case noContext =>
    have hlt := w.isLt
    change execLdc k g sense w s = _
    rw [execLdc]
    refine kMem_of_error (pops := []) (n := 0) hr hg rfl rfl ?_
    exact kLoad_of_error (loadCell_of_none (by omega) (localByte_noContext (by omega) hctx))

/-! ## Writes -/

section Writes
variable {i : Item} {c : Core} {a : Nat}

/-- A byte string whose every place may be written is written. -/
theorem localWrite_of_writable {b : Bytes} (h : ∀ j < b.length, localWritable i (a + j) = true) :
    localWrite i c a b = .ok ((List.range b.length).foldl (fun c k => localPut c (a + k) (b.getD k 0)) c) := by
  refine if_pos ?_
  simpa using h

theorem localWrite_of_not_writable {x : Byte} {b : Bytes} (h : localWritable i a = false) :
    localWrite i c a (x :: b) = .error trMEM := by
  refine if_neg fun hall => ?_
  have h0 := List.all_eq_true.mp hall 0 (by simp)
  rw [Nat.add_zero, h] at h0
  cases h0

/-- The two bytes of a cell, high byte first. -/
theorem beBytes_cell (x : Cell) : beBytes 2 x.toNat = [x.extractLsb' 8 8, x.extractLsb' 0 8] := by
  have hhi : BitVec.ofNat 8 (x.toNat / 256) = x.extractLsb' 8 8 := by
    apply BitVec.eq_of_toNat_eq
    rw [BitVec.toNat_ofNat, BitVec.extractLsb'_toNat, Nat.shiftRight_eq_div_pow]
  have hlo : BitVec.ofNat 8 x.toNat = x.extractLsb' 0 8 := by
    apply BitVec.eq_of_toNat_eq
    rw [BitVec.toNat_ofNat, BitVec.extractLsb'_toNat, Nat.shiftRight_zero]
  rw [beBytes, beBytes, beBytes, Nat.pow_one, Nat.pow_zero, Nat.div_one, hhi, hlo]

/-- A cell stored at an even address that may be written. -/
theorem storeCell_of_writable {x : Cell} (ha : a % 2 = 0) (h : ∀ j < 2, localWritable i (a + j) = true) :
    storeCell i c a x = .ok (localPut (localPut c a (x.extractLsb' 8 8)) (a + 1) (x.extractLsb' 0 8)) := by
  rw [storeCell, if_neg (by omega), beBytes_cell]
  exact localWrite_of_writable (b := [x.extractLsb' 8 8, x.extractLsb' 0 8]) h

theorem storeCell_of_odd {x : Cell} (ha : a % 2 = 1) : storeCell i c a x = .error trALIGN := if_pos ha

theorem storeCell_of_not_writable {x : Cell} (ha : a % 2 = 0) (h : localWritable i a = false) :
    storeCell i c a x = .error trMEM := by
  rw [storeCell, if_neg (by omega), beBytes_cell, localWrite_of_not_writable h]

/-- The task's own half of the item window may be written, the other half not. -/
theorem localWritable_window (w : Nat) (h : w < 64) : localWritable i (0x4100 + w) = decide (32 ≤ w) := by
  have h1 : ¬ 0x4100 + w < 0x4000 := by omega
  have h2 : ¬ (0x4008 ≤ 0x4100 + w ∧ 0x4100 + w < 0x4100) := by omega
  have h3 : (0x4120 ≤ 0x4100 + w ∧ 0x4100 + w < 0x4140) ↔ 32 ≤ w := by omega
  simp only [localWritable, h1, h2, h3, decide_false, Bool.false_and, Bool.false_or]

/-- A byte written leaves the data stack. -/
theorem localPut_ds {b : Byte} : (localPut c a b).ds = c.ds := by
  unfold localPut
  split
  · rfl
  · split <;> rfl

@[simp] theorem length_zeros (n : Nat) : (zeros n).length = n := List.length_replicate

theorem getD_zeros (n j : Nat) : (zeros n).getD j 0 = 0 := by
  rw [zeros, List.getD_eq_getElem?_getD, List.getElem?_replicate]
  split <;> rfl

end Writes

/-- The cycles of a block instruction, by the count on top of the stack. -/
theorem blockCycles_of_ds {s : State} {k : Nat} {n : Cell} {l : List Cell} (h : (s.core k).ds = n :: l) :
    blockCycles s k = 1 + (n.toNat + 1) / 2 := by
  rw [blockCycles, h]
  rfl

/-- Settles O9: a store is a write of the bytes of its cells, whole or not at all. -/
theorem storesWriteLocalSpaceBigEndian : Obligations.StoresWriteLocalSpaceBigEndian := by
  unfold Obligations.StoresWriteLocalSpaceBigEndian
  intro s k g sense i hr hg
  refine ⟨fun x a l hds => ⟨fun heven hw => ⟨?st, fun hroom => ?stp⟩, fun hw => ?stb, fun hodd => ?odd, fun hw => ?noByte⟩,
    fun hi lo a l hds heven hw => ?st32, fun x l w hds => ⟨fun hle => ?stw, fun hlt => ?low⟩,
    fun n dst src l hds => ⟨fun b hle hb hw => ?copy, fun hlt => ?copyLong⟩,
    fun n a l hds => ⟨fun hle hw => ?zero, fun hlt => ?zeroLong⟩⟩
  case st => exact kMem_of_ok (pops := [a, x]) hr hg hds rfl (storeCell_of_writable heven hw)
  case stp =>
    refine kMem_of_ok (pops := [a, x]) hr hg hds rfl ?_
    have hst := storeCell_of_writable (x := x) (c := { passed (s.core k) 1 1 with ds := l }) heven hw
    simp only [List.getD_cons_zero, List.getD_cons_succ, hst]
    rw [pushCell_of_lt (by rwa [localPut_ds, localPut_ds]), localPut_ds, localPut_ds]
  case stb =>
    refine kMem_of_ok (pops := [a, x]) hr hg hds rfl ?_
    exact localWrite_of_writable (b := [x.extractLsb' 0 8]) hw
  case odd => exact kMem_of_error (pops := [a, x]) hr hg hds rfl (storeCell_of_odd hodd)
  case noByte =>
    refine kMem_of_error (pops := [a, x]) hr hg hds rfl ?_
    exact localWrite_of_not_writable hw
  case st32 =>
    refine kMem_of_ok (pops := [a, hi, lo]) hr hg hds rfl ?_
    simp only [List.getD_cons_zero, List.getD_cons_succ, beBytes_cell]
    rw [if_neg (by omega)]
    exact localWrite_of_writable (b := [hi.extractLsb' 8 8, hi.extractLsb' 0 8, lo.extractLsb' 8 8, lo.extractLsb' 0 8]) hw
  case stw =>
    have hlt := w.isLt
    refine kMem_of_ok (pops := [x]) hr hg hds rfl ?_
    have hw : ∀ j < 2, localWritable i (0x4100 + 2 * w.toNat + j) = true := fun j hj => by
      rw [Nat.add_assoc, localWritable_window _ (by omega)]
      exact decide_eq_true (by omega)
    rw [show 0x4101 + 2 * w.toNat = 0x4100 + 2 * w.toNat + 1 by omega]
    exact storeCell_of_writable (by omega) hw
  case low =>
    refine kMem_of_error (pops := [x]) hr hg hds rfl ?_
    exact storeCell_of_not_writable (a := 0x4100 + 2 * w.toNat) (by omega)
      ((localWritable_window _ (by omega)).trans (decide_eq_false (by omega)))
  case copy =>
    change execCopy k g sense s = _
    rw [execCopy, blockCycles_of_ds hds]
    refine kMem_of_ok (pops := [n, dst, src]) hr hg hds rfl ?_
    have hlen := localRead_length hb
    have hread : localRead i { passed (s.core k) 1 (1 + (n.toNat + 1) / 2) with ds := l } src.toNat n.toNat = .ok b :=
      (localRead_passed n.toNat).trans hb
    simp only [List.getD_cons_zero, List.getD_cons_succ, hread]
    rw [if_neg (by omega), localWrite_of_writable (by rwa [hlen]), hlen]
  case copyLong =>
    refine kMem_of_error (pops := [n, dst, src]) hr hg hds rfl ?_
    exact if_pos hlt
  case zero =>
    change execZero k g sense s = _
    rw [execZero, blockCycles_of_ds hds]
    refine kMem_of_ok (pops := [n, a]) hr hg hds rfl ?_
    simp only [List.getD_cons_zero, List.getD_cons_succ]
    rw [if_neg (by omega), localWrite_of_writable (by rwa [length_zeros]), length_zeros]
    simp only [getD_zeros]
  case zeroLong =>
    refine kMem_of_error (pops := [n, a]) hr hg hds rfl ?_
    exact if_pos hlt

end Sys2Proof.Machine

/-! # Control transfers (R323 to R325): a CALL out of its segment with the return stack full -/

namespace Sys2Proof.Machine
open Sys2Proof.Claims

/-- The item of the state below: tenant 0's, running on core 0. -/
def callingItem : Item := { Item.blank with stamp := 1, place := .running 0, deadline := 1000, verified := true }

/-- Core 0 RUNNING, its task at 0x200 in the platform segment, sixteen entries on its return stack. -/
def fullReturnStack : State :=
  { State.reset.setFld (.kcr 0 0) STAT_STATE stRunning with
    items := [(1, some callingItem)]
    cores := [(0, { Core.empty with run := some 1, rs := List.replicate 16 (0, false), pc := 0x200 })] }

theorem fullReturnStack_ready : TaskReady fullReturnStack 0 callingItem := by
  unfold TaskReady
  decide +kernel

theorem fullReturnStack_guardOpen : GuardOpen (fullReturnStack.core 0) 0 false := by
  unfold GuardOpen
  decide +kernel

/-- The trap code that a step leaves in the page of core 0. -/
def lastTrap (r : Res) : Nat :=
  match r with
  | .next t => t.fld (.kcr 0 0) KCR_LASTTRAP_CODE
  | _ => 0

/-- The full return stack is found before the target: the STACK trap. -/
theorem lastTrap_call_fullReturnStack : lastTrap (exec (.call 0 0 false 0xC000) fullReturnStack) = 0x02 := by
  decide +kernel

theorem lastTrap_pc_fullReturnStack : lastTrap (.next (trapTask fullReturnStack 0 callingItem 0x0A)) = 0x0A := by
  decide +kernel

/-- Refutes O10: a CALL whose target is outside its segment and outside the gates takes the STACK trap, and not the PC
trap, when 16 entries fill the return stack. -/
theorem not_controlTransfersFollowSegmentsAndLinks : ¬ Obligations.ControlTransfersFollowSegmentsAndLinks := by
  unfold Obligations.ControlTransfersFollowSegmentsAndLinks
  intro h
  obtain ⟨-, htransfer, -⟩ := h fullReturnStack 0 0 false callingItem fullReturnStack_ready fullReturnStack_guardOpen
  obtain ⟨-, -, -, hcall⟩ := htransfer 0xC000
  have hpc : exec (.call 0 0 false 0xC000) fullReturnStack = .next (trapTask fullReturnStack 0 callingItem 0x0A) :=
    hcall (by decide +kernel) (by decide)
  have hcode := lastTrap_call_fullReturnStack
  rw [hpc, lastTrap_pc_fullReturnStack] at hcode
  exact absurd hcode (by decide)

end Sys2Proof.Machine

/-! # Slots and SEND (R326 to R329) -/

namespace Sys2Proof.Machine
open Sys2Proof.Claims

section Ready
variable {s : State} {k g : Nat} {sense : Bool} {len cyc : Nat} {i : Item} {f : State → Item → Core → Except Nat State}

/-- The core of a ready task still runs it after it has passed its words, and so is not the empty core. -/
theorem passed_ne_empty (hr : TaskReady s k i) : passed (s.core k) len cyc ≠ Core.empty := by
  obtain ⟨hi, -⟩ := hr
  obtain ⟨n, hn, -⟩ := Option.bind_eq_some_iff.1 hi
  exact Core.ne_empty_of_run (c := passed (s.core k) len cyc) hn

theorem setCore_passed_setCore (hr : TaskReady s k i) (c : Core) :
    (s.setCore k (passed (s.core k) len cyc)).setCore k c = s.setCore k c :=
  State.setCore_setCore (passed_ne_empty hr)

/-- An open guard lets an instruction have its effect on the state. -/
theorem kRun_of_ok {t : State} (hr : TaskReady s k i) (hg : GuardOpen (s.core k) g sense)
    (hf : f (s.setCore k (passed (s.core k) len cyc)) i (passed (s.core k) len cyc) = .ok t) :
    kRun s k g sense len cyc false f = .next t := by
  obtain ⟨hi, hrun, hw, hfetch, hn⟩ := hr
  rw [kRun_open hn hi hrun hw hfetch hg.1 hg.2 (c' := passed (s.core k) len cyc) rfl, hf]

/-- An open guard lets an instruction take the trap it answers, from the state before. -/
theorem kRun_of_error {t : Nat} (hr : TaskReady s k i) (hg : GuardOpen (s.core k) g sense)
    (hf : f (s.setCore k (passed (s.core k) len cyc)) i (passed (s.core k) len cyc) = .error t) :
    kRun s k g sense len cyc false f = .next (trapTask s k i t) := by
  obtain ⟨hi, hrun, hw, hfetch, hn⟩ := hr
  rw [kRun_open hn hi hrun hw hfetch hg.1 hg.2 (c' := passed (s.core k) len cyc) rfl, hf]

end Ready

/-! ## WAIT, GETW and RELS -/

/-- Two bytes of a string as a cell, high byte first. -/
theorem ofNat_field_two {d : Bytes} {n : Nat} (h : n + 2 ≤ d.length) :
    BitVec.ofNat 16 (field d n 2) = (d.getD n 0 ++ d.getD (n + 1) 0 : BitVec 16) := by
  have h0 : n < d.length := by omega
  have h1 : n + 1 < d.length := by omega
  have hslice : slice d n 2 = [d.getD n 0, d.getD (n + 1) 0] := by
    rw [slice, List.drop_eq_getElem_cons h0, List.drop_eq_getElem_cons h1, ← List.getD_eq_getElem d 0 h0,
      ← List.getD_eq_getElem d 0 h1]
    rfl
  rw [field, hslice]
  generalize d.getD n 0 = x
  generalize d.getD (n + 1) 0 = y
  have hx := x.isLt
  have hy := y.isLt
  apply BitVec.eq_of_toNat_eq
  rw [BitVec.toNat_append, Nat.shiftLeft_eq, Nat.mul_comm, ← Nat.two_pow_add_eq_or_of_lt hy]
  simp only [beNat, List.foldl, BitVec.toNat_ofNat]
  omega

/-- Settles O11: each instruction read off at the state of its slot. -/
theorem slotInstructionsFollowSlotState : Obligations.SlotInstructionsFollowSlotState := by
  unfold Obligations.SlotInstructionsFollowSlotState
  intro s k g sense i x l hr hg hx
  refine ⟨fun hds => ⟨fun d hslot => ⟨?waitDone, ?relsDone⟩, fun hslot => ⟨?waitPending, ?relsPending⟩,
    fun hslot => ⟨?waitFree, ?relsFree⟩⟩, fun w hds hw => ⟨fun d hslot hlen => ?getw, fun hslot => ?getwNotDone⟩⟩
  case waitDone =>
    change execWait k g sense s = _
    rw [execWait]
    exact kPure_of_ok hr hg (by simp only [passed, hds, slotAt, hslot])
  case relsDone =>
    change execRels k g sense s = _
    rw [execRels]
    exact kPure_of_ok hr hg (by simp only [passed, hds, slotAt, hslot])
  case waitPending =>
    change execWait k g sense s = _
    rw [execWait]
    exact kPure_of_ok hr hg (by simp only [passed, hds, slotAt, hslot])
  case relsPending =>
    change execRels k g sense s = _
    rw [execRels]
    exact kPure_of_error hr hg (by simp only [passed, hds, slotAt, hslot])
  case waitFree =>
    change execWait k g sense s = _
    rw [execWait]
    exact kPure_of_error hr hg (by simp only [passed, hds, slotAt, hslot])
  case relsFree =>
    change execRels k g sense s = _
    rw [execRels]
    exact kPure_of_error hr hg (by simp only [passed, hds, slotAt, hslot])
  case getw =>
    change execGetw k g sense s = _
    rw [execGetw]
    refine kRun_of_ok hr hg ?_
    simp only [setCore_passed_setCore hr]
    simp only [passed, hds, slotAt, hslot, if_pos hw, ofNat_field_two hlen]
  case getwNotDone =>
    change execGetw k g sense s = _
    rw [execGetw]
    refine kRun_of_error hr hg ?_
    obtain hslot | hslot := hslot <;> simp only [passed, hds, slotAt, hslot]

/-! ## SEND -/

/-- The lowest FREE slot is the one below which no slot is FREE. -/
theorem freeSlot_of_least {c : Core} {n : Nat} (hn : n < 8) (hfree : c.slots.getD n .free = .free)
    (hleast : ∀ m < n, c.slots.getD m .free ≠ .free) : freeSlot c = some n := by
  rw [freeSlot, List.find?_range_eq_some]
  refine ⟨decide_eq_true hfree, List.mem_range.2 hn, fun m hm => ?_⟩
  simpa using hleast m hm

theorem freeSlot_of_none {c : Core} (h : ∀ m < 8, c.slots.getD m .free ≠ .free) : freeSlot c = none :=
  List.find?_eq_none.2 fun m hm => by simpa using h m (List.mem_range.1 hm)

/-- The segment of a SEND, from the PC after its word. -/
theorem instrSeg_passed (c : Core) (cyc : Nat) : instrSeg (passed c 1 cyc) = segOf c.pc := by
  have hpc : (passed c 1 cyc).pc - 1 = c.pc := by
    change c.pc + 1 - 1 = c.pc
    bv_omega
  rw [instrSeg, hpc]

section Send
variable {s : State} {k g : Nat} {sense : Bool} {i : Item} {seg : Nat → Bool} {full : State → Bool} {len : Nat}
  {act : State → Nat → Nat → Item → Bytes → State}

/-- An accepted SEND takes its slot and hands the descriptor to its target. -/
theorem kSend_of_accepted {n : Nat} {d : Bytes} {l : List Cell} (hr : TaskReady s k i) (hg : GuardOpen (s.core k) g sense)
    (h : SendAccepted s k i seg full len n d l) :
    kSend s k g sense seg full len act =
      .next (act (s.setCore k (sentCore (s.core k) n l)) n (segOf (s.core k).pc) i d) := by
  obtain ⟨⟨a, hds, hread⟩, hseg, hfull, hn, hfree, hleast⟩ := h
  have hslot : freeSlot (passed (s.core k) 1 2) = some n := freeSlot_of_least hn hfree hleast
  have hds' : (passed (s.core k) 1 2).ds = a :: l := hds
  rw [kSend]
  refine kRun_of_ok hr hg ?_
  simp only [hds', instrSeg_passed, hseg, hslot, hfull, hread, Bool.true_eq_false, Bool.false_eq_true, if_false,
    setCore_passed_setCore hr]
  rfl

/-- A SEND that finds no FREE slot, or a full queue, pushes BUSY and sets C. -/
theorem kSend_of_busy {l : List Cell} (hr : TaskReady s k i) (hg : GuardOpen (s.core k) g sense)
    (h : SendBusy s k seg full l) :
    kSend s k g sense seg full len act =
      .next (s.setCore k { passed (s.core k) 1 2 with ds := 0x0402 :: l, c := true }) := by
  obtain ⟨⟨a, hds⟩, hseg, hbusy⟩ := h
  have hds' : (passed (s.core k) 1 2).ds = a :: l := hds
  rw [kSend]
  refine kRun_of_ok hr hg ?_
  simp only [hds', instrSeg_passed, hseg, Bool.true_eq_false, if_false, setCore_passed_setCore hr]
  rcases hslot : freeSlot (passed (s.core k) 1 2) with _ | n
  · rfl
  · rcases hbusy with hnone | hfull
    · exact absurd ((freeSlot_of_none (c := passed (s.core k) 1 2) hnone).symm.trans hslot) (by simp)
    · simp only [hfull, if_true]

/-- A SEND to a target that its segment may not use is the PRIV trap. -/
theorem kSend_of_priv {a : Cell} {l : List Cell} (hr : TaskReady s k i) (hg : GuardOpen (s.core k) g sense)
    (hds : (s.core k).ds = a :: l) (hseg : seg (segOf (s.core k).pc) = false) :
    kSend s k g sense seg full len act = .next (trapTask s k i 0x07) := by
  have hds' : (passed (s.core k) 1 2).ds = a :: l := hds
  rw [kSend]
  refine kRun_of_error hr hg ?_
  simp only [hds', instrSeg_passed, hseg, if_true]

end Send

/-- The slot a SEND has taken does not change whether its task holds reserved words. -/
theorem sentCore_ne_empty {s : State} {k n : Nat} {i : Item} {l : List Cell} (hr : TaskReady s k i) :
    sentCore (s.core k) n l ≠ Core.empty := by
  obtain ⟨hi, -⟩ := hr
  obtain ⟨m, hm, -⟩ := Option.bind_eq_some_iff.1 hi
  exact Core.ne_empty_of_run (c := sentCore (s.core k) n l) hm

/-- The job a SEND puts at the tail of its queue. -/
theorem sendJob_sentCore {s : State} {k n : Nat} {i : Item} {l : List Cell} (hr : TaskReady s k i) (u : UnitKind) (d : Bytes) :
    sendJob u k (s.setCore k (sentCore (s.core k) n l)) n (segOf (s.core k).pc) i d =
      (s.setCore k (sentCore (s.core k) n l)).setQueue (coreRegion k) u (s.queue (coreRegion k) u ++
        [{ unit := u, core := k, slot := n, item := i.stamp, tenant := i.tenant, seg := segOf (s.core k).pc, desc := d,
           key := none, alg := 0, parentGen := 0, resv := (s.core k).words ≠ [], words := [] }]) := by
  rw [sendJob, State.core_setCore (sentCore_ne_empty hr)]
  rfl

theorem State.queue_setQueue (s : State) (r : Nat) (u : UnitKind) (q : List Job) (j : Job) :
    (s.setQueue r u (q ++ [j])).queue r u = q ++ [j] :=
  lget_lset _ _ (by simp)

/-- Settles O12. -/
theorem sendTakesASlotAndQueuesOneJob : Obligations.SendTakesASlotAndQueuesOneJob := by
  unfold Obligations.SendTakesASlotAndQueuesOneJob
  intro s k g sense i hr hg
  refine ⟨fun p hp => ⟨fun n d l h => ?job, fun l h => ?busy⟩, fun n d l h => ?lookup, fun n d l h => ?vault,
    fun a l hds hseg => ?priv⟩
  case job =>
    simp only [List.mem_cons, List.not_mem_nil, or_false] at hp
    obtain rfl | rfl | rfl := hp
    · change execSendCipher k g sense s = _
      refine (kSend_of_accepted (act := sendJob .cipher k) hr hg h).trans ?_
      rw [sendJob_sentCore hr, if_neg (by simp)]
    · change execSendHash k g sense s = _
      refine (kSend_of_accepted (act := sendJob .hash k) hr hg h).trans ?_
      rw [sendJob_sentCore hr, if_neg (by simp)]
    · change execSendEngine k g sense s = _
      refine (kSend_of_accepted (act := sendEngine k) hr hg h).trans ?_
      rw [sendEngine, sendJob_sentCore hr]
      simp only [queueFull, State.queue_setQueue, List.length_append, List.length_singleton, decide_eq_true_eq, true_and]
  case busy =>
    simp only [List.mem_cons, List.not_mem_nil, or_false] at hp
    obtain rfl | rfl | rfl := hp
    · change execSendCipher k g sense s = _
      exact kSend_of_busy (act := sendJob .cipher k) hr hg h
    · change execSendHash k g sense s = _
      exact kSend_of_busy (act := sendJob .hash k) hr hg h
    · change execSendEngine k g sense s = _
      exact kSend_of_busy (act := sendEngine k) hr hg h
  case lookup =>
    change execSendLookup k g sense s = _
    rw [execSendLookup]
    exact kSend_of_accepted hr hg h
  case vault =>
    refine ⟨beBytes 32 (Config.vaultReply s.fresh).toNat, length_beBytes 32 _, ?_⟩
    change execSendVault k g sense s = _
    rw [execSendVault]
    exact kSend_of_accepted hr hg h
  case priv =>
    change execSendVault k g sense s = _
    rw [execSendVault]
    exact kSend_of_priv hr hg hds (decide_eq_false hseg)

end Sys2Proof.Machine

/-! # Stack shortage (R309) -/

namespace Sys2Proof.Machine
open Sys2Proof.Claims

section Shortage
variable {s : State} {k g : Nat} {sense : Bool} {i : Item} {ins : Instr} {cyc n p : Nat}

/-- Too few cells for `n` pops, or no room for the growth to `p` pushes. -/
def ShortOf (n p : Nat) (c : Core) : Prop := c.ds.length < n ∨ 32 < c.ds.length - n + p

theorem stackOp_of_short {f : List Cell → List Cell} {c : Core} (h : ShortOf n p c) : stackOp n p f c = .error trSTACK :=
  if_pos h

theorem aluOp_of_short {f : Core → List Cell → List Cell × FlagWrite} {c : Core} (h : ShortOf n p c) :
    aluOp n p f c = .error trSTACK := by
  rw [aluOp, stackOp_of_short h]

theorem popN_of_short {c : Core} (h : c.ds.length < n) : popN n c = .error trSTACK := if_pos h

theorem pushCell_of_full {x : Cell} {c : Core} (h : c.ds.length = 32) : pushCell x c = .error trSTACK :=
  if_pos h.ge

variable (hr : TaskReady s k i) (hg : GuardOpen (s.core k) g sense)
include hr hg

theorem kStack_of_short {f : List Cell → List Cell} (h : ShortOf n p (s.core k)) :
    kStack s k g sense n p f = .next (trapTask s k i 0x02) :=
  kPure_of_error hr hg (stackOp_of_short h)

theorem kAlu_of_short {f : Core → List Cell → List Cell × FlagWrite} (h : ShortOf n p (s.core k)) :
    kAlu s k g sense cyc n p f = .next (trapTask s k i 0x02) :=
  kPure_of_error hr hg (aluOp_of_short h)

theorem kMem_of_short {f : Item → List Cell → Core → KRes} (h : (s.core k).ds.length < n) :
    kMem s k g sense cyc n f = .next (trapTask s k i 0x02) := by
  have hpop : popN n (passed (s.core k) 1 cyc) = .error trSTACK := popN_of_short h
  exact kPure_of_error hr hg (by simp only [hpop])

theorem kSend_of_empty {seg : Nat → Bool} {full : State → Bool} {len : Nat}
    {act : State → Nat → Nat → Item → Bytes → State} (h : (s.core k).ds = []) :
    kSend s k g sense seg full len act = .next (trapTask s k i 0x02) :=
  kRun_of_error hr hg (by simp only [passed, h])

theorem kPush_of_full {f : Core → Cell} (h : (s.core k).ds.length = 32) :
    kPure s k g sense 1 1 false (fun _ c => pushCell (f c) c) = .next (trapTask s k i 0x02) :=
  kPure_of_error hr hg (pushCell_of_full h)

end Shortage

section ShortageByCount
variable {s : State} {k g : Nat} {sense : Bool} {i : Item}

/-- An instruction of one operand, on an empty stack. -/
theorem exec_trap_of_empty (hr : TaskReady s k i) (hg : GuardOpen (s.core k) g sense) (h : (s.core k).ds = []) :
    ∀ f ∈ ([.dup, .drop, .pick, .not, .neg, .abs, .inc, .dec, .clz, .ctz, .popc, .ld, .ldb, .ldp, .ld32,
        .tor, .calls, .jmps, .wait, .rels, .resv, .rand, .sleep, .sendCipher, .sendHash, .sendEngine, .sendLookup,
        .sendVault] : List Guarded), exec (f k g sense) s = .next (trapTask s k i 0x02) := by
  have hlen : (s.core k).ds.length < 1 := by simp [h]
  have hpure {cyc : Nat} {f : Item → Core → KRes}
      (hf : f i (passed (s.core k) 1 cyc) = .error trSTACK) :
      kPure s k g sense 1 cyc false f = .next (trapTask s k i 0x02) := kPure_of_error hr hg hf
  have hrun {cyc : Nat} {f : State → Item → Core → Except Nat State}
      (hf : f (s.setCore k (passed (s.core k) 1 cyc)) i (passed (s.core k) 1 cyc) = .error trSTACK) :
      kRun s k g sense 1 cyc false f = .next (trapTask s k i 0x02) := kRun_of_error hr hg hf
  simp only [List.forall_mem_cons]
  exact ⟨kStack_of_short hr hg (.inl hlen), kStack_of_short hr hg (.inl hlen),
    show execPick k g sense s = _ from hpure (by simp only [passed, h]),
    kAlu_of_short hr hg (.inl hlen), kAlu_of_short hr hg (.inl hlen), kAlu_of_short hr hg (.inl hlen),
    kAlu_of_short hr hg (.inl hlen), kAlu_of_short hr hg (.inl hlen), kAlu_of_short hr hg (.inl hlen),
    kAlu_of_short hr hg (.inl hlen), kAlu_of_short hr hg (.inl hlen), kMem_of_short hr hg hlen, kMem_of_short hr hg hlen,
    kMem_of_short hr hg hlen, kMem_of_short hr hg hlen,
    show execTor k g sense s = _ from hpure (by simp only [passed, h]),
    show execCalls k g sense s = _ from hpure (by simp only [passed, h]),
    show execJmps k g sense s = _ from hpure (by simp only [passed, h]),
    show execWait k g sense s = _ from hpure (by simp only [passed, h]),
    show execRels k g sense s = _ from hpure (by simp only [passed, h]),
    show execResv k g sense s = _ from hrun (by simp only [passed, h]),
    show execRand k g sense s = _ from hpure (by simp only [passed, h]),
    show execSleep k g sense s = _ from hrun (by simp only [passed, h]),
    show execSendCipher k g sense s = _ from kSend_of_empty hr hg h,
    show execSendHash k g sense s = _ from kSend_of_empty hr hg h,
    show execSendEngine k g sense s = _ from kSend_of_empty hr hg h,
    show execSendLookup k g sense s = _ from kSend_of_empty hr hg h,
    show execSendVault k g sense s = _ from kSend_of_empty hr hg h, List.forall_mem_nil _⟩

/-- An instruction of two operands, with fewer. -/
theorem exec_trap_of_lt_two (hr : TaskReady s k i) (hg : GuardOpen (s.core k) g sense) (h : (s.core k).ds.length < 2) :
    ∀ f ∈ ([.swap, .over, .nip, .tuck, .dup2, .drop2, .add, .sub, .adc, .sbc, .and, .or, .xor, .mul, .muls,
        .div, .divs, .shl, .shr, .sar, .rol, .ror, .st, .stb, .stp, .zero, .getw] : List Guarded),
      exec (f k g sense) s = .next (trapTask s k i 0x02) := by
  have hstack {p : Nat} {f : List Cell → List Cell} : kStack s k g sense 2 p f = .next (trapTask s k i 0x02) :=
    kStack_of_short hr hg (.inl h)
  have halu {cyc p : Nat} {f : Core → List Cell → List Cell × FlagWrite} :
      kAlu s k g sense cyc 2 p f = .next (trapTask s k i 0x02) := kAlu_of_short hr hg (.inl h)
  have hmem {cyc : Nat} {f : Item → List Cell → Core → KRes} :
      kMem s k g sense cyc 2 f = .next (trapTask s k i 0x02) := kMem_of_short hr hg h
  have hgetw : exec (.getw k g sense) s = .next (trapTask s k i 0x02) := by
    change execGetw k g sense s = _
    rw [execGetw]
    refine kRun_of_error hr hg ?_
    rcases hds : (s.core k).ds with _ | ⟨w, _ | ⟨x, l⟩⟩
    · simp only [passed, hds]
    · simp only [passed, hds]
    · rw [hds, List.length_cons, List.length_cons] at h
      omega
  simp only [List.forall_mem_cons]
  exact ⟨hstack, hstack, hstack, hstack, hstack, hstack, halu, halu, halu, halu, halu, halu, halu, halu, halu, halu, halu,
    halu, halu, halu, halu, halu, hmem, hmem, hmem, hmem, hgetw,
    List.forall_mem_nil _⟩

/-- An instruction of three operands, with fewer. -/
theorem exec_trap_of_lt_three (hr : TaskReady s k i) (hg : GuardOpen (s.core k) g sense) (h : (s.core k).ds.length < 3) :
    ∀ f ∈ ([.rot, .shl32, .shr32, .st32, .copy, .done] : List Guarded),
      exec (f k g sense) s = .next (trapTask s k i 0x02) := by
  have hdone : exec (.done k g sense) s = .next (trapTask s k i 0x02) := by
    change execDone k g sense s = _
    rw [execDone]
    refine kRun_of_error hr hg ?_
    rcases hds : (s.core k).ds with _ | ⟨x, _ | ⟨y, _ | ⟨z, l⟩⟩⟩
    · simp only [passed, hds]
    · simp only [passed, hds]
    · simp only [passed, hds]
    · rw [hds, List.length_cons, List.length_cons, List.length_cons] at h
      omega
  simp only [List.forall_mem_cons]
  exact ⟨kStack_of_short hr hg (.inl h), kAlu_of_short hr hg (.inl h), kAlu_of_short hr hg (.inl h), kMem_of_short hr hg h,
    kMem_of_short hr hg h, hdone, List.forall_mem_nil _⟩

end ShortageByCount

/-- Settles O17, by the count of cells that the instruction finds. -/
theorem stackShortageTrapsWithoutEffect : Obligations.StackShortageTrapsWithoutEffect := by
  unfold Obligations.StackShortageTrapsWithoutEffect
  intro s k g sense i hr hg
  refine ⟨fun h => exec_trap_of_empty hr hg (List.eq_nil_of_length_eq_zero (by omega)), exec_trap_of_lt_two hr hg,
    exec_trap_of_lt_three hr hg, fun h => ?four, fun h => ?full, fun h => ?oneLeft, fun h => ?tor, fun h => ?noReturn⟩
  case four =>
    simp only [List.forall_mem_cons]
    exact ⟨kStack_of_short hr hg (.inl h), kAlu_of_short hr hg (.inl h), kAlu_of_short hr hg (.inl h),
      List.forall_mem_nil _⟩
  case full =>
    simp only [List.forall_mem_cons]
    exact ⟨kStack_of_short hr hg (.inr (by omega)), kStack_of_short hr hg (.inr (by omega)),
      kStack_of_short hr hg (.inr (by omega)), kStack_of_short hr hg (.inr (by omega)),
      kPush_of_full (f := fun c => BitVec.ofNat 16 c.ds.length) hr hg h,
      kPush_of_full (f := fun c => BitVec.ofNat 16 c.rs.length) hr hg h, List.forall_mem_nil _⟩
  case oneLeft => exact kStack_of_short hr hg (.inr (by omega))
  case tor =>
    change execTor k g sense s = _
    rw [execTor]
    refine kPure_of_error hr hg ?_
    rcases hds : (s.core k).ds with _ | ⟨a, l⟩
    · simp only [passed, hds]
    · simp only [passed, hds, h, le_refl, if_true]
  case noReturn =>
    have hpure {cyc : Nat} {f : Item → Core → KRes}
        (hf : f i (passed (s.core k) 1 cyc) = .error trSTACK) :
        kPure s k g sense 1 cyc false f = .next (trapTask s k i 0x02) := kPure_of_error hr hg hf
    simp only [List.forall_mem_cons]
    exact ⟨show execFromr k g sense s = _ from hpure (by simp only [passed, h]),
      show execCopyr k g sense s = _ from hpure (by simp only [passed, h]),
      show execRdrop k g sense s = _ from hpure (by simp only [passed, h]),
      show execRet k g sense s = _ from hpure (by simp only [passed, h]), List.forall_mem_nil _⟩

end Sys2Proof.Machine

/-! # Reservations, the end of a task, and the system class (R331 to R336) -/

namespace Sys2Proof.Machine
open Sys2Proof.Claims

section Task
variable {s : State} {k g : Nat} {sense : Bool} {i : Item}

/-! ## RESV and RAND -/

/-- A served draw gives the oldest words of the boom. -/
theorem boomDraw_of_serves {r n : Nat} {t : Option Nat} (h : boomServes s r n = true) :
    (boomDraw s r n t).1 = some ((s.boom r).words.take n) := by
  rw [boomDraw, if_pos h]

theorem boomDraw_of_not_serves {r n : Nat} {t : Option Nat} (h : boomServes s r n = false) : (boomDraw s r n t).1 = none := by
  rw [boomDraw, if_neg (by simp [h])]

theorem exec_resv_of_serves {x : Cell} {l : List Cell} (hr : TaskReady s k i) (hg : GuardOpen (s.core k) g sense)
    (hds : (s.core k).ds = x :: l) (h1 : 1 ≤ x.toNat) (h64 : x.toNat ≤ 64)
    (hserve : boomServes (s.setCore k (passed (s.core k) 1 2)) (coreRegion k) x.toNat = true) :
    exec (.resv k g sense) s =
      .next ((boomDraw (s.setCore k (passed (s.core k) 1 2)) (coreRegion k) x.toNat (some i.tenant)).2.setCore k
        { passed (s.core k) 1 2 with
          ds := l, c := false, words := (s.core k).words ++ (s.boom (coreRegion k)).words.take x.toNat }) := by
  change execResv k g sense s = _
  rw [execResv]
  refine kRun_of_ok hr hg ?_
  have hds' : (passed (s.core k) 1 2).ds = x :: l := hds
  have hrange : ¬ (x.toNat = 0 ∨ 64 < x.toNat) := by omega
  simp only [hds', if_neg hrange, boomDraw_of_serves hserve]
  rfl

theorem exec_resv_of_not_serves {x : Cell} {l : List Cell} (hr : TaskReady s k i) (hg : GuardOpen (s.core k) g sense)
    (hds : (s.core k).ds = x :: l) (h1 : 1 ≤ x.toNat) (h64 : x.toNat ≤ 64)
    (hserve : boomServes (s.setCore k (passed (s.core k) 1 2)) (coreRegion k) x.toNat = false) :
    exec (.resv k g sense) s =
      .next ((boomDraw (s.setCore k (passed (s.core k) 1 2)) (coreRegion k) x.toNat (some i.tenant)).2.setCore k
        { passed (s.core k) 1 2 with ds := l, c := true }) := by
  change execResv k g sense s = _
  rw [execResv]
  refine kRun_of_ok hr hg ?_
  have hds' : (passed (s.core k) 1 2).ds = x :: l := hds
  have hrange : ¬ (x.toNat = 0 ∨ 64 < x.toNat) := by omega
  simp only [hds', if_neg hrange, boomDraw_of_not_serves hserve]

/-- A reserved word written to local data. -/
theorem exec_rand_of_word {x : Cell} {l : List Cell} {w : Bytes} {ws : List Bytes} (hr : TaskReady s k i)
    (hg : GuardOpen (s.core k) g sense) (hds : (s.core k).ds = x :: l) (hw : (s.core k).words = w :: ws)
    (hx : x.toNat + 8 ≤ 0x4000) :
    exec (.rand k g sense) s = .next (s.setCore k ((List.range 8).foldl (fun c j =>
      localPut c (x.toNat + j) ((fitR 8 w).getD j 0)) { passed (s.core k) 1 2 with ds := l, words := ws })) := by
  change execRand k g sense s = _
  rw [execRand]
  refine kPure_of_ok hr hg ?_
  have hlen : (fitR 8 w).length = 8 := length_fitR 8 w
  simp only [passed, hds, hw]
  rw [localWrite_of_writable fun j hj => ?_, hlen]
  have hlt : x.toNat + j < 0x4000 := by omega
  simp [localWritable, hlt]

theorem exec_rand_of_no_word {x : Cell} {l : List Cell} (hr : TaskReady s k i) (hg : GuardOpen (s.core k) g sense)
    (hds : (s.core k).ds = x :: l) (hw : (s.core k).words = []) :
    exec (.rand k g sense) s = .next (trapTask s k i 0x08) := by
  change execRand k g sense s = _
  rw [execRand]
  exact kPure_of_error hr hg (by simp only [passed, hds, hw])

/-! ## DONE -/

section Done
variable {st n a : Cell} {l : List Cell} (hr : TaskReady s k i) (hg : GuardOpen (s.core k) g sense)
  (hds : (s.core k).ds = st :: n :: a :: l)
include hr hg hds

/-- DONE with a status of the table's refused or completed kind and a result in local data. -/
theorem exec_done_of_status (hst : statusKind st.toNat = some .completed ∨ statusKind st.toNat = some .refused)
    (hn : n.toNat ≤ 12288) (ha : a.toNat + n.toNat ≤ 0x4000) :
    exec (.done k g sense) s =
      if noPending (s.core k) then .next (settle settleBound
        (commitDone (s.setCore k { passed (s.core k) 1 4 with ds := l }) k i a.toNat n.toNat st.toNat))
      else .next (s.setCore k { passed (s.core k) 1 4 with ds := l, wait := some (.done a.toNat n.toNat st.toNat) }) := by
  have hds' : (passed (s.core k) 1 4).ds = st :: n :: a :: l := hds
  have hkind : ¬ (statusKind st.toNat = none ∨ statusKind st.toNat = some .discarded) := by
    obtain hst | hst := hst <;> simp [hst]
  have hrange : ¬ (12288 < n.toNat ∨ 0x4000 < a.toNat + n.toNat) := by omega
  have hfree : noPending { passed (s.core k) 1 4 with ds := l } = noPending (s.core k) := rfl
  have hne : ({ passed (s.core k) 1 4 with ds := l } : Core) ≠ Core.empty := by
    obtain ⟨hi, -⟩ := hr
    obtain ⟨m, hm, -⟩ := Option.bind_eq_some_iff.1 hi
    exact Core.ne_empty_of_run (c := { passed (s.core k) 1 4 with ds := l }) hm
  change execDone k g sense s = _
  rw [execDone]
  by_cases hp : noPending (s.core k) = true
  · rw [if_pos hp]
    refine kRun_of_ok hr hg ?_
    simp only [hds', if_neg hkind, if_neg hrange, hfree, if_pos hp, setCore_passed_setCore hr]
  · rw [if_neg hp]
    refine kRun_of_ok hr hg ?_
    simp only [hds', if_neg hkind, if_neg hrange, hfree, if_neg hp, setCore_passed_setCore hr, State.setCore_setCore hne]

theorem exec_done_of_no_status (hst : statusKind st.toNat = none ∨ statusKind st.toNat = some .discarded) :
    exec (.done k g sense) s = .next (trapTask s k i 0x07) := by
  have hds' : (passed (s.core k) 1 4).ds = st :: n :: a :: l := hds
  change execDone k g sense s = _
  rw [execDone]
  exact kRun_of_error hr hg (by simp only [hds', if_pos hst])

end Done

/-! ## YIELD and SLEEP -/

theorem maySuspend_iff {c : Core} : maySuspend c = true ↔
    c.rs = [] ∧ c.ds.length ≤ 16 ∧ (∀ x ∈ c.slots, x = .free) ∧ c.words = [] ∧ c.ctxDirty = false := by
  simp only [maySuspend, Bool.and_eq_true, decide_eq_true_eq, List.all_eq_true, Bool.not_eq_true', and_assoc]

theorem yieldTask_of_may {c : Core} (h : maySuspend c = true) :
    yieldTask s k i c = .ok (joinReady (saveTask s k i c false) i) := if_pos h

theorem yieldTask_of_not {c : Core} (h : ¬ maySuspend c = true) : yieldTask s k i c = .error trSUSPEND := if_neg h

end Task

/-- Settles O14. -/
theorem reservationAndTaskEndInstructions : Obligations.ReservationAndTaskEndInstructions := by
  unfold Obligations.ReservationAndTaskEndInstructions
  intro s k g sense i hr hg
  refine ⟨fun x l hds => ⟨exec_resv_of_serves hr hg hds, exec_resv_of_not_serves hr hg hds,
    fun w ws => exec_rand_of_word hr hg hds, exec_rand_of_no_word hr hg hds⟩,
    fun st n a l hds => ⟨fun hst hn ha => ⟨fun hfree => ?done, fun hpend => ?doneWaits⟩, exec_done_of_no_status hr hg hds⟩,
    fun hmay => ?yield, fun hmay => ?yieldTrap, fun x l hds => ⟨fun hmay hx => ?sleepZero, fun id s2 hmay hx hset => ?sleep,
    fun hmay => ?sleepTrap⟩⟩
  case done =>
    rw [exec_done_of_status hr hg hds hst hn ha, if_pos]
    simpa [noPending] using hfree
  case doneWaits =>
    rw [exec_done_of_status hr hg hds hst hn ha, if_neg]
    simpa [noPending] using hpend
  case yield =>
    change execYield k g sense s = _
    rw [execYield]
    exact kRun_of_ok hr hg (yieldTask_of_may (c := passed (s.core k) 1 4) (maySuspend_iff.2 hmay))
  case yieldTrap =>
    change execYield k g sense s = _
    rw [execYield]
    exact kRun_of_error hr hg (yieldTask_of_not (c := passed (s.core k) 1 4) fun h => hmay (maySuspend_iff.1 h))
  case sleepZero =>
    have hds' : (passed (s.core k) 1 4).ds = x :: l := hds
    change execSleep k g sense s = _
    rw [execSleep]
    refine kRun_of_ok hr hg ?_
    simp only [hds', if_pos hx]
    exact yieldTask_of_may (maySuspend_iff.2 hmay)
  case sleep =>
    have hds' : (passed (s.core k) 1 4).ds = x :: l := hds
    have hsusp : maySuspend { passed (s.core k) 1 4 with ds := l } = true := maySuspend_iff.2 hmay
    change execSleep k g sense s = _
    rw [execSleep]
    refine kRun_of_ok hr hg ?_
    simp only [hds', if_neg hx, hsusp, Bool.true_eq_false, if_false, hset]
  case sleepTrap =>
    have hds' : (passed (s.core k) 1 4).ds = x :: l := hds
    have hsusp : ¬ maySuspend { passed (s.core k) 1 4 with ds := l } = true := fun h => hmay (maySuspend_iff.1 h)
    change execSleep k g sense s = _
    rw [execSleep]
    refine kRun_of_error hr hg ?_
    simp only [hds']
    split
    · exact yieldTask_of_not hsusp
    · exact if_pos (Bool.eq_false_iff.2 hsusp)

/-! ## CSRGET, CSRPUT, TRAP -/

section System
variable {s : State} {k g : Nat} {sense : Bool} {i : Item} (hr : TaskReady s k i) (hg : GuardOpen (s.core k) g sense)
include hr hg

/-- CSRGET of a CSR other than TICK_LO pushes what it reads. -/
theorem exec_csrget_of_ne {n : BitVec 6} (hn : n.toNat < 14) (h8 : n ≠ 8) (hroom : (s.core k).ds.length < 32) :
    exec (.csrget k g sense n) s = .next (s.setCore k { passed (s.core k) 1 1 with
      ds := BitVec.ofNat 16 (csrRead (s.setCore k (passed (s.core k) 1 1)) k i (passed (s.core k) 1 1) n.toNat) ::
        (s.core k).ds }) := by
  have hpush {x : Cell} : pushCell x (passed (s.core k) 1 1) =
      .ok { passed (s.core k) 1 1 with ds := x :: (s.core k).ds } := pushCell_of_lt hroom
  change execCsrget k g sense n s = _
  rw [execCsrget, show decide (0x0E ≤ n.toNat) = false from decide_eq_false (by omega)]
  refine kRun_of_ok hr hg ?_
  simp only [hpush, if_neg h8, setCore_passed_setCore hr]

/-- CSRGET of TICK_LO latches TICK_HI. -/
theorem exec_csrget_tick (hroom : (s.core k).ds.length < 32) :
    exec (.csrget k g sense 8) s = .next (s.setCore k { passed (s.core k) 1 1 with
      ds := BitVec.ofNat 16 s.time.tick :: (s.core k).ds, tickHi := BitVec.ofNat 16 (s.time.tick / 65536) }) := by
  have hpush {x : Cell} : pushCell x (passed (s.core k) 1 1) =
      .ok { passed (s.core k) 1 1 with ds := x :: (s.core k).ds } := pushCell_of_lt hroom
  have hread : BitVec.ofNat 16 (csrRead (s.setCore k (passed (s.core k) 1 1)) k i (passed (s.core k) 1 1) 8) =
      BitVec.ofNat 16 s.time.tick := by
    change BitVec.ofNat 16 (s.time.tick % 2 ^ 16) = _
    exact BitVec.eq_of_toNat_eq (by simp)
  change execCsrget k g sense 8 s = _
  rw [execCsrget]
  refine kRun_of_ok hr hg ?_
  simp only [hpush, if_true, setCore_passed_setCore hr]
  rw [← hread]
  rfl

/-- CSRPUT of a CSR that is only read is the PRIV trap. -/
theorem exec_csrput_of_readOnly {n : BitVec 6} {x : Cell} {l : List Cell} (h3 : 3 ≤ n.toNat) (h13 : n.toNat ≤ 13)
    (hds : (s.core k).ds = x :: l) : exec (.csrput k g sense n) s = .next (trapTask s k i 0x07) := by
  have hds' : (passed (s.core k) 1 1).ds = x :: l := hds
  change execCsrput k g sense n s = _
  rw [execCsrput, show decide (0x0E ≤ n.toNat) = false from decide_eq_false (by omega)]
  refine kPure_of_error hr hg ?_
  simp only [hds']
  split
  case h_4 => rfl
  all_goals omega

end System

/-- Settles O15, by the number of the CSR. -/
theorem controlRegistersReadAndWrite : Obligations.ControlRegistersReadAndWrite := by
  unfold Obligations.ControlRegistersReadAndWrite
  intro s k g sense i hr hg
  refine ⟨fun hroom => ⟨fun p hp => ?read, exec_csrget_tick hr hg hroom⟩,
    fun x l hds => ⟨?flags, ?preds, ?trapCtl, fun n h3 h13 => exec_csrput_of_readOnly hr hg h3 h13 hds⟩,
    fun n hn => ⟨?noGet, ?noPut⟩,
    fun n => show execTrap k g sense n s = _ from kPure_of_error hr hg rfl,
    show execIllegalInstruction k s = _ from kPure_of_illegal hr rfl⟩
  case read =>
    have hread : ∀ n : BitVec 6, n.toNat < 14 → n ≠ 8 → ∀ v,
        csrRead (s.setCore k (passed (s.core k) 1 1)) k i (passed (s.core k) 1 1) n.toNat = v →
        exec (.csrget k g sense n) s =
          .next (s.setCore k { passed (s.core k) 1 1 with ds := BitVec.ofNat 16 v :: (s.core k).ds }) :=
      fun n hn h8 v hv => hv ▸ exec_csrget_of_ne hr hg hn h8 hroom
    have hseg : instrSeg (passed (s.core k) 1 1) = segOf (s.core k).pc := instrSeg_passed ..
    simp only [List.mem_cons, List.not_mem_nil, or_false] at hp
    obtain rfl | rfl | rfl | rfl | rfl | rfl | rfl | rfl | rfl | rfl | rfl | rfl := hp
    all_goals dsimp only
    case inr.inr.inr.inr.inr.inr.inr.inl => exact hread _ (by decide) (by decide) _ hseg
    all_goals exact hread _ (by decide) (by decide) _ rfl
  case flags =>
    change execCsrput k g sense 0 s = _
    rw [execCsrput]
    exact kPure_of_ok hr hg (by simp only [passed, hds]; rfl)
  case preds =>
    change execCsrput k g sense 1 s = _
    rw [execCsrput]
    exact kPure_of_ok hr hg (by simp only [passed, hds]; rfl)
  case trapCtl =>
    change execCsrput k g sense 2 s = _
    rw [execCsrput]
    exact kPure_of_ok hr hg (by simp only [passed, hds]; rfl)
  case noGet =>
    change execCsrget k g sense n s = _
    rw [execCsrget]
    obtain ⟨hi, hrun, hw, hfetch, hinj⟩ := hr
    exact kRun_illegal hinj hi hrun hw hfetch (.inl (decide_eq_true hn))
  case noPut =>
    change execCsrput k g sense n s = _
    rw [execCsrput]
    exact kPure_of_illegal hr (decide_eq_true hn)

end Sys2Proof.Machine

/-! # Words of the register pages that an update leaves alone (R42 to R46)

Most updates of the state write a few words of the pages; what the model reads at other offsets stays. -/

namespace Sys2Proof.Machine
open Sys2Proof.Claims

/-- A page begins at a multiple of its size. -/
theorem pageBase_mod (p : PageId) : pageBase p % 0x1000 = 0 := by
  cases p <;> simp only [pageBase, regionBase] <;> omega

/-- The words at offset `o` of all pages, and the part's fuses, are the same in both states. -/
structure KeepsAt (o : Nat) (s t : State) : Prop where
  reg : ∀ q, t.reg q o = s.reg q o
  fuse : t.fuse = s.fuse

namespace KeepsAt
variable {o : Nat} {s t u : State}

theorem refl (s : State) : KeepsAt o s s := ⟨fun _ => rfl, rfl⟩

theorem trans (h : KeepsAt o s t) (h' : KeepsAt o t u) : KeepsAt o s u :=
  ⟨fun q => (h'.reg q).trans (h.reg q), h'.fuse.trans h.fuse⟩

theorem of_regs (hr : t.regs = s.regs) (hf : t.fuse = s.fuse) : KeepsAt o s t :=
  ⟨fun q => by simp only [State.reg, hr], hf⟩

theorem fld (h : KeepsAt o s t) {f : Fld} (hf : f.off = o) (q : PageId) : t.fld q f = s.fld q f := by
  rw [State.fld, State.fld, hf, h.reg]

theorem flag (h : KeepsAt o s t) {f : Fld} (hf : f.off = o) (q : PageId) : t.flag q f = s.flag q f := by
  rw [State.flag, State.flag, h.fld hf]

theorem setReg (p : PageId) {off : Nat} (v : Word) (ho : o < 0x1000) (hoff : off < 0x1000) (h : off ≠ o) :
    KeepsAt o s (s.setReg p off v) := by
  refine ⟨fun q => State.reg_setReg_other s p q off o v fun heq => h ?_, rfl⟩
  have hp := pageBase_mod p
  have hq := pageBase_mod q
  omega

theorem setFld (p : PageId) {f : Fld} (n : Nat) (ho : o < 0x1000) (hoff : f.off < 0x1000) (h : f.off ≠ o) :
    KeepsAt o s (s.setFld p f n) := setReg p _ ho hoff h

theorem setFlag (p : PageId) {f : Fld} (b : Bool) (ho : o < 0x1000) (hoff : f.off < 0x1000) (h : f.off ≠ o) :
    KeepsAt o s (s.setFlag p f b) := setReg p _ ho hoff h

theorem setIrq (p : PageId) (bit : Nat) (ho : o < 0x1000) (h : 0x01C ≠ o) : KeepsAt o s (setIrq s p bit) :=
  setFlag p true ho (show 0x01C < 0x1000 by decide) h

theorem postEvent (p : PageId) (code : Nat) (p0 p1 p2 p3 : Word) (ho : o < 0x1000) (h : 0x01C ≠ o) (hm : 0x054 ≠ o)
    (hl : 0x058 ≠ o) : KeepsAt o s (postEvent s p code p0 p1 p2 p3) := by
  simp only [Machine.postEvent]
  split
  · exact refl s
  split
  · exact (setFld .evr (f := EVR_MISSED) _ ho (by decide) hm).trans (of_regs rfl rfl)
  split
  · refine trans ?_ (setIrq .evr 17 ho h)
    exact (setFld .evr (f := EVR_LOST) _ ho (by decide) hl).trans (of_regs rfl rfl)
  · exact of_regs rfl rfl

theorem raiseErrs (p : PageId) (clss : List Nat) (code : Nat) (tenant addr : Word) (ho : o < 0x1000) (h : 0x01C ≠ o)
    (he : 0x010 ≠ o) (hm : 0x054 ≠ o) (hl : 0x058 ≠ o) : KeepsAt o s (raiseErrs s p clss code tenant addr) := by
  have hfold : ∀ (l : List Nat) (t : State), KeepsAt o t (l.foldl (fun s c => s.setFlag p ⟨0x010, c, 1⟩ true) t) := by
    intro l
    induction l with
    | nil => exact refl
    | cons c l ih => exact fun t => (setFlag p true ho (show 0x010 < 0x1000 by decide) he).trans (ih _)
  have hcode : KeepsAt o s (if (s.reg p 0x010).toNat / 256 % 32 ≠ 0 then s.setFlag p ERR_MULTIPLE true
      else if s.flag p ERR_MULTIPLE then s else s.setFld p ERR_CODE code) := by
    split
    · exact setFlag p true ho (by decide) he
    split
    · exact refl s
    · exact setFld p code ho (by decide) he
  rw [Machine.raiseErrs]
  have h2 := hcode.trans (hfold clss _)
  generalize List.foldl _ _ clss = s2 at h2 ⊢
  split
  · exact h2
  · exact (h2.trans (setIrq p 0 ho h)).trans (postEvent _ _ _ _ _ _ ho h hm hl)

theorem accessErr (p : PageId) (ho : o < 0x1000) (h : 0x01C ≠ o) (he : 0x010 ≠ o) (hm : 0x054 ≠ o) (hl : 0x058 ≠ o) :
    KeepsAt o s (accessErr s p) := raiseErrs _ _ _ _ _ ho h he hm hl

end KeepsAt

/-- Which pages a state has goes by its fuses. -/
theorem present_congr {s t : State} (h : t.fuse = s.fuse) (p : PageId) : present t p = present s p := by
  cases p <;> simp only [present, regionFitted, portFitted, h]

/-- Which pages answer goes by the isolated regions. -/
theorem live_congr {s t : State} (h : KeepsAt 0x080 s t) (p : PageId) : live t p = live s p := by
  simp only [live, isolated, present_congr h.fuse, h.fld (f := TOP_RGN_STATUS_ISOLATED) rfl]

/-- The state of a block goes by STAT and the isolated regions. -/
theorem stateOf_congr {s t : State} (hs : KeepsAt 0x00C s t) (hr : KeepsAt 0x080 s t) (p : PageId) :
    stateOf t p = stateOf s p := by
  simp only [stateOf, present_congr hs.fuse, live_congr hr, hs.fld (f := STAT_STATE) rfl]

/-- A write to another word of a page leaves the state of every block alone. -/
theorem stateOf_setFld {s : State} {p : PageId} {f : Fld} {n : Nat} (hoff : f.off < 0x1000) (hs : f.off ≠ 0x00C)
    (hr : f.off ≠ 0x080) (q : PageId) : stateOf (s.setFld p f n) q = stateOf s q :=
  stateOf_congr (.setFld p n (by decide) hoff hs) (.setFld p n (by decide) hoff hr) q

end Sys2Proof.Machine

/-! # ERR, ERRINJ and LOCK; accesses that are misformed (R42, R46 to R49) -/

namespace Sys2Proof.Machine
open Sys2Proof.Claims

/-- A halted control complex does nothing (R25). -/
theorem onComplex_of_not_acts {s : State} {k : Res} (h : ¬ ComplexActs s) : onComplex s k = .next s := if_neg h

section Acts
variable {s : State} {p : PageId} {v : Word} (hrun : ComplexActs s) (hl : live s p = true)
include hrun hl

theorem exec_errWrite_of_acts : exec (.errWrite p v) s = .next (s.setReg p 0x010
    (if (s.reg p 0x010 &&& ~~~ (v &&& 0x80001F00)) &&& 0x80001F00 = 0 then 0
      else s.reg p 0x010 &&& ~~~ (v &&& 0x80001F00))) := by
  change execErrWrite p v s = _
  rw [execErrWrite, onComplex_of_acts hrun, if_neg (by simp [hl])]

omit hl in
theorem exec_errinj_of_testOff (ht : s.flag p CTRL_TEST_EN = false) : exec (.errinj p v) s = .next s := by
  change execErrinj p v s = _
  rw [execErrinj, onComplex_of_acts hrun, if_pos (.inr (.inl ht))]

omit hl in
theorem exec_errinj_of_none (hi : injectOf v = none) : exec (.errinj p v) s = .next s := by
  change execErrinj p v s = _
  rw [execErrinj, onComplex_of_acts hrun, if_pos (.inr (.inr hi))]

theorem exec_errinj_of_some {e : Inject} (ht : s.flag p CTRL_TEST_EN = true) (hi : injectOf v = some e) :
    exec (.errinj p v) s = .next (s.setAux p { s.auxOf p with inject := some e }) := by
  change execErrinj p v s = _
  rw [execErrinj, onComplex_of_acts hrun, if_neg (by simp [hl, ht, hi]), hi]

theorem exec_lock_of_acts : exec (.lock p) s = .next (s.setFld p LOCK_LOCK 1) := by
  change execLock p s = _
  rw [execLock, onComplex_of_acts hrun, if_pos hl]
  rfl

end Acts

/-- A misformed access that is admitted is an error of the page at its address, if the part has one there. -/
theorem exec_malformedAccess_of_reaches {s : State} {x : Master} {a : Nat} (h : Reaches s x .read a 1) :
    exec (.malformedAccess x a) s = .next (malformed s a) := by
  obtain ⟨hrun, hreach⟩ := h
  change execMalformedAccess x a s = _
  rw [execMalformedAccess, if_neg (by simp [hrun]), hreach]

/-- Settles O18. -/
theorem errorRegistersClearArmAndLock : Obligations.ErrorRegistersClearArmAndLock := by
  unfold Obligations.ErrorRegistersClearArmAndLock
  refine fun s => ⟨fun hrun => ⟨fun p v hl => ⟨fun hzero => ?clear, fun hkept => ?keep⟩, fun p v hl =>
    ⟨exec_errinj_of_testOff hrun, fun ht => ⟨fun h10 => ?parity, fun h10 h9 => ?uncorr, fun h10 h9 h8 => ?corr,
      fun h10 h9 h8 => ?none⟩⟩, fun p => exec_lock_of_acts hrun⟩,
    fun hrun p v => ⟨onComplex_of_not_acts hrun, onComplex_of_not_acts hrun, onComplex_of_not_acts hrun⟩,
    fun x a p hreach hpage hp => ?page, fun x a hreach hpage => ?outside⟩
  case clear => rw [exec_errWrite_of_acts hrun hl, if_pos hzero]
  case keep => rw [exec_errWrite_of_acts hrun hl, if_neg hkept]
  case parity => exact exec_errinj_of_some hrun hl ht (by simp only [injectOf, h10, if_true])
  case uncorr => exact exec_errinj_of_some hrun hl ht (by simp only [injectOf, h10, h9, if_true, Bool.false_eq_true, if_false])
  case corr => exact exec_errinj_of_some hrun hl ht (by simp only [injectOf, h10, h9, h8, if_true, Bool.false_eq_true, if_false])
  case none => exact exec_errinj_of_none hrun (by simp only [injectOf, h10, h9, h8, Bool.false_eq_true, if_false])
  case page =>
    rw [exec_malformedAccess_of_reaches hreach]
    simp only [malformed, hpage, hp, if_true]
    rfl
  case outside =>
    rw [exec_malformedAccess_of_reaches hreach]
    simp only [malformed, hpage]

end Sys2Proof.Machine

/-! # The state machine of a block (R44, R50 to R54) -/

namespace Sys2Proof.Machine
open Sys2Proof.Claims

/-- A written field leaves the registers in canonical form. -/
theorem mwf_setFld {s : State} {p : PageId} {f : Fld} {n : Nat} (h : mwf resetWord s.regs = true) :
    mwf resetWord (s.setFld p f n).regs = true := mwf_mset _ _ _ _ h

/-- The page of an undrained block, a spare position, the vault or the RUNNING HBM controller ignores EN. -/
theorem ignoresCtrl_congr {s t : State} (hs : KeepsAt 0x00C s t) (hr : KeepsAt 0x080 s t) (p : PageId) :
    ignoresCtrl t p = ignoresCtrl s p := by
  simp only [ignoresCtrl, running, stateOf_congr hs hr]

/-! ## CTRL -/

section Ctrl
variable {s : State} {p : PageId} {c : CtrlPlain}

/-- What a CTRL write stores beside EN lies in CTRL. -/
theorem storeCtrl_keepsAt {o : Nat} (ho : o < 0x1000) (h : 0x008 ≠ o) : KeepsAt o s (storeCtrl s p c) := by
  rw [storeCtrl]
  split
  · exact .refl s
  have hplain := (KeepsAt.setFld (s := s) p (f := CTRL_DRAIN_TO) c.drainTo.toNat ho (by decide) h).trans
    (.setFlag p (f := CTRL_TEST_EN) c.testEn ho (by decide) h)
  split
  · exact hplain.trans (.setFlag p (f := CTRL_SPARE_ALLOW) _ ho (by decide) h)
  · exact hplain

theorem storeCtrl_aux : (storeCtrl s p c).auxOf p = s.auxOf p := by
  rw [storeCtrl]
  split
  · rfl
  split <;> rfl

theorem storeCtrl_wf (h : mwf resetWord s.regs = true) : mwf resetWord (storeCtrl s p c).regs = true := by
  rw [storeCtrl]
  split
  · exact h
  split
  · exact mwf_setFld (mwf_setFld (mwf_setFld h))
  · exact mwf_setFld (mwf_setFld h)

theorem stateOf_storeCtrl (q : PageId) : stateOf (storeCtrl s p c) q = stateOf s q :=
  stateOf_congr (storeCtrl_keepsAt (by decide) (by decide)) (storeCtrl_keepsAt (by decide) (by decide)) q

theorem ignoresCtrl_storeCtrl : ignoresCtrl (storeCtrl s p c) p = ignoresCtrl s p :=
  ignoresCtrl_congr (storeCtrl_keepsAt (by decide) (by decide)) (storeCtrl_keepsAt (by decide) (by decide)) p

/-- A flag of CTRL written leaves the state of every block alone. -/
theorem stateOf_setCtrlFlag {lo : Nat} {b : Bool} (q : PageId) :
    stateOf (s.setFlag p ⟨0x008, lo, 1⟩ b) q = stateOf s q :=
  stateOf_setFld (f := ⟨0x008, lo, 1⟩) (show 0x008 < 0x1000 by decide) (show 0x008 ≠ 0x00C by decide)
    (show 0x008 ≠ 0x080 by decide) q

/-- Raw sample mode is no part of CTRL. -/
theorem rawMode_congr {t : State} (h : KeepsAt 0x06C s t) : rawMode t = rawMode s := h.flag rfl .rng

end Ctrl

/-! ## EN = 1 -/

section Enable
variable {s : State} {p : PageId} {c : CtrlPlain}

/-- The state with DRAIN_REQ = 0 stored. -/
def undrainedCtrl (s : State) (p : PageId) (c : CtrlPlain) : State := (storeCtrl s p c).setFlag p CTRL_DRAIN_REQ false

/-- A CTRL write with EN = 1 that the page follows goes by what EN was stored as, and by the state. -/
theorem exec_blockEnable_of_follows (hrun : ComplexActs s) (hl : live s p = true) (hf : ignoresCtrl s p = false) {t : State}
    (ht : storeEn (storeCtrl s p c) p true false = t) : exec (.blockEnable p c) s = .next
      (if t.flag p CTRL_EN ∧ (stateOf t p = stOff ∨ stateOf t p = stStopped) ∧ ¬ (pageBtype p = 0x0205 ∧ rawMode t)
        then startHook (t.setFld p STAT_STATE stStarting) p else t) := by
  change execBlockEnable p c s = _
  rw [execBlockEnable, onComplex_of_acts hrun, if_neg (by simp [hl])]
  simp only [ignoresCtrl_storeCtrl, hf, Bool.false_eq_true, if_false, ht]
  split <;> rfl

theorem undrainedCtrl_keepsAt {o : Nat} (ho : o < 0x1000) (h : 0x008 ≠ o) : KeepsAt o s (undrainedCtrl s p c) :=
  (storeCtrl_keepsAt ho h).trans (.setFlag p (f := CTRL_DRAIN_REQ) false ho (by decide) h)

theorem stateOf_undrainedCtrl (q : PageId) : stateOf (undrainedCtrl s p c) q = stateOf s q :=
  (stateOf_setCtrlFlag q).trans (stateOf_storeCtrl q)

theorem rawMode_undrainedCtrl : rawMode (undrainedCtrl s p c) = rawMode s :=
  rawMode_congr (undrainedCtrl_keepsAt (by decide) (by decide))

/-- EN = 1 on an expander in raw sample mode is refused (R302). -/
theorem storeEn_of_raw (h : pageBtype p = 0x0205 ∧ rawMode s = true) :
    storeEn (storeCtrl s p c) p true false = accessErr (undrainedCtrl s p c) p := by
  simp only [storeEn, Bool.true_eq_false, if_false]
  exact if_pos ⟨h.1, rawMode_undrainedCtrl.trans h.2⟩

/-- EN = 1 on a FAILED page to which no spare comes is ignored (R52). -/
theorem storeEn_of_failed (hraw : ¬ (pageBtype p = 0x0205 ∧ rawMode s = true)) (hst : stateOf s p = stFailed)
    (hadm : (s.auxOf p).admitted = none) : storeEn (storeCtrl s p c) p true false = undrainedCtrl s p c := by
  have haux : (undrainedCtrl s p c).auxOf p = s.auxOf p := storeCtrl_aux
  simp only [storeEn, Bool.true_eq_false, if_false]
  refine (if_neg fun h => hraw ⟨h.1, rawMode_undrainedCtrl.symm.trans h.2⟩).trans (if_pos ⟨?_, ?_⟩)
  · exact (stateOf_undrainedCtrl p).trans hst
  · exact (congrArg (·.admitted.isNone) haux).trans (by rw [hadm])

/-- EN = 1 is stored on every other page. -/
theorem storeEn_of_stored (hraw : ¬ (pageBtype p = 0x0205 ∧ rawMode s = true))
    (hst : stateOf s p = stFailed → (s.auxOf p).admitted ≠ none) :
    storeEn (storeCtrl s p c) p true false = (undrainedCtrl s p c).setFlag p CTRL_EN true := by
  have haux : (undrainedCtrl s p c).auxOf p = s.auxOf p := storeCtrl_aux
  simp only [storeEn, Bool.true_eq_false, if_false]
  refine (if_neg fun h => hraw ⟨h.1, rawMode_undrainedCtrl.symm.trans h.2⟩).trans (if_neg fun h => ?_)
  refine hst ((stateOf_undrainedCtrl p).symm.trans h.1) (Option.isNone_iff_eq_none.1 ?_)
  exact (congrArg (·.admitted.isNone) haux).symm.trans h.2

end Enable

/-! ## EN = 0 -/

theorem storeEn_false {s : State} {p : PageId} {d : Bool} :
    storeEn s p false d = (s.setFlag p CTRL_DRAIN_REQ d).setFlag p CTRL_EN false := by
  simp only [storeEn, if_true]

/-- A squash that the page follows. -/
theorem exec_squashReq_of_follows {s : State} {p : PageId} {c : CtrlPlain} {d : Bool} (hrun : ComplexActs s)
    (hl : live s p = true) (hc : ctxRefuses s p = false) (hf : ignoresCtrl s p = false) : exec (.squashReq p c d) s = .next
      (if stateOf s p = stStarting ∨ stateOf s p = stRunning ∨ stateOf s p = stDraining
        then disableHook (squashBlock (drainHook
          (((storeCtrl s p c).setFlag p CTRL_DRAIN_REQ d).setFlag p CTRL_EN false) p) p) p
        else ((storeCtrl s p c).setFlag p CTRL_DRAIN_REQ d).setFlag p CTRL_EN false) := by
  have hst : stateOf (((storeCtrl s p c).setFlag p CTRL_DRAIN_REQ d).setFlag p CTRL_EN false) p = stateOf s p :=
    (stateOf_setCtrlFlag p).trans ((stateOf_setCtrlFlag p).trans (stateOf_storeCtrl p))
  change execSquashReq p c d s = _
  rw [execSquashReq, onComplex_of_acts hrun, if_neg (by simp [hl]), if_neg (by simp [hc])]
  simp only [ignoresCtrl_storeCtrl, hf, Bool.false_eq_true, if_false, storeEn_false, hst]
  split <;> rfl

/-! ## The claim -/

theorem execStartupSettled_runs {s : State} {p : PageId} (hl : live s p = true) (hst : stateOf s p = stStarting)
    (hu : ucodeMatches s p = true) (hsp : isSparePage p = false) (hrng : p ≠ .rng) (hrnx : pageBtype p ≠ 0x0205)
    (hvlt : p ≠ .vlt) (hhbc : p ≠ .hbc) :
    execStartupSettled p s = .next (heartbeatOut ((settleHook s p).setFld p STAT_STATE stRunning)) := by
  unfold execStartupSettled
  rw [if_neg (by simp [hl, hst]), if_neg (by simp [hu]), if_neg (by simp [hsp])]
  split
  case h_1 => exact absurd rfl hrng
  case h_2 => exact absurd rfl hrnx
  case h_3 => exact absurd rfl hvlt
  case h_4 => exact absurd rfl hhbc
  case h_5 => rfl

/-- Settles O20. -/
theorem blockStateMovesAsTheTableSays : Obligations.BlockStateMovesAsTheTableSays := by
  unfold Obligations.BlockStateMovesAsTheTableSays
  intro s p hl hwf
  refine ⟨fun hrun c => ⟨fun hi => ?enableIgnored, fun hf => ⟨fun hraw => ?enableRaw, fun hraw hst => ?enableStarts,
    fun hraw hst => ?enableRuns, fun hraw hst => ⟨fun hadm => ?enableFailed, fun hadm => ?enableAdmitted⟩⟩,
    fun hc => ⟨?disableRefused, fun en => ?drainRefused, fun d => ?squashRefused⟩,
    fun hc hi => ⟨?disableIgnored, fun en => ?drainIgnored, fun d => ?squashIgnored⟩,
    fun hc hf => ⟨?disable, fun en => ?drain, fun d => ⟨fun hst => ?squash, fun hst => ?squashIdle⟩⟩⟩,
    fun hst hin => ?drained, fun hst hin => ?busy, fun hst => ⟨?notDraining, ?noTimeout⟩, fun hst => ?timeout,
    fun hst => ⟨fun hu hsp hrng hrnx hvlt hhbc => execStartupSettled_runs hl hst hu hsp hrng hrnx hvlt hhbc,
      fun hu hsp hcr had => ?spare, fun hu hsp => ?fails, fun hu hsp => ?spareFails⟩, fun hst => ?notStarting⟩
  case enableIgnored =>
    change execBlockEnable p c s = _
    rw [execBlockEnable, onComplex_of_acts hrun, if_neg (by simp [hl])]
    simp only [ignoresCtrl_storeCtrl, hi, if_true]
  case enableRaw =>
    have hstill : rawMode (accessErr (undrainedCtrl s p c) p) = true :=
      (rawMode_congr (.accessErr p (by decide) (by decide) (by decide) (by decide) (by decide))).trans
        (rawMode_undrainedCtrl.trans hraw.2)
    rw [exec_blockEnable_of_follows hrun hl hf (storeEn_of_raw hraw), if_neg fun h => h.2.2 ⟨hraw.1, hstill⟩]
    rfl
  case enableStarts =>
    have hne : stateOf s p ≠ stFailed := by rcases hst with h | h <;> simp [h]
    rw [exec_blockEnable_of_follows hrun hl hf (storeEn_of_stored hraw fun h => absurd h hne), if_pos]
    · rfl
    refine ⟨State.flag_setFlag _ p 0x008 0 true (mwf_setFld (storeCtrl_wf hwf)) (by decide), ?_, fun h => hraw ⟨h.1, ?_⟩⟩
    · rwa [show stateOf ((undrainedCtrl s p c).setFlag p CTRL_EN true) p = stateOf s p from
        (stateOf_setCtrlFlag p).trans (stateOf_undrainedCtrl p)]
    · have hstore : KeepsAt 0x06C (undrainedCtrl s p c) ((undrainedCtrl s p c).setFlag p CTRL_EN true) :=
        .setFlag p true (by decide) (by decide) (by decide)
      exact rawMode_undrainedCtrl.symm.trans ((rawMode_congr hstore).symm.trans h.2)
  case enableRuns =>
    have hne : stateOf s p ≠ stFailed := by rcases hst with h | h | h <;> simp [h]
    rw [exec_blockEnable_of_follows hrun hl hf (storeEn_of_stored hraw fun h => absurd h hne), if_neg]
    · rfl
    rw [show stateOf ((undrainedCtrl s p c).setFlag p CTRL_EN true) p = stateOf s p from
        (stateOf_setCtrlFlag p).trans (stateOf_undrainedCtrl p)]
    rintro ⟨-, h, -⟩
    rcases hst with hst | hst | hst <;> simp [hst] at h
  case enableFailed =>
    rw [exec_blockEnable_of_follows hrun hl hf (storeEn_of_failed hraw hst hadm), if_neg]
    · rfl
    rw [stateOf_undrainedCtrl, hst]
    rintro ⟨-, h, -⟩
    exact absurd h (by decide)
  case enableAdmitted =>
    rw [exec_blockEnable_of_follows hrun hl hf (storeEn_of_stored hraw fun _ => hadm), if_neg]
    · rfl
    rw [show stateOf ((undrainedCtrl s p c).setFlag p CTRL_EN true) p = stateOf s p from
        (stateOf_setCtrlFlag p).trans (stateOf_undrainedCtrl p), hst]
    rintro ⟨-, h, -⟩
    exact absurd h (by decide)
  case disableRefused =>
    change execBlockDisable p c s = _
    rw [execBlockDisable, onComplex_of_acts hrun, if_neg (by simp [hl]), if_pos hc]
  case drainRefused =>
    change execDrainReq p c en s = _
    rw [execDrainReq, onComplex_of_acts hrun, if_neg (by simp [hl]), if_pos hc]
  case squashRefused =>
    change execSquashReq p c d s = _
    rw [execSquashReq, onComplex_of_acts hrun, if_neg (by simp [hl]), if_pos hc]
  case disableIgnored =>
    change execBlockDisable p c s = _
    rw [execBlockDisable, onComplex_of_acts hrun, if_neg (by simp [hl]), if_neg (by simp [hc])]
    simp only [ignoresCtrl_storeCtrl, hi, if_true]
  case drainIgnored =>
    change execDrainReq p c en s = _
    rw [execDrainReq, onComplex_of_acts hrun, if_neg (by simp [hl]), if_neg (by simp [hc])]
    simp only [ignoresCtrl_storeCtrl, hi, if_true]
  case squashIgnored =>
    change execSquashReq p c d s = _
    rw [execSquashReq, onComplex_of_acts hrun, if_neg (by simp [hl]), if_neg (by simp [hc])]
    simp only [ignoresCtrl_storeCtrl, hi, if_true]
  case disable =>
    change execBlockDisable p c s = _
    rw [execBlockDisable, onComplex_of_acts hrun, if_neg (by simp [hl]), if_neg (by simp [hc])]
    simp only [ignoresCtrl_storeCtrl, hf, Bool.false_eq_true, if_false, storeEn_false]
  case drain =>
    change execDrainReq p c en s = _
    rw [execDrainReq, onComplex_of_acts hrun, if_neg (by simp [hl]), if_neg (by simp [hc])]
    simp only [ignoresCtrl_storeCtrl, hf, Bool.false_eq_true, if_false]
  case squash =>
    rw [exec_squashReq_of_follows hrun hl hc hf, if_pos hst]
  case squashIdle =>
    rw [exec_squashReq_of_follows hrun hl hc hf, if_neg]
    rcases hst with hst | hst | hst <;> rw [hst] <;> decide
  case drained =>
    change execDrainComplete p s = _
    rw [execDrainComplete, if_neg (by simp [hl, hst, hin])]
  case busy =>
    change execDrainComplete p s = _
    rw [execDrainComplete, if_pos (.inr (.inr hin))]
  case notDraining =>
    change execDrainComplete p s = _
    rw [execDrainComplete, if_pos (.inr (.inl hst))]
  case noTimeout =>
    change execDrainTimeout p s = _
    rw [execDrainTimeout, if_pos (.inr hst)]
  case timeout =>
    change execDrainTimeout p s = _
    rw [execDrainTimeout, if_neg (by simp [hl, hst])]
  case spare =>
    change execStartupSettled p s = _
    unfold execStartupSettled
    rw [if_neg (by simp [hl, hst]), if_neg (by simp [hu]), if_pos hsp, if_neg (by simp [hcr, had])]
  case fails =>
    change execStartupSettled p s = _
    unfold execStartupSettled
    simp only [if_neg (show ¬ (live s p = false ∨ stateOf s p ≠ stStarting) by simp [hl, hst]), if_pos hu, hsp,
      Bool.false_eq_true, if_false]
  case spareFails =>
    change execStartupSettled p s = _
    unfold execStartupSettled
    simp only [if_neg (show ¬ (live s p = false ∨ stateOf s p ≠ stStarting) by simp [hl, hst]), if_pos hu, hsp, if_true]
  case notStarting =>
    change execStartupSettled p s = _
    unfold execStartupSettled
    exact if_pos (.inr hst)

end Sys2Proof.Machine

/-! # Faults of blocks, regions and the chip; spares, the cruise and repairs (R13 to R34) -/

namespace Sys2Proof.Machine
open Sys2Proof.Claims

/-! ## What a port that goes down changes -/

/-- `t` is `s` with other registers, ports, recorder and pair link. -/
def OnlyLinks (s t : State) : Prop := t = { s with regs := t.regs, ports := t.ports, evr := t.evr, pair := t.pair }

namespace OnlyLinks
variable {s t u : State}

theorem refl (s : State) : OnlyLinks s s := rfl

theorem trans (h : OnlyLinks s t) (h' : OnlyLinks t u) : OnlyLinks s u := by
  exact Eq.trans h' (congrArg (fun x : State => { x with regs := u.regs, ports := u.ports, evr := u.evr, pair := u.pair }) h)

theorem proj {α : Type} (h : OnlyLinks s t) (f : State → α)
    (hf : ∀ g p e q, f { s with regs := g, ports := p, evr := e, pair := q } = f s) : f t = f s := by
  rw [OnlyLinks] at h
  rw [h]
  exact hf ..

theorem foldl {α : Type} (f : State → α → State) (hf : ∀ s x, OnlyLinks s (f s x)) (l : List α) (s : State) :
    OnlyLinks s (l.foldl f s) := by
  induction l generalizing s with
  | nil => exact refl s
  | cons x l ih => exact (hf s x).trans (ih _)

theorem setPort (s : State) (p : Nat) (v : PortSt) : OnlyLinks s (s.setPort p v) := rfl

theorem setFlag (s : State) (p : PageId) (f : Fld) (b : Bool) : OnlyLinks s (s.setFlag p f b) := rfl

theorem portDown (s : State) (p : PageId) : OnlyLinks s (portDown s p) := by
  unfold Machine.portDown
  split
  · exact (setPort ..).trans ((setFlag ..).trans ((setFlag ..).trans ((setFlag ..).trans ((setFlag ..).trans (setFlag ..)))))
  · exact (setPort ..).trans ((setFlag ..).trans ((setFlag ..).trans (setFlag ..)))
  · exact refl s

theorem countDisc (s : State) (p n : Nat) : OnlyLinks s (countDisc s p n) := by
  rw [Machine.countDisc]
  split <;> rfl

theorem discardTx (keep : Bool) (s : State) (p : Nat) : OnlyLinks s (discardTx keep s p) :=
  trans (by rfl) (countDisc _ _ _)

theorem brakePorts (s : State) : OnlyLinks s (brakePorts s) := foldl _ (discardTx true) _ s

theorem postEvent (s : State) (p : PageId) (code : Nat) (p0 p1 p2 p3 : Word) :
    OnlyLinks s (postEvent s p code p0 p1 p2 p3) := by
  obtain ⟨h, -⟩ := postEvent_onlyReport s p code p0 p1 p2 p3
  rw [OnlyLinks]
  rw [h]

theorem linkClosed (s : State) : OnlyLinks s (linkClosed s) := rfl

end OnlyLinks

/-! ## The region -/

/-- A key that a map does not hold reads as its default. -/
theorem mget_of_forall_ne {α : Type} {d : Nat → α} {m : SMap α} {k : Nat} (h : ∀ e ∈ m, e.1 ≠ k) : mget d m k = d k := by
  induction m with
  | nil => rfl
  | cons e m ih =>
    rw [mget, if_neg (fun he => h e (List.mem_cons_self ..) he.symm)]
    exact ih fun x hx => h x (List.mem_cons_of_mem _ hx)

/-- The state whose region `r` has lost what R21 lists. -/
def lostRegion (s : State) (r : Nat) : State :=
  { s with
    ctxs := mfilter (fun k _ => decide (k / 65536 ≠ r)) s.ctxs
    leases := mfilter (fun k _ => decide (k / 65536 ≠ r ∨ 2 ^ 18 ≤ k)) s.leases
    timers := lset s.timers r []
    booms := mfilter (fun k _ => decide (k ≠ r)) s.booms
    brakeQ := lset s.brakeQ r []
    early := s.early.filter fun i => i.ingress ≠ r
    ports := mfilter (fun k _ => decide (k / 32 ≠ r)) s.ports
    rings := lset s.rings r []
    laneQ := mfilter (fun k _ => decide (k / 3 ≠ r)) s.laneQ
    sealQ := lset s.sealQ r []
    mirrorBad := s.mirrorBad.filter (· ≠ r) }

/-- An isolated region has lost its tables; its ports go down, and the rest is reported. -/
theorem isolateRegion_onlyLinks {s : State} {r : Nat} {cause : Word} (hi : isolated s r = false)
    (hf : regionFitted s r = true) : OnlyLinks (lostRegion (loseItems s r) r) (isolateRegion s r cause) := by
  rw [isolateRegion, if_neg (by simp [hi, hf])]
  refine OnlyLinks.trans ?_ (.postEvent ..)
  refine OnlyLinks.trans ?_ (show OnlyLinks _ (State.setFld _ _ _ _) from rfl)
  exact .foldl (fun s n => portDown s (.lnk n)) (fun s n => .portDown s _) _ _

/-- What isolating a region leaves of its contexts, its boom and its queues (R21). -/
theorem isolateRegion_loses {s : State} {r : Nat} {cause : Word} (hi : isolated s r = false) (hf : regionFitted s r = true) :
    (∀ i < 65536, (isolateRegion s r cause).ctxAt r i = Ctx.free) ∧ (∀ e ∈ (isolateRegion s r cause).booms, e.1 ≠ r) ∧
      ∀ e ∈ (isolateRegion s r cause).laneQ, e.1 / 3 ≠ r := by
  have h := isolateRegion_onlyLinks (cause := cause) hi hf
  refine ⟨fun i hlt => ?ctx, fun e he => ?boom, fun e he => ?queue⟩
  case ctx =>
    rw [State.ctxAt, h.proj State.ctxs fun _ _ _ _ => rfl]
    refine mget_of_forall_ne fun e he => ?_
    obtain ⟨-, hkey⟩ := List.mem_filter.1 he
    rw [decide_eq_true_eq] at hkey
    intro hek
    rw [hek, ctxKey] at hkey
    omega
  case boom =>
    rw [h.proj State.booms fun _ _ _ _ => rfl] at he
    simpa using (List.mem_filter.1 he).2
  case queue =>
    rw [h.proj State.laneQ fun _ _ _ _ => rfl] at he
    simpa using (List.mem_filter.1 he).2

/-! ## The chip -/

/-- The unit with its first chip-level fault: FAULT_N asserted, READY deasserted and the vault closed. -/
def stoppedUnit (s : State) (cause : Nat) : State :=
  { s with chipFault := some cause, shut := true, balls := { s.balls with fault := true, ready := false } }

theorem chipLevelFault_onlyLinks {s : State} {cause : Nat} (h : s.chipFault = none) :
    ∃ t, OnlyLinks (stoppedUnit s cause) t ∧ chipLevelFault s cause = heartbeatOut { t with held := [] } := by
  have hrep : OnlyLinks (stoppedUnit s cause) (stoppedUnit (postEvent s .top 0x3002 (BitVec.ofNat 32 cause)) cause) :=
    congrArg (fun x => stoppedUnit x cause) (OnlyLinks.postEvent s .top 0x3002 (BitVec.ofNat 32 cause) 0 0 0)
  exact ⟨_, ((hrep.trans (.brakePorts _)).trans (.discardTx true _ 128)).trans (.linkClosed _), if_neg (by simp [h])⟩

/-- The first chip-level fault stops the unit (R25). -/
theorem chipLevelFault_stops {s : State} {cause : Nat} (h : s.chipFault = none) :
    (chipLevelFault s cause).chipFault = some cause ∧ (chipLevelFault s cause).balls.fault = true ∧
      (chipLevelFault s cause).balls.ready = false ∧ (chipLevelFault s cause).balls.hbOut = false ∧
      (chipLevelFault s cause).shut = true ∧ (chipLevelFault s cause).held = [] := by
  obtain ⟨t, hl, ht⟩ := chipLevelFault_onlyLinks (cause := cause) h
  have hfault : t.chipFault = some cause := hl.proj State.chipFault fun _ _ _ _ => rfl
  have hshut : t.shut = true := hl.proj State.shut fun _ _ _ _ => rfl
  have hballs : t.balls = { s.balls with fault := true, ready := false } := hl.proj State.balls fun _ _ _ _ => rfl
  rw [ht]
  refine ⟨hfault, ?_, ?_, ?_, hshut, rfl⟩
  · simp only [heartbeatOut, hballs]
  · simp only [heartbeatOut, hballs]
  · simp only [heartbeatOut, hfault, Option.isNone_some, Bool.and_false]

/-! ## Errors of a page -/

theorem next_congr {s t : State} (h : s = t) : (.next s : Res) = .next t := congrArg _ h

/-- A corrected error of a page of no region other than the HBM controller's. -/
theorem meetCorrected_of_chip {s : State} {p : PageId} {code : Nat} {addr : BitVec 40} (hl : live s p = true)
    (hr : pageRegion p = none) (hp : p ≠ .hbc) : meetCorrected s p code addr =
      raiseErr (s.bumpSat p HEALTH_CORR) p 8 code 0xFFFFFFFF (addr.setWidth 32) := by
  rw [meetCorrected, if_neg (by simp [hl])]
  simp only [hr]
  split
  case h_1 => exact absurd rfl hp
  case h_2 => simp [pageRegion] at hr
  case h_3 => simp [pageRegion] at hr
  case h_4 => rfl

theorem meetError_of_working {s : State} {p : PageId} (hl : live s p = true) (hoff : stateOf s p ≠ stOff)
    (hfail : stateOf s p ≠ stFailed) : ¬ (live s p = false ∨ stateOf s p = stOff ∨ stateOf s p = stFailed) := by
  simp [hl, hoff, hfail]

/-! ## The end of an admission check -/

section Admission
variable {s : State} {p q : PageId} {k : Nat}

/-- The check of spare `q` for page `p` ends with what its site gave, or fails for other microcode. -/
theorem exec_spareAdmissionDone_of_admitted (hadm : (s.auxOf p).admitted = some k) (hrng : p ≠ .rng)
    (hq : (sparesOf p).find? (fun q => unitPos q = k) = some q) {s1 : State}
    (hs1 : s.setAux p { s.auxOf p with admitted := none } = s1) (hl : live s1 p = true) (res : Option Byte) {r : Option Byte}
    (hr : (if ucodeMatches s1 q then res else some 0) = r) : exec (.spareAdmissionDone p res) s = .next (match r with
      | some v => coreLost (coppice (unitFails s1 q v.toNat) p) p
      | none =>
        if stateOf s1 p = stFailed then
          if (swapSites s1 p q stFailed).flag p CTRL_EN ∧ (swapSites s1 p q stFailed).flag p CTRL_DRAIN_REQ = false then
            (swapSites s1 p q stFailed).setFld p STAT_STATE stStarting
          else setState (swapSites s1 p q stFailed) p stStopped
        else if inflight s1 p = 0 then
          (swapSites s1 p q stStarting).setAux q { (swapSites s1 p q stStarting).auxOf q with cruise := true }
        else sparePasses s1 q) := by
  change execSpareAdmissionDone p res s = _
  unfold execSpareAdmissionDone
  simp only [if_neg hrng, hadm, hs1, hq, hl, Bool.true_eq_false, if_false, hr]
  rcases r with _ | v
  · dsimp only
    split
    · rfl
    split <;> rfl
  · rfl

end Admission

/-! ## The cruise -/

section Cruise
variable {s : State} {p : PageId} (hrun : ComplexActs s) (hl : live s p = true)
include hrun hl

theorem exec_cruiseTest_start : exec (.cruiseTest p .start) s = .next (cruiseStart s p) := by
  change execCruiseTest p .start s = _
  rw [execCruiseTest, onComplex_of_acts hrun, if_neg (by simp [hl])]

/-- A result ends the test that runs on a page. -/
theorem exec_cruiseTest_end (hcr : (s.auxOf p).cruise = true) {res : CruiseResult} (hs : res ≠ .start)
    (ho : ∀ site ok, res ≠ .osc site ok) : exec (.cruiseTest p res) s = .next (cruiseEnd s p res) := by
  change execCruiseTest p res s = _
  unfold execCruiseTest
  rw [onComplex_of_acts hrun, if_neg (by simp [hl])]
  split
  case h_1 => exact absurd rfl (ho _ _)
  case h_2 => exact absurd rfl hs
  case h_3 => rw [if_pos hcr]

end Cruise

/-! ## The claim -/

/-- Settles O21. -/
theorem faultLevelsTakeTheirEffect : Obligations.FaultLevelsTakeTheirEffect := by
  unfold Obligations.FaultLevelsTakeTheirEffect
  intro s
  refine ⟨fun p code addr hl => ⟨fun hr hp => ?corrChip, fun hp => ?corrHbc, fun r hp => ?corrPort, fun r hp => ?corrCtx⟩,
    fun p code parity v addr hl hoff hfail => ⟨fun r k hp => ?block, fun r hp => ?region, fun hp => ?chip,
      fun hp hc => ?hbm, fun r hp hc => ?operand, fun r stamp hp hpar hv => ?frame⟩,
    fun r p1 hi => ?isolatedAlready, fun r p1 hi hf => ⟨_, rfl, isolateRegion_loses hi hf⟩,
    fun cause h => ⟨_, rfl, chipLevelFault_stops h⟩, fun cause h => ?faultAlready,
    fun p q k hadm hrng hq hl => ⟨fun hu => ⟨fun hst => ⟨fun hen hdr => ?starts, fun hen => ?holds⟩,
      fun hst hin => ?relieves, fun hst hin => ?returns, fun v => ?fails⟩, fun hu res => ?microcode⟩,
    fun res => rfl,
    fun p hrun hl => ⟨fun hst hcr hadm => ⟨fun hsp hst => ?startSpare, fun hsp hst1 hst2 => ⟨fun hallow hs => ?startRelief,
      fun hno hin => ?startIdle⟩⟩, fun hcr => ⟨fun hsp => ?passSpare, fun hsp hin => ?passIdle,
      fun hidle => ⟨fun v => ?testFails, fun bank line => ?uncoverable⟩, fun hsp hin bank line => ?repair⟩⟩,
    fun p hin => ?apply⟩
  case corrChip => exact next_congr (meetCorrected_of_chip hl hr hp)
  case corrHbc =>
    subst hp
    exact next_congr (if_neg (by simp [hl]))
  case corrPort =>
    subst hp
    exact next_congr (if_neg (by simp [hl]))
  case corrCtx =>
    subst hp
    exact next_congr (if_neg (by simp [hl]))
  case block =>
    have hw := meetError_of_working hl hoff hfail
    obtain rfl | rfl | rfl | rfl := hp <;> exact next_congr (if_neg hw)
  case region =>
    have hw := meetError_of_working hl hoff hfail
    obtain rfl | rfl := hp <;> exact next_congr (if_neg hw)
  case chip =>
    have hw := meetError_of_working hl hoff hfail
    obtain rfl | rfl := hp <;> exact next_congr (if_neg hw)
  case hbm =>
    have hw := meetError_of_working hl hoff hfail
    subst hp hc
    exact next_congr (if_neg hw)
  case operand =>
    have hw := meetError_of_working hl hoff hfail
    subst hp hc
    exact next_congr (if_neg hw)
  case frame =>
    have hw := meetError_of_working hl hoff hfail
    subst hp hpar hv
    exact next_congr (if_neg hw)
  case isolatedAlready => exact next_congr (if_pos (.inl hi))
  case faultAlready => exact next_congr (if_pos (Option.isSome_iff_ne_none.2 h))
  case starts =>
    rw [exec_spareAdmissionDone_of_admitted hadm hrng hq rfl hl none (if_pos hu)]
    simp only [if_pos hst, if_pos (And.intro hen hdr)]
  case holds =>
    rw [exec_spareAdmissionDone_of_admitted hadm hrng hq rfl hl none (if_pos hu)]
    dsimp only
    rw [if_pos hst, if_neg]
    rcases hen with h | h <;> simp [h]
  case relieves =>
    rw [exec_spareAdmissionDone_of_admitted hadm hrng hq rfl hl none (if_pos hu)]
    simp only [if_neg hst, if_pos hin]
  case returns =>
    rw [exec_spareAdmissionDone_of_admitted hadm hrng hq rfl hl none (if_pos hu)]
    simp only [if_neg hst, if_neg hin]
  case fails => rw [exec_spareAdmissionDone_of_admitted hadm hrng hq rfl hl (some v) (if_pos hu)]
  case microcode => exact exec_spareAdmissionDone_of_admitted hadm hrng hq rfl hl res (if_neg (by simp [hu]))
  case startSpare =>
    rw [exec_cruiseTest_start hrun hl]
    unfold cruiseStart
    simp only [hst, hcr, hadm, hsp]
    rfl
  case startRelief =>
    rw [exec_cruiseTest_start hrun hl]
    unfold cruiseStart
    simp [hst, hcr, hadm, hsp, hst1, hst2, hallow, hs]
  case startIdle =>
    rw [exec_cruiseTest_start hrun hl]
    unfold cruiseStart
    have hno' : ¬ (s.flag p CTRL_SPARE_ALLOW = true ∧ sparesFor s p ≠ []) := by rcases hno with h | h <;> simp [h]
    simp only [hst, hcr, hadm, hsp, hst1, hst2, if_neg hno', if_pos (Or.inl hin)]
    rfl
  case passSpare =>
    rw [exec_cruiseTest_end hrun hl hcr (by simp) (by simp)]
    unfold cruiseEnd
    simp only [hsp, Bool.true_eq_false, false_and, if_false, if_true]
  case passIdle =>
    rw [exec_cruiseTest_end hrun hl hcr (by simp) (by simp)]
    unfold cruiseEnd
    simp only [hsp, hin, ne_eq, not_true, false_and, and_false, if_false, Bool.false_eq_true]
  case testFails =>
    rw [exec_cruiseTest_end hrun hl hcr (by simp) (by simp)]
    exact next_congr (if_neg fun h => hidle.elim (fun h' => by simp [h'] at h) h.2.1)
  case uncoverable =>
    rw [exec_cruiseTest_end hrun hl hcr (by simp) (by simp)]
    exact next_congr (if_neg fun h => hidle.elim (fun h' => by simp [h'] at h) h.2.1)
  case repair =>
    rw [exec_cruiseTest_end hrun hl hcr (by simp) (by simp)]
    unfold cruiseEnd
    simp only [hsp, hin, ne_eq, not_true, false_and, and_false, if_false, Bool.false_eq_true]
  case apply => exact if_neg (by simp [hin])

end Sys2Proof.Machine

/-! # Register and memory writes of a master (R40 to R42, R48, R49, R54) -/

namespace Sys2Proof.Machine
open Sys2Proof.Claims

/-! ## Addresses -/

/-- The pages lie in two ranges below 0x01_0000_0000. -/
theorem range_of_pageOfAddr {a : Nat} {p : PageId} (h : pageOfAddr a = some p) : 0xF0000000 ≤ a ∧ a < 0xF2000000 := by
  unfold pageOfAddr at h
  split at h
  · omega
  split at h
  · omega
  · cases h

/-- The two words of a 64-bit access lie in one page. -/
theorem pageOfAddr_second {a : Nat} (h : a % 8 = 0) : pageOfAddr (a + 4) = pageOfAddr a := by
  unfold pageOfAddr
  have hchip : (0xF0000000 ≤ a + 4 ∧ a + 4 < 0xF0040000) = (0xF0000000 ≤ a ∧ a < 0xF0040000) := by
    apply propext
    omega
  have hregion : (0xF1000000 ≤ a + 4 ∧ a + 4 < 0xF2000000) = (0xF1000000 ≤ a ∧ a < 0xF2000000) := by
    apply propext
    omega
  simp only [hchip, hregion]
  split
  · rw [show (a + 4 - 0xF0000000) / 0x1000 = (a - 0xF0000000) / 0x1000 by omega]
  split
  · rw [show (a + 4 - 0xF1000000) / 0x400000 = (a - 0xF1000000) / 0x400000 by omega,
      show (a + 4 - 0xF1000000) % 0x400000 / 0x1000 = (a - 0xF1000000) % 0x400000 / 0x1000 by omega]
  · rfl

theorem hbmBytes_le (v : Variant) : v.hbmBytes ≤ 0x400000000 := by cases v <;> decide

/-! ## Memory -/

theorem ofNat_div_eq_extractLsb' (v : Word) (j : Nat) : BitVec.ofNat 8 (v.toNat / 256 ^ j) = v.extractLsb' (8 * j) 8 := by
  apply BitVec.eq_of_toNat_eq
  rw [BitVec.toNat_ofNat, BitVec.extractLsb'_toNat, Nat.shiftRight_eq_div_pow, show 256 = 2 ^ 8 from rfl, ← Nat.pow_mul]

/-- The bytes of a word, the lowest first. -/
theorem leBytes_word (v : Word) : leBytes 4 v.toNat =
    [v.extractLsb' 0 8, v.extractLsb' 8 8, v.extractLsb' 16 8, v.extractLsb' 24 8] := by
  simp only [leBytes, beBytes, ofNat_div_eq_extractLsb', List.reverse_cons, List.reverse_nil, List.nil_append, List.cons_append,
    Nat.mul_zero, Nat.mul_one, Nat.reduceMul]

/-- A string stored in a memory in canonical form reads back. -/
theorem memRead_memWrite (m : SMap Byte) (a : Nat) (b : Bytes) (h : Memory.wf m = true) :
    memRead (memWrite m a b) a b.length = b := by
  induction b generalizing m a with
  | nil => rfl
  | cons x b ih =>
    rw [List.length_cons, memRead, memWrite, ih _ _ (memSet_wf m a x h), memGet_memWrite_outside _ _ _ _ (by omega)]
    exact congrArg (· :: b) (mget_mset_self _ m a x h)

section Access
variable {s : State} {x : Master} {a : Nat} {v : Word}

/-- A word that a master writes to memory. -/
theorem exec_registerWrite_memory (hmem : inMemory a 4 = true) (h : Reaches s x .write a 4) :
    exec (.registerWrite x a v none) s = .next (masterMemory s a (leBytes 4 v.toNat)) := by
  obtain ⟨hrun, hreach⟩ := h
  change execRegisterWrite x a v none s = _
  simp only [execRegisterWrite, Option.toList_none, List.length_singleton, Nat.mul_one, hrun, Bool.true_eq_false, if_false,
    hreach, hmem, if_true, List.map_cons, List.map_nil, List.flatten_cons, List.flatten_nil, List.append_nil]

/-- A write that is turned away has the effect of its refusal. -/
theorem exec_registerWrite_of_error {hi : Option Word} {t : State} (hrun : masterRuns s x = true)
    (h : pageReach s x .write (pageOfAddr a) a (4 * (v :: hi.toList).length) = .error t) :
    exec (.registerWrite x a v hi) s = .next t := by
  change execRegisterWrite x a v hi s = _
  simp only [execRegisterWrite, hrun, Bool.true_eq_false, if_false, h]

end Access

/-! ## A word of a page -/

section Page
variable {s : State} {x : Master} {p : PageId} {off : Nat} {v : Word}

/-- A write whose cells hold no injected error goes to the page, unless the debug master may not reach it. -/
theorem masterPage_of_unarmed (hrun : masterRuns s x = true) (hu : Unarmed s p) (hten : p ≠ .ten) (htmp : p ≠ .tmp)
    (hmpu : pageBtype p = 0x0112 → x ≠ .debug) : masterPage s x p off v = writePage s p off v := by
  have htouch : (if registerUnit p then touch s p else s) = s := by
    rw [touch_of_unarmed hu]
    exact ite_self _
  unfold masterPage
  split
  · exact absurd rfl hten
  · exact absurd rfl (hmpu rfl)
  · exact absurd rfl htmp
  · rw [htouch, if_pos hrun]

theorem writePage_of_not_live (h : live s p = false) : writePage s p off v = s := if_pos h

/-- A word of a page with no home of its own. -/
theorem writePage_of_live (h : live s p = true) (hten : p ≠ .ten) (htmp : p ≠ .tmp) (hvlt : p ≠ .vlt) :
    writePage s p off v =
      if frozen s p off ∨ (pageBtype p = 0x0112 ∧ 0x100 ≤ off ∧ locked s p) then s
      else if pageBtype p = 0x0202 ∧ 0x100 ≤ off ∧ segSealed s 2 then accessErr s p
      else if valueRefused s p off v then accessErr s p
      else writeHook (writeRows (if stopRefused s p off then accessErr s p else s) p off v) p off := by
  rw [writePage, if_neg (by simp [h]), if_neg (by simp [hten]), if_neg (by simp [htmp]), if_neg (by simp [hvlt])]

/-- An aligned word that a master writes to a page. -/
theorem exec_registerWrite_page {a : Nat} (ha : a % 4 = 0) (hp : pageOfAddr a = some p) (h : Reaches s x .write a 4) :
    exec (.registerWrite x a v none) s = .next (masterPage s x p (a % 0x1000) v) := by
  obtain ⟨hlo, hhi⟩ := range_of_pageOfAddr hp
  obtain ⟨hrun, hreach⟩ := h
  rw [hp] at hreach
  change execRegisterWrite x a v none s = _
  have hmem : inMemory a 4 = false := by simp [inMemory]; omega
  simp only [execRegisterWrite, Option.toList_none, List.length_singleton, Nat.mul_one, hrun, Bool.true_eq_false, if_false,
    hreach, hmem, Bool.false_eq_true, ha, ne_eq, not_true, Option.isSome_none, Bool.false_and, or_self, writeWords, hp]
  exact if_pos (show a < 0x40000 ∨ (0xF0000000 ≤ a ∧ a ≤ 0xFFFFFFFF) by omega)

end Page

/-- Settles O22. -/
theorem registerWriteGoesWhereTheMapSays : Obligations.RegisterWriteGoesWhereTheMapSays := by
  unfold Obligations.RegisterWriteGoesWhereTheMapSays
  intro s x a v
  refine ⟨fun hlo hhi hreach => ?sram, fun hlo hhi hreach hu hr => ?hbm,
    fun p ha hp hreach hu hten htmp hvlt hmpu => ⟨fun hl => ?absent, fun hl hfz => ?frozen,
      fun hl hfz hnot hsch => ⟨fun hval => ?value, fun hval hstop => ?stopped, fun hval hstop => ?stored⟩⟩,
    fun p c u w ha hp hx hreach => ?double, fun ha hp hreach => ?misaligned, fun hlo hreach => ?fault,
    fun hrun t hi herr => ?refused, fun r hp hpriv hrun hl hi => ?pmc⟩
  case sram =>
    refine ⟨{ s with sram := memWrite s.sram (a - 0x10000000) (leBytes 4 v.toNat) }, ?_, rfl, fun hwf => ?_, fun b hb => ?_⟩
    · rw [exec_registerWrite_memory (by simp [inMemory]; omega) hreach, masterMemory, if_neg (by omega), physWrite,
        if_neg (by omega), if_pos (by omega)]
    · rw [physRead, if_neg (by omega), if_pos (by omega), ← leBytes_word]
      exact memRead_memWrite s.sram _ (leBytes 4 v.toNat) hwf
    · exact memGet_memWrite_outside _ _ _ _ hb
  case hbm =>
    have hsize := hbmBytes_le s.fuse.variant
    have hlen : (leBytes 4 v.toNat).length = 4 := by rw [leBytes, List.length_reverse, length_beBytes]
    rw [exec_registerWrite_memory (by simp [inMemory]; omega) hreach, masterMemory, if_pos hlo, hlen,
      if_neg (show ¬ 0x1000000000 + s.fuse.variant.hbmBytes < a + 4 by omega)]
    simp only [touch_of_unarmed hu, hr, if_true, physWrite, if_pos hlo]
  case absent =>
    rw [exec_registerWrite_page ha hp hreach, masterPage_of_unarmed hreach.1 hu hten htmp hmpu, writePage_of_not_live hl]
  case frozen =>
    rw [exec_registerWrite_page ha hp hreach, masterPage_of_unarmed hreach.1 hu hten htmp hmpu,
      writePage_of_live hl hten htmp hvlt, if_pos (.inl hfz)]
  case value =>
    rw [exec_registerWrite_page ha hp hreach, masterPage_of_unarmed hreach.1 hu hten htmp hmpu,
      writePage_of_live hl hten htmp hvlt, if_neg (by simp [hfz, hnot]), if_neg (by simp [hsch]), if_pos hval]
  case stopped =>
    rw [exec_registerWrite_page ha hp hreach, masterPage_of_unarmed hreach.1 hu hten htmp hmpu,
      writePage_of_live hl hten htmp hvlt, if_neg (by simp [hfz, hnot]), if_neg (by simp [hsch]), if_neg (by simp [hval]),
      if_pos hstop]
  case stored =>
    rw [exec_registerWrite_page ha hp hreach, masterPage_of_unarmed hreach.1 hu hten htmp hmpu,
      writePage_of_live hl hten htmp hvlt, if_neg (by simp [hfz, hnot]), if_neg (by simp [hsch]), if_neg (by simp [hval]),
      if_neg (by simp [hstop])]
  case double =>
    subst hx
    obtain ⟨hlo, hhi⟩ := range_of_pageOfAddr hp
    obtain ⟨hrun, hacc⟩ := hreach
    rw [hp] at hacc
    have hmem : inMemory a 8 = false := by simp [inMemory]; omega
    have hoff : (a + 4) % 0x1000 = a % 0x1000 + 4 := by omega
    change execRegisterWrite (.core c u) a v (some w) s = _
    simp only [execRegisterWrite, Option.toList_some, List.length_cons, List.length_nil, Nat.zero_add, Nat.reduceAdd,
      Nat.reduceMul, hrun, Bool.true_eq_false, if_false, hacc, hmem, Bool.false_eq_true, ha, ne_eq, not_true, Bool.and_false,
      or_self, writeWords, pageOfAddr_second ha, hp, hoff]
    exact if_pos (show a < 0x40000 ∨ (0xF0000000 ≤ a ∧ a ≤ 0xFFFFFFFF) by omega)
  case misaligned =>
    obtain ⟨p, hp⟩ := hp
    obtain ⟨hlo, hhi⟩ := range_of_pageOfAddr hp
    obtain ⟨hrun, hacc⟩ := hreach
    have hmem : inMemory a 4 = false := by simp [inMemory]; omega
    change execRegisterWrite x a v none s = _
    simp only [execRegisterWrite, Option.toList_none, List.length_singleton, Nat.mul_one, hrun, Bool.true_eq_false, if_false,
      hacc, hmem, Bool.false_eq_true]
    rw [if_pos (show a < 0x40000 ∨ (0xF0000000 ≤ a ∧ a ≤ 0xFFFFFFFF) by omega), if_pos (.inl ha)]
  case fault =>
    obtain ⟨hrun, hacc⟩ := hreach
    have hmem : inMemory a 4 = false := by simp [inMemory]; omega
    change execRegisterWrite x a v none s = _
    simp only [execRegisterWrite, Option.toList_none, List.length_singleton, Nat.mul_one, hrun, Bool.true_eq_false, if_false,
      hacc, hmem, Bool.false_eq_true]
    exact if_neg (show ¬ (a < 0x40000 ∨ (0xF0000000 ≤ a ∧ a ≤ 0xFFFFFFFF)) by omega)
  case refused => exact exec_registerWrite_of_error hrun herr
  case pmc =>
    refine exec_registerWrite_of_error hrun ?_
    simp only [pageReach, hp, hpriv, Bool.false_eq_true, if_false, hl, if_true]

end Sys2Proof.Machine

/-! # Host port events and received frames (R56 to R81) -/

namespace Sys2Proof.Machine
open Sys2Proof.Claims

/-- A unit whose cells hold no injected error meets none, whether it has work or not. -/
theorem touchIf_of_unarmed {s : State} {work : Bool} {p : PageId} {v : Victim} (h : Unarmed s p) : touchIf s work p v = s := by
  rw [touchIf, touch_of_unarmed h]
  exact ite_self _

/-- The oldest response that flow control holds back is the first of the queue. -/
theorem exec_txholdTimeout_idle {s : State} {p : Nat} {x : Resp} {l : List Resp} (hp : p < 128)
    (hs : (s.port p).sending = false) (htx : (s.port p).tx = x :: l) (hx : held s p x.cls = true) :
    exec (.txholdTimeout p) s = .next (countDisc (s.setPort p { s.port p with tx := l }) p) := by
  have hfind : (x :: l).find? (fun x => held s p x.cls) = some x := List.find?_cons_of_pos hx
  change execTxholdTimeout p s = _
  simp only [execTxholdTimeout, if_neg (Nat.not_le.2 hp), hs, Bool.false_eq_true, if_false, htx, List.drop_zero, hfind, List.take_zero, List.nil_append, List.erase_cons_head]

/-- A response in transmission is passed over. -/
theorem exec_txholdTimeout_sending {s : State} {p : Nat} {x y : Resp} {l : List Resp} (hp : p < 128)
    (hs : (s.port p).sending = true) (htx : (s.port p).tx = x :: y :: l) (hy : held s p y.cls = true) :
    exec (.txholdTimeout p) s = .next (countDisc (s.setPort p { s.port p with tx := x :: l }) p) := by
  have hfind : (y :: l).find? (fun x => held s p x.cls) = some y := List.find?_cons_of_pos hy
  change execTxholdTimeout p s = _
  simp only [execTxholdTimeout, if_neg (Nat.not_le.2 hp), hs, if_true, htx, List.drop_succ_cons, List.drop_zero, hfind, List.take_succ_cons, List.take_zero, List.cons_append, List.nil_append, List.erase_cons_head]

theorem exec_responseTransmitDone {s : State} {p : Nat} {x : Resp} {l : List Resp} (hp : p < 128)
    (hu : Unarmed s (.lnk p)) (hs : (s.port p).sending = true) (htx : (s.port p).tx = x :: l) :
    exec (.responseTransmitDone p) s =
      .next (startTx ((s.setPort p { s.port p with tx := l, sending := false, link := [] }).bump (.lnk p) LNK_CNT_TXFRM) p) := by
  have hpage : portPage p = .lnk p := if_neg (by omega)
  change execResponseTransmitDone p s = _
  simp only [execResponseTransmitDone, hpage, touchIf_of_unarmed hu, hs, Bool.true_eq_false, if_false, htx, List.drop_succ_cons,
    List.drop_zero, if_neg (show p ≠ 128 by omega)]

/-- Settles O23. -/
theorem portEventsChangeLinkAndQueue : Obligations.PortEventsChangeLinkAndQueue := by
  unfold Obligations.PortEventsChangeLinkAndQueue
  intro s p hp
  refine ⟨fun ha => ⟨⟨fun ht => ?lock, fun ht => ?lockTrains⟩, ⟨fun hup => ?down, fun hup => ?downAlready⟩,
      fun hold resume => ?pause, fun classes => ?quanta⟩,
    fun ha => ⟨?noLock, ?noDown, fun hold resume => ?noPause, fun classes => ?noQuanta⟩,
    fun hr => ⟨fun hte hphy => ?training, fun hphy => ?noTraining, fun hx => ?xoff, fun hx => ?noXoff⟩,
    fun x l => exec_txholdTimeout_idle hp, fun x y l => exec_txholdTimeout_sending hp,
    fun x l => exec_responseTransmitDone hp, fun hs => ?notSending, ⟨_, rfl, ?fence⟩, rfl⟩
  case lock =>
    change execBlockLockAcquired p s = _
    rw [execBlockLockAcquired, if_neg (by simp [hp, ha])]
    exact next_congr (if_neg ht)
  case lockTrains =>
    change execBlockLockAcquired p s = _
    rw [execBlockLockAcquired, if_neg (by simp [hp, ha])]
    exact next_congr (if_pos ht)
  case down =>
    change execLinkDown p s = _
    rw [execLinkDown, if_neg (by simp [hp, ha])]
    exact next_congr (if_pos hup)
  case downAlready =>
    change execLinkDown p s = _
    rw [execLinkDown, if_neg (by simp [hp, ha])]
    exact next_congr (if_neg (by simp [hup]))
  case pause =>
    change execPauseReceived p hold resume s = _
    rw [execPauseReceived, if_neg (by simp [ha]; omega), if_neg (by omega)]
  case quanta =>
    change execPauseQuantaExpiry p classes s = _
    rw [execPauseQuantaExpiry, if_neg (by simp [ha]; omega)]
  case noLock => exact if_pos (.inr ha)
  case noDown => exact if_pos (.inr ha)
  case noPause => exact if_pos (.inr ha)
  case noQuanta => exact if_pos (.inr ha)
  case training =>
    change execTrainingTimeout p s = _
    rw [execTrainingTimeout, if_neg (by simp [hp, hr, hte, hphy])]
  case noTraining => exact if_pos (.inr (.inr (.inr hphy)))
  case xoff =>
    change execXoffRepeat p s = _
    rw [execXoffRepeat, if_neg (by simp [hp, hr]), if_neg (by simp [hx])]
  case noXoff =>
    change execXoffRepeat p s = _
    rw [execXoffRepeat, if_neg (by simp [hp, hr]), if_pos hx]
  case notSending =>
    change execResponseTransmitDone p s = _
    have hidle : touchIf s (s.port p).sending (portPage p) = s := by rw [touchIf, hs]; rfl
    rw [execResponseTransmitDone]
    simp only [hidle]
    exact if_pos hs
  case fence =>
    exact congrArg Balls.fence ((OnlyLinks.brakePorts _).proj State.balls fun _ _ _ _ => rfl)

/-- A frame at a running port whose link is up, no injected error being armed there. -/
theorem exec_frameReceived_of_up {s : State} {p : Nat} {frame : Bytes} {fcsOk : Bool} (hp : p < 128)
    (hr : running s (.lnk p) = true) (hup : s.flag (.lnk p) LNK_STATUS_LINK_UP = true) (hu : Unarmed s (.lnk p))
    {f : Parsed} (hparse : parseFrame s p fcsOk frame = f) :
    exec (.frameReceived p frame fcsOk) s = .next (
      if fenced s then s.bump (.cls (p / 32)) CLS_DROP_BRAKE
      else if running s (.cls (p / 32)) = false then clsDrop s (p / 32) CLS_DROP_STOPPED
      else match f with
        | .bad => pmcEvent (s.bump (.lnk p) LNK_CNT_BADFRM) (p / 32) 0x02 none
        | .neighbour a => sendLink s p a
        | .noMatch => clsDrop s (p / 32) CLS_DROP_NOMATCH
        | .adetra src vlan b pad clean =>
          if headerOk p vlan b pad clean (frame.length + 4) = false then clsDrop s (p / 32) CLS_DROP_FORMAT
          else classifyTouched s p (p / 32) (frameClass p vlan b) (frame.length + 4) src vlan b) := by
  change execFrameReceived p frame fcsOk s = _
  simp only [execFrameReceived, touchIf_of_unarmed hu, hr, hup, hparse, Nat.not_le.2 hp, Bool.true_eq_false, or_self, if_false]
  split
  · rfl
  split
  · rfl
  cases f with
  | adetra src vlan b pad clean => dsimp only; split <;> rfl
  | _ => rfl

/-- Settles O24. -/
theorem receivedFramesAreCheckedInOrder : Obligations.ReceivedFramesAreCheckedInOrder := by
  unfold Obligations.ReceivedFramesAreCheckedInOrder
  intro s p frame fcsOk hp hr hup hu
  have hnot {b : Bool} (h : b = false) : ¬ b = true := by simp [h]
  have hrun {b : Bool} (h : b = true) : ¬ b = false := by simp [h]
  refine ⟨fun hf => ?fenced, fun hf hc => ?stopped, fun hf hc => ⟨fun hparse => ?bad, fun a hparse => ?neighbour,
    fun hparse => ?noMatch, fun src vlan b pad clean hparse => ⟨fun hok => ?format, fun hok hcls => ?classified⟩⟩⟩
  case fenced => rw [exec_frameReceived_of_up hp hr hup hu rfl, if_pos hf]
  case stopped => rw [exec_frameReceived_of_up hp hr hup hu rfl, if_neg (hnot hf), if_pos hc]
  case bad => rw [exec_frameReceived_of_up hp hr hup hu hparse, if_neg (hnot hf), if_neg (hrun hc)]
  case neighbour =>
    rw [exec_frameReceived_of_up hp hr hup hu hparse, if_neg (hnot hf), if_neg (hrun hc)]
    rfl
  case noMatch => rw [exec_frameReceived_of_up hp hr hup hu hparse, if_neg (hnot hf), if_neg (hrun hc)]
  case format =>
    rw [exec_frameReceived_of_up hp hr hup hu hparse, if_neg (hnot hf), if_neg (hrun hc)]
    exact next_congr (if_pos hok)
  case classified =>
    have hclass {c n : Nat} : classifyTouched s p (p / 32) c n src vlan b = classify s p (p / 32) c n src vlan b := by
      have hnone : (s.auxOf (.cls (p / 32))).inject = none := hcls
      simp only [classifyTouched, hnone, touch_of_unarmed hcls]
    rw [exec_frameReceived_of_up hp hr hup hu hparse, if_neg (hnot hf), if_neg (hrun hc), ← hclass]
    exact next_congr (if_neg (hrun hok))

end Sys2Proof.Machine

/-! # The host table (R62, R76, R82) -/

namespace Sys2Proof.Machine
open Sys2Proof.Claims

/-! ## Two fields of one word -/

section Fields
variable {f g : Fld}

/-- A field put into a word leaves the bits above it and those below it alone. -/
theorem Fld.toNat_put_parts (w : Word) (n : Nat) (hf : f.lo + f.width ≤ 32) :
    (f.put w n).toNat / 2 ^ (f.lo + f.width) = w.toNat / 2 ^ (f.lo + f.width) ∧
      (f.put w n).toNat % 2 ^ f.lo = w.toNat % 2 ^ f.lo := by
  have hput := Fld.toNat_put f w n hf
  have hlow : w.toNat = 2 ^ f.lo * (w.toNat / 2 ^ f.lo) + w.toNat % 2 ^ f.lo := (Nat.div_add_mod _ _).symm
  have hmid : w.toNat / 2 ^ f.lo = 2 ^ f.width * (w.toNat / 2 ^ f.lo / 2 ^ f.width) + f.get w := (Nat.div_add_mod _ _).symm
  have hdiv : ∀ x : Nat, x / 2 ^ (f.lo + f.width) = x / 2 ^ f.lo / 2 ^ f.width := fun x => by
    rw [pow_add, Nat.div_div_eq_div_mul]
  have hB : w.toNat % 2 ^ f.lo < 2 ^ f.lo := Nat.mod_lt _ (Nat.two_pow_pos _)
  have hn : n % 2 ^ f.width < 2 ^ f.width := Nat.mod_lt _ (Nat.two_pow_pos _)
  rw [hdiv, hdiv]
  generalize w.toNat / 2 ^ f.lo / 2 ^ f.width = q at hmid ⊢
  generalize w.toNat % 2 ^ f.lo = b at hlow hB ⊢
  have hsum : (f.put w n).toNat = b + 2 ^ f.lo * (n % 2 ^ f.width + 2 ^ f.width * q) := by
    have h1 : 2 ^ f.lo * (n % 2 ^ f.width + 2 ^ f.width * q) = n % 2 ^ f.width * 2 ^ f.lo + 2 ^ f.lo * (2 ^ f.width * q) := by ring
    have h2 : 2 ^ f.lo * (2 ^ f.width * q + f.get w) = 2 ^ f.lo * (2 ^ f.width * q) + f.get w * 2 ^ f.lo := by ring
    rw [hmid, h2] at hlow
    omega
  rw [hsum]
  refine ⟨?_, ?_⟩
  · rw [Nat.add_mul_div_left _ _ (Nat.two_pow_pos _), Nat.div_eq_of_lt hB, Nat.zero_add,
      Nat.add_mul_div_left _ _ (Nat.two_pow_pos _), Nat.div_eq_of_lt hn, Nat.zero_add]
  · rw [Nat.add_mul_mod_self_left, Nat.mod_eq_of_lt hB]

/-- A field put into a word leaves every other field of it alone. -/
theorem Fld.get_put_other (w : Word) (n : Nat) (hf : f.lo + f.width ≤ 32)
    (h : f.lo + f.width ≤ g.lo ∨ g.lo + g.width ≤ f.lo) : g.get (f.put w n) = g.get w := by
  obtain ⟨habove, hbelow⟩ := Fld.toNat_put_parts w n hf
  rcases h with h | h
  · have hsplit : ∀ x : Nat, x / 2 ^ g.lo = x / 2 ^ (f.lo + f.width) / 2 ^ (g.lo - (f.lo + f.width)) := fun x => by
      rw [Nat.div_div_eq_div_mul, ← pow_add, Nat.add_sub_cancel' h]
    rw [Fld.get, Fld.get, hsplit, hsplit w.toNat, habove]
  · have hsplit : ∀ x : Nat, x / 2 ^ g.lo % 2 ^ g.width = x % 2 ^ f.lo / 2 ^ g.lo % 2 ^ g.width := fun x => by
      rw [show f.lo = g.lo + (f.lo - g.lo) by omega, pow_add, Nat.mod_mul_right_div_self, Nat.mod_mod_of_dvd]
      exact pow_dvd_pow 2 (by omega)
    rw [Fld.get, Fld.get, hsplit, hsplit w.toNat, hbelow]

theorem State.fld_setFld_disjoint {s : State} {p : PageId} {n : Nat} (hwf : mwf resetWord s.regs = true)
    (h : g.off = f.off ∧ f.lo + f.width ≤ 32 ∧ (f.lo + f.width ≤ g.lo ∨ g.lo + g.width ≤ f.lo)) :
    (s.setFld p f n).fld p g = s.fld p g := by
  obtain ⟨hoff, hf, h⟩ := h
  rw [State.fld, State.setFld, hoff, State.reg_setReg _ _ _ _ hwf, Fld.get_put_other _ _ hf h, State.fld, hoff]

end Fields

/-! ## The entry window -/

/-- Updates that each keep the words at an offset keep them together. -/
theorem KeepsAt.foldl {α : Type} {o : Nat} {f : State → α → State} {l : List α} (h : ∀ s, ∀ x ∈ l, KeepsAt o s (f s x))
    (s : State) : KeepsAt o s (l.foldl f s) := by
  induction l generalizing s with
  | nil => exact refl s
  | cons x l ih => exact (h s x (by simp)).trans (ih (fun s y hy => h s y (by simp [hy])) _)

theorem OnlyRegs.hosts {s t : State} (h : OnlyRegs s t) : t.hosts = s.hosts := h.proj State.hosts fun _ => rfl

/-- The outcome of a host table operation that succeeds. -/
theorem htbDone_ok (s : State) : htbDone s stOK = (s.setFld .htb HTB_OP_STATUS stOK).setFlag .htb HTB_OP_BUSY false := by
  rw [htbDone]
  exact if_pos rfl

/-- The outcome of one that is refused. -/
theorem htbDone_refused (s : State) {st : Nat} (h : st ≠ stOK) :
    htbDone s st = accessErr ((s.setFld .htb HTB_OP_STATUS st).setFlag .htb HTB_OP_BUSY false) .htb := if_neg h

theorem htbDone_keepsAt {o : Nat} (ho : o < 0x1000) (h : 0x07C ≠ o) (h' : 0x054 ≠ o) (s : State) :
    KeepsAt o s (htbDone s stOK) := by
  rw [htbDone_ok]
  exact (KeepsAt.setFld .htb stOK ho (by decide) h).trans (.setFlag .htb false ho (by decide) h')

theorem htbDone_onlyRegs (s : State) : OnlyRegs s (htbDone s stOK) := by
  rw [htbDone_ok]
  exact (setFld_onlyRegs ..).trans (setFlag_onlyRegs ..)

/-- HTB_READ_ENTRY of an entry that is not there clears its window. -/
theorem exec_htbReadEntry_none {s : State} (hrun : ComplexActs s) (hwf : mwf resetWord s.regs = true)
    (h : s.host (s.fld .htb HTB_IDX) = none) :
    ∃ t, exec .htbReadEntry s = .next t ∧ t.hosts = s.hosts ∧ t.reg .htb 0x05C = 0 ∧ t.reg .htb 0x060 = 0 := by
  have hwords {o : Nat} (ho : o < 0x064) (hs : 0x054 ≠ o) (u : State) :
      KeepsAt o u (htbDone ((List.range 6).foldl (fun s w => s.setReg .htb (0x064 + 4 * w) 0) u) stOK) := by
    refine (KeepsAt.foldl (fun s w hw => ?_) u).trans (htbDone_keepsAt (by omega) (by omega) hs _)
    rw [List.mem_range] at hw
    exact .setReg .htb 0 (by omega) (by omega) (by omega)
  have hone : mwf resetWord (s.setReg .htb 0x05C 0).regs = true := mwf_mset _ _ _ _ hwf
  change ∃ t, execHtbReadEntry s = .next t ∧ _
  rw [execHtbReadEntry, onComplex_of_acts hrun]
  dsimp only
  rw [h]
  refine ⟨_, rfl, ?_, ?_, ?_⟩
  · exact (((OnlyRegs.foldl _ (fun _ _ => setReg_onlyRegs ..) _ _)).trans (htbDone_onlyRegs _)).hosts
  · rw [(hwords (by decide) (by decide) _).reg, State.reg_setReg_other _ _ _ _ _ _ (by decide), State.reg_setReg _ _ _ _ hwf]
  · rw [(hwords (by decide) (by decide) _).reg, State.reg_setReg _ _ _ _ hone]

/-- The first word of the window for an entry. -/
def entryHead (s : State) (e : HostEntry) (v6 : Bool) : State :=
  (((((s.setFlag .htb HTB_ENT_0_VALID e.valid).setFlag .htb HTB_ENT_0_STATIC e.isStatic).setFlag .htb HTB_ENT_0_IP
    e.key.ip.isSome).setFlag .htb HTB_ENT_0_V6 v6).setFld .htb HTB_ENT_0_TENANT e.tenant).setFld .htb HTB_ENT_0_PORT e.port

/-- What the first word of the window reads. -/
theorem entryHead_reads {s : State} (e : HostEntry) (v6 : Bool) (hwf : mwf resetWord s.regs = true) :
    (entryHead s e v6).flag .htb HTB_ENT_0_VALID = e.valid ∧ (entryHead s e v6).flag .htb HTB_ENT_0_STATIC = e.isStatic ∧
      (entryHead s e v6).fld .htb HTB_ENT_0_TENANT = e.tenant % 2 ^ HTB_ENT_0_TENANT.width ∧
      (entryHead s e v6).fld .htb HTB_ENT_0_PORT = e.port % 2 ^ HTB_ENT_0_PORT.width := by
  have h1 := mwf_setFld (p := .htb) (f := HTB_ENT_0_VALID) (n := if e.valid then 1 else 0) hwf
  have h2 := mwf_setFld (p := .htb) (f := HTB_ENT_0_STATIC) (n := if e.isStatic then 1 else 0) h1
  have h3 := mwf_setFld (p := .htb) (f := HTB_ENT_0_IP) (n := if e.key.ip.isSome then 1 else 0) h2
  have h4 := mwf_setFld (p := .htb) (f := HTB_ENT_0_V6) (n := if v6 then 1 else 0) h3
  have h5 := mwf_setFld (p := .htb) (f := HTB_ENT_0_TENANT) (n := e.tenant) h4
  simp only [entryHead, State.setFlag]
  refine ⟨?_, ?_, ?_, State.fld_setFld _ _ _ _ h5 (by decide)⟩
  · rw [State.flag, State.fld_setFld_disjoint h5 (by decide),
      State.fld_setFld_disjoint h4 (by decide), State.fld_setFld_disjoint h3 (by decide),
      State.fld_setFld_disjoint h2 (by decide), State.fld_setFld_disjoint h1 (by decide)]
    exact State.flag_setFlag s .htb 0x05C 31 e.valid hwf (by decide)
  · rw [State.flag, State.fld_setFld_disjoint h5 (by decide),
      State.fld_setFld_disjoint h4 (by decide), State.fld_setFld_disjoint h3 (by decide),
      State.fld_setFld_disjoint h2 (by decide)]
    exact State.flag_setFlag _ .htb 0x05C 30 e.isStatic h1 (by decide)
  · rw [State.fld_setFld_disjoint h5 (by decide), State.fld_setFld _ _ _ _ h4 (by decide)]

/-- The other words of the window, and the outcome. -/
def entryTail (s : State) (age sessions mac udp : Nat) (ws : List Nat) : State :=
  htbDone ((List.range 4).foldl (fun s w => s.setFld .htb (HTB_ENT w) (ws.getD w 0)) ((((s.setFld .htb HTB_ENT_1 age).setFld
    .htb HTB_ENT_2 sessions).setFld .htb HTB_ENT_3_MAC_HI mac).setFld .htb HTB_ENT_3_UDP udp)) stOK

theorem entryTail_keepsAt (s : State) (age sessions mac udp : Nat) (ws : List Nat) :
    KeepsAt 0x05C s (entryTail s age sessions mac udp ws) := by
  have hwords (u : State) : KeepsAt 0x05C u
      ((List.range 4).foldl (fun s w => s.setFld .htb (HTB_ENT w) (ws.getD w 0)) u) := by
    refine KeepsAt.foldl (fun s w hw => ?_) u
    rw [List.mem_range] at hw
    exact .setFld .htb _ (by decide) (show 0x06C + 4 * w < 0x1000 by omega) (show 0x06C + 4 * w ≠ 0x05C by omega)
  exact ((((KeepsAt.setFld .htb age (by decide) (by decide) (by decide)).trans
    (.setFld .htb sessions (by decide) (by decide) (by decide))).trans
    (.setFld .htb mac (by decide) (by decide) (by decide))).trans
    (.setFld .htb udp (by decide) (by decide) (by decide))).trans
    ((hwords _).trans (htbDone_keepsAt (by decide) (by decide) (by decide) _))

theorem entryTail_onlyRegs (s : State) (age sessions mac udp : Nat) (ws : List Nat) :
    OnlyRegs s (entryTail s age sessions mac udp ws) :=
  ((((setFld_onlyRegs ..).trans (setFld_onlyRegs ..)).trans (setFld_onlyRegs ..)).trans (setFld_onlyRegs ..)).trans
    ((OnlyRegs.foldl _ (fun _ _ => setFld_onlyRegs ..) _ _).trans (htbDone_onlyRegs _))

theorem entryHead_onlyRegs (s : State) (e : HostEntry) (v6 : Bool) : OnlyRegs s (entryHead s e v6) :=
  (((((setFlag_onlyRegs ..).trans (setFlag_onlyRegs ..)).trans (setFlag_onlyRegs ..)).trans (setFlag_onlyRegs ..)).trans
    (setFld_onlyRegs ..)).trans (setFld_onlyRegs ..)

/-- HTB_READ_ENTRY writes the entry to its window. -/
theorem exec_htbReadEntry_some {s : State} {e : HostEntry} (hrun : ComplexActs s)
    (h : s.host (s.fld .htb HTB_IDX) = some e) :
    ∃ v6 age sessions mac udp ws,
      exec .htbReadEntry s = .next (entryTail (entryHead s e v6) age sessions mac udp ws) := by
  change ∃ v6 age sessions mac udp ws, execHtbReadEntry s = _
  rw [execHtbReadEntry, onComplex_of_acts hrun]
  dsimp only
  rw [h]
  exact ⟨_, _, _, _, _, _, rfl⟩

/-! ## Static entries and deletes -/

/-- What a map lists for a key that reads other than its default. -/
theorem mem_of_mget {α : Type} {d : Nat → α} {m : SMap α} {k : Nat} {v : α} (h : mget d m k = v) (hv : v ≠ d k) :
    (k, v) ∈ m := by
  induction m with
  | nil => exact absurd h.symm hv
  | cons e m ih =>
    rw [mget] at h
    split at h
    next he => rw [he, ← h]; exact List.mem_cons_self ..
    next => exact List.mem_cons_of_mem _ (ih h)

/-- No session keeps a host table entry from which it was unbound (R62). -/
theorem session_unbindHost {s : State} {h n : Nat} {se : Session} (hs : (unbindHost s h).session n = some se) :
    se.host ≠ some h := by
  have hmem := mem_of_mget hs (by simp)
  obtain ⟨e, -, he⟩ := List.mem_filterMap.1 hmem
  split at he
  · cases he
  obtain ⟨y, -, hy⟩ := Option.map_eq_some_iff.1 (congrArg Prod.snd (Option.some.inj he))
  rw [← hy]
  dsimp only
  split
  · simp
  next hne => exact hne

/-- The entry found for a host is that host's. -/
theorem findHost_spec {s : State} {t h : Nat} {a : Addr} {e : HostEntry} (hf : findHost s t a = some (h, e)) :
    e.tenant = t ∧ sameHost e.key a = true := by
  simpa using List.find?_some hf

section WriteStatic
variable {s : State} (hrun : ComplexActs s)
include hrun

theorem exec_htbWriteStatic_notFitted (h : portFitted s (s.fld .htb HTB_ENT_0_PORT) = false ∨
    isolated s (s.fld .htb HTB_ENT_0_PORT / 32) = true ∨ s.fuse.variant.tenMax < s.fld .htb HTB_ENT_0_TENANT) :
    exec .htbWriteStatic s = .next (htbDone s stNOT_FITTED) := by
  change execHtbWriteStatic s = _
  rw [execHtbWriteStatic, onComplex_of_acts hrun]
  exact if_pos h

/-- HTB_WRITE_STATIC of a tenant's host on a fitted port goes to the entry of that host, or to the one named. -/
theorem exec_htbWriteStatic_fitted (hp : portFitted s (s.fld .htb HTB_ENT_0_PORT) = true)
    (hi : isolated s (s.fld .htb HTB_ENT_0_PORT / 32) = false) (ht : s.fld .htb HTB_ENT_0_TENANT ≤ s.fuse.variant.tenMax)
    (hst : (s.tenant (s.fld .htb HTB_ENT_0_TENANT)).state ≠ 0) {h : Nat}
    (hh : (match findHost s (s.fld .htb HTB_ENT_0_TENANT) (windowKey s) with
      | some (h, _) => h
      | none => s.fld .htb HTB_IDX) = h) {u : State}
    (hu : (if (s.host h).any fun e => decide (e.tenant = s.fld .htb HTB_ENT_0_TENANT) && sameHost e.key (windowKey s)
      then s else unbindHost s h) = u) :
    exec .htbWriteStatic s = .next (htbDone (u.setHost h (some
      { tenant := s.fld .htb HTB_ENT_0_TENANT, key := windowKey s, port := s.fld .htb HTB_ENT_0_PORT, isStatic := true,
        valid := true, lastFrame := u.time.tick, lastMove := none })) stOK) := by
  change execHtbWriteStatic s = _
  rw [execHtbWriteStatic, onComplex_of_acts hrun]
  subst hu hh
  dsimp only
  rw [if_neg (by simp [hp, hi, ht]), if_neg hst] <;> rfl

end WriteStatic

/-! ## The claim -/

/-- Settles O26. -/
theorem hostTableOperationsActOnTheirEntry : Obligations.HostTableOperationsActOnTheirEntry := by
  unfold Obligations.HostTableOperationsActOnTheirEntry
  intro s
  refine ⟨fun h e hh hs hv hage hses hr => ?age, fun h e hh hs => ?ageStatic, fun hrun hwf =>
    ⟨fun hnone => ⟨exec_htbReadEntry_none hrun hwf hnone, ?deleteNone⟩, fun e he => ⟨?read, ?delete, fun n se => session_unbindHost⟩,
      fun hno => ?notFitted, fun hp hi ht hst => ⟨fun hf hkey => ?new, fun h e hf hh => ?replace⟩⟩⟩
  case age =>
    change execHostEntryAgeOut h s = _
    simp only [execHostEntryAgeOut, hh]
    rw [if_neg (by simp [hs, hv, hage, hses, hr])]
  case ageStatic =>
    change execHostEntryAgeOut h s = _
    simp only [execHostEntryAgeOut, hh]
    rw [if_pos (.inl hs)]
  case deleteNone =>
    change execHtbDeleteEntry s = _
    rw [execHtbDeleteEntry, onComplex_of_acts hrun, ← htbDone_refused s (by decide)]
    exact if_pos (by rw [hnone]; rfl)
  case read =>
    obtain ⟨v6, age, sessions, mac, udp, ws, hread⟩ := exec_htbReadEntry_some hrun he
    have hkeep := entryTail_keepsAt (entryHead s e v6) age sessions mac udp ws
    have honly := (entryHead_onlyRegs s e v6).trans (entryTail_onlyRegs _ age sessions mac udp ws)
    obtain ⟨hvalid, hstatic, htenant, hport⟩ := entryHead_reads e v6 hwf
    exact ⟨_, hread, honly.hosts, (hkeep.flag rfl .htb).trans hvalid, (hkeep.flag rfl .htb).trans hstatic,
      (hkeep.fld rfl .htb).trans htenant, (hkeep.fld rfl .htb).trans hport⟩
  case delete =>
    change execHtbDeleteEntry s = _
    rw [execHtbDeleteEntry, onComplex_of_acts hrun]
    exact (if_neg (by rw [he]; simp)).trans (next_congr (htbDone_ok _))
  case notFitted => rw [exec_htbWriteStatic_notFitted hrun hno, htbDone_refused _ (by decide)]
  case new =>
    rw [exec_htbWriteStatic_fitted hrun hp hi ht hst (by rw [hf]) (if_neg ?_), htbDone_ok]
    · rfl
    rw [Option.any_eq_true]
    rintro ⟨e, he, hsame⟩
    rw [Bool.and_eq_true, decide_eq_true_eq] at hsame
    exact hkey e he hsame
  case replace =>
    rw [exec_htbWriteStatic_fitted hrun hp hi ht hst (h := h) (by rw [hf]) (if_pos ?_), htbDone_ok]
    obtain ⟨htenant, hsame⟩ := findHost_spec hf
    rw [hh]
    simp [htenant, hsame]

end Sys2Proof.Machine

/-! # The control path: BRAKE, its parity errors, and frames that ended early (R71 to R73, R81, R493) -/

namespace Sys2Proof.Machine
open Sys2Proof.Claims

section Brake
variable {s u : State} {r : Nat} {i j : Item} {q : List Item}

/-- The oldest BRAKE frame of a region, by what its tag and request say. -/
theorem brakeTake_of_dropped {release : Bool} (hq : lget s.brakeQ r = i :: q)
    (hv : verifyItem { s with brakeQ := lset s.brakeQ r q } i = none) :
    brakeTake s r release = controlDrop (countAuth { s with brakeQ := lset s.brakeQ r q } r i.tenant) i := by
  rw [brakeTake, hq]
  dsimp only
  rw [hv]

theorem brakeTake_of_set {release : Bool} {kind value : Nat} (hq : lget s.brakeQ r = i :: q)
    (hv : verifyItem { s with brakeQ := lset s.brakeQ r q } i = some (j, u)) (hreq : brakeReq j = some (.set kind value)) :
    brakeTake s r release = if release then s else brakeRun u j := by
  rw [brakeTake, hq]
  simp only [hv, hreq]

theorem brakeTake_of_release {release : Bool} {f : Nat} (hq : lget s.brakeQ r = i :: q)
    (hv : verifyItem { s with brakeQ := lset s.brakeQ r q } i = some (j, u)) (hreq : brakeReq j = some (.release f)) :
    brakeTake s r release = if release then brakeRun u j else s := by
  rw [brakeTake, hq]
  simp only [hv, hreq]

/-- A set that every step admits begins. -/
theorem brakeRun_of_set {kind value : Nat} (hreq : brakeReq j = some (.set kind value)) (hok : requestRefused u j = none)
    (ht : (u.tenant j.tenant).state ≠ 2) (hb : brakeRefused u j.tenant (.set kind value) = none) :
    brakeRun u j = brakeStart u j (.set kind value) := by
  simp only [brakeRun, hok, hreq, ht, false_and, if_false, Bool.false_eq_true, hb]

/-- A release that every step admits begins, in a tenant's reset too. -/
theorem brakeRun_of_release {f : Nat} (hreq : brakeReq j = some (.release f)) (hok : requestRefused u j = none)
    (hdup : dupAnswer u j = none) (hb : brakeRefused u j.tenant (.release f) = none) :
    brakeRun u j = brakeStart u j (.release f) := by
  simp only [brakeRun, hok, hreq, Bool.true_eq_false, and_false, if_false, if_true, hdup, hb]

end Brake

/-! ## What a release leaves of the filters -/

theorem OnlyRegs.brakes {s t : State} (h : OnlyRegs s t) : t.brakes = s.brakes := h.proj State.brakes fun _ => rfl

theorem mirrorBrake_onlyRegs (s : State) (f : Nat) (b : Option Brake) : OnlyRegs s (mirrorBrake s f b) := by
  refine OnlyRegs.foldl _ (fun s r => ?_) _ _
  rcases b with _ | b
  · exact ((setReg_onlyRegs ..).trans (setFld_onlyRegs ..)).trans (setFld_onlyRegs ..)
  · exact ((((setFlag_onlyRegs ..).trans (setFld_onlyRegs ..)).trans (setFld_onlyRegs ..)).trans
      (setFld_onlyRegs ..)).trans (setFld_onlyRegs ..)

theorem postEvent_brakes (s : State) (p : PageId) (code : Nat) (p0 p1 p2 p3 : Word) :
    (postEvent s p code p0 p1 p2 p3).brakes = s.brakes :=
  (OnlyLinks.postEvent s p code p0 p1 p2 p3).proj State.brakes fun _ _ _ _ => rfl

theorem dupCommit_brakes (s : State) (i : Item) (status : Nat) (result : Bytes) :
    (dupCommit s i status result).brakes = s.brakes := by
  rw [dupCommit, dupUpdate]
  split <;> rfl

/-- A drop that the classifier counts, after an error it reports, leaves all but registers and recorder alone. -/
theorem controlError_onlyReport (s : State) (r : Nat) : OnlyReport s
    (clsDrop (raiseErrs (s.bumpSat (.cls r) HEALTH_UNCORR) (.cls r) [9, 10] 0x21) r CLS_DROP_BRAKE) :=
  ((bumpSat_onlyRegs ..).report.trans (raiseErrs_onlyReport ..)).trans
    ((bump_onlyRegs ..).trans (pmcEvent_onlyRegs ..)).report

/-! ## The claim -/

/-- Settles O27. -/
theorem controlPathAnswersBrakeAndEarlyFrames : Obligations.ControlPathAnswersBrakeAndEarlyFrames := by
  unfold Obligations.ControlPathAnswersBrakeAndEarlyFrames
  intro s
  refine ⟨fun r i q hl hst hq => ?brake, fun o l b hops hb => ⟨fun hset hact => ?set, fun hset hact => ?setAgain,
    fun hset => ?release⟩, fun o l hops hb => ?gone, fun r hl hst => ⟨fun hm => ?mirror, fun i q hq => ?frame⟩, fun r => rfl,
    fun n i hi => ⟨?timeout, fun hq hv => ?fails, fun j u hq hv => ?verifies⟩⟩
  case brake =>
    have hset : exec (.brakeSet r) s = .next (brakeTake s r false) := if_neg (by simp [hl, hst])
    have hrel : exec (.brakeRelease r) s = .next (brakeTake s r true) := if_neg (by simp [hl, hst])
    rw [hset, hrel]
    refine ⟨fun hv => ⟨?_, ?_⟩, fun j u hv => ⟨fun kind value hreq hok ht hb => ⟨?_, ?_⟩, fun f hreq hok hdup hb => ⟨?_, ?_⟩⟩⟩
    · rw [brakeTake_of_dropped hq hv]
    · rw [brakeTake_of_dropped hq hv]
    · rw [brakeTake_of_set hq hv hreq, if_neg (by decide), brakeRun_of_set hreq hok ht hb]
    · rw [brakeTake_of_set hq hv hreq, if_pos rfl]
    · rw [brakeTake_of_release hq hv hreq, if_pos rfl, brakeRun_of_release hreq hok hdup hb]
      rfl
    · rw [brakeTake_of_release hq hv hreq, if_neg (by decide)]
  case set =>
    change execBrakeFilterPropagated s = _
    rw [execBrakeFilterPropagated, hops]
    simp only [hb, hset, hact, and_false, Bool.false_eq_true, if_false, if_true]
  case setAgain =>
    change execBrakeFilterPropagated s = _
    rw [execBrakeFilterPropagated, hops]
    simp only [hb, hset, hact, and_self, if_true]
  case release =>
    change ∃ u, execBrakeFilterPropagated s = _ ∧ _
    rw [execBrakeFilterPropagated, hops]
    simp only [hb, hset, Bool.false_eq_true, false_and, if_false]
    refine ⟨_, rfl, ?_⟩
    rw [dupCommit_brakes, (mirrorBrake_onlyRegs _ _ _).brakes, postEvent_brakes]
  case gone =>
    change execBrakeFilterPropagated s = _
    rw [execBrakeFilterPropagated, hops]
    simp only [hb]
  case mirror =>
    change execClsControlParity r true s = _
    rw [execClsControlParity, if_neg (by simp [hl, hst]), controlParity]
    have hbad := (controlError_onlyReport s r).1
    generalize clsDrop _ _ _ = t at hbad ⊢
    have hsame : t.mirrorBad = s.mirrorBad := by rw [hbad]
    simp only [if_true, hsame, hm, Bool.false_eq_true, if_false]
  case frame =>
    change execClsControlParity r false s = _
    rw [execClsControlParity, if_neg (by simp [hl, hst]), controlParity]
    simp only [Bool.false_eq_true, if_false, hq]
  case timeout =>
    change execEarlyEndVerifyTimeout n s = _
    simp only [execEarlyEndVerifyTimeout, hi]
  case fails =>
    change execEarlyEndTagVerify n s = _
    simp only [execEarlyEndTagVerify, hi, hq, ne_eq, not_true, if_false, hv]
  case verifies =>
    change execEarlyEndTagVerify n s = _
    simp only [execEarlyEndTagVerify, hi, hq, ne_eq, not_true, if_false, hv]

end Sys2Proof.Machine

/-! # The management port and MDIO (R83 to R88) -/

namespace Sys2Proof.Machine
open Sys2Proof.Claims

theorem classifyTouched_of_unarmed {s : State} {p r c n : Nat} {src : Addr} {vlan : Option Nat} {b : Bytes}
    (h : Unarmed s (.cls r)) : classifyTouched s p r c n src vlan b = classify s p r c n src vlan b := by
  have hnone : (s.auxOf (.cls r)).inject = none := h
  simp only [classifyTouched, hnone, touch_of_unarmed h]

section Frames
variable {s : State} (hr : running s .mgt = true) (hup : s.flag .mgt MGT_STATUS_LINK_UP = true) (hf : s.chipFault = none)
  (hu : Unarmed s .mgt)
include hr hup hf hu

theorem exec_mgtFrameReceived_rom (hrom : s.flag .mgt MGT_STATUS_ROM_SVC = true) (frame : Bytes) (ok : Bool) :
    exec (.mgtFrameReceived frame ok) s = .next (romFrame s frame ok) := by
  change execMgtFrameReceived frame ok s = _
  simp only [execMgtFrameReceived, touchIf_of_unarmed hu, hr, hup, hf, hrom, Bool.true_eq_false, Option.isSome_none,
    Bool.false_eq_true, or_self, if_false, if_true]

/-- A frame while no ROM service runs, by what it parses to. -/
theorem exec_mgtFrameReceived_parsed (hrom : s.flag .mgt MGT_STATUS_ROM_SVC = false) {frame : Bytes} {ok : Bool} {f : Parsed}
    (hparse : parseFrame s 128 ok frame = f) : exec (.mgtFrameReceived frame ok) s = .next (match f with
      | .bad | .noMatch => s.bump .mgt MGT_CNT_BADFRM
      | .neighbour a => sendLink s 128 a
      | .adetra src vlan b pad clean =>
        if headerOk 128 vlan b pad clean (frame.length + 4) = false then s.bump .mgt MGT_CNT_BADFRM
        else match mgmtRegion s with
          | none => s.bump .mgt MGT_CNT_DROP
          | some r => classifyTouched s 128 r (frameClass 128 vlan b) (frame.length + 4) src vlan b) := by
  change execMgtFrameReceived frame ok s = _
  simp only [execMgtFrameReceived, touchIf_of_unarmed hu, hr, hup, hf, hrom, hparse, Bool.true_eq_false, Option.isSome_none,
    Bool.false_eq_true, or_self, if_false]
  cases f with
  | adetra src vlan b pad clean =>
    dsimp only
    split
    · rfl
    · cases mgmtRegion s <;> rfl
  | _ => rfl

end Frames

/-- An MDIO operation on an idle engine. -/
theorem mdioStart_of_idle {s : State} (h : s.mdio = none) (write : Bool) (phy regad data : Nat) :
    mdioStart s write phy regad data =
      { (((s.setFld .mgt MGT_MDIO_PHYAD phy).setFld .mgt MGT_MDIO_REGAD regad).setFld .mgt
          MGT_MDIO_DATA data).setFlag .mgt MGT_MDIO_BUSY true with
        mdio := some { write := write, phy := phy, regad := regad, data := data } } := by
  rw [mdioStart, h]
  rfl

/-- One that is asked for while another runs changes nothing, whether the control complex acts or not. -/
theorem onComplex_mdioStart_of_busy {s : State} (h : s.mdio ≠ none) (write : Bool) (phy regad data : Nat) :
    onComplex s (.next (mdioStart s write phy regad data)) = .next s := by
  rw [mdioStart, if_pos (Option.isSome_iff_ne_none.2 h), onComplex]
  exact ite_self _

/-- Settles O28. -/
theorem managementPortFollowsPhyAndMdio : Obligations.ManagementPortFollowsPhyAndMdio := by
  unfold Obligations.ManagementPortFollowsPhyAndMdio
  intro s
  have hnot {b : Bool} (h : b = true) : ¬ b = false := by simp [h]
  refine ⟨fun hr => ⟨?up, fun m hm => ?speed, fun hup hf hu => ⟨fun frame ok hrom =>
      exec_mgtFrameReceived_rom hr hup hf hu hrom frame ok, fun frame ok hrom hparse => ?bad,
      fun frame ok a hrom hparse => ?neighbour, fun frame ok src vlan b pad clean hrom hparse => ⟨fun hok => ?header,
        fun hok => ⟨fun hreg => ?noRegion, fun r hreg hcls => ?classified⟩⟩⟩⟩,
    fun ha lost => ⟨fun hup => ?down, fun hup => ?downAlready⟩,
    fun phy regad data hrun hidle => ⟨?write, ?read⟩,
    fun phy regad data hbusy => ⟨onComplex_mdioStart_of_busy hbusy .., onComplex_mdioStart_of_busy hbusy ..⟩,
    fun o data ho => ⟨fun hw => ?doneWrite, fun hw => ?doneRead, ?timeout⟩⟩
  case up =>
    change execMgtLinkUp 1000 s = _
    rw [execMgtLinkUp, if_neg (hnot hr)]
    exact if_pos rfl
  case speed =>
    change execMgtLinkUp m s = _
    rw [execMgtLinkUp, if_neg (hnot hr)]
    exact if_neg hm
  case bad =>
    rcases hparse with hparse | hparse <;> exact exec_mgtFrameReceived_parsed hr hup hf hu hrom hparse
  case neighbour => exact exec_mgtFrameReceived_parsed hr hup hf hu hrom hparse
  case header =>
    rw [exec_mgtFrameReceived_parsed hr hup hf hu hrom hparse]
    exact next_congr (if_pos hok)
  case noRegion =>
    rw [exec_mgtFrameReceived_parsed hr hup hf hu hrom hparse]
    simp only [if_neg (hnot hok), hreg]
  case classified =>
    rw [exec_mgtFrameReceived_parsed hr hup hf hu hrom hparse]
    simp only [if_neg (hnot hok), hreg, classifyTouched_of_unarmed hcls]
  case down =>
    change execMgtLinkDown lost s = _
    rw [execMgtLinkDown, if_neg (hnot ha)]
    exact next_congr (if_pos hup)
  case downAlready =>
    change execMgtLinkDown lost s = _
    rw [execMgtLinkDown, if_neg (hnot ha)]
    exact next_congr (if_neg (by simp [hup]))
  case write =>
    change execMdioWrite phy regad data s = _
    rw [execMdioWrite, onComplex_of_acts hrun, mdioStart_of_idle hidle]
  case read =>
    change execMdioRead phy regad data s = _
    rw [execMdioRead, onComplex_of_acts hrun, mdioStart_of_idle hidle]
  case doneWrite =>
    change execMdioDone data s = _
    simp only [execMdioDone, ho, hw, if_true]
  case doneRead =>
    change execMdioDone data s = _
    simp only [execMdioDone, ho, hw, Bool.false_eq_true, if_false]
  case timeout =>
    change execMdioTimeout s = _
    simp only [execMdioTimeout, ho]

end Sys2Proof.Machine

/-! # A step, and the dispatch of an item (R37, R341 to R348, log 1) -/

namespace Sys2Proof.Machine
open Sys2Proof.Claims

/-- Settles O54. -/
theorem stepRunsTheFrontCommand : Obligations.StepRunsTheFrontCommand := by
  unfold Obligations.StepRunsTheFrontCommand
  refine ⟨?front, ?idle, ?word⟩
  case front =>
    intro s c l h
    rw [step, h]
  case idle =>
    intro s h
    rw [step, h]
  case word =>
    intro s n w
    rw [State.withFetchWord, show Sys2Proof.decodeTableWord n w = none from rfl]

/-! ## What the start of an item leaves alone -/

theorem OnlyLinks.sendPause (s : State) (p quanta : Nat) : OnlyLinks s (sendPause s p quanta) := by
  unfold Machine.sendPause
  dsimp only
  split
  · exact .refl s
  · exact .setPort ..

/-- A port's XON check changes the port and the port's registers. -/
theorem OnlyLinks.xonCheck (s : State) (p : Nat) : OnlyLinks s (xonCheck s p) := by
  unfold Machine.xonCheck
  split
  · exact (OnlyLinks.sendPause s p 0).trans (.setFlag ..)
  · exact .refl s

theorem OnlyLinks.spaceFreed (s : State) (r : Nat) : OnlyLinks s (spaceFreed s r) := .foldl _ .xonCheck _ s

theorem pmcEvent_onlyLinks (s : State) (r code : Nat) (tenant : Option Nat) (n : Nat) :
    OnlyLinks s (pmcEvent s r code tenant n) := by
  obtain ⟨h, -⟩ := pmcEvent_onlyRegs s r code tenant n
  rw [OnlyLinks, h]

/-- `s` with no room counted for the item `i` it holds. -/
def heldCleared (s : State) (i : Item) : State :=
  match s.item i.stamp with
  | some j => s.setItem i.stamp (some { j with held := 0 })
  | none => s

/-- `s` with the room of the item `i` given back to its port's pool. -/
def poolFreed (s : State) (i : Item) : State :=
  if i.held = 0 then s
  else if i.port < 128 then
    let q := s.port i.port
    let q := match i.pool with
      | .shared => { q with shared := q.shared - i.held }
      | .control => { q with control := q.control - i.held }
      | .runout => { q with runout := q.runout - i.held }
      | .management => q
    spaceFreed (s.setPort i.port q) (i.port / 32)
  else if i.port = 128 then spaceFreed s i.ingress
  else s

theorem releaseBuffer_eq (s : State) (i : Item) : releaseBuffer s i = poolFreed (heldCleared s i) i := rfl

theorem heldCleared_items (s : State) (i : Item) : ∃ l, heldCleared s i = { s with items := l } := by
  unfold heldCleared
  split
  · exact ⟨_, rfl⟩
  · exact ⟨s.items, rfl⟩

theorem OnlyLinks.poolFreed (s : State) (i : Item) : OnlyLinks s (poolFreed s i) := by
  unfold Machine.poolFreed
  split
  · exact .refl _
  split
  · exact OnlyLinks.trans (.setPort ..) (.spaceFreed ..)
  split
  · exact .spaceFreed ..
  · exact .refl _

/-- Giving back the room of an item keeps the contexts and the cores. -/
theorem releaseBuffer_keeps (s : State) (i : Item) :
    (releaseBuffer s i).ctxs = s.ctxs ∧ (releaseBuffer s i).cores = s.cores := by
  obtain ⟨l, hl⟩ := heldCleared_items s i
  have h := OnlyLinks.poolFreed (heldCleared s i) i
  rw [releaseBuffer_eq]
  refine ⟨(h.proj State.ctxs fun _ _ _ _ => rfl).trans ?_, (h.proj State.cores fun _ _ _ _ => rfl).trans ?_⟩ <;> rw [hl]

/-! ## The core of an item that starts -/

/-- The lock that an item takes on the context it owns. -/
def ctxLocked (s : State) (i : Item) : State :=
  match ownCtx s i with
  | some idx => s.setCtx i.region idx { s.ctxAt i.region idx with lock := true }
  | none => s

/-- The item `i` of `s` as it starts on core `k`. -/
def startedItem (s : State) (k : Nat) (i : Item) : Item :=
  { i with
    place := .running k
    stamps := i.stamps.map fun t => (t.1, some (t.2.1.getD s.time.ns), t.2.2) }

/-- Core `k` of `s` and the tables of items after the start of `i` there. -/
def startedCore (s : State) (k : Nat) (i : Item) : State :=
  let t := ctxLocked s i
  let u := (t.setCore k { startCore s k i with ctx := ctxCopy t i }).setItem i.stamp (some (startedItem t k i))
  { u with saved := u.saved.filter fun y => y.item ≠ i.stamp }

theorem startedCore_ctxs (s : State) (k : Nat) (i : Item) : (startedCore s k i).ctxs = (ctxLocked s i).ctxs := by
  simp only [startedCore, State.setItem, State.setCore]

theorem startItem_of_time {s : State} {k : Nat} {i : Item} (h : s.time.tick < i.deadline) :
    startItem s k i =
      let t := releaseBuffer (startedCore s k i) (startedItem (ctxLocked s i) k i)
      sendDecrypt (pmcEvent (t.bump (.sch i.region) SCH_DISPATCHED) i.region 0x04 (some i.tenant)) k
        { startedItem (ctxLocked s i) k i with held := 0 } :=
  if_neg (Nat.not_le.2 h)

theorem sendDecrypt_ctxs (s : State) (k : Nat) (i : Item) : (sendDecrypt s k i).ctxs = s.ctxs := by
  unfold sendDecrypt
  dsimp only
  split
  · rfl
  split <;> rfl

theorem startItem_ctxs {s : State} {k : Nat} {i : Item} (h : s.time.tick < i.deadline) :
    (startItem s k i).ctxs = (ctxLocked s i).ctxs := by
  rw [startItem_of_time h]
  dsimp only
  rw [sendDecrypt_ctxs, (pmcEvent_onlyLinks ..).proj State.ctxs fun _ _ _ _ => rfl]
  rw [(bump_onlyRegs ..).proj State.ctxs fun _ => rfl, (releaseBuffer_keeps ..).1, startedCore_ctxs]

theorem startItem_cores {s : State} {k : Nat} {i : Item} (h : s.time.tick < i.deadline) (ha : awaitsTag i = false) :
    (startItem s k i).cores = (startedCore s k i).cores := by
  rw [startItem_of_time h]
  refine Eq.trans (congrArg State.cores (if_pos ha)) ?_
  refine ((pmcEvent_onlyLinks ..).proj State.cores fun _ _ _ _ => rfl).trans ?_
  exact (releaseBuffer_keeps ..).2

theorem startCore_run (s : State) (k : Nat) (i : Item) : (startCore s k i).run = some i.stamp := by
  unfold startCore
  dsimp only
  split <;> rfl

theorem startItem_core {s : State} {k : Nat} {i : Item} (h : s.time.tick < i.deadline) (ha : awaitsTag i = false) :
    (startItem s k i).core k = { startCore s k i with ctx := ctxCopy (ctxLocked s i) i } := by
  rw [State.core, startItem_cores h ha]
  refine mget_mset_of_ne _ _ _ _ fun hc => ?_
  have := congrArg Core.run hc
  simp [startCore_run, Core.empty] at this

theorem startItem_locks {s : State} {k idx : Nat} {i : Item} (h : s.time.tick < i.deadline) (ho : ownCtx s i = some idx) :
    ((startItem s k i).ctxAt i.region idx).lock = true := by
  have hl : ctxLocked s i = s.setCtx i.region idx { s.ctxAt i.region idx with lock := true } := by
    rw [ctxLocked, ho]
  rw [State.ctxAt, startItem_ctxs h, hl]
  refine congrArg Ctx.lock (mget_mset_of_ne _ _ _ _ fun hc => ?_)
  exact Bool.noConfusion (congrArg Ctx.lock hc)

theorem startCore_of_fresh {s : State} {k : Nat} {i : Item} (h : s.savedTask i.stamp = none) :
    startCore s k i = { Core.empty with
      run := some i.stamp, busy := (s.core k).busy, ctx := ctxCopy s i, pc := i.entry, args := fitR 32 i.args } := by
  rw [startCore, h]

/-! ## Dispatch -/

theorem exec_workItemDispatch {s : State} {k : Nat} (h1 : Unarmed s (.sch (coreRegion k))) (h2 : Unarmed s (.ctx (coreRegion k))) :
    exec (.workItemDispatch k) s = workItemDispatch k s := by
  change workItemDispatch k (touchIf (touchIf _ _ _) _ _) = _
  rw [touchIf_of_unarmed h1, touchIf_of_unarmed h2]

theorem workItemDispatch_of_dispatches {s : State} {k : Nat} (hk : k < 128) (hr : running s (corePage k) = true)
    (hd : schDispatches s (coreRegion k) = true) :
    workItemDispatch k s =
      match ((fillPrefetch s k).core k).run, ((fillPrefetch s k).core k).prefetch.bind (fillPrefetch s k).item with
      | none, some i => .next (startItem (fillPrefetch s k) k i)
      | _, _ => .next (fillPrefetch s k) :=
  if_neg (by simp [hr, hd, hk])

/-- Settles O29. -/
theorem dispatchStartsThePrefetchedItem : Obligations.DispatchStartsThePrefetchedItem := by
  unfold Obligations.DispatchStartsThePrefetchedItem
  intro s
  refine ⟨fun k hk hr hd h1 h2 => ?dispatch, fun k hk hr h1 h2 => ?idle, fun j i hi => ?deadline, fun j hj => ?gone⟩
  case dispatch =>
    rw [exec_workItemDispatch h1 h2, workItemDispatch_of_dispatches hk hr hd]
    generalize fillPrefetch s k = t
    refine ⟨fun hrun => ?busy, fun hnone => ?empty, fun i hrun hi => ⟨fun hlate => ?late, fun htime => ?start⟩⟩
    case busy =>
      obtain ⟨j, hj⟩ := Option.ne_none_iff_exists'.1 hrun
      rw [hj]
    case empty =>
      rw [hnone]
      cases (t.core k).run <;> rfl
    case late =>
      rw [hrun, hi]
      exact next_congr (if_pos hlate)
    case start =>
      rw [hrun, hi]
      refine ⟨_, rfl, rfl, fun hf => ?_, fun ha => ?_, fun idx ho => startItem_locks htime ho⟩
      · rw [startCore_of_fresh hf]
        exact ⟨rfl, rfl, rfl, rfl, rfl⟩
      · rw [startItem_core htime ha]
  case idle =>
    rw [exec_workItemDispatch h1 h2, workItemDispatch, if_pos (Or.inr hr)]
  case deadline =>
    change execDeadlineExpiry j s = _
    rw [execDeadlineExpiry, hi]
  case gone =>
    change execDeadlineExpiry j s = _
    rw [execDeadlineExpiry, hj]

end Sys2Proof.Machine

/-! # Timers, submissions, program loads and context operations (R37, R337, R345 to R358) -/

namespace Sys2Proof.Machine
open Sys2Proof.Claims

/-! ## The timer at the head of a delay list -/

theorem headTimer_of_head {s : State} {r : Nat} {x : Timer} {l : List Timer} (hf : timersFire s r = true)
    (hl : s.timerList r = x :: l) (p : TimerKind → Bool) : headTimer s r p = if p x.kind then some x else none := by
  rw [headTimer, if_pos hf, hl]

theorem State.readyList_setReady (s : State) (r l : Nat) {v : List Nat} (h : v ≠ []) : (s.setReady r l v).readyList r l = v :=
  lget_lset _ _ h

/-- Settles O30. -/
theorem timersFireFromTheHeadOfTheDelayList : Obligations.TimersFireFromTheHeadOfTheDelayList := by
  unfold Obligations.TimersFireFromTheHeadOfTheDelayList
  intro s r x l hf hl t u
  have hhead := headTimer_of_head hf hl
  refine ⟨fun id hk => ⟨fun hnone => ?wakeGone, fun i hi => ?wake⟩,
    fun level entry ctxId arg tenant hk => ⟨fun hfull => ?full, fun hroom => ?room⟩, fun id hk => ?expire,
    fun hk => ?noWake, fun hk => ?noSubmit, fun hk => ?noExpire⟩
  case wakeGone =>
    change execSleepWake r s = _
    simp only [execSleepWake, hhead, hk, if_true]
    change (match u.item id with | some _ => _ | none => _) = _
    rw [hnone]
  case wake =>
    have he : exec (.sleepWake r) s = .next
        ({ u with saved := u.saved.map fun (y : Saved) => if y.item = id then { y with asleep := false } else y }.setReady
          i.region i.level (u.readyList i.region i.level ++ [id])) := by
      change execSleepWake r s = _
      simp only [execSleepWake, hhead, hk, if_true]
      change (match u.item id with | some _ => _ | none => _) = _
      rw [hi]
      rfl
    refine ⟨_, he, State.readyList_setReady _ _ _ (by simp), fun y hy hid => ?_⟩
    obtain ⟨z, -, rfl⟩ := List.mem_map.1 hy
    split at hid <;> simp_all
  case full =>
    change execDelayTimerFire r s = _
    simp only [execDelayTimerFire, hhead, hk, if_true]
    exact if_pos hfull
  case room =>
    change execDelayTimerFire r s = _
    simp only [execDelayTimerFire, hhead, hk, if_true]
    exact if_neg (Nat.not_le.2 hroom)
  case expire =>
    change execContextExpiry r s = _
    simp only [execContextExpiry, hhead, hk, if_true]
    rfl
  case noWake =>
    change execSleepWake r s = _
    cases hx : x.kind with
    | wake id => exact absurd hx (hk id)
    | submit => simp [execSleepWake, hhead, hx]
    | expire => simp [execSleepWake, hhead, hx]
    | heartbeat => simp [execSleepWake, hhead, hx]
  case noSubmit =>
    change execDelayTimerFire r s = _
    cases hx : x.kind with
    | wake => simp [execDelayTimerFire, hhead, hx]
    | submit => exact absurd hx (hk _ _ _ _ _)
    | expire => simp [execDelayTimerFire, hhead, hx]
    | heartbeat => simp [execDelayTimerFire, hhead, hx]
  case noExpire =>
    change execContextExpiry r s = _
    cases hx : x.kind with
    | wake => simp [execContextExpiry, hhead, hx]
    | submit => simp [execContextExpiry, hhead, hx]
    | expire id => exact absurd hx (hk id)
    | heartbeat => simp [execContextExpiry, hhead, hx]

/-! ## Program loads -/

/-- The flags of a load of program words do not reach the seal of the measurements. -/
theorem segSealed_of_load (s : State) (r seg : Nat) :
    segSealed (((s.setFlag (.sch r) SCH_PRG_GO true).setFlag (.sch r) SCH_PRG_DONE false).setFlag (.sch r) SCH_PRG_REFUSED false)
      seg = segSealed s seg := by
  have h : KeepsAt 0x098 s (((s.setFlag (.sch r) SCH_PRG_GO true).setFlag (.sch r) SCH_PRG_DONE false).setFlag (.sch r)
      SCH_PRG_REFUSED false) :=
    ((KeepsAt.setFlag _ _ (by decide) (by decide) (by decide)).trans (.setFlag _ _ (by decide) (by decide) (by decide))).trans
      (.setFlag _ _ (by decide) (by decide) (by decide))
  rw [segSealed, segSealed, h.fld rfl]

/-- Settles O31. -/
theorem submissionsAndProgramLoads : Obligations.SubmissionsAndProgramLoads := by
  unfold Obligations.SubmissionsAndProgramLoads
  intro s r hlive
  refine ⟨fun hrun tail => ?doorbell, ⟨fun hempty => ?empty, fun htakes hne hroom => ⟨fun hst => ?admitted, fun st hst => ?refused⟩⟩, ?loads⟩
  case doorbell =>
    change execSubmissionDoorbell r tail s = _
    rw [execSubmissionDoorbell, onComplex_of_acts hrun, if_neg (by simp [hlive])]
  case empty => exact if_pos (Or.inr (Or.inl hempty))
  case admitted =>
    change execSubmissionAccept r s = _
    unfold execSubmissionAccept
    dsimp only
    rw [if_neg (by simp [htakes, hne, hroom]), hst]
  case refused =>
    change execSubmissionAccept r s = _
    unfold execSubmissionAccept
    dsimp only
    rw [if_neg (by simp [htakes, hne, hroom]), hst]
  case loads =>
    refine ⟨fun hrun hseg hlo hhi hopen => ?load, fun hrun hout => ?outside, fun hrun hsealed hno => ?sealed, fun hgo => ?done,
      fun hgo => ?idle⟩
    case load =>
      change execProgramLoad r s = _
      simp only [execProgramLoad, onComplex_of_acts hrun, hlive, segSealed_of_load, Bool.true_eq_false, if_false]
      refine if_pos ?_
      simpa [hseg, hlo, hhi, and_assoc] using hopen
    case outside =>
      change execProgramLoad r s = _
      simp only [execProgramLoad, onComplex_of_acts hrun, hlive, segSealed_of_load, Bool.true_eq_false, if_false]
      refine if_neg ?_
      simp only [Bool.and_eq_true, decide_eq_true_eq]
      omega
    case sealed =>
      change execProgramLoad r s = _
      simp only [execProgramLoad, onComplex_of_acts hrun, hlive, segSealed_of_load, Bool.true_eq_false, if_false]
      refine if_neg ?_
      simpa [hsealed] using fun _ _ _ => hno
    case done => exact if_pos hgo
    case idle => exact if_neg (by simp [hgo])

/-! ## Contexts of the control complex -/

/-- An extension context takes no lease. -/
theorem ctxMake_of_ext {s : State} {id : Word} {t : Nat} {body : Bytes} {bound : Word} (h : ctxTypeExt (ctxTypeOf id) = true) :
    ctxMake s id t body bound = s.setCtx (ctxRegion id) (ctxIndex id) { Ctx.free with
      valid := true, typ := ctxTypeOf id, tenant := t, gen := (s.ctxAt (ctxRegion id) (ctxIndex id)).gen + 1
      body := fitR 248 body, bound := bound } := by
  have h7 : ¬ (4 ≤ ctxTypeOf id ∧ ctxTypeOf id ≤ 7) := by
    simp only [ctxTypeExt, decide_eq_true_eq] at h
    omega
  exact if_neg h7

theorem ctxType_of_create {s : State} {id : Word} {t : Nat} {types : Nat → Bool} (h : ctxCreateStatus s id t types = none) :
    types (ctxTypeOf id) = true := by
  rw [ctxCreateStatus] at h
  split at h
  · cases h
  split at h
  · cases h
  split at h
  · cases h
  next hno =>
    rw [not_or] at hno
    exact Bool.eq_true_of_not_eq_false hno.2

theorem ctxIdStatus_of_named {s : State} {id : Word} {c : Ctx} (h : ctxNamed s id = some c) : ctxIdStatus s id = none := by
  rw [ctxNamed] at h
  split at h
  next hc => exact Option.isNone_iff_eq_none.1 hc.1
  · cases h

/-- A write inside the window reaches the body of a valid context that nobody holds, and no other word. -/
theorem execContextWindowWrite_within {s : State} {r idx o : Nat} {b : Bytes} (hrun : ComplexActs s)
    (hlive : live s (.ctx r) = true) (hidx : idx < s.fuse.variant.ctxPerRegion) (ho : o < 256) (hlen : o + b.length ≤ 256)
    (hne : b ≠ []) :
    execContextWindowWrite r (256 * idx + o) b s =
      if (s.ctxAt r idx).valid = false ∨ (s.ctxAt r idx).lock = true ∨ o < 8 ∨ 256 < o + b.length then .next (accessErr s (.ctx r))
      else .next (s.setCtx r idx (ctxPatch (s.ctxAt r idx) (o - 8) b)) := by
  have hin : ¬ 256 * s.fuse.variant.ctxPerRegion < 256 * idx + o + b.length := by omega
  have hdiv : (256 * idx + o) / 256 = idx := by omega
  have hmod : (256 * idx + o) % 256 = o := by omega
  simp only [execContextWindowWrite, onComplex_of_acts hrun, hdiv, hmod]
  exact if_neg (by simp [hlive, hin, hne])

/-- Settles O32. -/
theorem contextOperationsOfTheControlComplex : Obligations.ContextOperationsOfTheControlComplex := by
  unfold Obligations.ContextOperationsOfTheControlComplex
  intro s r hrun hlive
  have hcreate : exec (.ctxOpCreate r) s = execCtxOpCreate r s := rfl
  have hdelete : exec (.ctxOpDelete r) s = execCtxOpDelete r s := rfl
  refine ⟨⟨fun st hst => ?refused, fun hid ht => ?unfitted, fun hst => ?created, fun st hst => ?badId, fun hid hc => ?unnamed,
    fun c hc hlock => ?deleted, fun c hc hlock => ?waits⟩, fun idx o b hidx hlen hne => ⟨fun hv hlock => ?write, fun hbad => ?closed⟩,
    fun idx b hidx hpos hlen => ?header⟩
  case refused =>
    rw [hcreate, execCtxOpCreate, onComplex_of_acts hrun, if_neg (by simp [hlive])]
    dsimp only
    rw [hst]
  case unfitted =>
    have hst : ctxCreateStatus s (BitVec.ofNat 32 (s.fld (.ctx r) CTX_OP_ID)) (s.fld (.ctx r) CTX_OP_TEN) ctxTypeExt =
        some stNOT_FITTED := by
      rw [ctxCreateStatus, hid]
      exact if_pos ht
    rw [hcreate, execCtxOpCreate, onComplex_of_acts hrun, if_neg (by simp [hlive])]
    dsimp only
    rw [hst]
    rfl
  case created =>
    rw [hcreate, execCtxOpCreate, onComplex_of_acts hrun, if_neg (by simp [hlive])]
    dsimp only
    rw [hst, ctxMake_of_ext (ctxType_of_create hst)]
    rfl
  case badId =>
    rw [hdelete, execCtxOpDelete, onComplex_of_acts hrun, if_neg (by simp [hlive])]
    dsimp only
    rw [hst]
  case unnamed =>
    rw [hdelete, execCtxOpDelete, onComplex_of_acts hrun, if_neg (by simp [hlive])]
    dsimp only
    rw [hid, hc]
  case deleted =>
    rw [hdelete, execCtxOpDelete, onComplex_of_acts hrun, if_neg (by simp [hlive])]
    dsimp only
    rw [ctxIdStatus_of_named hc, hc]
    exact if_neg (by simp [hlock])
  case waits =>
    rw [hdelete, execCtxOpDelete, onComplex_of_acts hrun, if_neg (by simp [hlive])]
    dsimp only
    rw [ctxIdStatus_of_named hc, hc]
    exact if_pos hlock
  case write =>
    have hpos := List.length_pos_iff.2 hne
    change execContextWindowWrite r (256 * idx + 8 + o) b s = _
    rw [Nat.add_assoc, execContextWindowWrite_within hrun hlive hidx (by omega) (by omega) hne,
      if_neg (by simp [hv, hlock]; omega), Nat.add_sub_cancel_left]
    rfl
  case closed =>
    have hpos := List.length_pos_iff.2 hne
    change execContextWindowWrite r (256 * idx + 8 + o) b s = _
    rw [Nat.add_assoc, execContextWindowWrite_within hrun hlive hidx (by omega) (by omega) hne, if_pos (by tauto)]
  case header =>
    change execContextWindowWrite r (256 * idx + 0) b s = _
    rw [execContextWindowWrite_within hrun hlive hidx (by omega) (by omega) (List.length_pos_iff.1 hpos), if_pos (by omega)]

end Sys2Proof.Machine

/-! # Tenants, the event recorder and the counters (R361 to R370, R437 to R451) -/

namespace Sys2Proof.Machine
open Sys2Proof.Claims

/-! ## Operations of the tenant page -/

section
variable {s : State} {state : Nat} {f : State → Nat → State}

theorem tenOp_of_unfitted (h : s.fuse.variant.tenMax < s.fld .ten TEN_SEL) : tenOp s state f = .next (tenRefused s stNOT_FITTED) :=
  if_pos h

theorem tenOp_of_state_ne (h : s.fld .ten TEN_SEL ≤ s.fuse.variant.tenMax) (hs : (s.tenant (s.fld .ten TEN_SEL)).state ≠ state) :
    tenOp s state f = .next (tenRefused s stOPERAND_RANGE) := by
  rw [tenOp, if_neg (Nat.not_lt.2 h), if_pos (Or.inr hs)]

theorem tenOp_of_state (h : s.fld .ten TEN_SEL ≤ s.fuse.variant.tenMax) (h0 : s.fld .ten TEN_SEL ≠ 0)
    (hs : (s.tenant (s.fld .ten TEN_SEL)).state = state) : tenOp s state f = .next (f s (s.fld .ten TEN_SEL)) := by
  rw [tenOp, if_neg (Nat.not_lt.2 h), if_neg (by simp [h0, hs])]

end

/-- Settles O34. -/
theorem tenantOperationsFollowItsState : Obligations.TenantOperationsFollowItsState := by
  unfold Obligations.TenantOperationsFollowItsState
  intro s
  refine ⟨fun hrun => ?complex, fun t hs => ?phases, fun t hs => ?noReset⟩
  case complex =>
    have hcreate : exec .tenCreate s = _ := onComplex_of_acts hrun
    have hreset : exec .tenReset s = _ := onComplex_of_acts hrun
    have hrelease : exec .tenRelease s = _ := onComplex_of_acts hrun
    have hbind : exec .tenBind s = _ := onComplex_of_acts hrun
    have hunbind : exec .tenUnbind s = _ := onComplex_of_acts hrun
    have hdoor : ∀ user, exec (.tenDoorbell user) s = _ := fun user => onComplex_of_acts hrun
    intro t a
    refine ⟨fun ht => ?unfitted, fun ht h0 => ⟨fun hs => ?create, fun hs => ?taken, fun hs => ?active, fun hs => ?inactive⟩,
      fun user n hn => ?doorbell, fun user hn => ?unnamed⟩
    case unfitted =>
      rw [hcreate, hreset, hrelease, hbind, hunbind]
      exact ⟨tenOp_of_unfitted ht, tenOp_of_unfitted ht, tenOp_of_unfitted ht, tenOp_of_unfitted ht, tenOp_of_unfitted ht⟩
    case create =>
      rw [hcreate, tenOp_of_state ht h0 hs]
      exact ⟨fun hf => next_congr (congrArg (tenStatus · stOK) (if_neg (by rw [Bool.not_eq_true]; exact hf))),
        fun hf => next_congr (congrArg (tenStatus · stOK) (if_pos hf))⟩
    case taken =>
      rw [hcreate, tenOp_of_state_ne ht hs]
    case active =>
      rw [hreset, hrelease, hunbind, hbind, tenOp_of_state ht h0 hs, tenOp_of_state ht h0 hs, tenOp_of_state ht h0 hs,
        tenOp_of_state ht h0 hs]
      refine ⟨rfl, rfl, rfl, fun hfree => next_congr (if_neg ?_), fun e he hne ha => next_congr (if_pos ?_)⟩
      · simpa using hfree
      · simpa using ⟨e.1, e.2, he, hne, ha⟩
    case inactive =>
      rw [hreset, hrelease, hunbind, hbind, tenOp_of_state_ne ht hs, tenOp_of_state_ne ht hs, tenOp_of_state_ne ht hs,
        tenOp_of_state_ne ht hs]
      exact ⟨rfl, rfl, rfl, rfl⟩
    case doorbell => rw [hdoor, hn]
    case unnamed => rw [hdoor, hn]
  case phases =>
    refine ⟨fun hp hi => ?drained, fun hp hi => ?timeout, fun hp hz => ?squashed, fun hp hz => ?zeroising, fun hp => ?complete⟩
    case drained =>
      change execTenantResetDrainEnd t s = _
      rw [execTenantResetDrainEnd, if_neg (by simp [hs, hp]), if_pos hi]
    case timeout =>
      change execTenantResetDrainEnd t s = _
      rw [execTenantResetDrainEnd, if_neg (by simp [hs, hp]), if_neg hi]
    case squashed => exact if_neg (by simp [hs, hp, hz])
    case zeroising => exact if_pos (Or.inr (Or.inr hz))
    case complete => exact if_neg (by simp [hs, hp])
  case noReset => exact ⟨if_pos (Or.inl hs), if_pos (Or.inl hs), if_pos (Or.inl hs)⟩

/-! ## The counters' registers -/

/-- A privileged write that the master's MPU admits reaches the page of the counters. -/
theorem pmcWrite_of_reaches {s : State} {x : Master} {r off : Nat} (f : State → State) (hlive : live s (.pmc r) = true)
    (h : Reaches s x .write (pageBase (.pmc r) + off) 4) (hp : pageOfAddr (pageBase (.pmc r) + off) = some (.pmc r)) :
    pmcWrite s x r off f = .next (f s) := by
  obtain ⟨hruns, hok⟩ := h
  rw [hp] at hok
  rw [pmcWrite, if_neg (by simp [hruns, hlive]), hok]

theorem pmcWrite_of_unprivileged {s : State} {x : Master} {r off : Nat} (f : State → State) (hlive : live s (.pmc r) = true)
    (hruns : masterRuns s x = true) (h : masterPriv x = false) : pmcWrite s x r off f = .next (accessErr s (.pmc r)) := by
  have hreach : pageReach s x .write (some (.pmc r)) (pageBase (.pmc r) + off) 4 = .error (accessErr s (.pmc r)) := by
    simp only [pageReach, h, hlive, Bool.false_eq_true, if_false, if_true]
  rw [pmcWrite, if_neg (by simp [hruns, hlive]), hreach]

/-! ## The recorder -/

theorem postEvent_time (s : State) (p : PageId) (code : Nat) (p0 p1 p2 p3 : Word) :
    (postEvent s p code p0 p1 p2 p3).time = s.time := (OnlyLinks.postEvent s p code p0 p1 p2 p3).proj State.time fun _ _ _ _ => rfl

theorem elemsOf_empty {i : Item} (hf : i.fixed = false) (hp : i.payload = []) (hc : i.ctxId = 0) : elemsOf [] i = .ok [] := by
  have hs : elemShape [] [] = .ok [] := rfl
  have hx : contextField i [] = true := decide_eq_true (by rw [hc]; rfl)
  rw [elemsOf, if_neg (by simp [hf]), hp, hs]
  simp only [hx, Bool.true_eq_false, if_false]
  rfl

/-- An item whose core runs `code` on a part that is open runs it. -/
theorem hostRun_of_item {s : State} {k code : Nat} {i : Item} (f : State → Item → State) (hi : hostItem s k code = some i)
    (hopen : s.devLocked = false ∨ servedLocked code = true) : hostRun s k code f = .next (f s i) := by
  rw [hostRun, hi]
  refine if_neg ?_
  rcases hopen with h | h <;> simp [h]

theorem eventRecordWrite_of_running {s : State} (hr : running s .evr = true) (hf : s.flag .evr EVR_CTRL_FREEZE = false)
    (hu : Unarmed s .evr) :
    exec .eventRecordWrite s =
      if s.evr.lostSince ≠ 0 then
        .next (writeEvent { s with evr := { s.evr with lostSince := 0 } } (evrRecord s 0x0003 s.evr.lostSince 0 0 0))
      else match s.evr.queue with
        | e :: q => .next (writeEvent { s with evr := { s.evr with queue := q } } e)
        | [] => .next s := by
  change eventRecordWrite (touchIf s _ .evr) = _
  rw [touchIf_of_unarmed hu]
  exact if_neg (by simp [evrRuns, hr, hf])

/-- Settles O36. -/
theorem recorderAndCountersFollowTheirControls : Obligations.RecorderAndCountersFollowTheirControls := by
  unfold Obligations.RecorderAndCountersFollowTheirControls
  intro s
  refine ⟨fun hr hf hu => ?record, fun hf => ?thawed, fun hf => ?frozen, fun hrun => ?timeSet, fun hrun code => ?post,
    fun core i hi hopen => ?clear, fun r hlive => ?counters⟩
  case record =>
    rw [eventRecordWrite_of_running hr hf hu]
    exact ⟨fun h => if_pos h, fun e q h hq => by rw [if_neg (by simp [h]), hq], fun h hq => by rw [if_neg (by simp [h]), hq]⟩
  case thawed =>
    refine ⟨fun hrun => ?_, if_neg (by simp [hf])⟩
    have he : ∀ on, exec (.evrFreeze on) s = _ := fun on => onComplex_of_acts hrun
    rw [he, he, hf]
    exact ⟨rfl, rfl⟩
  case frozen =>
    refine ⟨fun hrun => ?_, if_pos hf⟩
    have he : ∀ on, exec (.evrFreeze on) s = _ := fun on => onComplex_of_acts hrun
    rw [he, he, hf]
    exact ⟨rfl, rfl⟩
  case timeSet =>
    refine ⟨_, onComplex_of_acts hrun, ?_⟩
    simp only [postEvent_time, and_self]
  case post => exact onComplex_of_acts hrun
  case clear =>
    change (_ → execEvrClear core s = _) ∧ (_ → _ → _ → _ → (_ → execEvrClear core s = _) ∧ (_ → execEvrClear core s = _))
    rw [execEvrClear, hostRun_of_item _ hi (Or.inl hopen)]
    refine ⟨fun ht => next_congr (if_pos ht), fun ht hfix hpay hctx => ?_⟩
    rw [if_neg (by simp [ht]), elemsOf_empty hfix hpay hctx]
    exact ⟨fun hf => next_congr (if_pos hf), fun hf => next_congr (if_neg (by simp [hf]))⟩
  case counters =>
    refine ⟨fun x hx hpriv hp => ⟨fun on => pmcWrite_of_reaches _ hlive hx hp, pmcWrite_of_reaches _ hlive hx hp⟩,
      fun x hx hpriv hp groups => pmcWrite_of_reaches _ hlive hx hp,
      fun x hx hpriv => ⟨fun on => pmcWrite_of_unprivileged _ hlive hx hpriv, pmcWrite_of_unprivileged _ hlive hx hpriv,
        fun groups => pmcWrite_of_unprivileged _ hlive hx hpriv⟩,
      fun c hc hsel hf hr => ?wrap, fun c hc => ?uncorr⟩
    case wrap =>
      rw [running, decide_eq_true_eq] at hr
      exact if_neg (by simp [hlive, hc, hsel, hf, hr])
    case uncorr => exact if_neg (by simp [hlive, hc])

end Sys2Proof.Machine

/-! # The locked device, and the heartbeat timers (R95, R159 to R161) -/

namespace Sys2Proof.Machine
open Sys2Proof.Claims

/-! ## Commands that a locked device does not serve -/

/-- Each command that R95 does not list runs its item under the lock's check. -/
theorem hostRun_of_notServedLocked {code : Nat} {ins : OnCore} (h : NotServedLocked code ins) :
    servedLocked code = false ∧ ∃ f, ∀ k s, exec (ins k) s = hostRun s k code f := by
  simp only [NotServedLocked, List.mem_cons, Prod.mk.injEq, List.not_mem_nil] at h
  repeat' obtain ⟨rfl, rfl⟩ | h := h
  all_goals exact ⟨rfl, _, fun _ _ => rfl⟩

/-- Settles O41. -/
theorem lockedDeviceRefusesCommands : Obligations.LockedDeviceRefusesCommands := by
  unfold Obligations.LockedDeviceRefusesCommands
  intro s k i code ins hcmd hlocked hi
  obtain ⟨hnot, f, hf⟩ := hostRun_of_notServedLocked hcmd
  rw [hf, hostRun, hi]
  exact if_pos (by rw [hlocked, hnot]; rfl)

/-! ## Heartbeat timers -/

/-- Settles O44. -/
theorem heartbeatTimersSetTheIssuerState : Obligations.HeartbeatTimersSetTheIssuerState := by
  unfold Obligations.HeartbeatTimersSetTheIssuerState
  intro s r t
  refine ⟨fun x hx hf => ?due, fun hno => ?kept, fun hrun hiso hsi => ?rearmed⟩
  case due =>
    have he : exec (.heartbeatExpiry r t) s =
        .next (if ((fireTimer (advanceTo s x.due) r x).siOf t).reachable then setIssuer (fireTimer (advanceTo s x.due) r x) t false 2
          else fireTimer (advanceTo s x.due) r x) := by
      change execHeartbeatExpiry r t s = _
      rw [execHeartbeatExpiry, hx]
      exact if_neg (by simp [hf])
    rw [he]
    exact ⟨fun h => next_congr (if_pos h), fun h => next_congr (if_neg (by simp [h]))⟩
  case kept =>
    change execHeartbeatRearm r s = _
    by_cases hrun : ComplexActs s
    · rw [execHeartbeatRearm, onComplex_of_acts hrun, if_pos hno]
    · rw [execHeartbeatRearm, onComplex_of_not_acts hrun]
  case rearmed =>
    change execHeartbeatRearm r s = _
    rw [execHeartbeatRearm, onComplex_of_acts hrun, if_neg (by simp [hiso, hsi])]

end Sys2Proof.Machine

/-! # Jobs of the lanes (R220 to R241) -/

namespace Sys2Proof.Machine
open Sys2Proof.Claims

/-! ## A lane takes its next job -/

section
variable {s : State} {p : PageId} {r : Nat} {u : UnitKind} {check : State → Nat → Job → BindRes}

/-- A lane whose region has no seal job for it binds a job when it is ready, and its prefetch slot is filled. -/
theorem bindLane_of_unsealed (hu : unitOf p = some (r, u)) (hs : u = .cipher → s.seals r = []) :
    bindLane s p check = prefetched (if laneReady s p then bindJob s p r check else s) p := by
  rw [bindLane, hu]
  cases u
  case cipher => dsimp only; rw [hs rfl]; rfl
  all_goals rfl

theorem bindJob_of_none (h : takeJob s p (fun _ => true) = none) : bindJob s p r check = s := by
  rw [bindJob, h]

theorem bindJob_of_ok {j i : Job} {t : State} (h : takeJob s p (fun _ => true) = some (j, t)) (hc : (check t r j).1 = .ok i) :
    bindJob s p r check =
      stampItem ((check t r j).2.setLane p { (check t r j).2.lane p with
        cur := some { i with bound := (check t r j).2.time.ns } }) i.item
        fun x => (x.1, some (x.2.1.getD (check t r j).2.time.ns), x.2.2) := by
  rw [bindJob, h]
  dsimp only
  rw [hc]

theorem bindJob_of_error {j : Job} {st : Nat} {t : State} (h : takeJob s p (fun _ => true) = some (j, t))
    (hc : (check t r j).1 = .error st) : bindJob s p r check = refuseJob (check t r j).2 p j st := by
  rw [bindJob, h]
  dsimp only
  rw [hc]

/-- A command that binds a lane's next job takes it as R230 says. -/
theorem takesNext_of_bindLane {ins : Instr} (h : exec ins s = .next (bindLane s p check)) (hu : unitOf p = some (r, u))
    (hs : u = .cipher → s.seals r = []) : TakesNext ins s p r check := by
  rw [bindLane_of_unsealed hu hs] at h
  refine ⟨fun hbusy => ?_, fun hready hnone => ?_, fun j t hready hjob => ⟨fun i hi => ?_, fun st hst => ?_⟩⟩
  · rw [h, hbusy]
    rfl
  · rw [h, if_pos hready, bindJob_of_none hnone]
  · rw [h, if_pos hready, bindJob_of_ok hjob hi]
  · rw [h, if_pos hready, bindJob_of_error hjob hst]

end

/-- A ready cipher lane takes the oldest seal job of its region first. -/
theorem bindLane_of_seal {s : State} {r k : Nat} {x : SealJob} {l : List SealJob} {check : State → Nat → Job → BindRes}
    (hx : s.seals r = x :: l) :
    bindLane s (.cph r k) check = prefetched (if laneReady s (.cph r k) then
      (s.setSeals r l).setLane (.cph r k) { s.lane (.cph r k) with sealing := some x } else s) (.cph r k) := by
  simp only [bindLane, unitOf, hx]
  rfl

/-! ## Tests of a stopped page -/

section
variable {s : State} {p : PageId}

theorem testTaken_of_working (hl : live s p = true) (h1 : stateOf s p ≠ stOff) (h2 : stateOf s p ≠ stStopped) :
    testTaken s p = .error (accessErr s p) := by
  rw [testTaken, if_neg (by simp [hl]), if_pos ⟨h1, h2⟩]

theorem testTaken_of_stopped (hl : live s p = true) (h : stateOf s p = stOff ∨ stateOf s p = stStopped) :
    testTaken s p = if s.flag p CTRL_TEST_EN = false then .error s else .ok () := by
  rw [testTaken, if_neg (by simp [hl]), if_neg (by tauto)]

/-- A command that asks for a test of a page runs it as R48 and R232 say. -/
theorem testRuns_of_testTaken {ins : Option Byte → Instr} {pass vec fail : Fld} {code : Nat}
    (hbad : ∀ res u, ComplexActs s → testTaken s p = .error u → exec (ins res) s = .next u)
    (hok : ∀ res, ComplexActs s → testTaken s p = .ok () →
      exec (ins res) s = .next (katResult s p pass vec fail code (res.map BitVec.toNat))) :
    TestRuns ins s p pass vec fail code := by
  intro hrun hl res
  refine ⟨fun h1 h2 => hbad res _ hrun (testTaken_of_working hl h1 h2), fun h => ⟨fun hen => ?_, fun hen => ?_⟩⟩
  · exact hbad res _ hrun (by rw [testTaken_of_stopped hl h, if_pos hen])
  · exact hok res hrun (by rw [testTaken_of_stopped hl h, if_neg (by simp [hen])])

end

/-! ## A job ends -/

theorem exec_cipherJobDone {s : State} {r k : Nat} (h : Unarmed s (.cph r k)) :
    exec (.cipherJobDone r k) s = cipherJobDone r k s := by
  change cipherJobDone r k (touchIf s _ _) = _
  rw [touchIf_of_unarmed h]

theorem exec_hashJobDone {s : State} {r k : Nat} (h : Unarmed s (.hsh r k)) : exec (.hashJobDone r k) s = hashJobDone r k s := by
  change hashJobDone r k (touchIf s _ _) = _
  rw [touchIf_of_unarmed h]

/-- Does a cipher job compare what it computed with what it was given? -/
def comparesOut (d : Bytes) : Prop := dOp d = 3 ∨ (dOp d = 1 ∧ dMode d = 6)

section
variable {s : State} {r k : Nat} {j : Job} (hseal : (s.lane (.cph r k)).sealing = none)
  (hcur : (s.lane (.cph r k)).cur = some j) (hslot : j.slot ≠ noSlot) (hl : live s (.cph r k) = true)
include hseal hcur hslot hl

theorem cipherJobDone_of_mismatch (h0 : (cipherRun s r j).status = 0) (hlast : dLast j.desc = true) (hcmp : comparesOut j.desc)
    (hne : fabricRead s r j.core (dCmp j.desc) (dTag j.desc) ≠ (cipherRun s r j).out16) :
    cipherJobDone r k s = .next (endJob (if dMode j.desc ≤ 6 then
        jobWrite s r j (dDst j.desc) (zeros (cipherRun s r j).out.length) else s)
      (.cph r k) r j stVERIFY_FAIL (cipherRun s r j).blocks 0 [] 0x07 0x08) := by
  rw [cipherJobDone]
  simp only [hseal, hcur, if_neg hslot, hl, unitOf, and_self, if_true]
  refine if_pos ?_
  rw [comparesOut] at hcmp
  simpa [h0, hlast, hne] using hcmp

theorem cipherJobDone_of_match
    (hok : (cipherRun s r j).status ≠ 0 ∨ dLast j.desc = false ∨ ¬ comparesOut j.desc ∨
      fabricRead s r j.core (dCmp j.desc) (dTag j.desc) = (cipherRun s r j).out16)
    {out : Bytes} (h1 : comparesOut j.desc → out = []) (h2 : ¬ comparesOut j.desc → out = (cipherRun s r j).out16) :
    cipherJobDone r k s = .next (endJob (writeArea (if dMode j.desc ≤ 6 then
        jobWrite s r j (dDst j.desc) (cipherRun s r j).out else s) r j (cipherRun s r j).chain)
      (.cph r k) r j (cipherRun s r j).status (cipherRun s r j).blocks (cipherRun s r j).out.length out 0x07 0x08) := by
  have hout : out = if dOp j.desc = 3 ∨ (dOp j.desc = 1 ∧ dMode j.desc = 6) then [] else (cipherRun s r j).out16 := by
    split
    next h => exact h1 h
    next h => exact h2 h
  rw [cipherJobDone, hout]
  simp only [hseal, hcur, if_neg hslot, hl, unitOf, and_self, if_true]
  refine if_neg ?_
  rw [comparesOut] at hok
  simp only [Bool.and_eq_true, Bool.or_eq_true, decide_eq_true_eq]
  rintro ⟨⟨⟨h0, hlast⟩, hcmp⟩, hne⟩
  rcases hok with h | h | h | h
  · exact h h0
  · rw [h] at hlast; cases hlast
  · exact h hcmp
  · exact hne h

end

/-- Settles O45. -/
theorem laneJobsBindCheckAndEnd : Obligations.LaneJobsBindCheckAndEnd := by
  unfold Obligations.LaneJobsBindCheckAndEnd
  intro s r k
  refine ⟨fun hs => takesNext_of_bindLane rfl rfl fun _ => hs, fun x l hx => ⟨fun hready => ?takesSeal, fun hbusy => ?sealBusy⟩,
    takesNext_of_bindLane (u := .hash) rfl rfl nofun, fun hu hl => ⟨fun x hx => ?sealDone, fun j hseal hcur hslot => ?cipherDone⟩,
    fun j hseal hcur hslot hu => ?internal, fun j hu hcur hl => ?hashDone, fun hcur hseal => ?cipherIdle, fun hcur => ?hashIdle,
    fun p written u j st l hu hd => ?discard, testRuns_of_testTaken ?cphBad ?cphOk, testRuns_of_testTaken ?hshBad ?hshOk,
    fun a b hl => ?vectors⟩
  case takesSeal =>
    change Host.Outcome.next (bindLane s (.cph r k) cipherCheck) = _
    rw [bindLane_of_seal hx, if_pos hready]
  case sealBusy =>
    change Host.Outcome.next (bindLane s (.cph r k) cipherCheck) = _
    rw [bindLane_of_seal hx, if_neg (by simp [hbusy])]
  case sealDone =>
    rw [exec_cipherJobDone hu, cipherJobDone, hx]
    exact next_congr (if_pos hl)
  case cipherDone =>
    rw [exec_cipherJobDone hu]
    refine ⟨fun h0 hlast hcmp hne => ?mismatch, fun hok out h1 h2 => ?agrees⟩
    case mismatch =>
      rw [cipherJobDone_of_mismatch hseal hcur hslot hl h0 hlast hcmp hne]
      exact ⟨fun hm => by rw [if_pos hm], fun hm => by rw [if_neg (Nat.not_le.2 hm)]⟩
    case agrees =>
      rw [cipherJobDone_of_match hseal hcur hslot hl hok h1 h2]
      exact ⟨fun hm => by rw [if_pos hm], fun hm => by rw [if_neg (Nat.not_le.2 hm)]⟩
  case internal =>
    rw [exec_cipherJobDone hu, cipherJobDone, hseal, hcur]
    exact if_pos hslot
  case hashDone =>
    rw [exec_hashJobDone hu]
    simp only [hashJobDone, hcur, unitOf, hl, and_self, if_true]
    refine ⟨fun hlast => if_pos hlast, fun hlast hop => ?compare, fun hlast hop => ⟨fun hlen => ?short, fun hlen => ?long⟩⟩
    case compare => rw [if_neg (by simp [hlast]), if_pos hop]
    case short => rw [if_neg (by simp [hlast]), if_neg hop, if_neg (Nat.not_lt.2 hlen)]
    case long => rw [if_neg (by simp [hlast]), if_neg hop, if_pos hlen]
  case cipherIdle =>
    change cipherJobDone r k (touchIf s _ _) = _
    rw [hcur, hseal, touchIf, if_neg (by decide), cipherJobDone, hcur, hseal]
  case hashIdle =>
    change hashJobDone r k (touchIf s _ _) = _
    rw [hcur, touchIf, if_neg (by decide), hashJobDone, hcur]
  case discard =>
    change (_ → execDiscardZeroiseDone p written s = _) ∧ (∀ c, _ → _ → execDiscardZeroiseDone p written s = _) ∧
      (∀ c, _ → _ → execDiscardZeroiseDone p written s = _)
    rw [execDiscardZeroiseDone, hu, hd]
    exact ⟨fun hst => by rw [hst], fun c hst hslot => by rw [hst]; exact next_congr (if_neg hslot),
      fun c hst hslot => by rw [hst]; exact next_congr (if_pos hslot)⟩
  case cphBad =>
    intro res u hrun h
    change execCphTestRun r k res s = _
    rw [execCphTestRun, onComplex_of_acts hrun, h]
  case cphOk =>
    intro res hrun h
    change execCphTestRun r k res s = _
    rw [execCphTestRun, onComplex_of_acts hrun, h]
  case hshBad =>
    intro res u hrun h
    change execHshTestRun r k res s = _
    rw [execHshTestRun, onComplex_of_acts hrun, h]
  case hshOk =>
    intro res hrun h
    change execHshTestRun r k res s = _
    rw [execHshTestRun, onComplex_of_acts hrun, h]
  case vectors => exact if_neg (by simp [hl])

end Sys2Proof.Machine

/-! # Jobs of the engines, and their microcode (R242 to R274) -/

namespace Sys2Proof.Machine
open Sys2Proof.Claims

theorem engineJobDone_of_cur {s : State} {r k : Nat} {j : Job} (hj : (s.lane (.pke r k)).cur = some j)
    (hl : live s (.pke r k) = true) (hg : odmGrants s r = true) :
    engineJobDone r k s = match engineRun s j with
      | .error .mismatch => .next (resultMismatch s (.pke r k))
      | .error (.status st) => .next (endEngine s (.pke r k) r j st 0 0)
      | .ok o =>
        match o.key with
        | none => .next (endEngine (copyOut s r j o.outs) (.pke r k) r j stOK 0 (opTotal j.ops 1))
        | some (bits, opt) =>
          match placeGenerated s 0 j.tenant (eSpec j.desc) (genCurve j.desc) bits opt with
          | .error st => .next (endEngine (quotaCounted s j.tenant st) (.pke r k) r j st 0 0)
          | .ok (h, t) => .next (endEngine (copyOut t r j o.outs) (.pke r k) r j stOK h (opTotal j.ops 1)) := by
  rw [engineJobDone, hj]
  exact if_pos (by simp [hl, hg])

theorem exec_engineJobDone {s : State} {r k : Nat} (h : Unarmed s (.pke r k)) :
    exec (.engineJobDone r k) s = engineJobDone r k s := by
  change engineJobDone r k (touchIf s _ _) = _
  rw [touchIf_of_unarmed h]

/-- A free engine of a dispatcher that grants binds the job that may take it. -/
theorem exec_engineJobBind_of_grants {s : State} {r k : Nat} (hready : laneReady s (.pke r k) = true) (hg : odmGrants s r = true) :
    exec (.engineJobBind r k) s = match pickJob s r .engine (mayBind s r) with
      | none => .next (if (pickJob s r .engine fun _ => true).isSome then s.bump (.odm r) ODM_PASSED else s)
      | some j =>
        let s := if pickJob s r .engine (fun _ => true) = some j then s else s.bump (.odm r) ODM_PASSED
        let (res, s) := engineCheck (grantJob s r .engine j) r j
        match res with
        | .error st => .next (complete (s.bump (.pke r k) PKE_REFUSED) j.core j.slot (engWord st 0 0))
        | .ok j =>
          let s := s.bump (.odm r) ODM_BYTES_IN (opTotal j.ops 0)
          .next (touch (stampItem (s.setLane (.pke r k) { s.lane (.pke r k) with cur := some j }) j.item
            fun t => (t.1, some (t.2.1.getD s.time.ns), t.2.2)) (.odm r) (.unit (.pke r k))) :=
  if_neg (by simp [hready, hg])

/-- Settles O46. -/
theorem engineJobsRunAndMicrocodeLoads : Obligations.EngineJobsRunAndMicrocodeLoads := by
  unfold Obligations.EngineJobsRunAndMicrocodeLoads
  intro s r k
  refine ⟨fun hno => if_pos hno, fun hready hg hnone => ⟨fun hq => ?noJob, fun j hq => ?passed⟩,
    fun j hready hg hpick => ⟨fun st hst => ?refused, fun i hi => ?bound⟩, fun j hj hl hg hu => ?done, fun hg hu => ?noGrant,
    fun hcur => ?idle, fun words hrun hl => ⟨fun hbad => ?ucRefused, fun hopen h0 hmax => ?ucLoad⟩, fun hl hgo => ?ucDone,
    fun hgo => ?ucIdle, fun a hl => ?vectors, testRuns_of_testTaken ?testBad ?testOk⟩
  case noJob =>
    rw [exec_engineJobBind_of_grants hready hg, hnone, hq]
    rfl
  case passed =>
    rw [exec_engineJobBind_of_grants hready hg, hnone, hq]
    rfl
  case refused =>
    rw [exec_engineJobBind_of_grants hready hg, hpick]
    dsimp only
    rw [hst]
  case bound =>
    intro v w hu
    rw [exec_engineJobBind_of_grants hready hg, hpick]
    dsimp only
    rw [hi]
    exact next_congr (touch_of_unarmed hu)
  case done =>
    rw [exec_engineJobDone hu, engineJobDone_of_cur hj hl hg]
    refine ⟨fun he => by rw [he]; rfl, fun st he => by rw [he], fun o he hk => ?plain, fun o bits opt he hk => ⟨fun st hst => ?unplaced,
      fun h t ht => ?placed⟩⟩
    case plain =>
      rw [he]
      dsimp only
      rw [hk]
    case unplaced =>
      rw [he]
      dsimp only
      rw [hk]
      dsimp only
      rw [hst]
    case placed =>
      rw [he]
      dsimp only
      rw [hk]
      dsimp only
      rw [ht]
  case noGrant =>
    rw [exec_engineJobDone hu, engineJobDone]
    split
    · rfl
    · exact if_neg (by simp [hg])
  case idle =>
    change engineJobDone r k (touchIf s _ _) = _
    rw [hcur, touchIf, if_neg (by decide), engineJobDone, hcur]
  case ucRefused =>
    change execMicrocodeLoad r words s = _
    rw [execMicrocodeLoad, onComplex_of_acts hrun, if_neg (by simp [hl]), if_pos hbad]
  case ucLoad =>
    change execMicrocodeLoad r words s = _
    rw [execMicrocodeLoad, onComplex_of_acts hrun, if_neg (by simp [hl]), if_neg (by simp [hopen, hmax]; exact h0)]
  case ucDone => exact if_neg (by simp [hl, hgo])
  case ucIdle => exact if_pos (Or.inr hgo)
  case vectors => exact if_neg (by simp [hl])
  case testBad =>
    intro res u hrun h
    change execPkeTestRun r k res s = _
    rw [execPkeTestRun, onComplex_of_acts hrun, h]
  case testOk =>
    intro res hrun h
    change execPkeTestRun r k res s = _
    rw [execPkeTestRun, onComplex_of_acts hrun, h]

end Sys2Proof.Machine

/-! # The entropy source and the expanders (R293 to R302) -/

namespace Sys2Proof.Machine
open Sys2Proof.Claims

/-! ## Fields that a word other than the reset word keeps

A word that is written back to its reset value leaves the map of the registers, so that it reads back in canonical form
alone; a word with a field off its reset value reads back in any state. -/

section
variable {s : State} {p : PageId} {f g : Fld} {n : Nat}

theorem State.reg_setFld_of_ne (h : f.put (s.reg p f.off) n ≠ resetWord (pageBase p + f.off)) :
    (s.setFld p f n).reg p f.off = f.put (s.reg p f.off) n := mget_mset_of_ne _ _ _ _ h

/-- A field set off its reset value reads back. -/
theorem State.fld_setFld_of_ne (hf : f.lo + f.width ≤ 32)
    (h : f.get (resetWord (pageBase p + f.off)) ≠ n % 2 ^ f.width) : (s.setFld p f n).fld p f = n % 2 ^ f.width := by
  have hw : f.put (s.reg p f.off) n ≠ resetWord (pageBase p + f.off) := by
    intro he
    rw [← he, Fld.get_put f _ n hf] at h
    exact h rfl
  rw [State.fld, State.reg_setFld_of_ne hw, Fld.get_put f _ n hf]

/-- A field reads back when another field of its word is off its reset value. -/
theorem State.fld_setFld_of_other (hoff : g.off = f.off) (hf : f.lo + f.width ≤ 32)
    (hd : f.lo + f.width ≤ g.lo ∨ g.lo + g.width ≤ f.lo)
    (h : g.get (resetWord (pageBase p + g.off)) ≠ s.fld p g) : (s.setFld p f n).fld p f = n % 2 ^ f.width := by
  have hw : f.put (s.reg p f.off) n ≠ resetWord (pageBase p + f.off) := by
    intro he
    rw [hoff, ← he, Fld.get_put_other _ n hf hd, State.fld, hoff] at h
    exact h rfl
  rw [State.fld, State.reg_setFld_of_ne hw, Fld.get_put f _ n hf]

end

/-! ## The expanders -/

theorem exec_drbgGenerateRequest {s : State} {r : Nat} (h : Unarmed s (.rnx r)) :
    exec (.drbgGenerateRequest r) s = drbgGenerate r s := by
  change drbgGenerate r (touchIf s _ _) = _
  rw [touchIf_of_unarmed h]

/-- What a generation changes besides the boom: registers and the recorder. -/
theorem postEvent_booms (s : State) (p : PageId) (code : Nat) (p0 p1 p2 p3 : Word) :
    (postEvent s p code p0 p1 p2 p3).booms = s.booms :=
  (OnlyLinks.postEvent s p code p0 p1 p2 p3).proj State.booms fun _ _ _ _ => rfl

theorem setFld_booms (s : State) (p : PageId) (f : Fld) (n : Nat) : (s.setFld p f n).booms = s.booms := rfl

theorem setFlag_booms (s : State) (p : PageId) (f : Fld) (b : Bool) : (s.setFlag p f b).booms = s.booms := rfl

theorem setIrq_booms (s : State) (p : PageId) (bit : Nat) : (setIrq s p bit).booms = s.booms := rfl

theorem drbgGenerate_booms {s : State} {r : Nat} (hr : running s (.rnx r) = true)
    (hseed : s.flag (.rnx r) RNG_DRBG_STATUS_SEEDED = true) (hlim : s.flag (.rnx r) RNG_DRBG_STATUS_LIMIT = false)
    (hfill : boomFills s r = true) (hroom : (s.boom r).words.length + wordsReserved s r + 128 ≤ 8192) :
    ∃ t, drbgGenerate r s = .next t ∧ t.booms = (s.setBoom r { s.boom r with
      key := (drbgGen (s.boom r).key (s.boom r).v 1024).2.1, v := (drbgGen (s.boom r).key (s.boom r).v 1024).2.2
      words := (s.boom r).words ++ chunks 8 (drbgGen (s.boom r).key (s.boom r).v 1024).1
      filling := ! decide (8192 < (s.boom r).words.length + wordsReserved s r + 256) }).booms := by
  rw [drbgGenerate, if_neg (by simp [hr, hseed, hlim, hfill, hroom])]
  obtain ⟨out, key, v⟩ := drbgGen (s.boom r).key (s.boom r).v 1024
  refine ⟨_, rfl, ?_⟩
  dsimp only
  split <;> split <;> simp only [postEvent_booms, setIrq_booms, setFlag_booms, setFld_booms]

/-! ## The raw window -/

/-- ARM is cleared in a word whose EN stays set. -/
theorem rawArm_cleared {s : State} (hraw : rawMode s = true) :
    (s.setFlag .rng RNG_RAW_CTRL_ARM false).flag .rng RNG_RAW_CTRL_ARM = false := by
  have hen : s.fld .rng RNG_RAW_CTRL_EN = 1 := of_decide_eq_true hraw
  have h0 : (s.setFlag .rng RNG_RAW_CTRL_ARM false).fld .rng RNG_RAW_CTRL_ARM = 0 :=
    State.fld_setFld_of_other (g := RNG_RAW_CTRL_EN) rfl (by decide) (by decide) (by rw [hen]; decide)
  exact decide_eq_false (by rw [h0]; decide)

/-- The window that fills: its words are counted and it takes no more until it is armed again. -/
theorem execRngRawFull_window {s : State} (hraw : rawMode s = true) (harm : s.flag .rng RNG_RAW_CTRL_ARM = true) :
    ∃ t, execRngRawFull s = .next t ∧ t.rawWin.length = 4096 ∧ t.fresh = s.fresh + 1 ∧
      t.flag .rng RNG_RAW_CTRL_ARM = false ∧ t.fld .rng RNG_RAW_STATUS_WORDS = 1024 := by
  have hkeep : ∀ u : State, KeepsAt 0x06C u
      (setIrq ((u.setFlag .rng RNG_RAW_STATUS_FULL true).setFld .rng RNG_RAW_STATUS_WORDS 1024) .rng 18) := fun u =>
    ((KeepsAt.setFlag _ _ (by decide) (by decide) (by decide)).trans
      (.setFld _ _ (by decide) (by decide) (by decide))).trans (.setIrq _ _ (by decide) (by decide))
  have hwords : ∀ u : State, (setIrq (u.setFld .rng RNG_RAW_STATUS_WORDS 1024) .rng 18).fld .rng RNG_RAW_STATUS_WORDS = 1024 :=
    fun u => by
      rw [KeepsAt.fld (KeepsAt.setIrq (o := 0x070) (s := u.setFld .rng RNG_RAW_STATUS_WORDS 1024) .rng 18 (by decide) (by decide)) rfl]
      exact State.fld_setFld_of_ne (by decide) (by decide)
  refine ⟨_, if_pos ⟨hraw, harm⟩, length_beBytes _ _, rfl, ?_, hwords _⟩
  rw [(hkeep _).flag rfl]
  exact rawArm_cleared hraw

/-- Settles O47. -/
theorem randomSourceSeedsTheExpanders : Obligations.RandomSourceSeedsTheExpanders := by
  unfold Obligations.RandomSourceSeedsTheExpanders
  intro s
  refine ⟨fun fails hst => ?startup, fun fails hst => if_pos hst, fun hr hd hraw hu => ?block, fun site held hr hb hs => ?health,
    fun site held hb => if_pos (Or.inr (Or.inl hb)), fun r hnone => ⟨?noInstance, ?noReseed⟩, fun r b t hl hst hd htake => ?instantiated,
    fun r hr hseed hlim hfill hroom hu => ?generate, fun r hu hno => ?noGenerate, fun r b t hr hseed hreqs htake => ?reseed,
    fun hraw => if_neg (by simp [hraw]), fun hrun hraw => ?rawOff, fun hrun hraw => ?rawOn, fun sel hrun => ?arm,
    fun hraw harm => execRngRawFull_window hraw harm, fun hrun hb => ?permit, fun hrun hb => ?noPermit⟩
  case startup => exact if_neg (by simp [hst])
  case block =>
    change conditionedBlock (touchIf s _ _) = _
    rw [touchIf_of_unarmed hu]
    exact if_neg (by simp [hr, hd, hraw])
  case health =>
    have hheld : (if rawMode s = true then 0 else min held 32) = min (if rawMode s = true then 0 else held) 32 := by
      split
      · exact (Nat.zero_min 32).symm
      · rfl
    dsimp only
    rw [hheld]
    exact if_neg (by simp [hr, hb, hs])
  case noInstance =>
    change execExpanderInstantiated r s = _
    rw [execExpanderInstantiated, hnone]
    exact ite_self _
  case noReseed =>
    change execDrbgReseed r s = _
    rw [execDrbgReseed, hnone]
    exact ite_self _
  case instantiated =>
    have he : exec (.expanderInstantiated r) s = execExpanderInstantiated r s := rfl
    rw [he, execExpanderInstantiated, if_neg (by simp [hl, hst, hd]), htake]
    refine ⟨fun hkey => ?_, fun hkey => ?_⟩
    · simp only [decide_eq_false hkey]
      rfl
    · simp only [decide_eq_true hkey]
      rfl
  case generate =>
    rw [exec_drbgGenerateRequest hu]
    exact drbgGenerate_booms hr hseed hlim hfill hroom
  case noGenerate =>
    rw [exec_drbgGenerateRequest hu]
    exact if_pos (by tauto)
  case reseed =>
    change execDrbgReseed r s = _
    rw [execDrbgReseed, if_neg (by simp [hr, hseed, hreqs]), htake]
  case rawOff =>
    have he : ∀ en, exec (.rngRawEnable en) s = _ := fun en => onComplex_of_acts hrun
    rw [he, he]
    refine ⟨fun hperm hidle => ?_, fun hno => ?_, if_pos hraw⟩
    · simp only [if_true, hraw, Bool.false_eq_true, if_false]
      refine if_pos ?_
      rcases hperm with h | h <;> simp [h, hidle]
    · simp only [if_true, hraw, Bool.false_eq_true, if_false]
      refine if_neg ?_
      rcases hno with ⟨h1, h2⟩ | h
      · simp [h1, h2]
      · simp [h]
  case rawOn =>
    have he : ∀ en, exec (.rngRawEnable en) s = _ := fun en => onComplex_of_acts hrun
    rw [he, he]
    refine ⟨if_pos hraw, ?_⟩
    simp only [Bool.false_eq_true, if_false]
    exact if_neg (by simp [hraw])
  case arm =>
    intro t
    have he : exec (.rngRawArm sel) s = _ := onComplex_of_acts hrun
    rw [he]
    refine ⟨fun hr hs => if_pos ⟨hr, hs⟩, fun hno => if_neg ?_⟩
    rintro ⟨h1, h2⟩
    rcases hno with h | ⟨h3, h4⟩
    · exact Bool.noConfusion (h.symm.trans h1)
    · omega
  case permit =>
    change execRngRawPermit s = _
    rw [execRngRawPermit, onComplex_of_acts hrun, if_neg (by simp [hb])]
  case noPermit =>
    change execRngRawPermit s = _
    rw [execRngRawPermit, onComplex_of_acts hrun, if_pos hb]

end Sys2Proof.Machine

/-! # Measurements, migration, masks and the operations of the vault (R186 to R215) -/

namespace Sys2Proof.Machine
open Sys2Proof.Claims

/-! ## Migration -/

section
variable {s : State} (hrun : ComplexActs s)
include hrun

theorem execMigConfirm_of_closed
    (h : s.sys.mig ≠ mgTRIAL ∨ vaultStatus s ≠ none ∨ (s.sys.raise = true ∧ ctrReady s floorCtr = false)) :
    execMigConfirm 0xA5 s = .next (accessErr s .vlt) := by
  rw [execMigConfirm, onComplex_of_acts hrun, if_neg (by decide)]
  refine if_pos ?_
  rcases h with h | h | h
  · exact Or.inl h
  · exact Or.inr (Or.inl (Option.isSome_iff_ne_none.2 h))
  · exact Or.inr (Or.inr h)

theorem execMigConfirm_of_trial (hm : s.sys.mig = mgTRIAL) (hv : vaultStatus s = none)
    (hr : s.sys.raise = true → ctrReady s floorCtr = true) :
    execMigConfirm 0xA5 s =
      let t := { s with sys := { s.sys with
        curWrap := 1 - s.sys.curWrap, slot := 1 - s.sys.slot, cur := s.sys.target, target := s.sys.cur
        versions := s.sys.newVers, newVers := [], raise := false
        toRewrap := (validTmks s).length, rewrapped := 0 } }
      .next (setMig (if s.sys.raise then ctrWrite t floorCtr (field s.sys.newVers 0 4) else t) mgCONFIRMING) := by
  rw [execMigConfirm, onComplex_of_acts hrun, if_neg (by decide)]
  refine if_neg ?_
  rintro (h | h | ⟨h1, h2⟩)
  · exact h hm
  · rw [hv] at h
    cases h
  · rw [hr h1] at h2
    cases h2

end

/-! ## The operations that name a handle -/

theorem vltHandle_of_other {s : State} (h : handleTenant (s.reg .vlt 0x060) ≠ s.fld .vlt VLT_EXT_TEN) :
    vltHandle s = .error stNOT_AUTHORISED := if_pos h

theorem vltHandle_of_own {s : State} (h : handleTenant (s.reg .vlt 0x060) = s.fld .vlt VLT_EXT_TEN) :
    vltHandle s = .ok (s.reg .vlt 0x060) := if_neg (not_not.2 h)

/-- VLT_SEAL writes the block of a key that resolves into the tenant's own table. -/
theorem execVltSeal_of_key {s t : State} {k : KeyVal} {i : Nat} {tmk : Bytes} (hrun : ComplexActs s)
    (hten : handleTenant (s.reg .vlt 0x060) = s.fld .vlt VLT_EXT_TEN)
    (hslot : s.fld .vlt VLT_OP_INDEX < (s.tenant (s.fld .vlt VLT_EXT_TEN)).extCount)
    (hk : resolveKey s (s.reg .vlt 0x060) = (.ok k, t)) (hclass : handleClass (s.reg .vlt 0x060) = 0) (hlen : k.bits.length ≤ 32)
    (hi : activeTmk t (s.fld .vlt VLT_EXT_TEN) = some i) (htmk : tmkOf t (s.fld .vlt VLT_EXT_TEN) i = some tmk) :
    execVltSeal s = .next (vltOpDone { t with
      hbm := memWrite t.hbm ((t.tenant (s.fld .vlt VLT_EXT_TEN)).extBase * 4096 + 128 * s.fld .vlt VLT_OP_INDEX)
        (extBlock t (s.fld .vlt VLT_EXT_TEN) (s.fld .vlt VLT_OP_INDEX) i tmk k) } stOK) := by
  rw [execVltSeal, onComplex_of_acts hrun, vltHandle_of_own hten]
  dsimp only
  rw [hten, if_neg (Nat.not_le.2 hslot), hk]
  dsimp only
  rw [if_neg (by simp [hclass, hlen]), hi]
  dsimp only
  rw [htmk]

/-- Settles O48. -/
theorem vaultKeepsMeasurementsMigrationAndMasks : Obligations.VaultKeepsMeasurementsMigrationAndMasks := by
  unfold Obligations.VaultKeepsMeasurementsMigrationAndMasks
  intro s
  refine ⟨fun n w v hrun hn hw => ?meas, fun v hrun => ?seals, fun v hv => ?noKey, fun hrun => ⟨fun hbad => ?closed, fun hm hv => ?confirm⟩,
    fun hm hv => if_neg (by simp [hm, hv]), fun hm hv => if_neg (by simp [hm, hv]), fun hm => ?idle, fun fails hno => ?noMask,
    fun hyes => ?mask, fun hroot => next_congr (if_pos hroot), fun hroot => next_congr (if_neg hroot), rfl,
    fun n hn => next_congr (if_pos hn), fun bad hst => if_pos (Or.inl hst), fun bad hst hseal => ?startup, fun hrun hten => ?otherTenant,
    fun hrun hten => ⟨fun k t i tmk hslot hk hclass hlen hi htmk => ?sealed, fun st hst => ?infoClosed, fun st hv hnone hst => ?infoGone,
      fun a n st p g hv hinfo => ?info⟩, rfl⟩
  case meas =>
    have he : exec (.measWrite n w v) s = _ := onComplex_of_acts hrun
    rw [he, if_neg (by omega)]
    exact ⟨fun h => if_pos h, fun h => if_neg (by simp [h])⟩
  case seals =>
    intro t
    have he : exec (.measSeal v) s = _ := onComplex_of_acts hrun
    rw [he]
    exact ⟨fun h1 h2 => next_congr (if_pos ⟨h1, by simp [h2]⟩), fun h => next_congr (if_neg (by simpa [or_iff_not_imp_left] using h))⟩
  case noKey =>
    change execMigConfirm v s = _
    by_cases hrun : ComplexActs s
    · rw [execMigConfirm, onComplex_of_acts hrun, if_pos hv]
    · rw [execMigConfirm, onComplex_of_not_acts hrun]
  case closed => exact execMigConfirm_of_closed hrun hbad
  case confirm =>
    refine ⟨fun hr => ?_, fun hr hc => ?_⟩
    · refine (execMigConfirm_of_trial hrun hm hv (by simp [hr])).trans ?_
      rw [hr]
      rfl
    · refine (execMigConfirm_of_trial hrun hm hv fun _ => hc).trans ?_
      rw [hr]
      rfl
  case idle => exact ⟨if_pos (Or.inl (by rw [hm]; decide)), if_pos (Or.inl (by rw [hm]; decide))⟩
  case noMask => exact ⟨if_pos hno, if_pos hno, if_pos hno⟩
  case mask =>
    have hmask : ¬ remasks s = false := by simp [hyes]
    refine ⟨if_neg hmask, fun fails => if_neg hmask, fun k t hk => ?_, fun t hnone => ?_⟩
    · change execVaultMaskReseed s = _
      rw [execVaultMaskReseed, if_neg hmask, hk]
    · have he : exec .vaultMaskReseed s = execVaultMaskReseed s := rfl
      rw [he, execVaultMaskReseed, if_neg hmask, hnone]
      exact ⟨fun h => if_pos h, fun h1 h2 => if_neg (by simp [h1, h2])⟩
  case startup =>
    have he : exec (.vaultStartup bad) s = _ := if_neg (by simp [hst, hseal])
    rw [he]
    dsimp only
    exact ⟨fun h => by rw [if_pos h], fun h => by rw [if_neg (by simp [h])]⟩
  case otherTenant =>
    have hs : exec .vltSeal s = _ := onComplex_of_acts hrun
    have hi : exec .vltInfo s = _ := onComplex_of_acts hrun
    rw [hs, hi, vltHandle_of_other hten]
    exact ⟨rfl, rfl⟩
  case sealed => exact execVltSeal_of_key hrun hten hslot hk hclass hlen hi htmk
  case infoClosed =>
    have hi : exec .vltInfo s = _ := onComplex_of_acts hrun
    rw [hi, vltHandle_of_own hten]
    dsimp only
    rw [hst]
  case infoGone =>
    have hi : exec .vltInfo s = _ := onComplex_of_acts hrun
    rw [hi, vltHandle_of_own hten]
    dsimp only
    rw [hv]
    dsimp only
    rw [hnone]
    dsimp only
    rw [hst]
  case info =>
    have hi : exec .vltInfo s = _ := onComplex_of_acts hrun
    rw [hi, vltHandle_of_own hten]
    dsimp only
    rw [hv]
    dsimp only
    rw [hinfo]

end Sys2Proof.Machine

/-! # The pair link, its roles and its epochs (R381 to R400) -/

namespace Sys2Proof.Machine
open Sys2Proof.Claims

/-! ## The link -/

theorem partnerKnown_of_other {s : State} {x : Partner} (h : x.devid ≠ peerId s ∨ x.cert = false ∨ x.life ≠ lifeState s) :
    partnerKnown s x = false := by
  rcases h with h | h | h <;> simp [partnerKnown, h]

/-- Settles O49. -/
theorem pairLinkAdmitsItsPartnerAlone : Obligations.PairLinkAdmitsItsPartnerAlone := by
  unfold Obligations.PairLinkAdmitsItsPartnerAlone
  intro s
  refine ⟨fun hr lanes x hlanes => ?up, fun x h => partnerKnown_of_other h, fun hr lanes x => if_pos (Or.inl hr),
    fun a hdown => if_pos hdown, fun hup => ?down, fun hr n lock => ?lock, fun h => next_congr (if_pos h), fun h => next_congr (if_neg h),
    fun mib copy hrole hup => if_neg (by simp [hrole, hup]), fun mib copy hrole => if_pos (Or.inl hrole), rfl, rfl,
    fun parity h1 h2 => if_neg (by simp [h1, h2]), fun parity h => if_pos h⟩
  case up =>
    intro t
    have he : exec (.pairLinkUp lanes x) s = _ := if_neg (by simp only [hr, Bool.true_eq_false, false_or]; exact hlanes)
    rw [he]
    refine ⟨fun h => if_neg ?_, fun h1 h2 => if_pos ⟨h1, h2⟩⟩
    rintro ⟨h1, h2⟩
    rcases h with h | h
    · exact Bool.noConfusion (h.symm.trans h1)
    · exact Bool.noConfusion (h.symm.trans h2)
  case down =>
    have hn : ¬ s.flag .par PAIR_STATUS_LINK_UP = false := by simp [hup]
    exact ⟨if_neg hn, if_neg hn⟩
  case lock =>
    intro t
    have he : exec (.pairLaneBlockLock n lock) s = _ := if_neg (by simp [hr])
    rw [he]
    exact ⟨fun h => next_congr (if_neg fun hc => h hc.1), fun h1 h2 => next_congr (if_pos ⟨h1, h2⟩),
      fun h => next_congr (if_neg fun hc => Bool.noConfusion (h.symm.trans hc.2))⟩

/-! ## The close of an epoch -/

/-- A field off its reset value is kept by writes of the other fields of its word. -/
theorem State.fld_setFld_kept {s : State} {p : PageId} {f g : Fld} {n : Nat} (hoff : g.off = f.off) (hf : f.lo + f.width ≤ 32)
    (hd : f.lo + f.width ≤ g.lo ∨ g.lo + g.width ≤ f.lo) (h : g.get (resetWord (pageBase p + g.off)) ≠ s.fld p g) :
    (s.setFld p f n).fld p g = s.fld p g := by
  have hw : f.put (s.reg p f.off) n ≠ resetWord (pageBase p + f.off) := by
    intro he
    rw [hoff, ← he, Fld.get_put_other _ n hf hd, State.fld, hoff] at h
    exact h rfl
  rw [State.fld, hoff, State.reg_setFld_of_ne hw, Fld.get_put_other _ n hf hd, State.fld, hoff]

/-- The count of epochs that wait shares the role's word, and keeps a role that is not NONE. -/
theorem role_refreshBacklog {s : State} {waiting : Nat} (h : s.role ≠ roNONE) : (refreshBacklog s waiting).role = s.role := by
  have hkeep : KeepsAt 0x048 (s.setFld .par PAIR_STATUS_UNACKED (min 255 s.pair.unacked.length)) (refreshBacklog s waiting) := by
    unfold refreshBacklog
    dsimp only
    split
    · exact (KeepsAt.setFld _ _ (by decide) (by decide) (by decide)).trans (.setIrq _ _ (by decide) (by decide))
    · exact KeepsAt.setFld _ _ (by decide) (by decide) (by decide)
  rw [State.role, hkeep.fld rfl]
  exact State.fld_setFld_kept (g := PAIR_STATUS_ROLE) rfl (by decide) (by decide) fun he => h (he.symm.trans (by decide))

/-- The count of epochs changes the epoch's words and the last delta's size. -/
theorem setEpoch_keeps (s : State) (e bytes : Nat) : KeepsAt 0x048 s ((setEpoch s e).setFld .par PAIR_DELTA_LAST bytes) :=
  ((KeepsAt.setFld _ _ (by decide) (by decide) (by decide)).trans (.setFld _ _ (by decide) (by decide) (by decide))).trans
    (.setFld _ _ (by decide) (by decide) (by decide))

theorem refreshBacklog_pair (s : State) (waiting : Nat) : (refreshBacklog s waiting).pair = s.pair := by
  unfold refreshBacklog
  dsimp only
  split <;> rfl

/-- The state `s` with the retries of the link counted, when it is up. -/
def retriesCounted (s : State) (retries : Nat) : State :=
  if s.flag .par PAIR_STATUS_LINK_UP then s.bump .par PAIR_RETRY retries else s

/-- The delta `d` waits for its acknowledgement, with `waiting` bytes to send. -/
def deltaQueued (s : State) (d : Delta) (waiting : Nat) : State :=
  refreshBacklog { s with
    pair := { s.pair with unacked := s.pair.unacked ++ [d], shadow := (lasting s).map DeltaItem.plain } } waiting

/-- The epoch is counted; a paired unit queues the delta of what changed. -/
theorem closeEpoch_eq (s : State) (bytes sent retries : Nat) :
    closeEpoch s bytes sent retries =
      let t := (setEpoch s (s.epoch + 1)).setFld .par PAIR_DELTA_LAST bytes
      let u := retriesCounted t retries
      if t.pair.paired = false then t
      else deltaQueued u { epoch := s.epoch, bytes := bytes, time := u.time.ns, items := changed u }
        (t.fld .par PAIR_BACKLOG + bytes - (if t.flag .par PAIR_STATUS_LINK_UP then sent else 0)) := rfl

theorem retriesCounted_keeps (s : State) (retries : Nat) : KeepsAt 0x048 s (retriesCounted s retries) := by
  unfold retriesCounted
  split
  · exact .setFld _ _ (by decide) (by decide) (by decide)
  · exact .refl s

theorem retriesCounted_others (s : State) (retries : Nat) :
    (retriesCounted s retries).pair = s.pair ∧ (retriesCounted s retries).time = s.time := by
  unfold retriesCounted
  split <;> exact ⟨rfl, rfl⟩

theorem deltaQueued_role {s : State} {d : Delta} {waiting : Nat} (h : s.role ≠ roNONE) : (deltaQueued s d waiting).role = s.role :=
  role_refreshBacklog h

theorem deltaQueued_unacked (s : State) (d : Delta) (waiting : Nat) :
    (deltaQueued s d waiting).pair.unacked = s.pair.unacked ++ [d] := by
  rw [deltaQueued, refreshBacklog_pair]

theorem closeEpoch_role {s : State} {bytes sent retries : Nat} (h : s.role ≠ roNONE) :
    (closeEpoch s bytes sent retries).role = s.role := by
  have ht : ((setEpoch s (s.epoch + 1)).setFld .par PAIR_DELTA_LAST bytes).role = s.role := (setEpoch_keeps _ _ _).fld rfl _
  have hu : (retriesCounted ((setEpoch s (s.epoch + 1)).setFld .par PAIR_DELTA_LAST bytes) retries).role = s.role :=
    ((retriesCounted_keeps _ retries).fld rfl _).trans ht
  rw [closeEpoch_eq]
  dsimp only
  split
  · exact ht
  · rw [deltaQueued_role (by rw [hu]; exact h), hu]

/-- A paired unit closes its epoch with a delta of what changed. -/
theorem closeEpoch_unacked {s : State} {bytes sent retries : Nat} (h : s.pair.paired = true) :
    (closeEpoch s bytes sent retries).pair.unacked =
      let t := (setEpoch s (s.epoch + 1)).setFld .par PAIR_DELTA_LAST bytes
      let u := if s.flag .par PAIR_STATUS_LINK_UP then t.bump .par PAIR_RETRY retries else t
      s.pair.unacked ++ [{ epoch := s.epoch, bytes := bytes, time := s.time.ns, items := changed u }] := by
  have hup : ((setEpoch s (s.epoch + 1)).setFld .par PAIR_DELTA_LAST bytes).flag .par PAIR_STATUS_LINK_UP =
      s.flag .par PAIR_STATUS_LINK_UP := (setEpoch_keeps _ _ _).flag rfl _
  have hp : ¬ ((setEpoch s (s.epoch + 1)).setFld .par PAIR_DELTA_LAST bytes).pair.paired = false := by
    change ¬ s.pair.paired = false
    simp [h]
  obtain ⟨hpair, htime⟩ := retriesCounted_others ((setEpoch s (s.epoch + 1)).setFld .par PAIR_DELTA_LAST bytes) retries
  rw [closeEpoch_eq]
  dsimp only
  rw [if_neg hp, deltaQueued_unacked, hpair, htime, retriesCounted, hup]
  rfl

/-- The close of an active unit's epoch counts the epochs that pass in silence. -/
theorem exec_epochClose_of_active {s : State} {bytes sent : BitVec 24} {retries : Byte} (hrole : s.role = roACTIVE)
    (hu : Unarmed s .par) :
    exec (.epochClose bytes sent retries) s =
      let t := closeEpoch s bytes.toNat sent.toNat retries.toNat
      let u := { t with pair := { t.pair with silent := t.pair.silent + 1 } }
      if t.pair.paired = false then .next t
      else if t.pair.heard = true then .next { t with pair := { t.pair with heard := false, silent := 0 } }
      else if t.pair.silent + 1 < 4 then .next u
      else if t.balls.hbIn = true then .next (becomeFenced u 1)
      else .next (becomeAlone u 4) := by
  have ht : (closeEpoch s bytes.toNat sent.toNat retries.toNat).role = roACTIVE :=
    (closeEpoch_role (by rw [hrole]; decide)).trans hrole
  change execEpochClose bytes sent retries s = _
  rw [execEpochClose, if_neg (not_not.2 hrole), touch_of_unarmed hu]
  dsimp only
  rw [ht]
  simp only [ne_eq, not_true_eq_false, or_false]

/-- Settles O50. -/
theorem pairRolesFollowEpochsAndMessages : Obligations.PairRolesFollowEpochsAndMessages := by
  unfold Obligations.PairRolesFollowEpochsAndMessages
  intro s
  refine ⟨fun bytes sent retries hrole hu => ?close, fun bytes sent retries hp => ?unacked, fun bytes sent retries hrole => if_pos hrole,
    fun d e he hd => ?old, fun d hrole hup hnew => ?delta, fun d e he hd => ⟨?inOrder, rfl, rfl⟩, fun d e he hd => ?early,
    fun e standby he => if_pos (by tauto), fun e standby hrole hp hup he => if_neg (by simp [hrole, hp, hup, he]),
    fun hrole => ?standby, fun hrole => ⟨if_pos hrole, fun x => if_pos hrole⟩, fun hrun hr => ?parOff, fun hrun hrole hr => ?alone,
    fun hrole => ?active, fun hrole => ?inactive, fun hrun => ?abandon⟩
  case close =>
    rw [exec_epochClose_of_active hrole hu]
    intro t
    refine ⟨fun hp => if_pos hp, fun hp hh => ?_, fun hp hh => ⟨fun hs => ?_, fun hs hb => ?_, fun hs hb => ?_⟩⟩
    · exact (if_neg (by simp [t, hp])).trans (if_pos hh)
    · exact (if_neg (by simp [t, hp])).trans ((if_neg (by simp [t, hh])).trans (if_pos (Nat.succ_lt_succ hs)))
    · exact (if_neg (by simp [t, hp])).trans ((if_neg (by simp [t, hh])).trans ((if_neg (Nat.not_lt.2 (Nat.succ_le_succ hs))).trans (if_pos hb)))
    · exact (if_neg (by simp [t, hp])).trans ((if_neg (by simp [t, hh])).trans ((if_neg (Nat.not_lt.2 (Nat.succ_le_succ hs))).trans (if_neg (by simp [t, hb]))))
  case unacked =>
    exact closeEpoch_unacked hp
  case old =>
    change execDeltaReceived d s = _
    rw [execDeltaReceived, he]
    simp only [decide_eq_true hd, if_true]
    exact ite_self _
  case delta =>
    change execDeltaReceived d s = _
    have hrole' : ¬ ((s.role ≠ roSYNCING ∧ s.role ≠ roSTANDBY) ∨ s.flag .par PAIR_STATUS_LINK_UP = false) := by
      rw [hup]
      rcases hrole with h | h <;> simp [h]
    rw [execDeltaReceived, if_neg hrole']
    cases ha : s.pair.applied with
    | none => rfl
    | some e => exact if_neg (by simpa using hnew e ha)
  case inOrder =>
    rw [applyStaged, if_pos (by simp [he, hd])]
    rfl
  case early =>
    rw [applyStaged, if_neg (by simp [he]; omega)]
  case standby =>
    have hs : ¬ s.role ≠ roSTANDBY := not_not.2 hrole
    have hmsg : ∀ x, exec (.roleMessageReceived x) s = .next (if x then
        takePartner { promote s 3 with pair := { (promote s 3).pair with partner := roSTANDBY } } else promote s 3) :=
      fun x => if_neg hs
    refine ⟨if_neg hs, (hmsg false).trans (next_congr (if_neg (by decide))), (hmsg true).trans (next_congr (if_pos rfl)),
      fun hrun hr => ?_⟩
    change execPairPromote s = _
    rw [execPairPromote, onComplex_of_acts hrun, if_neg (by simp [hr]), if_pos hrole]
  case parOff =>
    change execPairPromote s = _
    rw [execPairPromote, onComplex_of_acts hrun, if_pos hr]
  case alone =>
    change execPairPromote s = _
    rw [execPairPromote, onComplex_of_acts hrun, if_neg (by simp [hr]), if_neg (by rw [hrole]; decide), if_pos hrole]
  case active =>
    refine ⟨next_congr (if_pos hrole), next_congr (if_pos hrole), fun hrun => ?_, fun hrun hp hup hpart => ?_,
      fun hsw => ⟨_, if_neg (by simp [hrole, hsw]), rfl, rfl⟩, fun hsw => if_pos (Or.inr hsw)⟩
    · change execPairPromote s = _
      rw [execPairPromote, onComplex_of_acts hrun, if_neg (show ¬ s.role = roSTANDBY by rw [hrole]; decide),
        if_neg (show ¬ s.role = roNONE by rw [hrole]; decide)]
      exact ite_self _
    · change execPairSwitch s = _
      rw [execPairSwitch, onComplex_of_acts hrun, if_pos ⟨hrole, hp, hup, hpart⟩]
  case inactive =>
    refine ⟨next_congr (if_neg hrole), next_congr (if_neg hrole), fun hrun => ?_, if_pos (Or.inl hrole)⟩
    change execPairSwitch s = _
    rw [execPairSwitch, onComplex_of_acts hrun, if_neg fun h => hrole h.1]
  case abandon => exact onComplex_of_acts hrun

end Sys2Proof.Machine

/-! # Tamper monitors, their tests and their log (R404 to R420) -/

namespace Sys2Proof.Machine
open Sys2Proof.Claims

/-! ## The tamper registers -/

/-- A response register lowers another when it asks for less at some monitor. -/
def respLowers (w old : Word) : Prop := ∃ k < 16, respField w (k + 1) < respField old (k + 1)

theorem execTmpRespWrite_of_kept {s : State} {v : Word} (hrun : ComplexActs s)
    (h : (s.fld .vlt VLT_MEAS_SEAL).testBit 5 = false ∨ ¬ respLowers (floored s v) (floored s s.tmp.resp)) :
    execTmpRespWrite v s = .next { s with tmp := { s.tmp with resp := floored s v } } := by
  rw [execTmpRespWrite, onComplex_of_acts hrun]
  refine if_neg ?_
  simp only [Bool.and_eq_true, List.any_eq_true, List.mem_range, decide_eq_true_eq]
  rintro ⟨h1, h2⟩
  rcases h with h | h
  · exact Bool.noConfusion (h.symm.trans h1)
  · exact h h2

theorem execTmpRespWrite_of_lowered {s : State} {v : Word} (hrun : ComplexActs s)
    (h1 : (s.fld .vlt VLT_MEAS_SEAL).testBit 5 = true) (h2 : respLowers (floored s v) (floored s s.tmp.resp)) :
    execTmpRespWrite v s = .next (accessErr s .tmp) := by
  rw [execTmpRespWrite, onComplex_of_acts hrun]
  refine if_pos ?_
  simp only [Bool.and_eq_true, List.any_eq_true, List.mem_range, decide_eq_true_eq]
  exact ⟨h1, h2⟩

/-- A configuration weakens another when it closes fewer loops, or allows more or rarer failures. -/
def cfgWeakens (w old : Word) : Prop :=
  (cfgLoopA old = true ∧ cfgLoopA w = false) ∨ (cfgLoopB old = true ∧ cfgLoopB w = false) ∨ cfgFail w < cfgFail old ∨
    cfgPeriod w < cfgPeriod old

theorem execTmpCfgWrite_of_kept {s : State} {v : Word} (hrun : ComplexActs s)
    (h : (s.fld .vlt VLT_MEAS_SEAL).testBit 5 = false ∨ ¬ cfgWeakens (cfgStored s v) (cfgStored s s.tmp.cfg)) :
    execTmpCfgWrite v s = .next { s with tmp := { s.tmp with cfg := cfgStored s v } } := by
  rw [execTmpCfgWrite, onComplex_of_acts hrun]
  refine if_neg ?_
  simp only [Bool.and_eq_true, Bool.or_eq_true, Bool.not_eq_true', decide_eq_true_eq, or_assoc]
  rintro ⟨h1, h2⟩
  rcases h with h | h
  · exact Bool.noConfusion (h.symm.trans h1)
  · exact h h2

theorem execTmpCfgWrite_of_weakened {s : State} {v : Word} (hrun : ComplexActs s)
    (h1 : (s.fld .vlt VLT_MEAS_SEAL).testBit 5 = true) (h2 : cfgWeakens (cfgStored s v) (cfgStored s s.tmp.cfg)) :
    execTmpCfgWrite v s = .next (accessErr s .tmp) := by
  rw [execTmpCfgWrite, onComplex_of_acts hrun]
  refine if_pos ?_
  simp only [Bool.and_eq_true, Bool.or_eq_true, Bool.not_eq_true', decide_eq_true_eq, or_assoc]
  exact ⟨h1, h2⟩

/-! ## Trips and the windows of the stimulus tests -/

/-- The state after the monitors of `w` have seen their condition. -/
def sensed (s : State) (w : BitVec 16) : State :=
  { s with tmp := { s.tmp with present := s.tmp.present ||| w, cell := s.tmp.cell && ! decide (monIn w 0x10) } }

/-- A trip that asks for a response stops the work of a powered part. -/
def tripStops (s : State) (w : BitVec 16) (pulsed : Bool) : Prop :=
  tripping s w ≠ [] ∧ (bufFull (sensed s w) = true ∨ ∃ m ∈ tripping s w, 1 ≤ respOf (sensed s w) m) ∧ pulsed = false ∧
    s.tmp.power = true

theorem execTamperTrip_eq (s : State) (v : BitVec 16) (pulsed : Bool) :
    execTamperTrip v pulsed s =
      let w := v &&& ~~~ (monBit 5 ||| monBit 7)
      let t := sensed s w
      let strong := tripping s w ≠ [] ∧ (bufFull t ∨ (tripping s w).any fun m => 1 ≤ respOf t m)
      let u := if strong ∧ pulsed = false ∧ t.tmp.power then stopTransition t else t
      .next (tripMonitors u (tripping s w) (pulsed && u.lcs.prog.isSome)) := rfl

theorem tripStops_iff (s : State) (w : BitVec 16) (pulsed : Bool) :
    ((tripping s w ≠ [] ∧ (bufFull (sensed s w) ∨ (tripping s w).any fun m => 1 ≤ respOf (sensed s w) m)) ∧ pulsed = false ∧
      (sensed s w).tmp.power) ↔ tripStops s w pulsed := by
  change _ ∧ _ ∧ s.tmp.power = true ↔ _
  simp only [tripStops, List.any_eq_true, decide_eq_true_eq, and_assoc]

theorem execTamperTrip_of_stops {s : State} {v : BitVec 16} {pulsed : Bool}
    (h : tripStops s (v &&& ~~~ (monBit 5 ||| monBit 7)) pulsed) :
    execTamperTrip v pulsed s =
      .next (tripMonitors (stopTransition (sensed s (v &&& ~~~ (monBit 5 ||| monBit 7))))
        (tripping s (v &&& ~~~ (monBit 5 ||| monBit 7))) false) := by
  rw [execTamperTrip_eq]
  dsimp only
  rw [if_pos ((tripStops_iff ..).2 h)]
  obtain ⟨-, -, hp, -⟩ := h
  rw [hp]
  rfl

theorem execTamperTrip_of_not_stops {s : State} {v : BitVec 16} {pulsed : Bool}
    (h : ¬ tripStops s (v &&& ~~~ (monBit 5 ||| monBit 7)) pulsed) :
    execTamperTrip v pulsed s =
      .next (tripMonitors (sensed s (v &&& ~~~ (monBit 5 ||| monBit 7)))
        (tripping s (v &&& ~~~ (monBit 5 ||| monBit 7))) (pulsed && s.lcs.prog.isSome)) := by
  rw [execTamperTrip_eq]
  dsimp only
  rw [if_neg fun hc => h ((tripStops_iff ..).1 hc)]
  rfl

/-- Settles O51. -/
theorem tamperMonitorsTripRearmAndLog : Obligations.TamperMonitorsTripRearmAndLog := by
  unfold Obligations.TamperMonitorsTripRearmAndLog
  intro s
  refine ⟨fun v pulsed => ⟨fun h => execTamperTrip_of_stops h, fun h => execTamperTrip_of_not_stops h⟩,
    fun m h1 h2 => if_neg (by omega), fun m h => if_pos h, fun v hrun => ?registers, fun e l hp hb hlen => ?moved, fun hno => ?kept,
    fun hrun => onComplex_of_acts hrun, fun hp => if_neg (by simp [hp]), fun hp => if_pos hp, fun sel hbusy => ?busy,
    fun sel hrun hfree hsel => ?badSel, fun sel hrun hfree h1 h2 => ?test, fun a b hnone => ?noWindow,
    fun m sw l tripped persists htests => ?window, fun code => rfl, fun hp => next_congr (if_pos hp), fun hp => ?battery, rfl,
    fun hc => next_congr (if_pos hc), fun hc => next_congr (if_neg (by simp [hc])), fun h => next_congr (if_pos h),
    fun hp hc => ⟨_, next_congr (if_neg (by simp [hp, hc])), rfl, rfl, rfl, rfl, rfl⟩⟩
  case registers =>
    exact ⟨fun h => execTmpRespWrite_of_kept hrun h, fun h1 h2 => execTmpRespWrite_of_lowered hrun h1 h2,
      fun h => execTmpCfgWrite_of_kept hrun h, fun h1 h2 => execTmpCfgWrite_of_weakened hrun h1 h2⟩
  case moved =>
    refine next_congr ((if_pos hp).trans ?_)
    rw [moveEntry, hb]
    exact if_neg (by simp [logFull, hlen])
  case kept =>
    refine next_congr ?_
    rcases hno with hp | hb
    · exact if_neg (by simp [hp])
    · rw [moveEntry, hb]
      exact ite_self _
  case busy =>
    change execTmpTestRun sel s = _
    by_cases hrun : ComplexActs s
    · rw [execTmpTestRun, onComplex_of_acts hrun, if_pos hbusy]
    · rw [execTmpTestRun, onComplex_of_not_acts hrun]
  case badSel =>
    change execTmpTestRun sel s = _
    rw [execTmpTestRun, onComplex_of_acts hrun, if_neg (by simp [hfree])]
    exact if_pos hsel
  case test =>
    change execTmpTestRun sel s = _
    rw [execTmpTestRun, onComplex_of_acts hrun, if_neg (by simp [hfree])]
    exact if_neg (by omega)
  case noWindow =>
    change execStimulusWindowClose a b s = _
    rw [execStimulusWindowClose, hnone]
  case window =>
    have he : exec (.stimulusWindowClose tripped persists) s = execStimulusWindowClose tripped persists s := rfl
    rw [he, execStimulusWindowClose, htests]
    simp only [Bool.or_eq_true, Bool.and_eq_true, Bool.not_eq_true']
    exact ⟨fun h => next_congr (if_pos h), fun h => next_congr (if_neg h)⟩
  case battery =>
    have he : exec .batteryDomainError s = .next (respond s 2 false) := next_congr (if_neg (by simp [hp]))
    refine ⟨he, _, he, ?_⟩
    rw [respond, if_pos hp]
    exact ⟨rfl, rfl, rfl⟩

end Sys2Proof.Machine

/-! # Supplies, the test port, the boot flash, the HBM controller and the clocks (R433, R454 to R473, R484) -/

namespace Sys2Proof.Machine
open Sys2Proof.Claims

/-- The test port keeps an instruction that the part allows, and counts one that it does not. -/
theorem tapInstr_of_allowed {s : State} {c : Byte} {allowed : Bool} (h : allowed = true) :
    tapInstr s c allowed = { s with balls := { s.balls with tapIr := c } } := by
  subst h
  rfl

theorem tapInstr_of_refused {s : State} {c : Byte} {allowed : Bool} (h : allowed = false) :
    tapInstr s c allowed = { s.bumpSat .dbg DBG_REFUSED with balls := { s.balls with tapIr := 0xFF } } := by
  subst h
  rfl

/-- A locked part stays shut when its rails return. -/
theorem reopen_of_locked {s : State} (hs : s.shut = true) (hl : s.devLocked = true) : (reopen s).shut = true := by
  unfold reopen
  split
  · next h => simp_all
  · exact hs

/-- A reply of the boot flash goes into its window, for a command that the part allows. -/
theorem execBflCommand_of_running {s : State} {op : Byte} {reply : Bytes} (hrun : ComplexActs s) (hr : running s .bfl = true) :
    execBflCommand op reply s =
      if (lifeState s = lcSHIPPED ∨ lifeState s = lcOWNED) ∧ flashGuarded s op then .next (accessErr s .bfl)
      else if flashWrites op then .next s
      else
        let n := min (min (s.fld .bfl BFL_CMD_LEN) 256) reply.length
        .next ((List.range ((n + 3) / 4)).foldl (fun s w =>
          let old := wordLe (s.reg .bfl (0x100 + 4 * w))
          let new := slice (reply.take n) (4 * w) 4
          s.setReg .bfl (0x100 + 4 * w) (BitVec.ofNat 32 (leNat (new ++ old.drop new.length)))) s) := by
  rw [execBflCommand, onComplex_of_acts hrun, if_neg (by simp [hr])]

/-- Settles O52. -/
theorem suppliesTestPortFlashAndHbm : Obligations.SuppliesTestPortFlashAndHbm := by
  unfold Obligations.SuppliesTestPortFlashAndHbm
  intro s
  refine ⟨fun core hp => ⟨_, if_neg (by simp [hp]), rfl, rfl, rfl, rfl, rfl⟩, fun core hp => ⟨if_pos hp, if_pos hp⟩, fun hp => ?rails,
    fun hw => ?noWindow, fun x y hw => ?bothFell, fun x y hw => ?oneFell, fun core hs hl t ht => ?locked, ?tap, fun hgo => ?busy,
    fun hrun hr hgo => ?transfer, fun hgo x => if_pos hgo, fun hgo => ?transferred, fun op reply hrun hr => ?command,
    fun us hst => ?training, fun hr => if_neg (by simp [hr]), fun hr hs => if_neg (by simp [hr, hs]),
    fun t => ⟨fun h => next_congr (if_pos h), fun h => next_congr (if_neg h)⟩, fun q => rfl,
    fun t => ⟨fun h => next_congr (if_pos h), fun h => next_congr (if_neg (Int.not_lt.2 h))⟩,
    fun c hp => next_congr (if_pos hp), fun c hp => next_congr (if_neg (by simp [hp]))⟩
  case rails =>
    have he : ∀ core, exec (.railReturn core) s = _ := fun core => if_neg (by simp [hp])
    exact ⟨(he true).trans (if_pos rfl), (he false).trans (if_neg (by decide))⟩
  case noWindow =>
    change execRailFallWindowEnd s = _
    rw [execRailFallWindowEnd, hw]
  case bothFell =>
    change execRailFallWindowEnd s = _
    rw [execRailFallWindowEnd, hw]
    rfl
  case oneFell =>
    change execRailFallWindowEnd s = _
    rw [execRailFallWindowEnd, hw]
    rfl
  case locked =>
    change execRailReturn core s = _ at ht
    unfold execRailReturn at ht
    split at ht
    · exact Host.Outcome.next.inj ht ▸ hs
    split at ht <;> exact Host.Outcome.next.inj ht ▸ reopen_of_locked hs hl
  case tap =>
    exact ⟨rfl, rfl, fun h => ⟨next_congr (tapInstr_of_allowed h), next_congr (tapInstr_of_allowed h)⟩,
      fun h => ⟨next_congr (tapInstr_of_refused h), next_congr (tapInstr_of_refused h)⟩,
      fun h => ⟨next_congr (tapInstr_of_allowed h), next_congr (tapInstr_of_allowed h)⟩,
      fun h => ⟨next_congr (tapInstr_of_refused h), next_congr (tapInstr_of_refused h)⟩⟩
  case busy =>
    change execBflTransfer s = _
    by_cases hrun : ComplexActs s
    · rw [execBflTransfer, onComplex_of_acts hrun, if_pos (Or.inr hgo)]
    · rw [execBflTransfer, onComplex_of_not_acts hrun]
  case transfer =>
    change execBflTransfer s = _
    rw [execBflTransfer, onComplex_of_acts hrun, if_neg (by simp [hr, hgo])]
  case transferred =>
    have hn : ¬ s.flag .bfl BFL_XFER_GO = false := by simp [hgo]
    exact ⟨fun b => if_neg hn, if_neg hn, if_neg hn⟩
  case command =>
    have he : exec (.bflCommand op reply) s = _ := execBflCommand_of_running hrun hr
    rw [he]
    exact ⟨fun h => if_pos h, fun h hw => (if_neg h).trans (if_pos hw), fun h hw => (if_neg h).trans (if_neg (by simp [hw]))⟩
  case training =>
    have he : ∀ ok, exec (.hbmTrainingDone ok us) s = execHbmTrainingDone ok us s := fun _ => rfl
    rw [he, he, execHbmTrainingDone, if_neg (not_not.2 hst), execHbmTrainingDone, if_neg (not_not.2 hst)]
    exact ⟨if_pos rfl, fun k t hv => (if_neg (by decide)).trans (by dsimp only; rw [hv]), fun t hv => (if_neg (by decide)).trans (by dsimp only; rw [hv])⟩

end Sys2Proof.Machine

/-! # Resets, the boot and the life-cycle transitions (R425 to R432, R455 to R467) -/

namespace Sys2Proof.Machine
open Sys2Proof.Claims

/-! ## A life-cycle slot is written -/

theorem putImage_fuse (s : State) (n w : Nat) (b : Bytes) (live : Bool) : (putImage s n w b live).fuse = s.fuse := by
  unfold putImage
  rfl

theorem putPublic_fuse (s : State) (typ t index : Nat) (attr pub : Bytes) : (putPublic s typ t index attr pub).fuse = s.fuse := by
  unfold putPublic writeRec
  exact putImage_fuse ..

theorem slotWritten_slots (s : State) (target : Nat) (pub : Bytes) :
    (slotWritten s target pub).fuse.slots = s.fuse.slots ++ [codeWord target] := by
  unfold slotWritten
  dsimp only
  split
  · exact congrArg Fuses.slots (putPublic_fuse ..)
  · rfl

theorem wdtRuns_of_period {s : State} (h : complexRuns s = true) (hp : s.fld .rst RST_WDT ≠ 0) : wdtRuns s = true := by
  simp [wdtRuns, h, hp]

/-! ## The start of the ROM -/

/-- The state from which the ROM of a chip that starts looks for a staged request. -/
def romReady (s : State) : State :=
  let t := measure (applyRepairs s) 0 (beBytes 48 Config.romDigest.toNat)
  let u := debugSetup (tamperStart (romEnable (romEnable (finishErase t) .mgt) .bfl))
  u.setFld .bfl BFL_SLOT_CUR u.sys.slot

/-- A life-cycle request waits for the ROM. -/
def romStaged (s : State) : Prop := s.fld .rst RST_CAUSE = rcARM ∧ s.fld .lcs LCS_REQ_LEN ≠ 0

section
variable {s : State} {f : FirstStage} {a b : Bool} (hrun : complexRuns s = true) (hst : s.lcs.stage = sgROM)
include hrun hst

theorem execRomStart_of_unstaged (h : ¬ romStaged (romReady s)) : execRomStart f a b s = .next (romBoot (romReady s) f) := by
  rw [execRomStart, if_neg (by simp [hrun, hst])]
  exact if_neg h

theorem execRomStart_of_staged (h : romStaged (romReady s)) :
    execRomStart f a b s =
      match reqRefused (clearReq (romReady s)) (stagedReq (romReady s)) a b with
      | .ok q => .next (beginTransition (clearReq (romReady s)) q)
      | .error (step, st) => .next (romBoot (postResult (clearReq (romReady s)) st step (byteAt (stagedReq (romReady s)) 6)
          (byteAt (stagedReq (romReady s)) 7)) f) := by
  rw [execRomStart, if_neg (by simp [hrun, hst])]
  exact if_pos h

end

/-- Settles O53. -/
theorem resetsBootAndTransitionsFollowTheirCauses : Obligations.ResetsBootAndTransitionsFollowTheirCauses := by
  unfold Obligations.ResetsBootAndTransitionsFollowTheirCauses
  intro s
  refine ⟨rfl, fun hp => next_congr (if_pos hp), fun hp => next_congr (if_neg (by simp [hp])), fun hrun => ?complex,
    fun hw => ⟨if_pos ?_, if_pos ?_⟩, fun hrun => onComplex_of_acts hrun, fun x hx => ?noProgram, fun t pub hp => ?program,
    fun x y => slotWritten_slots s x y, fun i t l htake hl hsel => ?report, fun i t l htake hl hsel => ?reportLog,
    fun i t l a b htake hl => ?request, fun hq => ?empty⟩
  case complex =>
    have hn : ¬ complexRuns s = false := by simp [hrun]
    refine ⟨(if_neg hn).trans (if_pos rfl), fun v hv => (if_neg hn).trans (if_neg hv), fun hr => ?readyOn, fun hr => ?readyRefused,
      ?readyOff, fun hw => ?watchdog, fun typ status hst => if_neg (by simp [hrun, hst]), fun hlen => if_neg (by simp [hrun, hlen]),
      fun hlen => if_pos (Or.inr hlen), fun f a b hst => ?rom, fun f a b hst => if_pos (Or.inr hst)⟩
    case readyOn => exact (if_neg hn).trans (if_neg (by simp [hr]))
    case readyRefused => exact (if_neg hn).trans (if_pos (by simp [hr]))
    case readyOff => exact (if_neg hn).trans (if_neg (by simp))
    case watchdog =>
      have hr := wdtRuns_of_period hrun hw
      exact ⟨if_neg (by simp [hr]), if_neg (by simp [hr])⟩
    case rom =>
      refine ⟨fun h => execRomStart_of_unstaged hrun hst h, fun q h hq => (execRomStart_of_staged hrun hst h).trans ?_,
        fun step st h hq => (execRomStart_of_staged hrun hst h).trans ?_⟩
      · rw [show reqRefused (clearReq (romReady s)) (stagedReq (romReady s)) a b = .ok q from hq]
        rfl
      · rw [show reqRefused (clearReq (romReady s)) (stagedReq (romReady s)) a b = .error (step, st) from hq]
        rfl
  case noProgram =>
    change execLcsProgramDone x s = _
    rw [execLcsProgramDone, hx]
  case program =>
    have he : ∀ x, exec (.lcsProgramDone x) s = execLcsProgramDone x s := fun _ => rfl
    intro u
    rw [he, execLcsProgramDone, hp]
    refine ⟨rfl, fun w => ?_⟩
    rw [he, execLcsProgramDone, hp]
  case report =>
    change execRomReport s = _
    rw [execRomReport, htake]
    dsimp only
    rw [hl]
    exact if_neg (by simp [hsel])
  case reportLog =>
    have he : exec .romReport s = execRomReport s := rfl
    rw [he, execRomReport, htake]
    dsimp only
    rw [hl]
    exact ⟨fun h => (if_pos hsel).trans (if_neg (Nat.not_le.2 h)), fun h => (if_pos hsel).trans (if_pos h)⟩
  case request =>
    have he : exec (.romLcsRequest a b) s = execRomLcsRequest a b s := rfl
    rw [he, execRomLcsRequest, htake]
    dsimp only
    rw [hl]
    dsimp only
    exact ⟨fun q hq => by rw [hq], fun step st hq => by rw [hq]⟩
  case empty =>
    have hnone : ∀ code, romTake s code = none := by
      intro code
      rw [romTake, hq]
      exact ite_self _
    refine ⟨?_, fun a b => ?_⟩
    · change execRomReport s = _
      rw [execRomReport, hnone]
    · change execRomLcsRequest a b s = _
      rw [execRomLcsRequest, hnone]
  all_goals simp [wdtRuns, hw]

end Sys2Proof.Machine

/-! # Commands that run to their end (R103 to R121)

A command is a chain of checks and operations over the state.  Each rule here says what one link does when its check passes;
a command's own lemma puts them together. -/

namespace Sys2Proof.Machine
open Sys2Proof.Claims

section
variable {α β : Type} {s t u v : State}

/-- `m` from `s` is what `m'` is from `t`: the links before `m'` ran and left `t`. -/
def Leads (m : Cmd α) (s : State) (m' : Cmd α) (t : State) : Prop := m.run s = m'.run t

/-- `m` runs to its end: from `s` it gives `a` and leaves `t`. -/
abbrev Runs (m : Cmd α) (s : State) (a : α) (t : State) : Prop := Leads m s (pure a) t

theorem Leads.pure (a : α) : Runs (pure a : Cmd α) s a s := rfl

theorem Leads.here (m : Cmd α) : Leads m s m s := rfl

theorem Leads.then {m m' m'' : Cmd α} (h : Leads m s m' u) (h' : Leads m' u m'' t) : Leads m s m'' t := Eq.trans h h'

/-- A link that runs hands its value to the rest. -/
theorem run_bind {m : Cmd α} {a : α} (f : α → Cmd β) (h : Runs m s a u) : (m >>= f).run s = (f a).run u := by
  have hm : m s = (.ok a, u) := h
  change (do let x ← m s; ExceptT.bindCont f x.1 x.2 : Id _) = _
  rw [hm]
  rfl

theorem Leads.bind {m : Cmd α} {f : α → Cmd β} {a : α} {z : Cmd β} (h : Runs m s a u) (hf : Leads (f a) u z t) :
    Leads (m >>= f) s z t := (run_bind f h).trans hf

/-- So does a link that refuses: the rest does not run. -/
theorem run_bind_error {m : Cmd α} {st : Nat} (f : α → Cmd β) (h : m.run s = (.error st, u)) : (m >>= f).run s = (.error st, u) := by
  have hm : m s = (.error st, u) := h
  change (do let x ← m s; ExceptT.bindCont f x.1 x.2 : Id _) = _
  rw [hm]
  rfl

/-- The state that a link reads is the one it runs on. -/
theorem Leads.get {f : State → Cmd β} {z : Cmd β} (hf : Leads (f s) s z t) : Leads (get >>= f) s z t := hf

theorem Leads.set {f : PUnit → Cmd β} {z : Cmd β} (hf : Leads (f ()) u z t) : Leads (set u >>= f) s z t := hf

theorem Leads.need {c : Bool} {st : Nat} {f : Unit → Cmd β} {z : Cmd β} (hc : c = true) (hf : Leads (f ()) s z t) :
    Leads (need c st >>= f) s z t := by
  subst hc
  exact hf

theorem Leads.need_last {c : Bool} {st : Nat} (hc : c = true) : Runs (Machine.need c st) s () s := by
  subst hc
  exact .pure ()

theorem Leads.refuseIf {o : Option Nat} {f : Unit → Cmd β} {z : Cmd β} (ho : o = none) (hf : Leads (f ()) s z t) :
    Leads (refuseIf o >>= f) s z t := by
  subst ho
  exact hf

theorem Leads.refuseClaim {n : Nat} {o : Option Nat} {f : Unit → Cmd β} {z : Cmd β} (ho : o = none) (hf : Leads (f ()) s z t) :
    Leads (refuseClaim n o >>= f) s z t := by
  subst ho
  exact hf

theorem Leads.act {g : State → α × State} {a : α} (hg : g s = (a, t)) : Runs (act g) s a t := by
  change (Except.ok (g s).1, (g s).2) = (Except.ok a, t)
  rw [hg]

theorem Leads.actE {g : State → Except Nat α × State} {a : α} (hg : g s = (.ok a, t)) : Runs (actE g) s a t :=
  Leads.bind (Leads.act hg) rfl

theorem Leads.orStatus {r : Except Nat α} {f : α → Cmd β} {a : α} {z : Cmd β} (hr : r = .ok a) (hf : Leads (f a) s z t) :
    Leads (orStatus r >>= f) s z t := by
  subst hr
  exact hf

end

/-! ## The links of a payment command (R112 to R121) -/

section
variable {β : Type} {s t u v : State} {i : Item} {l : List Elem} {z : Cmd β}

/-- Steps 2 and 3 of R116. -/
theorem Leads.payCheck {defs : List ElemDef} {layout : List FixField} {present : List Elem → Bool} {f : List Elem → Cmd β}
    (h : Fits s i defs layout present l) (hf : Leads (f l) s z t) : Leads (payCheck i defs layout present >>= f) s z t := by
  obtain ⟨he, hp, hlen, hval⟩ := h
  refine Leads.bind (a := l) (u := s) (Leads.get ?_) hf
  rw [he]
  exact .need hp (.refuseIf hlen (.refuseIf hval (.pure l)))

theorem Leads.handleTenants {ts : List Nat} {f : Unit → Cmd β}
    (h : ∀ e ∈ ts, hasElem l e = true → handleTenant (handleOf l e) = i.tenant) (hf : Leads (f ()) s z t) :
    Leads (handleTenants i l ts >>= f) s z t := by
  refine Leads.need ?_ hf
  rw [List.all_eq_true]
  intro e he
  cases hx : hasElem l e with
  | true => exact decide_eq_true (h e he hx)
  | false => rfl

theorem Leads.getKey {h : Word} {k : KeyVal} {f : KeyVal → Cmd β} (hk : resolveKey s h = (.ok k, u)) (hf : Leads (f k) u z t) :
    Leads (getKey h >>= f) s z t := Leads.bind (Leads.actE hk) hf

theorem Leads.getKeyFor {h : Word} {usages : List Nat} {algs modes : List Char} {k : KeyVal} {f : KeyVal → Cmd β}
    (hk : resolveKey s h = (.ok k, u)) (hfit : keyFits k usages algs modes = true) (hf : Leads (f k) u z t) :
    Leads (getKeyFor h usages algs modes >>= f) s z t :=
  Leads.bind (Leads.getKey hk (.need hfit (.pure k))) hf

/-- Step 6 of R116 for the key that an element names. -/
theorem Leads.key {e : Nat} {usages : List Nat} {algs modes : List Char} {k : KeyVal} {f : KeyVal → Cmd β}
    (hk : Serves s i l e usages algs modes k u) (hf : Leads (f k) u z t) :
    Leads (Machine.getKeyFor (handleOf l e) usages algs modes >>= f) s z t := by
  obtain ⟨-, hr, hfit⟩ := hk
  exact .getKeyFor hr hfit hf

theorem Leads.getCtx {e typ : Nat} {c : Ctx} {types : Nat → Bool} {f : Ctx → Cmd β} (hc : NamesCtx s i l e typ c)
    (ht : types typ = true) (hf : Leads (f c) s z t) : Leads (getCtx i (handleOf l e) types >>= f) s z t := by
  obtain ⟨hn, hten, htyp⟩ := hc
  refine Leads.bind (a := c) (u := s) (Leads.get ?_) hf
  rw [hn]
  exact .need (decide_eq_true hten) (.need (htyp ▸ ht) (.pure c))

theorem Leads.drawCtx {n : Nat} {f : Nat → Cmd β} (hd : Gives s l n u) (hf : Leads (f n) u z t) :
    Leads (drawCtx (handleOf l eCTX) >>= f) s z t := Leads.bind (Leads.actE hd) hf

theorem Leads.randomBytes {n : Nat} {r : Bytes} {f : Bytes → Cmd β} (hr : boomBytes s i.region n (some i.tenant) = (some r, u))
    (hf : Leads (f r) u z t) : Leads (randomBytes i n >>= f) s z t :=
  Leads.bind (Leads.bind (Leads.act hr) (Leads.pure r)) hf

/-- Step 7 of R116, where any random bytes are asked for. -/
theorem Leads.draws {n : Nat} {r : Bytes} {f : Bytes → Cmd β} (hd : Draws s i n r u) (hf : Leads (f r) u z t) :
    Leads (if n = 0 then Pure.pure [] >>= f else Machine.randomBytes i n >>= f) s z t := by
  unfold Draws at hd
  split at hd
  next h0 =>
    obtain ⟨rfl, rfl⟩ := hd
    rw [if_pos h0]
    exact hf
  next h0 =>
    rw [if_neg h0]
    exact .randomBytes hd hf

theorem Leads.needRandom {f : Unit → Cmd β} (hs : boomServes s i.region 1 = true) (hf : Leads (f ()) s z t) :
    Leads (needRandom i >>= f) s z t := by
  have hd := boomDraw_of_serves (t := some i.tenant) hs
  obtain ⟨w, u, hw⟩ : ∃ w u, boomDraw s i.region (wordsFor 1) (some i.tenant) = (some w, u) := ⟨_, _, Prod.ext hd rfl⟩
  refine Leads.bind (u := s) (a := ()) (Leads.get ?_) hf
  rw [boomBytes, hw]
  exact .pure ()

theorem Leads.needTmk {f : Unit → Cmd β} (hk : (activeTmk s i.tenant).isSome = true) (hf : Leads (f ()) s z t) :
    Leads (needTmk i >>= f) s z t := Leads.bind (u := s) (a := ()) (Leads.get (.need_last hk)) hf

/-- A key that serves is of the item's tenant. -/
theorem tenant_of_serves {e : Nat} {usages : List Nat} {algs modes : List Char} {k : KeyVal}
    (h : Serves s i l e usages algs modes k u) : handleTenant (handleOf l e) = i.tenant := h.1

end

/-! ## The commands of a core -/

/-- A command of a core that runs the checks and the execution of its item answers as R103 says. -/
theorem answers_of_runCmd {ins : OnCore} {code : Nat} {m : Item → Cmd Answer}
    (h : ∀ s k, exec (ins k) s = hostRun s k code fun s i => runCmd s i (m i)) : Answers ins code m := by
  intro s k i ⟨hi, hopen⟩
  rw [h, hostRun_of_item _ hi hopen]
  refine ⟨fun st p t hr => ?_, fun st t hr => ?_⟩
  · rw [runCmd, hr]
    rfl
  · rw [runCmd, hr]

theorem commits_of_runCommit {ins : OnCore} {code : Nat} {m : Item → Cmd (Bytes × Bytes)}
    (h : ∀ s k, exec (ins k) s = hostRun s k code fun s i => runCommit s i (m i)) : Commits ins code m := by
  intro s k i ⟨hi, hopen⟩
  rw [h, hostRun_of_item _ hi hopen]
  refine ⟨fun w p t hr => ?_, fun st t hr => ?_⟩
  · rw [runCommit, hr]
    rfl
  · rw [runCommit, hr]

/-! Each payment command that changes nothing answers its item. -/

theorem answers_pinTranslate : Answers (.pinTranslate ·) 0x0101 pinTranslate := answers_of_runCmd fun _ _ => rfl
theorem answers_pinVerifyOffset : Answers (.pinVerifyOffset ·) 0x0102 pinVerifyOffset := answers_of_runCmd fun _ _ => rfl
theorem answers_pinVerifyPvv : Answers (.pinVerifyPvv ·) 0x0103 pinVerifyPvv := answers_of_runCmd fun _ _ => rfl
theorem answers_pinGenOffset : Answers (.pinGenOffset ·) 0x0104 pinGenOffset := answers_of_runCmd fun _ _ => rfl
theorem answers_pinGenPvv : Answers (.pinGenPvv ·) 0x0105 pinGenPvv := answers_of_runCmd fun _ _ => rfl
theorem answers_macGenerate : Answers (.macGenerate ·) 0x0201 macGenerate := answers_of_runCmd fun _ _ => rfl
theorem answers_macVerify : Answers (.macVerify ·) 0x0202 macVerify := answers_of_runCmd fun _ _ => rfl
theorem answers_arqcVerify : Answers (.arqcVerify ·) 0x0301 arqcVerify := answers_of_runCmd fun _ _ => rfl
theorem answers_arqcVerifyArpc : Answers (.arqcVerifyArpc ·) 0x0302 arqcVerifyArpc := answers_of_runCmd fun _ _ => rfl
theorem answers_arpcGenerate : Answers (.arpcGenerate ·) 0x0303 arpcGenerate := answers_of_runCmd fun _ _ => rfl
theorem answers_arqcGenerate : Answers (.arqcGenerate ·) 0x0304 arqcGenerate := answers_of_runCmd fun _ _ => rfl
theorem answers_dukptPinTranslate : Answers (.dukptPinTranslate ·) 0x0401 dukptPinTranslate := answers_of_runCmd fun _ _ => rfl
theorem answers_dukptMacVerify : Answers (.dukptMacVerify ·) 0x0402 dukptMacVerify := answers_of_runCmd fun _ _ => rfl
theorem answers_dukptDecrypt : Answers (.dukptDecrypt ·) 0x0403 dukptDecrypt := answers_of_runCmd fun _ _ => rfl
theorem answers_dukptTxnKey : Answers (.dukptTxnKey ·) 0x0404 dukptTxnKey := answers_of_runCmd fun _ _ => rfl
theorem answers_keyExport : Answers (.keyExport ·) 0x0502 keyExport := answers_of_runCmd fun _ _ => rfl
theorem answers_keyCheckValue : Answers (.keyCheckValue ·) 0x0504 keyCheckValue := answers_of_runCmd fun _ _ => rfl
theorem answers_keyTranslate : Answers (.keyTranslate ·) 0x0506 keyTranslate := answers_of_runCmd fun _ _ => rfl
theorem answers_tokenise : Answers (.tokenise ·) 0x0601 (fun i => tokenMap i ePAN eTOKEN modesOut ff1Enc) := answers_of_runCmd fun _ _ => rfl
theorem answers_detokenise : Answers (.detokenise ·) 0x0602 (fun i => tokenMap i eTOKEN ePAN modesIn ff1Dec) := answers_of_runCmd fun _ _ => rfl
theorem answers_tokeniseCounted : Answers (.tokeniseCounted ·) 0x0603 tokeniseCounted := answers_of_runCmd fun _ _ => rfl
theorem answers_dataEncrypt : Answers (.dataEncrypt ·) 0x0604 dataEncrypt := answers_of_runCmd fun _ _ => rfl
theorem answers_dataDecrypt : Answers (.dataDecrypt ·) 0x0605 dataDecrypt := answers_of_runCmd fun _ _ => rfl
theorem answers_cscGenerate : Answers (.cscGenerate ·) 0x0701 cscGenerate := answers_of_runCmd fun _ _ => rfl
theorem answers_cscVerify : Answers (.cscVerify ·) 0x0702 cscVerify := answers_of_runCmd fun _ _ => rfl

section
variable {s t : State} {k code : Nat} {i : Item}

/-- An item whose command runs to its end is answered. -/
theorem exec_of_answers {ins : OnCore} {m : Item → Cmd Answer} {st : Nat} {p : Bytes} (hA : Answers ins code m)
    (hs : Served s k code i) (hr : Runs (m i) s (st, p) t) : exec (ins k) s = .next (endItem t i st p) := (hA s k i hs).1 st p t hr

theorem exec_of_commits {ins : OnCore} {m : Item → Cmd (Bytes × Bytes)} {w p : Bytes} (hC : Commits ins code m)
    (hs : Served s k code i) (hr : Runs (m i) s (w, p) t) : exec (ins k) s = .next (committed t i w p) := (hC s k i hs).1 w p t hr

end

end Sys2Proof.Machine

/-! # PIN and card code commands that complete (R123 to R130, R155 to R157) -/

namespace Sys2Proof.Machine
open Sys2Proof.Claims

section
variable {β : Type} {s t u v : State} {i : Item} {l : List Elem} {pin : List Nat} {r : Bytes} {a k : KeyVal} {z : Cmd β}

theorem Leads.pinFormats {fin : Nat} {fout : Option Nat} {f : Unit → Cmd β}
    (hlen : (elemD l ePIN_BLOCK).length = pinBlockLen fin) (hout : fout ≠ some 1 ∨ fin = 1) (hf : Leads (f ()) s z t) :
    Leads (pinFormats fin fout l >>= f) s z t :=
  Leads.bind (a := ()) (u := s) (.need (decide_eq_true hlen) (.need_last (decide_eq_true hout))) hf

/-- The answer takes the form of the request. -/
theorem Leads.answerForm (es : List Elem) (field : Bytes) :
    Runs (answerForm i es field) s (stOK, inForm s i es field) s := by
  refine Leads.get ?_
  rw [inForm]
  split
  · exact .pure _
  · exact .pure _

theorem mem_pair_tenants {e₁ e₂ : Nat} (h1 : handleTenant (handleOf l e₁) = i.tenant) (h2 : handleTenant (handleOf l e₂) = i.tenant) :
    ∀ e ∈ [e₁, e₂], hasElem l e = true → handleTenant (handleOf l e) = i.tenant := by
  intro e he _
  rcases List.mem_pair.1 he with rfl | rfl
  · exact h1
  · exact h2

theorem mem_single_tenant {e₁ : Nat} (h : handleTenant (handleOf l e₁) = i.tenant) :
    ∀ e ∈ [e₁], hasElem l e = true → handleTenant (handleOf l e) = i.tenant := by
  intro e he _
  rw [List.mem_singleton.1 he]
  exact h

theorem Leads.pinFill {fout : Nat} {f : Bytes → Cmd β} (hd : Draws s i (if fout = 0 then 0 else 8) r u) (hf : Leads (f r) u z t) :
    Leads (pinFill i fout >>= f) s z t := by
  unfold Machine.pinFill
  by_cases h : fout = 0
  · rw [if_pos h] at hd ⊢
    obtain ⟨rfl, rfl⟩ : r = [] ∧ u = s := hd
    exact hf
  · rw [if_neg h] at hd ⊢
    exact .randomBytes hd hf

theorem pinTranslate_runs {k' : KeyVal} (hfit : Fits s i [req eKEY_A, req eKEY_B, req eFMT_IN, req eFMT_OUT, req ePIN_BLOCK, opt ePAN]
      [fixKey eKEY_A, fixKey eKEY_B, fixN eFMT_IN 2, fixN eFMT_OUT 2, fixPan, fixPinBlock]
      (fun l => panPresent [elemNat l eFMT_IN, elemNat l eFMT_OUT] l) l)
    (hpin : PinComes s i l pin u) (hfmt : elemNat l eFMT_OUT = 1 → elemNat l eFMT_IN = 1)
    (hb : Serves u i l eKEY_B [usage 'P' '0'] (fmtAlg (elemNat l eFMT_OUT)) ['B', 'E'] k' v)
    (hdown : elemNat l eFMT_IN = 4 → elemNat l eFMT_OUT = 4 ∨ (v.tenant i.tenant).pinDowngrade = true)
    (hr : Draws v i (if elemNat l eFMT_OUT = 0 then 0 else 8) r t) :
    let out := sealPin (elemNat l eFMT_OUT) k'.bits pin (panOf l) r
    Runs (pinTranslate i) s (stOK, inForm t i [(ePIN_BLOCK, out)] (fitR 32 (hexBytes out ++ List.replicate 16 0x30))) t := by
  obtain ⟨a, ha, hlen, hopen⟩ := hpin
  unfold pinTranslate
  refine .payCheck hfit (.pinFormats hlen ?_ (.handleTenants (mem_pair_tenants (tenant_of_serves ha) (tenant_of_serves hb))
    (.key ha (.key hb (.get (.need ?_ (.pinFill hr ?_)))))))
  · by_cases h : elemNat l eFMT_OUT = 1
    · exact Or.inr (hfmt h)
    · exact Or.inl (by simpa using h)
  · by_cases h : elemNat l eFMT_IN = 4
    · rcases hdown h with h4 | hd
      · simp [h4]
      · simp [hd]
    · simp [h]
  · rw [hopen]
    exact .answerForm _ _

/-! ## The PIN offset -/

theorem offsetPins_runs {verify : Bool} (hfit : Fits s i
      ([req eKEY_A, req eKEY_B, req eFMT_IN, req ePIN_BLOCK, opt ePAN, req eDECTAB, req eVAL_DATA, req eCHECK_LEN] ++
        (if verify then [req eOFFSET] else []))
      (if verify then
        [fixKey eKEY_A, fixKey eKEY_B, fixN eFMT_IN 2, fixPan, fixPinBlock, fixN eDECTAB 16,
          { elem := eVAL_DATA, ty := .h, width := 16 }, fixN eCHECK_LEN 2, { elem := eOFFSET, ty := .c, width := 12 }]
       else [])
      (fun l => panPresent [elemNat l eFMT_IN] l) l)
    (hpin : PinComes s i l pin u) (hlen : verify = true → (elemD l eOFFSET).length = elemNat l eCHECK_LEN)
    (htab : dectabOk (digitsOf (elemD l eDECTAB)) = true)
    (hb : Serves u i l eKEY_B [usage 'V' '1'] ['T'] (if verify then ['C', 'V'] else ['C', 'G']) k v) :
    Runs (offsetPins i verify) s (l, some pin,
      naturalPin k.bits (elemD l eVAL_DATA) (digitsOf (elemD l eDECTAB)) (elemNat l eCHECK_LEN)) v := by
  obtain ⟨a, ha, hblock, hopen⟩ := hpin
  unfold offsetPins
  refine .payCheck hfit (.pinFormats hblock (Or.inl nofun) (.need ?_ (.need htab
    (.handleTenants (mem_pair_tenants (tenant_of_serves ha) (tenant_of_serves hb)) (.key ha (.key hb ?_))))))
  · cases verify with
    | true => exact decide_eq_true (hlen rfl)
    | false => rfl
  · rw [hopen]
    exact .pure _

theorem pinVerifyOffset_runs {n : List Nat} (h : Runs (offsetPins i true) s (l, some pin, n) t) :
    Runs (pinVerifyOffset i) s (if elemNat l eCHECK_LEN ≤ pin.length ∧ pin.take (elemNat l eCHECK_LEN) =
      List.zipWith (fun a b => (a + b) % 10) n (digitsOf (elemD l eOFFSET)) then stOK else stPIN_FAIL, []) t :=
  .bind h (.pure _)

theorem pinGenOffset_runs {n : List Nat} (h : Runs (offsetPins i false) s (l, some pin, n) t) (hlen : elemNat l eCHECK_LEN ≤ pin.length) :
    Runs (pinGenOffset i) s (okElems [(eOFFSET,
      digitBytes (List.zipWith (fun c m => (c + 10 - m) % 10) (pin.take (elemNat l eCHECK_LEN)) n))]) t.takeFresh := by
  refine .bind h (.bind (.act rfl) ?_)
  dsimp only
  rw [Nat.sub_eq_zero_of_le hlen, List.range_zero, List.map_nil, List.append_nil]
  exact .pure _

/-! ## The verification value -/

theorem pvvPin_runs {verify : Bool} (hfit : Fits s i
      ([req eKEY_A, req eKEY_B, req eFMT_IN, req ePIN_BLOCK, req ePAN, req ePVKI] ++ (if verify then [req eVV] else [opt eCHECK_LEN]))
      (if verify then
        [fixKey eKEY_A, fixKey eKEY_B, fixN eFMT_IN 2, fixPan, fixPinBlock, fixN ePVKI 1, { elem := eVV, ty := .c, width := 6 }]
       else []) anyElems l)
    (hpin : PinComes s i l pin u) (hlen : hasElem l eCHECK_LEN = true → elemNat l eCHECK_LEN ≤ 6)
    (hb : Serves u i l eKEY_B [usage 'V' '0'] ['T', 'A'] (if verify then ['C', 'V'] else ['C', 'G']) k v) :
    Runs (pvvPin i verify) s (l, some pin, k) v := by
  obtain ⟨a, ha, hblock, hopen⟩ := hpin
  unfold pvvPin
  refine .payCheck hfit (.pinFormats hblock (Or.inl nofun) (.need ?_
    (.handleTenants (mem_pair_tenants (tenant_of_serves ha) (tenant_of_serves hb)) (.key ha (.key hb ?_)))))
  · cases hx : hasElem l eCHECK_LEN with
    | true => exact decide_eq_true (hlen hx)
    | false => rfl
  · rw [hopen]
    exact .pure _

theorem pinVerifyPvv_runs (h : Runs (pvvPin i true) s (l, some pin, k) t) :
    Runs (pinVerifyPvv i) s (if verificationValue k (beNat (elemD l ePVKI) - 0x30) pin (panOf l) (digitsOf (elemD l eVV)).length =
      digitsOf (elemD l eVV) then stOK else stPIN_FAIL, []) t := .bind h (.pure _)

theorem pinGenPvv_runs (h : Runs (pvvPin i false) s (l, some pin, k) t) :
    Runs (pinGenPvv i) s (okElems [(eVV, digitBytes (verificationValue k (beNat (elemD l ePVKI) - 0x30) pin (panOf l)
      (if hasElem l eCHECK_LEN then elemNat l eCHECK_LEN else 4)))]) t := .bind h (.pure _)

/-! ## Card security codes -/

theorem cscKey_runs {verify : Bool} (hfit : Fits s i [req eKEY_A, req ePAN, req eEXPIRY, req eSVC,
        req (if verify then eCSC else eCSC_LEN)]
      [fixKey eKEY_A, fixPan, fixN eEXPIRY 4, fixN eSVC 3, if verify then { elem := eCSC, ty := .c, width := 4 } else fixN eCSC_LEN 1]
      anyElems l)
    (hk : Serves s i l eKEY_A [usage 'C' '0'] ['T', 'A'] (if verify then ['C', 'V'] else ['C', 'G']) k t) :
    Runs (cscKey i verify) s (l, k) t := by
  unfold cscKey
  exact .payCheck hfit (.handleTenants (mem_single_tenant (tenant_of_serves hk)) (.key hk (.pure _)))

theorem cscGenerate_runs (h : Runs (cscKey i false) s (l, k) t) :
    let c := digitBytes (itemCode l k (elemNat l eCSC_LEN))
    Runs (cscGenerate i) s (stOK, inForm t i [(eCSC, c)] (c ++ List.replicate (4 - c.length) 0x20)) t :=
  .bind h (.answerForm _ _)

theorem cscVerify_runs (h : Runs (cscKey i true) s (l, k) t) :
    Runs (cscVerify i) s (if itemCode l k (digitsOf (elemD l eCSC)).length = digitsOf (elemD l eCSC) then stOK else stVERIFY_FAIL, [])
      t := .bind h (.pure _)

end

theorem length_digitsOf (b : Bytes) : (digitsOf b).length = b.length := List.length_map ..

/-- R125 to R130, R155, R156. -/
theorem pinCommandsComplete : PinCommandsComplete := by
  intro s k i l
  refine ⟨fun pin b r u v t hs hfit hpin hfmt hb hdown hr => ?translate, ⟨fun pin b u v hs hfit hpin hlen htab hb => ?verifyOffset,
    fun pin b u v hs hfit hpin hlen htab hb => ?genOffset⟩, ⟨fun pin b u v hs hfit hpin hlen hb => ?verifyPvv,
    fun pin b u v hs hfit hpin hlen hb => ?genPvv⟩, fun b v hs hfit hb => ?cscGen, fun b v hs hfit hb => ?cscVer⟩
  case translate =>
    intro out
    exact exec_of_answers answers_pinTranslate hs (pinTranslate_runs hfit hpin hfmt hb hdown hr)
  case verifyOffset =>
    exact exec_of_answers answers_pinVerifyOffset hs
      (pinVerifyOffset_runs (offsetPins_runs (verify := true) hfit hpin (fun _ => hlen) htab hb))
  case genOffset =>
    exact exec_of_answers answers_pinGenOffset hs
      (pinGenOffset_runs (offsetPins_runs (verify := false) hfit hpin nofun htab hb) hlen)
  case verifyPvv =>
    have h := pinVerifyPvv_runs (pvvPin_runs (verify := true) hfit hpin (fun hc => absurd hc (by simp [hlen])) hb)
    rw [length_digitsOf] at h
    exact exec_of_answers answers_pinVerifyPvv hs h
  case genPvv =>
    exact exec_of_answers answers_pinGenPvv hs
      (pinGenPvv_runs (pvvPin_runs (verify := false) hfit hpin hlen hb))
  case cscGen =>
    exact exec_of_answers answers_cscGenerate hs (cscGenerate_runs (cscKey_runs (verify := false) hfit hb))
  case cscVer =>
    have h := cscVerify_runs (cscKey_runs (verify := true) hfit hb)
    rw [length_digitsOf] at h
    exact exec_of_answers answers_cscVerify hs h

end Sys2Proof.Machine

/-! # MAC, EMV and DUKPT commands that complete (R131 to R145) -/

namespace Sys2Proof.Machine
open Sys2Proof.Claims

section
variable {s t u v : State} {i : Item} {l : List Elem} {r : Bytes} {k b : KeyVal}

/-! ## MACs -/

theorem macOf_runs {verify : Bool} {m : Bytes} (h : MacChecked s i l verify m t) : Runs (macOf i verify) s (l, m) t := by
  obtain ⟨x, k, hfit, hin, hx, hpad, h4, hmax, hlen, hk, rfl⟩ := h
  unfold macOf
  refine .payCheck hfit ?_
  rw [hin]
  refine .need ?_ (.need (decide_eq_true ⟨h4, hmax⟩) (.need ?_ (.need (decide_eq_true hx)
    (.handleTenants (mem_single_tenant (tenant_of_serves hk)) (.key hk (.pure _))))))
  · by_cases ha : elemNat l eMAC_ALG = 6
    · simp [hpad ha]
    · simp [ha]
  · cases verify with
    | true => exact decide_eq_true (hlen rfl)
    | false => rfl

theorem macGenerate_runs {m : Bytes} (h : Runs (macOf i false) s (l, m) t) : Runs (macGenerate i) s (okElems [(eMAC, m)]) t :=
  .bind h (.pure _)

theorem macVerify_runs {m : Bytes} (h : Runs (macOf i true) s (l, m) t) :
    Runs (macVerify i) s (if m = elemD l eMAC then stOK else stVERIFY_FAIL, []) t := .bind h (.pure _)

/-! ## EMV -/

theorem emvKey_runs {defs : List ElemDef} {arpc aes : Bool} {sk : Bytes} (h : EmvChecked s i l defs arpc aes sk t) :
    Runs (emvKey i defs arpc) s (l, aes, sk) t := by
  obtain ⟨k, hfit, hk, hbound, rfl, harpc, hmk, rfl⟩ := h
  unfold emvKey
  refine .payCheck hfit (.handleTenants (mem_single_tenant (tenant_of_serves hk)) (.key hk
    (.need (decide_eq_true hbound) (.need ?_ (.need ?_ (.pure _))))))
  · cases arpc with
    | true =>
      by_cases ha : k.alg = chr 'A'
      · simp [harpc rfl (decide_eq_true ha)]
      · simp [ha]
    | false => rfl
  · by_cases ha : k.alg = chr 'A'
    · simp [hmk (decide_eq_true ha)]
    · simp [ha]

section
variable {aes : Bool} {sk : Bytes}

theorem arqcVerify_runs (h : Runs (emvKey i [req eTXN_DATA] false) s (l, aes, sk) t) :
    Runs (arqcVerify i) s
      (if (emvMac aes sk (elemD l eTXN_DATA)).take 8 = elemD l eARQC then stOK else stCRYPTOGRAM_FAIL, []) t := .bind h (.pure _)

theorem arqcVerifyArpc_runs (h : Runs (emvKey i [req eTXN_DATA] true) s (l, aes, sk) t) :
    Runs (arqcVerifyArpc i) s (if (emvMac aes sk (elemD l eTXN_DATA)).take 8 = elemD l eARQC then okElems [(eARPC, arpcOf aes sk l)]
      else (stCRYPTOGRAM_FAIL, [])) t := .bind h (.pure _)

theorem arpcGenerate_runs (h : Runs (emvKey i [] true) s (l, aes, sk) t) :
    Runs (arpcGenerate i) s (okElems [(eARPC, arpcOf aes sk l)]) t := .bind h (.pure _)

end

theorem arqcGenerate_runs {c : Ctx} {n : Nat} (hfit : Fits s i [req eCTX, req eTXN_DATA] [] anyElems l) (hc : NamesCtx s i l eCTX 4 c)
    (hk : resolveKey s c.bound = (.ok b, u)) (hkf : keyFits b [usage 'E' '0'] ['T', 'A'] ['X'] = true)
    (hb : b.bound = handleOf l eCTX) (hd : Gives u l n t) :
    Runs (arqcGenerate i) s (okElems [(eATC, beBytes 2 n), (eARQC, (emvMac (decide (b.alg = chr 'A'))
      (emvSession (decide (b.alg = chr 'A')) b.bits (beBytes 2 n)) (elemD l eTXN_DATA ++ beBytes 2 n)).take 8)]) t := by
  unfold arqcGenerate
  exact .payCheck hfit (.getCtx hc (by decide) (.getKeyFor hk hkf (.need (decide_eq_true hb) (.drawCtx hd (.pure _)))))

/-! ## DUKPT -/

theorem dukptBase_runs {defs : List ElemDef} {rules : List Elem → Cmd Unit} {handles : List Nat}
    (h : DukptChecked s i l defs b u) (hrules : Runs (rules l) s () s)
    (hten : ∀ e ∈ handles, hasElem l e = true → handleTenant (handleOf l e) = i.tenant) :
    Runs (dukptBase i defs rules handles) s (l, b) u := by
  obtain ⟨hfit, hksn, hk, hlen, hks⟩ := h
  unfold dukptBase
  exact .payCheck hfit (.bind hrules (.need hksn (.handleTenants hten (.key hk (.need (decide_eq_true hlen)
    (.need (decide_eq_true hks) (.pure _)))))))

theorem tenant_of_dukptChecked {defs : List ElemDef} (h : DukptChecked s i l defs b u) : handleTenant (handleOf l eKEY_A) = i.tenant := by
  obtain ⟨-, -, hk, -⟩ := h
  exact tenant_of_serves hk

theorem dukptPinTranslate_runs {o : KeyVal} {pin : List Nat}
    (h : DukptChecked s i l [req eKEY_B, req eFMT_IN, req eFMT_OUT, req ePIN_BLOCK, req ePAN] b u)
    (hblock : (elemD l ePIN_BLOCK).length = pinBlockLen (elemNat l eFMT_IN)) (hfmt : elemNat l eFMT_OUT = 1 → elemNat l eFMT_IN = 1)
    (hin : if (elemD l eKSN).length = 12 then elemNat l eFMT_IN = 4 ∧ requestAes l = true
      else elemNat l eFMT_IN = 0 ∨ elemNat l eFMT_IN = 3)
    (ho : Serves u i l eKEY_B [usage 'P' '0'] (fmtAlg (elemNat l eFMT_OUT)) ['B', 'E'] o v)
    (hdown : elemNat l eFMT_IN = 4 → elemNat l eFMT_OUT = 4 ∨ (v.tenant i.tenant).pinDowngrade = true)
    (hr : Draws v i (if elemNat l eFMT_OUT = 0 then 0 else 8) r t)
    (hpin : openPin (elemNat l eFMT_IN) (requestKey l b 1) (elemD l ePIN_BLOCK) (panOf l) = some pin) :
    Runs (dukptPinTranslate i) s (okElems [(ePIN_BLOCK, sealPin (elemNat l eFMT_OUT) o.bits pin (panOf l) r)]) t := by
  unfold dukptPinTranslate
  refine .bind (dukptBase_runs h (.pinFormats hblock ?_ (.need_last ?_))
    (mem_pair_tenants (tenant_of_dukptChecked h) (tenant_of_serves ho))) (.key ho (.get (.need ?_ (.pinFill hr ?_))))
  · by_cases h1 : elemNat l eFMT_OUT = 1
    · exact Or.inr (hfmt h1)
    · exact Or.inl (by simpa using h1)
  · by_cases h12 : (elemD l eKSN).length = 12
    · rw [if_pos h12] at hin ⊢
      simp [hin]
    · rw [if_neg h12] at hin ⊢
      exact decide_eq_true hin
  · by_cases h4 : elemNat l eFMT_IN = 4
    · rcases hdown h4 with ho4 | hd
      · simp [ho4]
      · simp [hd]
    · simp [h4]
  · rw [hpin]
    exact .pure _

theorem dukptMacVerify_runs (h : DukptChecked s i l [req eDATA, req eMAC, req eMAC_LEN] b u) (h4 : 4 ≤ elemNat l eMAC_LEN)
    (hmax : elemNat l eMAC_LEN ≤ (if requestAes l then 16 else 8)) (hlen : (elemD l eMAC).length = elemNat l eMAC_LEN) :
    Runs (dukptMacVerify i) s (if (wkMac (requestAes l) (requestKey l b 2) (elemD l eDATA)).take (elemNat l eMAC_LEN) = elemD l eMAC
      then stOK else stVERIFY_FAIL, []) u := by
  unfold dukptMacVerify
  exact .bind (dukptBase_runs h (.need (decide_eq_true ⟨h4, hmax⟩) (.need_last (decide_eq_true hlen)))
    (mem_single_tenant (tenant_of_dukptChecked h))) (.pure _)

theorem dukptDecrypt_runs (h : DukptChecked s i l [req eDATA, req eIV] b u) (hok : blocksOk (requestAes l) l = true) :
    Runs (dukptDecrypt i) s (okElems [(eDATA, wkDec (requestAes l) (requestKey l b 3) (elemD l eIV) (elemD l eDATA))]) u := by
  unfold dukptDecrypt
  exact .bind (dukptBase_runs h (.need_last hok) (mem_single_tenant (tenant_of_dukptChecked h))) (.pure _)

/-! ## The terminal side of DUKPT -/

section
variable {c : Ctx} {n : Nat} {out : List Elem}
  (hfit : Fits s i
    [req eCTX, req eDK_USE, opt eDK_ALG, opt ePIN_BLOCK, opt eKEY_A, opt eFMT_IN, opt ePAN, opt eDATA, opt eMAC_LEN, opt eIV]
    [] (txnPresent s i.tenant) l)
  (hc : NamesCtx s i l eCTX 5 c) (hkf : keyFits b [usage 'B' '1'] ['T', 'A'] ['X'] = true) (hb : b.bound = handleOf l eCTX)
  (hten : hasElem l eKEY_A = true → handleTenant (handleOf l eKEY_A) = i.tenant)
include hfit hc hkf hb hten

/-- A transaction key for a MAC or for data needs no key of the request. -/
theorem dukptTxnKey_runs_of_plain (huse : elemNat l eDK_USE ≠ 1)
    (hblocks : elemNat l eDK_USE = 3 → txnBlocks (hasElem l eDK_ALG && decide (2 ≤ elemNat l eDK_ALG)) l = true)
    (hmac : elemNat l eDK_USE = 2 → 4 ≤ txnMacLen (hasElem l eDK_ALG && decide (2 ≤ elemNat l eDK_ALG)) l ∧
      txnMacLen (hasElem l eDK_ALG && decide (2 ≤ elemNat l eDK_ALG)) l ≤
        (if (hasElem l eDK_ALG && decide (2 ≤ elemNat l eDK_ALG)) = true then 16 else 8))
    (hk : resolveKey s c.bound = (.ok b, u)) (hd : Gives u l n t) (hout : txnResult c l b.bits none [] n = some out) :
    Runs (dukptTxnKey i) s (okElems out) t := by
  unfold dukptTxnKey
  refine .get (.payCheck hfit (.need (by simp [huse]) (.need ?_ (.need (by simp [huse]) (.need ?_ (.handleTenants ?_
    (.getCtx hc (by decide) ?_)))))))
  · by_cases h3 : elemNat l eDK_USE = 3
    · simp [hblocks h3]
    · simp [h3]
  · by_cases h2 : elemNat l eDK_USE = 2
    · rw [Bool.or_eq_true]
      exact Or.inr (decide_eq_true (hmac h2))
    · simp [h2]
  · intro e he hx
    obtain rfl := List.mem_singleton.1 he
    exact hten hx
  · rw [if_neg huse]
    refine .bind (.pure none) (.getKeyFor hk hkf (.need (decide_eq_true hb) (.get (.need (by simp [huse]) ?_))))
    rw [if_neg fun h => huse h.1]
    refine .bind (.pure []) (.get (.drawCtx hd ?_))
    rw [hout]
    exact .pure _

/-- A transaction key for a PIN takes the PIN out of the block under the key that the request names. -/
theorem dukptTxnKey_runs_of_pin {a : KeyVal} {w x : State} (huse : elemNat l eDK_USE = 1)
    (hblock : (elemD l ePIN_BLOCK).length = pinBlockLen (elemNat l eFMT_IN))
    (halg : hasElem l eDK_ALG = true → (hasElem l eDK_ALG && decide (2 ≤ elemNat l eDK_ALG)) = true)
    (ha : Serves s i l eKEY_A [usage 'P' '0'] (fmtAlg (elemNat l eFMT_IN)) ['B', 'D'] a w)
    (hk : resolveKey w c.bound = (.ok b, u))
    (hdown : elemNat l eFMT_IN = 4 → (hasElem l eDK_ALG && decide (2 ≤ elemNat l eDK_ALG)) = true ∨
      (u.tenant i.tenant).pinDowngrade = true)
    (hr : Draws u i (if (hasElem l eDK_ALG && decide (2 ≤ elemNat l eDK_ALG)) = true then 8 else 0) r x) (hd : Gives x l n t)
    (hout : txnResult c l b.bits (some a) r n = some out) : Runs (dukptTxnKey i) s (okElems out) t := by
  unfold dukptTxnKey
  refine .get (.payCheck hfit (.need (by simp [hblock]) (.need (by simp [huse]) (.need ?_ (.need (by simp [huse]) (.handleTenants ?_
    (.getCtx hc (by decide) ?_)))))))
  · cases hx : hasElem l eDK_ALG with
    | true =>
      rw [hx] at halg
      rw [halg rfl, Bool.or_true]
    | false => simp
  · intro e he hx
    obtain rfl := List.mem_singleton.1 he
    exact hten hx
  · rw [if_pos huse]
    refine .bind (a := some a) (.key ha (.pure _)) (.getKeyFor hk hkf (.need (decide_eq_true hb) (.get (.need ?_ ?_))))
    · by_cases h4 : elemNat l eFMT_IN = 4
      · rcases hdown h4 with h | h
        · rw [h, Bool.or_true, Bool.true_or]
        · rw [h, Bool.or_true]
      · simp [h4]
    · have hgo : Runs (do
          let s ← get
          let v ← drawCtx (handleOf l eCTX)
          match txnResult c l b.bits (some a) r v with
          | some out => pure (okElems out)
          | none => do
            set s
            throw stFORMAT) x (okElems out) t := by
        refine .get (.drawCtx hd ?_)
        rw [hout]
        exact .pure _
      by_cases haes : (hasElem l eDK_ALG && decide (2 ≤ elemNat l eDK_ALG)) = true
      · rw [if_pos haes] at hr
        rw [if_pos ⟨huse, haes⟩]
        exact .randomBytes hr hgo
      · rw [if_neg haes] at hr
        rw [if_neg fun h => haes h.2]
        obtain ⟨rfl, rfl⟩ : r = [] ∧ x = u := hr
        exact .bind (.pure []) hgo

end

end

/-- R131 to R139. -/
theorem macCommandsComplete : MacCommandsComplete := by
  intro s k i l
  refine ⟨fun m v hs h => exec_of_answers answers_macGenerate hs (macGenerate_runs (macOf_runs h)),
    fun m v hs h => exec_of_answers answers_macVerify hs (macVerify_runs (macOf_runs h)),
    fun aes sk v hs h => exec_of_answers answers_arqcVerify hs (arqcVerify_runs (emvKey_runs h)),
    fun aes sk v hs h => ⟨fun hm => ?same, fun hm => ?other⟩,
    fun aes sk v hs h => exec_of_answers answers_arpcGenerate hs (arpcGenerate_runs (emvKey_runs h)),
    fun c b u v t hs hfit hc hk hkf hb hd => exec_of_answers answers_arqcGenerate hs (arqcGenerate_runs hfit hc hk hkf hb hd)⟩
  case same =>
    have hr := arqcVerifyArpc_runs (emvKey_runs h)
    rw [if_pos hm] at hr
    exact exec_of_answers answers_arqcVerifyArpc hs hr
  case other =>
    have hr := arqcVerifyArpc_runs (emvKey_runs h)
    rw [if_neg hm] at hr
    exact exec_of_answers answers_arqcVerifyArpc hs hr

/-- R141 to R145. -/
theorem dukptCommandsComplete : DukptCommandsComplete := by
  intro s k i l b u
  refine ⟨fun o r v t pin hs h hblock hfmt hin ho hdown hr hpin =>
      exec_of_answers answers_dukptPinTranslate hs (dukptPinTranslate_runs h hblock hfmt hin ho hdown hr hpin),
    fun hs h h4 hmax hlen => exec_of_answers answers_dukptMacVerify hs (dukptMacVerify_runs h h4 hmax hlen),
    fun hs h hok => exec_of_answers answers_dukptDecrypt hs (dukptDecrypt_runs h hok),
    fun c v t hs hfit hc hkf hb hten => ⟨fun huse hk h4 hmax hd out hout => ?mac, fun huse hk hblocks hd out hout => ?data,
      fun a r w x out huse hblock halg ha hk hdown hr hd hout => ?pin⟩⟩
  case mac =>
    exact exec_of_answers answers_dukptTxnKey hs (dukptTxnKey_runs_of_plain hfit hc hkf hb hten (by rw [huse]; decide)
      (fun h3 => absurd (huse.symm.trans h3) (by decide)) (fun _ => ⟨h4, hmax⟩) hk hd hout)
  case data =>
    exact exec_of_answers answers_dukptTxnKey hs (dukptTxnKey_runs_of_plain hfit hc hkf hb hten (by rw [huse]; decide)
      (fun _ => hblocks) (fun h2 => absurd (huse.symm.trans h2) (by decide)) hk hd hout)
  case pin =>
    exact exec_of_answers answers_dukptTxnKey hs
      (dukptTxnKey_runs_of_pin hfit hc hkf hb hten huse hblock halg ha hk hdown hr hd hout)

end Sys2Proof.Machine

/-! # Token, data protection and key commands that complete (R146 to R154), and the verify commands -/

namespace Sys2Proof.Machine
open Sys2Proof.Claims

section
variable {β : Type} {s t u v : State} {i : Item} {l : List Elem} {r : Bytes} {b : KeyVal} {n : Nat} {c : Ctx}

/-! ## Tokens -/

theorem tokenMap_runs {src dst : Nat} {modes : List Char} {f : Bytes → Bytes → List Nat → List Nat}
    (hfit : Fits s i [req eKEY_A, req src, req eKEEP, opt eTWEAK] [] anyElems l) (hkeep : keepOk l src = true)
    (hk : Serves s i l eKEY_A [usage 'D' '0'] ['A'] modes b u) :
    Runs (tokenMap i src dst modes f) s (okElems [(dst, onMiddle l src (f b.bits (elemD l eTWEAK)))]) u := by
  unfold tokenMap
  exact .payCheck hfit (.need hkeep (.handleTenants (mem_single_tenant (tenant_of_serves hk)) (.key hk (.pure _))))

theorem tokeniseCounted_runs
    (hfit : Fits s i [req eKEY_A, req eCTX, req ePAN, req eKEEP, may eTWEAK fun n => decide (n ≤ 8)] [] anyElems l)
    (hkeep : keepOk l ePAN = true) (hc : NamesCtx s i l eCTX 6 c) (hk : Serves s i l eKEY_A [usage 'D' '0'] ['A'] modesOut b u)
    (hd : Gives u l n t) :
    Runs (tokeniseCounted i) s (okElems [(eTOKEN, onMiddle l ePAN (ff1Enc b.bits (elemD l eTWEAK ++ beBytes 8 n))),
      (eCOUNTER, beBytes 8 n), (eTWEAK, elemD l eTWEAK ++ beBytes 8 n)]) t := by
  unfold tokeniseCounted
  exact .payCheck hfit (.need hkeep (.handleTenants (mem_single_tenant (tenant_of_serves hk))
    (.getCtx hc (by decide) (.key hk (.drawCtx hd (.pure _))))))

/-! ## Data protection -/

theorem dataEncrypt_runs (hfit : Fits s i [req eKEY_A, req eCTX, req eCIPHER_MODE, req eDATA, opt eAAD] []
      (fun l => isGcm l || ! hasElem l eAAD) l)
    (hlen : isGcm l = false → (elemD l eDATA).length % 16 = 0) (hc : NamesCtx s i l eCTX 7 c)
    (hk : Serves s i l eKEY_A [usage 'D' '0'] ['A'] modesOut b u) (hb : c.bound = handleOf l eKEY_A) (hd : Gives u l n t) :
    Runs (dataEncrypt i) s (if isGcm l
      then okElems [(eDATA, (gcmSeal (aesEncK (aesKeys b.bits)) (dataNonce (handleOf l eCTX) n) (elemD l eAAD) (elemD l eDATA)).1),
        (eNONCE, dataNonce (handleOf l eCTX) n),
        (eTAG, (gcmSeal (aesEncK (aesKeys b.bits)) (dataNonce (handleOf l eCTX) n) (elemD l eAAD) (elemD l eDATA)).2)]
      else okElems [(eDATA, cbcEnc (aesEncK (aesKeys b.bits)) 16 (dataIv b.bits (dataNonce (handleOf l eCTX) n)) (elemD l eDATA)),
        (eNONCE, dataNonce (handleOf l eCTX) n)]) t := by
  unfold dataEncrypt
  refine .payCheck hfit (.need ?_ (.handleTenants (mem_single_tenant (tenant_of_serves hk)) (.getCtx hc (by decide)
    (.key hk (.need (decide_eq_true hb) (.drawCtx hd ?_))))))
  · cases hg : isGcm l with
    | true => rfl
    | false => exact decide_eq_true (hlen hg)
  · split
    · exact .pure _
    · exact .pure _

theorem dataDecrypt_runs (hfit : Fits s i [req eKEY_A, req eCIPHER_MODE, req eNONCE, req eDATA, opt eTAG, opt eAAD] []
      (fun l => hasElem l eTAG == isGcm l && (isGcm l || ! hasElem l eAAD)) l)
    (hlen : isGcm l = false → (elemD l eDATA).length % 16 = 0) (hk : Serves s i l eKEY_A [usage 'D' '0'] ['A'] modesIn b u) :
    Runs (dataDecrypt i) s (if isGcm l
      then (match gcmOpen (aesEncK (aesKeys b.bits)) (elemD l eNONCE) (elemD l eAAD) (elemD l eDATA) (elemD l eTAG) with
        | some m => okElems [(eDATA, m)]
        | none => (stVERIFY_FAIL, []))
      else okElems [(eDATA, cbcDec (aesDecK (aesKeys b.bits)) 16 (dataIv b.bits (elemD l eNONCE)) (elemD l eDATA))]) u := by
  unfold dataDecrypt
  refine .payCheck hfit (.need ?_ (.handleTenants (mem_single_tenant (tenant_of_serves hk)) (.key hk ?_)))
  · cases hg : isGcm l with
    | true => rfl
    | false => exact decide_eq_true (hlen hg)
  · dsimp only
    split
    · cases gcmOpen (aesEncK (aesKeys b.bits)) (elemD l eNONCE) (elemD l eAAD) (elemD l eDATA) (elemD l eTAG) with
      | some m => exact .pure _
      | none => exact .pure _
    · exact .pure _

/-! ## Key blocks -/

theorem Leads.blockOut {k1 : KeyVal} {x : BlockKey} {f : Bytes → Cmd β} {z : Cmd β} (hm : MayLeave k1 x)
    (hd : Draws s i (blockFill k1 x.bits.length) r u) (hf : Leads (f (sealBlock k1 x r)) u z t) :
    Leads (blockOut i k1 x >>= f) s z t := by
  obtain ⟨hexp, hstrong, hlen⟩ := hm
  refine Leads.bind (a := sealBlock k1 x r) (u := u) ?_ hf
  refine .need (by simp [hexp, hstrong]) (.need (decide_eq_true hlen) ?_)
  exact .draws hd (.pure _)

theorem keyExport_runs {x k1 : KeyVal} (hfit : Fits s i [req eHANDLE, req eKEY_B] [] anyElems l)
    (hten : handleTenant (handleOf l eHANDLE) = i.tenant) (hx : resolveKey s (handleOf l eHANDLE) = (.ok x, u))
    (hk : Serves u i l eKEY_B [usage 'K' '1'] ['T', 'A'] modesOut k1 v)
    (hm : MayLeave k1 { attr := x.attr, bits := x.bits, opt := keyOpts x }) (hd : Draws v i (blockFill k1 x.bits.length) r t) :
    Runs (keyExport i) s (okElems [(eKEYBLOCK, sealBlock k1 { attr := x.attr, bits := x.bits, opt := keyOpts x } r)]) t := by
  unfold keyExport
  exact .payCheck hfit (.handleTenants (mem_pair_tenants hten (tenant_of_serves hk))
    (.getKey hx (.key hk (.blockOut hm hd (.pure _)))))

theorem keyCheckValue_runs {x : KeyVal} (hfit : Fits s i [req eHANDLE, opt eKCV_LEN] [] anyElems l)
    (hten : handleTenant (handleOf l eHANDLE) = i.tenant) (hx : resolveKey s (handleOf l eHANDLE) = (.ok x, u))
    (halg : x.alg = chr 'T' ∨ x.alg = chr 'A') (hlen : lengthFits x = true) (h5 : elemNat l eKCV_LEN = 5 → x.alg = chr 'A') :
    Runs (keyCheckValue i) s
      (okElems [(eKCV, keyCheck x.alg x.bits (if hasElem l eKCV_LEN then elemNat l eKCV_LEN else 5))]) u := by
  unfold keyCheckValue
  refine .payCheck hfit (.handleTenants (mem_single_tenant hten) (.getKey hx (.need ?_ (.need ?_ (.pure _)))))
  · rw [hlen, Bool.and_true]
    simpa using halg
  · by_cases h : elemNat l eKCV_LEN = 5
    · simp [h5 h]
    · simp [h]

theorem keyTranslate_runs {a : KeyVal} {x : BlockKey} (hfit : Fits s i [req eKEY_A, req eKEYBLOCK, req eKEY_B] [] anyElems l)
    (ha : Serves s i l eKEY_A [usage 'K' '1'] ['T', 'A'] modesIn a u)
    (hb : Serves u i l eKEY_B [usage 'K' '1'] ['T', 'A'] modesOut b v) (hboom : boomServes v i.region 1 = true)
    (hx : openBlock a (elemD l eKEYBLOCK) = .ok x)
    (hm : MayLeave b { x with opt := x.opt.drop (keyExtra (byteAt x.attr 2) (byteAt x.attr 3) x.bits).length })
    (hd : Draws v i (blockFill b x.bits.length) r t) :
    Runs (keyTranslate i) s (okElems [(eKEYBLOCK, sealBlock b
      { x with opt := x.opt.drop (keyExtra (byteAt x.attr 2) (byteAt x.attr 3) x.bits).length } r)]) t := by
  unfold keyTranslate
  exact .payCheck hfit (.handleTenants (mem_pair_tenants (tenant_of_serves ha) (tenant_of_serves hb))
    (.key ha (.key hb (.needRandom hboom (.orStatus hx (.blockOut hm hd (.pure _)))))))

end

/-- R151 to R154. -/
theorem tokenCommandsComplete : TokenCommandsComplete := by
  intro s k i l b u
  refine ⟨fun hs hfit hkeep hk => exec_of_answers answers_tokenise hs (tokenMap_runs hfit hkeep hk),
    fun hs hfit hkeep hk => exec_of_answers answers_detokenise hs (tokenMap_runs hfit hkeep hk),
    fun c v t hs hfit hkeep hc hk hd => exec_of_answers answers_tokeniseCounted hs (tokeniseCounted_runs hfit hkeep hc hk hd),
    fun c v t hs hfit hlen hc hk hb hd => ?encrypt, fun hs hfit hlen hk => ?decrypt⟩
  case encrypt =>
    have hr := dataEncrypt_runs hfit hlen hc hk hb hd
    refine ⟨fun hg => ?gcm, fun hg => ?cbc⟩
    case gcm =>
      rw [if_pos hg] at hr
      exact exec_of_answers answers_dataEncrypt hs hr
    case cbc =>
      rw [if_neg (by rw [hg]; decide)] at hr
      exact exec_of_answers answers_dataEncrypt hs hr
  case decrypt =>
    have hr := dataDecrypt_runs hfit hlen hk
    refine ⟨fun m hg hm => ?opened, fun hg hm => ?refused, fun hg => ?cbc⟩
    case opened =>
      rw [if_pos hg, hm] at hr
      exact exec_of_answers answers_dataDecrypt hs hr
    case refused =>
      rw [if_pos hg, hm] at hr
      exact exec_of_answers answers_dataDecrypt hs hr
    case cbc =>
      rw [if_neg (by rw [hg]; decide)] at hr
      exact exec_of_answers answers_dataDecrypt hs hr

/-- R147 to R149. -/
theorem keyReadsComplete : KeyReadsComplete := by
  intro s k i l r u v t
  exact ⟨fun x k1 hs hfit hten hx hk hm hd => exec_of_answers answers_keyExport hs (keyExport_runs hfit hten hx hk hm hd),
    fun x hs hfit hten hx halg hlen h5 => exec_of_answers answers_keyCheckValue hs (keyCheckValue_runs hfit hten hx halg hlen h5),
    fun a b x hs hfit ha hb hboom hx hm hd =>
      exec_of_answers answers_keyTranslate hs (keyTranslate_runs hfit ha hb hboom hx hm hd)⟩

/-- Settles O37. -/
theorem paymentCommandsAnswerTheirItem : Obligations.PaymentCommandsAnswerTheirItem :=
  ⟨answers_pinTranslate, answers_pinVerifyOffset, answers_pinVerifyPvv, answers_pinGenOffset, answers_pinGenPvv,
    answers_macGenerate, answers_macVerify, answers_arqcVerify, answers_arqcVerifyArpc, answers_arpcGenerate, answers_arqcGenerate,
    answers_dukptPinTranslate, answers_dukptMacVerify, answers_dukptDecrypt, answers_dukptTxnKey, answers_keyExport,
    answers_keyCheckValue, answers_keyTranslate, answers_tokenise, answers_detokenise, answers_tokeniseCounted, answers_dataEncrypt,
    answers_dataDecrypt, answers_cscGenerate, answers_cscVerify, pinCommandsComplete, macCommandsComplete, dukptCommandsComplete,
    tokenCommandsComplete, keyReadsComplete⟩

/-- A PIN block that does not open ends the check of a verification value. -/
theorem pinVerifyPvv_refuses {s t : State} {i : Item} {l : List Elem} {b : KeyVal} (h : Runs (pvvPin i true) s (l, none, b) t) :
    (pinVerifyPvv i).run s = (.error stFORMAT, t) := run_bind _ h

/-- Settles O42. -/
theorem verifyCommandsReportTheMatch : Obligations.VerifyCommandsReportTheMatch := by
  intro s k i
  refine ⟨fun l m t hs h => exec_of_answers answers_macVerify hs (macVerify_runs h),
    fun l aes sk t hs h => exec_of_answers answers_arqcVerify hs (arqcVerify_runs h), fun l key t hs h => ?csc,
    fun l p b t hs h => ?pvv, fun l b t hs h => (answers_pinVerifyPvv s k i hs).2 stFORMAT t (pinVerifyPvv_refuses h),
    fun l p nat t hs h => exec_of_answers answers_pinVerifyOffset hs (pinVerifyOffset_runs h)⟩
  case csc =>
    have hr := cscVerify_runs h
    rw [length_digitsOf] at hr
    exact exec_of_answers answers_cscVerify hs hr
  case pvv =>
    have hr := pinVerifyPvv_runs h
    rw [length_digitsOf] at hr
    exact exec_of_answers answers_pinVerifyPvv hs hr

end Sys2Proof.Machine

/-! # Key commands that commit (R141, R148, R150) -/

namespace Sys2Proof.Machine
open Sys2Proof.Claims

/-! Each state-changing command commits. -/

theorem commits_keyImport : Commits (.keyImport ·) 0x0501 keyImport := commits_of_runCommit fun _ _ => rfl
theorem commits_keyGenerate : Commits (.keyGenerate ·) 0x0503 keyGenerate := commits_of_runCommit fun _ _ => rfl
theorem commits_keyDelete : Commits (.keyDelete ·) 0x0505 keyDelete := commits_of_runCommit fun _ _ => rfl
theorem commits_dukptInit : Commits (.dukptInit ·) 0x0405 dukptInit := commits_of_runCommit fun _ _ => rfl
theorem commits_pkKeygen : Commits (.pkKeygen ·) 0x0804 pkKeygen := commits_of_runCommit fun _ _ => rfl
theorem commits_pkCurveLoad : Commits (.pkCurveLoad ·) 0x0806 pkCurveLoad := commits_of_runCommit fun _ _ => rfl
theorem commits_siJournalRelease : Commits (.siJournalRelease ·) 0x0904 siJournalRelease := commits_of_runCommit fun _ _ => rfl
theorem commits_siRulesLoad : Commits (.siRulesLoad ·) 0x0905 siRulesLoad := commits_of_runCommit fun _ _ => rfl
theorem commits_siCardUpdate : Commits (.siCardUpdate ·) 0x0906 siCardUpdate := commits_of_runCommit fun _ _ => rfl
theorem commits_devUnlock : Commits (.devUnlock ·) 0x0F06 devUnlock := commits_of_runCommit fun _ _ => rfl

section
variable {β : Type} {s t u v : State} {i : Item} {l : List Elem} {z : Cmd β} {x : BlockKey} {h : Word} {kcv r : Bytes} {k1 : KeyVal}

theorem Leads.createChecks {init : Bool} {len : Nat} {f : Unit → Cmd β} (hr : HasRoom s i l init len) (hf : Leads (f ()) s z t) :
    Leads (createChecks i l init len >>= f) s z t := by
  obtain ⟨hctx, hplace⟩ := hr
  refine Leads.bind (a := ()) (u := s) (.get ?_) hf
  rw [hplace]
  split
  next hb =>
    rw [hctx hb]
    exact .pure ()
  next => exact .pure ()

theorem Leads.createKey {body : Bytes} {f : Word → Cmd β} (hp : Placed s i l x body h u) (hf : Leads (f h) u z t) :
    Leads (createKey i l x body >>= f) s z t := by
  obtain ⟨htmk, hroom, w, hw, rfl⟩ := hp
  refine Leads.bind (a := h) ?_ hf
  refine .needTmk htmk (.get (.refuseClaim hroom ?_))
  dsimp only
  rw [hw]
  refine .set ?_
  split
  · exact .pure h
  · exact .pure h

theorem Leads.createdKcv {f : Bytes → Cmd β} (hk : Kcv s x kcv u) (hf : Leads (f kcv) u z t) :
    Leads (createdKcv (byteAt x.attr 2) x.bits >>= f) s z t := by
  refine Leads.bind (a := kcv) (u := u) ?_ hf
  unfold Machine.createdKcv
  unfold Kcv at hk
  split at hk
  next halg =>
    obtain ⟨rfl, rfl⟩ := hk
    rw [if_neg (by rw [← not_or]; exact not_not_intro halg)]
    exact .pure _
  next halg =>
    obtain ⟨rfl, rfl⟩ := hk
    rw [if_pos (not_or.1 halg)]
    exact .act rfl

theorem keyImport_runs (hfit : Fits s i [req eKEY_A, req eKEYBLOCK, opt eKEY_CLASS, opt eBIND_CTX, opt ePAN, opt ePSN] [] bindPresent l)
    (hroom : HasRoom s i l false 1) (htmk : (activeTmk s i.tenant).isSome = true)
    (hk : Serves s i l eKEY_A [usage 'K' '1'] ['T', 'A'] modesIn k1 u) (hx : openBlock k1 (elemD l eKEYBLOCK) = .ok x)
    (hp : Placed u i l x (counterBody l) h v) (hkcv : Kcv v x kcv t) :
    Runs (keyImport i) s (keyResult h kcv, handleElem h ++ elemBytes eKCV kcv) t := by
  unfold keyImport
  exact .payCheck hfit (.handleTenants (mem_single_tenant (tenant_of_serves hk)) (.createChecks hroom (.needTmk htmk
    (.key hk (.orStatus hx (.createKey hp (.createdKcv hkcv (.pure _))))))))

theorem dukptInit_runs (hfit : Fits s i [req eKEY_A, req eKEYBLOCK, req eKSN, req eBIND_CTX, opt eKEY_CLASS] [] anyElems l)
    (hksn : ksnOk (elemD l eKSN) = true) (hroom : HasRoom s i l true 1) (htmk : (activeTmk s i.tenant).isSome = true)
    (hk : Serves s i l eKEY_A [usage 'K' '1'] ['T', 'A'] modesIn k1 u) (hx : openBlock k1 (elemD l eKEYBLOCK) = .ok x)
    (huse : field x.attr 0 2 = usage 'B' '1') (hbits : byteAt x.attr 2 = chr 'T' → x.bits.length = 16)
    (hlen : (elemD l eKSN).length = (if byteAt x.attr 2 = chr 'T' then 10 else 12))
    (hp : Placed u i l x
      (beBytes 8 (ksnCounter (elemD l eKSN)) ++ [if byteAt x.attr 2 = chr 'T' then 1 else 2] ++ elemD l eKSN) h v)
    (hkcv : Kcv v x kcv t) : Runs (dukptInit i) s (keyResult h kcv, handleElem h ++ elemBytes eKCV kcv) t := by
  unfold dukptInit
  refine .payCheck hfit (.need hksn (.handleTenants (mem_single_tenant (tenant_of_serves hk)) (.createChecks hroom (.needTmk htmk
    (.key hk (.orStatus hx (.need ?_ (.need ?_ ?_))))))))
  · by_cases ht : byteAt x.attr 2 = chr 'T'
    · simp [huse, hbits ht]
    · simp [huse, ht]
  · simpa using hlen
  · simp only [decide_eq_true_eq]
    exact .createKey hp (.createdKcv hkcv (.pure _))

/-! ## KEY_GENERATE -/

/-- The key that KEY_SPEC asks for, made of the random bytes `r`. -/
def specKey (l : List Elem) (r : Bytes) : BlockKey where
  attr := elemD l eKEY_SPEC
  bits := parityFor (byteAt (elemD l eKEY_SPEC) 2) (r.take (byteAt (elemD l eKEY_SPEC) 5))
  opt := []

/-- Its check value. -/
def specKcv (l : List Elem) (r : Bytes) : Bytes := keyCheck (byteAt (elemD l eKEY_SPEC) 2) (specKey l r).bits 5

section
variable (hfit : Fits s i [req eKEY_SPEC, opt eKEY_CLASS, opt eKEY_B, opt eBIND_CTX, opt ePAN, opt ePSN] [] bindPresent l)
  (hzero : specZero l = true) (hspec : specOk (elemD l eKEY_SPEC) = true)
  (hroom : HasRoom s i l false (byteAt (elemD l eKEY_SPEC) 5)) (htmk : (activeTmk s i.tenant).isSome = true)
  (hp : Placed v i l (specKey l r) (counterBody l) h t)
include hfit hzero hspec hroom htmk hp

theorem keyGenerate_runs_of_absent (hb : hasElem l eKEY_B = false)
    (hr : boomBytes s i.region (byteAt (elemD l eKEY_SPEC) 5) (some i.tenant) = (some r, v)) :
    Runs (keyGenerate i) s (keyResult h (specKcv l r), handleElem h ++ elemBytes eKCV (specKcv l r)) t := by
  unfold keyGenerate
  refine .payCheck hfit (.need hzero (.need hspec (.handleTenants ?_ (.createChecks hroom (.needTmk htmk ?_)))))
  · intro e he hx
    obtain rfl := List.mem_singleton.1 he
    exact absurd hx (by simp [hb])
  · rw [if_neg (by simp [hb])]
    refine .bind (.pure none) (.randomBytes hr (.createKey hp ?_))
    rw [← List.append_nil (handleElem h ++ _)]
    exact .pure _

theorem keyGenerate_runs_of_named (hb : hasElem l eKEY_B = true)
    (hk : Serves s i l eKEY_B [usage 'K' '1'] ['T', 'A'] modesOut k1 u)
    (hr : boomBytes u i.region (byteAt (elemD l eKEY_SPEC) 5 + blockFill k1 (byteAt (elemD l eKEY_SPEC) 5)) (some i.tenant) =
      (some r, v)) :
    Runs (keyGenerate i) s (keyResult h (specKcv l r), handleElem h ++ elemBytes eKCV (specKcv l r) ++
      elemBytes eKEYBLOCK (sealBlock k1 (specKey l r) (r.drop (byteAt (elemD l eKEY_SPEC) 5)))) t := by
  unfold keyGenerate
  refine .payCheck hfit (.need hzero (.need hspec (.handleTenants (mem_single_tenant (tenant_of_serves hk)) (.createChecks hroom
    (.needTmk htmk ?_)))))
  rw [if_pos hb]
  exact .bind (a := some k1) (.key hk (.pure _)) (.randomBytes hr (.createKey hp (.pure _)))

end

/-! ## KEY_DELETE -/

/-- A felled key may be deleted too. -/
theorem keyDelete_runs {y : KeyVal} (hfit : Fits s i [req eHANDLE] [] anyElems l) (hten : handleTenant (handleOf l eHANDLE) = i.tenant)
    (hwr : deleteWrites s (handleOf l eHANDLE) ≤ allowance s)
    (hk : resolveKey s (handleOf l eHANDLE) = (.ok y, u) ∨ resolveKey s (handleOf l eHANDLE) = (.error stKEY_ORPHANED, u))
    (hd : deletable u (handleOf l eHANDLE) = true) :
    Runs (keyDelete i) s (beBytes 4 (handleOf l eHANDLE).toNat ++ zeros 4, []) (deleteKey u (handleOf l eHANDLE)) := by
  unfold keyDelete
  refine .payCheck hfit (.handleTenants (mem_single_tenant hten) (.get (.need (decide_eq_true hwr) ?_)))
  rcases hk with hk | hk
  · exact .bind (.act hk) (.get (.need hd (.set (.pure _))))
  · exact .bind (.act hk) (.need rfl (.get (.need hd (.set (.pure _)))))

end

/-- R141, R148, R150. -/
theorem keyChangesComplete : KeyChangesComplete := by
  intro s k i l h kcv u v t
  refine ⟨fun k1 x hs hfit hroom htmk hk hx hp hkcv =>
      exec_of_commits commits_keyImport hs (keyImport_runs hfit hroom htmk hk hx hp hkcv),
    fun k1 x hs hfit hksn hroom htmk hk hx huse hbits hlen hp hkcv =>
      exec_of_commits commits_dukptInit hs (dukptInit_runs hfit hksn hroom htmk hk hx huse hbits hlen hp hkcv), ?generate,
    fun x hs hfit hten hwr hk hd => exec_of_commits commits_keyDelete hs (keyDelete_runs hfit hten hwr hk hd)⟩
  case generate =>
    intro a n r hs hfit hzero hspec hroom htmk x answer result
    exact ⟨fun hb hr hp => exec_of_commits commits_keyGenerate hs (keyGenerate_runs_of_absent hfit hzero hspec hroom htmk hp hb hr),
      fun k1 hb hk hr hp => exec_of_commits commits_keyGenerate hs (keyGenerate_runs_of_named hfit hzero hspec hroom htmk hp hb hk hr)⟩

end Sys2Proof.Machine

/-! # Public-key commands that complete (R263 to R270) -/

namespace Sys2Proof.Machine
open Sys2Proof.Claims

theorem answers_pkSign : Answers (.pkSign ·) 0x0801 pkSign := answers_of_runCmd fun _ _ => rfl
theorem answers_pkVerify : Answers (.pkVerify ·) 0x0802 pkVerify := answers_of_runCmd fun _ _ => rfl
theorem answers_pkEcdh : Answers (.pkEcdh ·) 0x0803 pkEcdh := answers_of_runCmd fun _ _ => rfl
theorem answers_pkRsaDecrypt : Answers (.pkRsaDecrypt ·) 0x0805 pkRsaDecrypt := answers_of_runCmd fun _ _ => rfl

/-! ## The links of a public-key command -/

section
variable {β : Type} {s t u v w : State} {i : Item} {l : List Elem} {z : Cmd β}

theorem Leads.needFn {n : Nat} {f : Unit → Cmd β} (h : EngineTakes s i n) (hf : Leads (f ()) s z t) :
    Leads (needFn i n >>= f) s z t := by
  obtain ⟨hgrant, hrun, hfn⟩ := h
  refine Leads.bind (a := ()) (u := s) (.get ?_) hf
  rw [if_neg (by simp [hgrant, hrun])]
  exact .need_last hfn

theorem Leads.curveOfKey {id : Nat} {c : Curve} {f : Curve → Cmd β} (h : curveFor s i.tenant id = some c) (hf : Leads (f c) s z t) :
    Leads (curveOfKey i id >>= f) s z t := by
  refine Leads.bind (a := c) (u := s) (.get ?_) hf
  rw [h]
  exact .pure c

/-- The result of an engine function goes on. -/
theorem Leads.engine {o : EngOut} {f : EngOut → Cmd β} (hf : Leads (f o) s z t) : Leads (engine i (.ok o) >>= f) s z t :=
  Leads.bind (.pure o) hf

/-- The codes of a command stand. -/
theorem Leads.pkCodes {f : Unit → Cmd β} (ha : hasElem l ePK_ALG = true → 1 ≤ elemNat l ePK_ALG ∧ elemNat l ePK_ALG ≤ 5)
    (hh : hasElem l eHASH_ALG = true → 1 ≤ elemNat l eHASH_ALG ∧ elemNat l eHASH_ALG ≤ 3) (hf : Leads (f ()) s z t) :
    Leads (pkCodes l >>= f) s z t := by
  refine Leads.bind (a := ()) (u := s) (.need ?_ (.need_last ?_)) hf
  · cases hx : hasElem l ePK_ALG with
    | true => exact decide_eq_true (ha hx)
    | false => rfl
  · cases hx : hasElem l eHASH_ALG with
    | true => exact decide_eq_true (hh hx)
    | false => rfl

theorem Leads.pkCodes_of_stands {f : Unit → Cmd β} (h : DigestStands l) (hf : Leads (f ()) s z t) :
    Leads (Machine.pkCodes l >>= f) s z t := by
  obtain ⟨h1, h4, hhash, -⟩ := h
  exact .pkCodes (fun _ => ⟨h1, h4.trans (by decide)⟩) hhash hf

theorem Leads.digestChecks {f : Unit → Cmd β} (h : DigestStands l) (hf : Leads (f ()) s z t) :
    Leads (digestChecks l >>= f) s z t := by
  obtain ⟨-, h4, -, hd, hsalt⟩ := h
  refine Leads.bind (a := ()) (u := s) (.need ?_ (.need (decide_eq_true (Nat.ne_of_lt (Nat.lt_succ_of_le h4))) (.need_last ?_))) hf
  · cases hx : hasElem l eDIGEST with
    | true => exact decide_eq_true (hd hx)
    | false => rfl
  · cases hx : hasElem l eSALT_LEN with
    | true => exact decide_eq_true (hsalt hx)
    | false => rfl

/-! ## What an engine function gives ends the command -/

/-- A status of the function is the command's refusal. -/
theorem run_engine_status {st : Nat} (f : EngOut → Cmd β) : (engine i (.error (.status st)) >>= f).run s = (.error st, s) :=
  run_bind_error f rfl

/-- A result check that fails takes the engine with it. -/
theorem run_engine_mismatch (f : EngOut → Cmd β) : (engine i (.error .mismatch) >>= f).run s =
    (.error stABORTED_FAULT, ((enginesRunning s i.region).head?.map fun p => resultMismatch s p).getD s) := run_bind_error f rfl

section
variable {α : Type} {ins : OnCore} {k : Nat} {m : Item → Cmd α} {f : EngOut → Cmd α} {r : EngRes} {done : EngOut → State}

/-- A command that comes to an engine function ends by what the function gives. -/
theorem endsBy_of_leads (hrefuse : ∀ st t, (m i).run s = (.error st, t) → exec (ins k) s = .next (endItem t i st))
    (hl : Leads (m i) s (engine i r >>= f) v) (hdone : ∀ o, Leads (m i) s (f o) v → exec (ins k) s = .next (done o)) :
    EndsBy (ins k) s v i r done := by
  refine ⟨fun o hr => hdone o ?_, fun st hr => hrefuse st v ?_, fun hr => hrefuse stABORTED_FAULT _ ?_⟩
  · subst hr
    exact hl.then (.engine (.here _))
  · subst hr
    exact hl.trans (run_engine_status f)
  · subst hr
    exact hl.trans (run_engine_mismatch f)

end

theorem endsBy_of_answers {ins : OnCore} {k code : Nat} {m : Item → Cmd Answer} {f : EngOut → Cmd Answer} {r : EngRes}
    {done : EngOut → State} (hA : Answers ins code m) (hs : Served s k code i) (hl : Leads (m i) s (engine i r >>= f) v)
    (hdone : ∀ o, Leads (m i) s (f o) v → exec (ins k) s = .next (done o)) : EndsBy (ins k) s v i r done :=
  endsBy_of_leads (hA s k i hs).2 hl hdone

theorem endsBy_of_commits {ins : OnCore} {k code : Nat} {m : Item → Cmd (Bytes × Bytes)} {f : EngOut → Cmd (Bytes × Bytes)}
    {r : EngRes} {done : EngOut → State} (hC : Commits ins code m) (hs : Served s k code i) (hl : Leads (m i) s (engine i r >>= f) v)
    (hdone : ∀ o, Leads (m i) s (f o) v → exec (ins k) s = .next (done o)) : EndsBy (ins k) s v i r done :=
  endsBy_of_leads (hC s k i hs).2 hl hdone

/-! ## PK_SIGN -/

section
variable {x : KeyVal} {r : Bytes}
  (hfit : Fits s i [req eKEY_A, pkReq ePK_ALG, pkOpt eHASH_ALG, pkOpt eDIGEST, opt eDATA, pkOpt eSALT_LEN] [] digestPresent l)
  (hd : DigestStands l) (hten : handleTenant (handleOf l eKEY_A) = i.tenant) (hx : resolveKey s (handleOf l eKEY_A) = (.ok x, u))
  (huse : x.usage = usage 'S' '0') (hmode : x.mode = chr 'S') (halg : pkAlgFits (elemNat l ePK_ALG) x = true)
  (hr : boomBytes u i.region (64 + if elemNat l ePK_ALG = 2 then saltLen l else 0) (some i.tenant) = (some r, v))
include hfit hd hten hx huse hmode halg hr

theorem pkSign_leads_of_rsa (h2 : elemNat l ePK_ALG ≤ 2) (he : EngineTakes v i 0x10) (hmin : 2048 ≤ rsaBits x.bits)
    (hmax : rsaBits x.bits ≤ 8192) :
    Leads (pkSign i) s (engine i (rsaPriv { func := 0x10, seed := r.take 64 } x.bits (field x.opt 0 32) true
      (beNat (rsaEncoded l (rsaBits x.bits) (r.drop 64)))) >>= fun o =>
        pure (okElems [(eSIGNATURE, beBytes ((rsaBits x.bits + 7) / 8) (o.out 3))])) v := by
  unfold pkSign
  refine .payCheck hfit (.pkCodes_of_stands hd (.digestChecks hd (.handleTenants (mem_single_tenant hten) (.getKey hx
    (.need (by simp [huse, hmode, halg]) (.randomBytes hr ?_))))))
  rw [if_pos h2]
  refine .needFn he ?_
  rw [if_pos h2]
  exact .need (decide_eq_true ⟨hmin, hmax⟩) (.here _)

theorem pkSign_leads_of_ecdsa {c : Curve} (h3 : elemNat l ePK_ALG = 3) (he : EngineTakes v i 0x20)
    (hc : curveFor v i.tenant x.curve = some c) :
    Leads (pkSign i) s (engine i (ecSign c { func := 0x20, seed := r.take 64 } (beNat x.bits) (pkDigest l)) >>= fun o =>
      pure (okElems [(eSIGNATURE, beBytes (scalarLen c) (o.out 3) ++ beBytes (scalarLen c) (o.out 4))])) v := by
  unfold pkSign
  refine .payCheck hfit (.pkCodes_of_stands hd (.digestChecks hd (.handleTenants (mem_single_tenant hten) (.getKey hx
    (.need (by simp [huse, hmode, halg]) (.randomBytes hr ?_))))))
  rw [if_neg (by rw [h3]; decide), if_pos h3]
  refine .needFn he ?_
  rw [if_neg (by rw [h3]; decide), if_pos h3]
  exact .curveOfKey hc (.here _)

theorem pkSign_leads_of_eddsa (h4 : elemNat l ePK_ALG = 4) (he : EngineTakes v i 0x30) :
    Leads (pkSign i) s (engine i (edSignFn { func := 0x30, seed := r.take 64 } x.bits (elemD l eDATA)) >>= fun o =>
      pure (okElems [(eSIGNATURE, beBytes 32 (o.out 3) ++ beBytes 32 (o.out 4))])) v := by
  unfold pkSign
  refine .payCheck hfit (.pkCodes_of_stands hd (.digestChecks hd (.handleTenants (mem_single_tenant hten) (.getKey hx
    (.need (by simp [huse, hmode, halg]) (.randomBytes hr ?_))))))
  rw [if_neg (by rw [h4]; decide), if_neg (by rw [h4]; decide)]
  refine .needFn he ?_
  rw [if_neg (by rw [h4]; decide), if_neg (by rw [h4]; decide)]
  exact .here _

end

/-! ## PK_VERIFY -/

section
variable (hfit : Fits s i [opt eKEY_A, pkOpt ePK_ALG, pkOpt eHASH_ALG, pkOpt eDIGEST, opt eDATA, pkOpt eSIGNATURE,
  pkOpt eSALT_LEN, pkOpt ePOINT, pkOpt eCURVE_ID, pkOpt eMODULUS, pkOpt ePUB_EXP] [] verifyPresent l)
include hfit

theorem pkVerify_runs_of_read {x : KeyVal} {es : List Elem} (ha : hasElem l ePK_ALG = false) (hh : hasElem l eHASH_ALG = false)
    (hten : handleTenant (handleOf l eKEY_A) = i.tenant) (hx : resolveKey s (handleOf l eKEY_A) = (.ok x, u))
    (hv : verifies x 'E' = true ∨ verifies x 'R' = true) (hes : publicElems s x = some es) :
    Runs (pkVerify i) s (okElems es) u := by
  unfold pkVerify
  refine .payCheck hfit (.pkCodes (fun h => absurd h (by simp [ha])) (fun h => absurd h (by simp [hh])) (.get ?_))
  rw [if_pos ha]
  refine .handleTenants (mem_single_tenant hten) (.getKey hx (.need (by simpa using hv) ?_))
  rw [hes]
  exact .pure _

/-- An RSA signature opens to the digest that the request names. -/
def RsaOpens (l : List Elem) (n e : Nat) : Prop :=
  0 < beNat (elemD l eSIGNATURE) ∧ beNat (elemD l eSIGNATURE) < n ∧
    (if elemNat l ePK_ALG = 1 then beBytes ((bitLen n + 7) / 8) (powMod (beNat (elemD l eSIGNATURE)) e n) =
        emPkcs1 ((bitLen n + 7) / 8) (elemNat l eHASH_ALG) (pkDigest l)
     else powMod (beNat (elemD l eSIGNATURE)) e n < 2 ^ (8 * ((bitLen n + 6) / 8)) ∧
       pssOk (bitLen n - 1) (elemNat l eHASH_ALG) (saltLen l) (pkDigest l)
         (beBytes ((bitLen n + 6) / 8) (powMod (beNat (elemD l eSIGNATURE)) e n)) = true)

omit hfit in
theorem rsaCheck_runs_of_opens {n e : Nat} (hn : n % 2 = 1) (h : RsaOpens l n e) : Runs (rsaCheck l n e) s (stOK, []) s := by
  obtain ⟨h0, hlt, hm⟩ := h
  refine .need (decide_eq_true hn) ?_
  rw [if_neg (by omega)]
  by_cases h1 : elemNat l ePK_ALG = 1
  · rw [if_pos h1] at hm
    simp only [if_pos h1, hm, decide_true, if_true]
    exact .pure _
  · rw [if_neg h1] at hm
    simp only [if_neg h1, hm, decide_true, Bool.and_self, if_true]
    exact .pure _

omit hfit in
theorem rsaCheck_runs_of_not_opens {n e : Nat} (hn : n % 2 = 1) (h : ¬ RsaOpens l n e) :
    Runs (rsaCheck l n e) s (stVERIFY_FAIL, []) s := by
  refine .need (decide_eq_true hn) ?_
  by_cases hr : beNat (elemD l eSIGNATURE) = 0 ∨ n ≤ beNat (elemD l eSIGNATURE)
  · rw [if_pos hr]
    exact .pure _
  · rw [if_neg hr]
    have hm := fun h' => h ⟨Nat.pos_of_ne_zero fun h0 => hr (.inl h0), Nat.lt_of_not_le fun h0 => hr (.inr h0), h'⟩
    by_cases h1 : elemNat l ePK_ALG = 1
    · rw [if_pos h1] at hm
      simp only [if_pos h1, decide_eq_false hm, Bool.false_eq_true, if_false]
      exact .pure _
    · rw [if_neg h1] at hm
      have hb := Bool.eq_false_iff.2 fun h' : (decide (powMod (beNat (elemD l eSIGNATURE)) e n < 2 ^ (8 * ((bitLen n + 6) / 8))) &&
        pssOk (bitLen n - 1) (elemNat l eHASH_ALG) (saltLen l) (pkDigest l)
          (beBytes ((bitLen n + 6) / 8) (powMod (beNat (elemD l eSIGNATURE)) e n))) = true => hm (by simpa using h')
      simp only [if_neg h1, hb, Bool.false_eq_true, if_false]
      exact .pure _

theorem pkVerify_leads_of_modulus (ha : hasElem l ePK_ALG = true) (hd : DigestStands l) (hk : hasElem l eKEY_A = false)
    (hmod : hasElem l eMODULUS = true) (hlen : (elemD l eSIGNATURE).length = (bitLen (beNat (elemD l eMODULUS)) + 7) / 8)
    (hn : 1024 ≤ bitLen (beNat (elemD l eMODULUS))) (he3 : 3 ≤ beNat (elemD l ePUB_EXP)) (heo : beNat (elemD l ePUB_EXP) % 2 = 1)
    (h2 : elemNat l ePK_ALG ≤ 2) (he : EngineTakes s i 0x11) :
    Leads (pkVerify i) s (rsaCheck l (beNat (elemD l eMODULUS)) (beNat (elemD l ePUB_EXP))) s := by
  unfold pkVerify
  refine .payCheck hfit (.pkCodes_of_stands hd (.get ?_))
  rw [if_neg (by simp [ha])]
  refine .digestChecks hd ?_
  rw [if_neg (by simp [hk]), if_pos hmod]
  exact .need (decide_eq_true hlen) (.need (decide_eq_true ⟨hn, he3, heo⟩) (.need (decide_eq_true h2) (.needFn he (.here _))))

end

/-! ## PK_ECDH and PK_RSA_DECRYPT -/

/-- The bits of the key that two points agree on (R268). -/
def agreedBits (l : List Elem) (c : Curve) (o : EngOut) : Bytes :=
  parityFor (byteAt (elemD l eKEY_SPEC) 2) (kdf56c (beBytes c.size (o.out 3)) (elemD l eKDF_INFO) (byteAt (elemD l eKEY_SPEC) 5))

theorem pkEcdh_leads {x k1 : KeyVal} {c : Curve} {q : Nat × Nat} {r : Bytes}
    (hfit : Fits s i [req eKEY_A, pkReq ePOINT, req eKEY_B, req eKEY_SPEC, pkOpt eKDF_INFO] [] anyElems l)
    (hpt : ∀ y, peekKey s (handleOf l eKEY_A) = some y → ∀ d, curveFor s i.tenant y.curve = some d →
      pointForm d.size (elemD l ePOINT) = none)
    (hzero : specZero l = true) (hspec : specOk (elemD l eKEY_SPEC) = true)
    (hk : Serves u i l eKEY_B [usage 'K' '1'] ['T', 'A'] modesOut k1 v)
    (hten : handleTenant (handleOf l eKEY_A) = i.tenant) (hx : resolveKey s (handleOf l eKEY_A) = (.ok x, u))
    (hkey : keyIs x (usage 'K' '3') 'E' 'X' = true)
    (hstrong : stronger (byteAt (elemD l eKEY_SPEC) 2) (byteAt (elemD l eKEY_SPEC) 3) (byteAt (elemD l eKEY_SPEC) 5) k1 = false)
    (hr : boomBytes v i.region (64 + blockFill k1 (byteAt (elemD l eKEY_SPEC) 5)) (some i.tenant) = (some r, w))
    (he : EngineTakes w i 0x22) (hcs : curveFor s i.tenant x.curve = some c) (hcw : curveFor w i.tenant x.curve = some c)
    (hq : sec1Point c (elemD l ePOINT) = some q) :
    Leads (pkEcdh i) s (engine i (ecDh c { func := 0x22, seed := r.take 64 } (beNat x.bits) q) >>= fun o =>
      pure (okElems [
        (eKEYBLOCK, sealBlock k1 { attr := elemD l eKEY_SPEC, bits := agreedBits l c o, opt := [] } (r.drop 64)),
        (eKCV, keyCheck (byteAt (elemD l eKEY_SPEC) 2) (agreedBits l c o) 5)])) w := by
  unfold pkEcdh
  refine .payCheck hfit (.get (.refuseIf ?_ (.need hzero (.need hspec (.handleTenants (mem_pair_tenants hten (tenant_of_serves hk))
    (.getKey hx (.need ?_ (.key hk (.need ?_ (.randomBytes hr (.needFn he (.curveOfKey hcw ?_))))))))))))
  · rw [Option.bind_eq_none_iff]
    intro d hd
    obtain ⟨y, hy, hyd⟩ := Option.bind_eq_some_iff.1 hd
    exact hpt y hy d hyd
  · rw [hkey, hcs]
    rfl
  · rw [hstrong]
    rfl
  · rw [hq]
    exact .here _

theorem pkRsaDecrypt_leads {x : KeyVal} {r : Bytes}
    (hfit : Fits s i [req eKEY_A, pkReq ePK_ALG, pkReq eHASH_ALG, pkReq eCIPHERTEXT, pkOpt eLABEL] [] anyElems l)
    (h5 : elemNat l ePK_ALG = 5) (h1 : 1 ≤ elemNat l eHASH_ALG) (h2 : elemNat l eHASH_ALG ≤ 2)
    (hlen : ∀ y, peekKey s (handleOf l eKEY_A) = some y → y.alg = chr 'R' →
      (elemD l eCIPHERTEXT).length = (rsaBits y.bits + 7) / 8)
    (hten : handleTenant (handleOf l eKEY_A) = i.tenant) (hx : resolveKey s (handleOf l eKEY_A) = (.ok x, u))
    (hkey : keyIs x (usage 'D' '1') 'R' 'D' = true) (hr : boomBytes u i.region 64 (some i.tenant) = (some r, v))
    (he : EngineTakes v i 0x10) (hmin : 2048 ≤ rsaBits x.bits) (hmax : rsaBits x.bits ≤ 8192) :
    Leads (pkRsaDecrypt i) s (engine i (rsaPriv { func := 0x10, seed := r } x.bits (field x.opt 0 32) false
      (beNat (elemD l eCIPHERTEXT))) >>= fun o =>
        match oaepDecode (elemNat l eHASH_ALG) (elemD l eLABEL) (beBytes ((rsaBits x.bits + 7) / 8) (o.out 3)) with
        | some m => do
          need (decide (m ≠ [])) stFORMAT
          pure (okElems [(ePLAINTEXT, m)])
        | none => throw stFORMAT) v := by
  unfold pkRsaDecrypt
  refine .payCheck hfit (.pkCodes (fun _ => by omega) (fun _ => by omega) (.get (.need (decide_eq_true ⟨h5, h2⟩) (.need ?_
    (.handleTenants (mem_single_tenant hten) (.getKey hx (.need hkey (.randomBytes hr (.needFn he
      (.need (decide_eq_true ⟨hmin, hmax⟩) (.here _)))))))))))
  cases hy : peekKey s (handleOf l eKEY_A) with
  | none => rfl
  | some y =>
    rw [Option.all_some, decide_eq_true_iff]
    by_cases hR : y.alg = chr 'R'
    · exact .inr (hlen y hy hR)
    · exact .inl hR

end

/-- R263 to R270. -/
theorem pkCommandsComplete : PkCommandsComplete := by
  intro s k i l x r u v
  refine ⟨fun hs hfit hd hten hx huse hmode halg hr => ?sign, fun hs hfit => ⟨?read, ?modulus⟩, ?ecdh, ?decrypt⟩
  case sign =>
    exact ⟨fun h2 he hmin hmax => endsBy_of_answers answers_pkSign hs
        (pkSign_leads_of_rsa hfit hd hten hx huse hmode halg hr h2 he hmin hmax) fun o h => exec_of_answers answers_pkSign hs h,
      fun c h3 he hc => endsBy_of_answers answers_pkSign hs (pkSign_leads_of_ecdsa hfit hd hten hx huse hmode halg hr h3 he hc)
        fun o h => exec_of_answers answers_pkSign hs h,
      fun h4 he => endsBy_of_answers answers_pkSign hs (pkSign_leads_of_eddsa hfit hd hten hx huse hmode halg hr h4 he)
        fun o h => exec_of_answers answers_pkSign hs h⟩
  case read =>
    exact fun es ha hh hten hx hv hes =>
      exec_of_answers answers_pkVerify hs (pkVerify_runs_of_read hfit ha hh hten hx hv hes)
  case modulus =>
    rintro n e ha hd hk hmod rfl rfl hlen hbits he3 heo hno h2 he
    have hl := pkVerify_leads_of_modulus hfit ha hd hk hmod hlen hbits he3 heo h2 he
    exact ⟨fun hg => exec_of_answers answers_pkVerify hs (hl.then (rsaCheck_runs_of_opens hno hg)),
      fun hg => exec_of_answers answers_pkVerify hs (hl.then (rsaCheck_runs_of_not_opens hno hg))⟩
  case ecdh =>
    intro k1 c q hs hfit a n hpt hzero hspec hk hten hx hkey hstrong w hr he hcs hcw hq
    exact endsBy_of_answers answers_pkEcdh hs (pkEcdh_leads hfit hpt hzero hspec hk hten hx hkey hstrong hr he hcs hcw hq)
      fun o h => exec_of_answers answers_pkEcdh hs h
  case decrypt =>
    intro hs hfit h5 h1 h2 hlen hten hx hkey hr he hmin hmax
    refine endsBy_of_answers answers_pkRsaDecrypt hs (pkRsaDecrypt_leads hfit h5 h1 h2 hlen hten hx hkey hr he hmin hmax) fun o h => ?_
    cases ho : oaepDecode (elemNat l eHASH_ALG) (elemD l eLABEL) (beBytes ((rsaBits x.bits + 7) / 8) (o.out 3)) with
    | none =>
      rw [ho] at h
      exact (answers_pkRsaDecrypt s k i hs).2 stFORMAT v h
    | some m =>
      rw [ho] at h
      by_cases hm : m = []
      · subst hm
        exact (answers_pkRsaDecrypt s k i hs).2 stFORMAT v h
      · dsimp only
        rw [if_neg hm]
        exact exec_of_answers answers_pkRsaDecrypt hs (h.then (.need (decide_eq_true hm) (.pure _)))

end Sys2Proof.Machine

/-! # Public-key commands that commit (R261, R262, R268, R269) -/

namespace Sys2Proof.Machine
open Sys2Proof.Claims

section
variable {s t u v w : State} {i : Item} {l : List Elem} {k : Nat} {r : Bytes}

/-! ## PK_KEYGEN -/

/-- What PK_KEYGEN does with the key that an engine function made. -/
def keepGenerated (i : Item) (l : List Elem) (o : EngOut) (pub : Bytes) (es : List Elem) : Cmd (Bytes × Bytes) := do
  let h ← actE fun s =>
    match placeGenerated s (elemNat l eKEY_CLASS) i.tenant (elemD l eKEY_SPEC) (elemNat l eCURVE_ID) (o.key.getD ([], [])).1
      (o.key.getD ([], [])).2 with
    | .ok (h, s) => (.ok h, s)
    | .error st => (.error st, quotaCounted s i.tenant st)
  pure (beBytes 4 h.toNat ++ (sha256 pub).take 4, handleElem h ++ (es.map fun e => elemBytes e.1 e.2).flatten)

/-- The generated key takes its place, or its claim is refused. -/
theorem exec_of_keepGenerated {o : EngOut} {pub : Bytes} {es : List Elem} (hs : Served s k 0x0804 i)
    (hl : Leads (pkKeygen i) s (keepGenerated i l o pub es) v) :
    exec (.pkKeygen k) s = .next (generated v i l (elemNat l eCURVE_ID) o pub es) := by
  unfold generated
  dsimp only
  cases hp : placeGenerated v (elemNat l eKEY_CLASS) i.tenant (elemD l eKEY_SPEC) (elemNat l eCURVE_ID) (o.key.getD ([], [])).1
      (o.key.getD ([], [])).2 with
  | ok p =>
    refine exec_of_commits commits_pkKeygen hs (hl.then (.bind (a := p.1) (.actE ?_) (.pure _)))
    rw [hp]
  | error st =>
    refine (commits_pkKeygen s k i hs).2 st _ (hl.trans (run_bind_error _ ?_))
    refine (run_bind (a := Except.error st) _ (.act ?_)).trans rfl
    rw [hp]

/-- The engine function of PK_KEYGEN. -/
def keygenFn (l : List Elem) : Nat := if hasElem l eRSA_BITS = true then 0x12 else if elemNat l eCURVE_ID = idED then 0x32 else 0x23

section
variable (hfit : Fits s i [req eKEY_SPEC, pkOpt eCURVE_ID, pkOpt eRSA_BITS, pkOpt ePUB_EXP, opt eKEY_CLASS] [] keygenPresent l)
  (hzero : slice (elemD l eKEY_SPEC) 5 3 = [0, 0, 0])
  (hplace : placeStatus s (elemNat l eKEY_CLASS) i.tenant (keygenLen s i.tenant l) = none)
  (htmk : (activeTmk s i.tenant).isSome = true) (hr : boomBytes s i.region 64 (some i.tenant) = (some r, v))
include hfit hzero hplace htmk hr

theorem pkKeygen_leads_of_rsa (hrsa : hasElem l eRSA_BITS = true) {bits e : Nat} (hbits : elemNat l eRSA_BITS = bits)
    (he : (if hasElem l ePUB_EXP then elemNat l ePUB_EXP else 65537) = e) (hmem : bits ∈ [2048, 3072, 4096, 6144, 8192])
    (hodd : e % 2 = 1) (hmin : 65536 < e) (hmax : e < 2 ^ 256) (hspec : genSpecOk 0x12 (elemD l eKEY_SPEC) = true)
    (ht : EngineTakes v i 0x12) :
    Leads (pkKeygen i) s (engine i (rsaKeygen { func := 0x12, seed := r } bits e) >>= fun o =>
      keepGenerated i l o (beBytes (bits / 8) (o.out 2)) [(eMODULUS, beBytes (bits / 8) (o.out 2)), (ePUB_EXP, minBytes e)]) v := by
  subst hbits he
  unfold pkKeygen
  refine .payCheck hfit (.get (.need (decide_eq_true hzero) ?_))
  simp only [hrsa, if_true]
  exact .need (decide_eq_true ⟨hmem, hodd, hmin, hmax⟩) (.refuseClaim hplace
    (.needTmk htmk (.need hspec (.randomBytes hr (.needFn ht (.here _))))))

theorem pkKeygen_leads_of_ed (hrsa : hasElem l eRSA_BITS = false) (hid : elemNat l eCURVE_ID = idED)
    (hname : curveNamed s i.tenant (elemNat l eCURVE_ID) = true) (hspec : genSpecOk 0x32 (elemD l eKEY_SPEC) = true)
    (ht : EngineTakes v i 0x32) :
    Leads (pkKeygen i) s (engine i (edKeygen { func := 0x32, seed := r }) >>= fun o =>
      keepGenerated i l o (beBytes 32 (o.out 3))
        [(ePOINT, beBytes 32 (o.out 3)), (eCURVE_ID, beBytes 2 (elemNat l eCURVE_ID))]) v := by
  unfold pkKeygen
  refine .payCheck hfit (.get (.need (decide_eq_true hzero) ?_))
  simp only [hrsa, Bool.false_eq_true, if_false, if_pos hid]
  exact .need hname (.refuseClaim hplace (.needTmk htmk (.need hspec (.randomBytes hr (.needFn ht (.here _))))))

theorem pkKeygen_leads_of_ec {c : Curve} (hrsa : hasElem l eRSA_BITS = false) (hid : elemNat l eCURVE_ID ≠ idED)
    (hname : curveNamed s i.tenant (elemNat l eCURVE_ID) = true) (hspec : genSpecOk 0x23 (elemD l eKEY_SPEC) = true)
    (ht : EngineTakes v i 0x23) (hc : curveFor s i.tenant (elemNat l eCURVE_ID) = some c) :
    Leads (pkKeygen i) s (engine i (ecKeygen c { func := 0x23, seed := r } (curveHash s i.tenant (elemNat l eCURVE_ID))) >>= fun o =>
      keepGenerated i l o (sec1Bytes c (o.out 3, o.out 4))
        [(ePOINT, sec1Bytes c (o.out 3, o.out 4)), (eCURVE_ID, beBytes 2 (elemNat l eCURVE_ID))]) v := by
  unfold pkKeygen
  refine .payCheck hfit (.get (.need (decide_eq_true hzero) ?_))
  simp only [hrsa, Bool.false_eq_true, if_false, if_neg hid, hc, Option.getD_some]
  exact .need hname (.refuseClaim hplace (.needTmk htmk (.need hspec (.randomBytes hr (.needFn ht (.here _))))))

end

/-! ## PK_CURVE_LOAD -/

section
variable (hfit : Fits s i [pkReq eCURVE_ID, pkReq eCURVE_PARAMS] [] anyElems l)
  (hlen : (elemD l eCURVE_PARAMS).length = 3 + 6 * (paramsEntry (elemD l eCURVE_PARAMS)).lf) (hmin : 0x100 ≤ elemNat l eCURVE_ID)
  (hmax : elemNat l eCURVE_ID ≤ 0x10F) (hok : paramsOk (paramsEntry (elemD l eCURVE_PARAMS)) = true)
include hfit hlen hmin hmax hok

theorem pkCurveLoad_runs_of_loaded {y : CurveEntry} (hy : oget s.curves (16 * i.tenant + (elemNat l eCURVE_ID - 0x100)) = some y)
    (hh : y.hash = (paramsEntry (elemD l eCURVE_PARAMS)).hash) :
    Runs (pkCurveLoad i) s (beBytes 2 (elemNat l eCURVE_ID) ++ zeros 6, elemBytes eCURVE_ID (beBytes 2 (elemNat l eCURVE_ID))) s := by
  unfold pkCurveLoad
  refine .payCheck hfit (.need (decide_eq_true hlen) (.need (by simp [hmin, hmax, hok]) (.get ?_)))
  dsimp only
  rw [hy]
  exact .need (decide_eq_true hh) (.pure _)

theorem pkCurveLoad_leads_of_free (hy : oget s.curves (16 * i.tenant + (elemNat l eCURVE_ID - 0x100)) = none)
    (hr : boomBytes s i.region 64 (some i.tenant) = (some r, v)) (ht : EngineTakes v i 0x25) :
    Leads (pkCurveLoad i) s
      (engine i (curveCheck (curveOfEntry (paramsEntry (elemD l eCURVE_PARAMS))) { func := 0x25, seed := r }) >>= fun _ => do
        modify fun s => putCurve s (16 * i.tenant + (elemNat l eCURVE_ID - 0x100)) (some (paramsEntry (elemD l eCURVE_PARAMS)))
        pure (beBytes 2 (elemNat l eCURVE_ID) ++ zeros 6, elemBytes eCURVE_ID (beBytes 2 (elemNat l eCURVE_ID)))) v := by
  unfold pkCurveLoad
  refine .payCheck hfit (.need (decide_eq_true hlen) (.need (by simp [hmin, hmax, hok]) (.get ?_)))
  dsimp only
  rw [hy]
  exact .randomBytes hr (.needFn ht (.here _))

end

end

/-- R261, R262, R268, R269. -/
theorem pkChangesComplete : PkChangesComplete := by
  intro s k i l r v
  refine ⟨?keygen, ?load⟩
  case keygen =>
    intro hs hfit a id bits e hzero hplace htmk hr
    exact ⟨fun hrsa hmem hodd hmin hmax hspec ht => endsBy_of_commits commits_pkKeygen hs
        (pkKeygen_leads_of_rsa hfit hzero hplace htmk hr hrsa rfl rfl hmem hodd hmin hmax hspec ht) fun o h => exec_of_keepGenerated hs h,
      fun hrsa hid hname hspec ht => endsBy_of_commits commits_pkKeygen hs
        (pkKeygen_leads_of_ed hfit hzero hplace htmk hr hrsa hid hname hspec ht) fun o h => exec_of_keepGenerated hs h,
      fun c hrsa hid hname hspec ht hc => endsBy_of_commits commits_pkKeygen hs
        (pkKeygen_leads_of_ec hfit hzero hplace htmk hr hrsa hid hname hspec ht hc) fun o h => exec_of_keepGenerated hs h⟩
  case load =>
    intro hs hfit id e key word answer hlen hmin hmax hok
    exact ⟨fun y hy hh => exec_of_commits commits_pkCurveLoad hs (pkCurveLoad_runs_of_loaded hfit hlen hmin hmax hok hy hh),
      fun hy hr ht => endsBy_of_commits commits_pkCurveLoad hs (pkCurveLoad_leads_of_free hfit hlen hmin hmax hok hy hr ht)
        fun o h => exec_of_commits commits_pkCurveLoad hs (h.then rfl)⟩

end Sys2Proof.Machine

/-! # The state-changing commands (R107, R391) -/

namespace Sys2Proof.Machine
open Sys2Proof.Claims

section
variable {s t : State} {i : Item} {k : Nat}

/-! SI_AUTHORISE ends as its run does, and waits where the run says so. -/

theorem exec_siAuthorise_of_runs {w p : Bytes} (hs : Served s k 0x0901 i) (hr : Runs (siAuthorise i) s (w, p) t) :
    exec (.siAuthorise k) s = .next (committed t i w p) := by
  obtain ⟨hi, hopen⟩ := hs
  have hrun : (siAuthorise i).run s = (.ok (w, p), t) := hr
  change execSiAuthorise k s = _
  rw [execSiAuthorise, hostRun_of_item _ hi hopen, hrun]
  rfl

theorem exec_siAuthorise_of_refused {st : Nat} (hs : Served s k 0x0901 i) (hr : (siAuthorise i).run s = (.error st, t))
    (hst : st ≠ siWaits) : exec (.siAuthorise k) s = .next (endItem t i st) := by
  obtain ⟨hi, hopen⟩ := hs
  change execSiAuthorise k s = _
  rw [execSiAuthorise, hostRun_of_item _ hi hopen, hr]
  dsimp only
  rw [if_neg hst]

theorem exec_siAuthorise_of_waits (hs : Served s k 0x0901 i) (hr : (siAuthorise i).run s = (.error siWaits, t)) :
    exec (.siAuthorise k) s = .next s := by
  obtain ⟨hi, hopen⟩ := hs
  change execSiAuthorise k s = _
  rw [execSiAuthorise, hostRun_of_item _ hi hopen, hr]
  dsimp only
  rw [if_pos rfl]

end

/-- Settles O39. -/
theorem stateChangingCommandsCommit : Obligations.StateChangingCommandsCommit :=
  ⟨commits_keyImport, commits_keyGenerate, commits_keyDelete, commits_dukptInit, commits_pkKeygen, commits_pkCurveLoad,
    fun _ _ _ hs => ⟨fun _ _ _ hr => exec_siAuthorise_of_runs hs hr, fun _ _ hr hst => exec_siAuthorise_of_refused hs hr hst,
      fun _ hr => exec_siAuthorise_of_waits hs hr⟩,
    commits_siJournalRelease, commits_siRulesLoad, commits_siCardUpdate, commits_devUnlock, keyChangesComplete, pkChangesComplete⟩

end Sys2Proof.Machine

/-! # Ledger and stand-in commands that complete (R160 to R174, R281 to R287) -/

namespace Sys2Proof.Machine
open Sys2Proof.Claims

theorem answers_siIssuerState : Answers (.siIssuerState ·) 0x0902 siIssuerState := answers_of_runCmd fun _ _ => rfl
theorem answers_siJournalRead : Answers (.siJournalRead ·) 0x0903 siJournalRead := answers_of_runCmd fun _ _ => rfl
theorem answers_siHeartbeat : Answers (.siHeartbeat ·) 0x0907 siHeartbeat := answers_of_runCmd fun _ _ => rfl

section
variable {β : Type} {s t u v : State} {i : Item} {l : List Elem} {k : Nat} {z : Cmd β} {x : KeyVal}

theorem Leads.modify {g : State → State} {f : PUnit → Cmd β} (hf : Leads (f ()) (g s) z t) : Leads (modify g >>= f) s z t := hf

/-! ## The ledger -/

/-- A ledger command runs on a part that fits the service, and nowhere else. -/
theorem exec_ldgCalc (hs : Served s k 0x0A01 i) : exec (.ldgCalc k) s = .next (ldgRunOn s i fun s i => runCmd s i (ldgCalc i)) :=
  hostRun_of_item (fun s i => ldgRunOn s i fun s i => runCmd s i (ldgCalc i)) hs.1 hs.2
theorem exec_ldgAccrue (hs : Served s k 0x0A02 i) : exec (.ldgAccrue k) s = .next (ldgRunOn s i fun s i => runCmd s i (ldgAccrue i)) :=
  hostRun_of_item (fun s i => ldgRunOn s i fun s i => runCmd s i (ldgAccrue i)) hs.1 hs.2
theorem exec_ldgPost (hs : Served s k 0x0A03 i) : exec (.ldgPost k) s = .next (ldgRunOn s i fun s i => runCommit s i (ldgPost i)) :=
  hostRun_of_item (fun s i => ldgRunOn s i fun s i => runCommit s i (ldgPost i)) hs.1 hs.2

theorem ldgRunOn_of_fitted {f : State → Item → State} (h : s.fuse.variant.ledger = true) : ldgRunOn s i f = f s i := if_pos h
theorem ldgRunOn_of_unfitted {f : State → Item → State} (h : s.fuse.variant.ledger = false) : ldgRunOn s i f = endItem s i stNOT_FITTED :=
  if_neg (by simp [h])

theorem runCmd_of_runs {m : Cmd Answer} {st : Nat} {p : Bytes} (h : Runs m s (st, p) t) : runCmd s i m = endItem t i st p := by
  rw [runCmd, show m.run s = _ from h]
  rfl

theorem runCommit_of_runs {m : Cmd (Bytes × Bytes)} {w p : Bytes} (h : Runs m s (w, p) t) : runCommit s i m = committed t i w p := by
  rw [runCommit, show m.run s = _ from h]
  rfl

section
variable (hk : Serves s i l eKEY_A [usage '5' '2'] ['A'] ['C', 'G'] x u) (hval : l.findSome? ldgValue = none)
include hk hval

section
variable (hfit : Fits s i [req eKEY_A, ldgReq eLOP, ldgOpt eDEC_A, ldgOpt eDEC_B, ldgOpt eLSCALE, ldgOpt eRES_LEN, opt eCTX] []
  calcPresent l)
include hfit

theorem ldgCalc_runs_of_value {n : Int} (hlop : elemNat l eLOP ≠ 7) (he : EngineTakes u i (lopFn (elemNat l eLOP)))
    (hr : ldgRun (lopFn (elemNat l eLOP)) (decInt (elemD l eDEC_A)) (decInt (elemD l eDEC_B)) (ctlFor l) = some n) :
    Runs (ldgCalc i) s (if elemNat l eLOP = 5
      then okElems [(eCMP_R, beBytes 1 n.toNat),
        (eLMAC, lmac x.bits i (elemNat l eLOP) (ctlFor l).round (ctlFor l).sr n.toNat (zeros 32) 0 0)]
      else okElems [(eDEC_R, decPack (resLen l) n),
        (eLMAC, lmac x.bits i (elemNat l eLOP) (ctlFor l).round (ctlFor l).sr 0 (decPack 32 n) 0 0)]) u := by
  unfold ldgCalc
  refine .payCheck hfit (.refuseIf hval (.handleTenants (mem_single_tenant (tenant_of_serves hk)) ?_))
  rw [if_neg hlop]
  refine .key hk (.needFn he ?_)
  dsimp only
  rw [hr]
  by_cases h5 : elemNat l eLOP = 5
  · simp only [if_pos h5]
    exact .pure _
  · simp only [if_neg h5]
    exact .pure _

theorem ldgCalc_runs_of_balance {c : Ctx} (hlop : elemNat l eLOP = 7) (hc : NamesCtx s i l eCTX 9 c) :
    Runs (ldgCalc i) s (okElems [(eDEC_R, slice (fitR 248 c.body) 0 32), (ePOST_SEQ, beBytes 8 (acctSeq c)),
      (eLMAC, lmac x.bits i 7 (acctRound c) (acctScale c) 0 (slice (fitR 248 c.body) 0 32) (handleOf l eCTX) (acctSeq c))]) u := by
  unfold ldgCalc
  refine .payCheck hfit (.refuseIf hval (.handleTenants (mem_single_tenant (tenant_of_serves hk)) ?_))
  rw [if_pos hlop]
  exact .getCtx hc (by decide) (.key hk (.pure _))

end

theorem ldgAccrue_runs {n : Int}
    (hfit : Fits s i [req eKEY_A, ldgReq eDEC_A, ldgReq eDEC_B, ldgReq eDAYS, ldgReq eBASIS, ldgReq eLSCALE, ldgOpt eRES_LEN] []
      anyElems l)
    (he : EngineTakes u i 0x46) (hr : ldgRun 0x46 (decInt (elemD l eDEC_A)) (decInt (elemD l eDEC_B)) (ctlFor l) = some n) :
    Runs (ldgAccrue i) s (okElems [(eDEC_R, decPack (resLen l) n),
      (eLMAC, lmac x.bits i 8 (ctlFor l).round (ctlFor l).sr 0 (decPack 32 n) 0 0)]) u := by
  unfold ldgAccrue
  refine .payCheck hfit (.refuseIf hval (.handleTenants (mem_single_tenant (tenant_of_serves hk)) (.key hk (.needFn he ?_))))
  dsimp only
  rw [hr]
  exact .pure _

section
variable (hfit : Fits s i [req eKEY_A, ldgReq eDEC_A, ldgReq eLSCALE, ldgOpt eRES_LEN, opt eCTX, opt eBIND_CTX, ldgOpt eFLOOR] []
  postPresent l)
include hfit

theorem ldgPost_runs_of_open {n : Int} {floor : Int} (hfloor : floor = if hasElem l eFLOOR then decInt (elemD l eFLOOR) else 0)
    (hb : hasElem l eBIND_CTX = true) (hc : ctxCreateStatus s (handleOf l eBIND_CTX) i.tenant (fun t => decide (t = 9)) = none)
    (he : EngineTakes u i 0x45) (hr : ldgRun 0x45 (decInt (elemD l eDEC_A)) 0 (ctlFor l) = some n) (hmin : floor ≤ n) :
    Runs (ldgPost i) s (postAnswer i l x.bits (handleOf l eBIND_CTX) (ctlFor l).sr (ctlFor l).round n 1)
      (ctxMake u (handleOf l eBIND_CTX) i.tenant (acctBody n (ctlFor l).sr (ctlFor l).round floor 1) 0) := by
  subst hfloor
  unfold ldgPost
  refine .payCheck hfit (.refuseIf hval (.handleTenants (mem_single_tenant (tenant_of_serves hk)) ?_))
  rw [if_pos hb]
  refine .get (.refuseIf hc (.key hk (.needFn he ?_)))
  dsimp only
  rw [hr]
  exact .need (decide_eq_true hmin) (.modify (.pure _))

theorem ldgPost_runs_of_post {n : Int} {c : Ctx} (hb : hasElem l eBIND_CTX = false) (hc : NamesCtx s i l eCTX 9 c)
    (hscale : lscale l 2 = acctScale c) (hround : lscale l 3 = acctRound c) (he : EngineTakes u i 0x40)
    (hr : ldgRun 0x40 (decInt (elemD l eDEC_A)) (acctBalance c) { ctlFor l with sb := acctScale c } = some n)
    (hmin : acctFloor c ≤ n) :
    Runs (ldgPost i) s
      (postAnswer i l x.bits (handleOf l eCTX) (acctScale c) (acctRound c) n ((acctSeq c + 1) % 2 ^ 64))
      (u.setCtx (ctxRegion (handleOf l eCTX)) (ctxIndex (handleOf l eCTX))
        (ctxPatch (u.ctxAt (ctxRegion (handleOf l eCTX)) (ctxIndex (handleOf l eCTX))) 0
          (acctBody n (acctScale c) (acctRound c) (acctFloor c) ((acctSeq c + 1) % 2 ^ 64)))) := by
  unfold ldgPost
  refine .payCheck hfit (.refuseIf hval (.handleTenants (mem_single_tenant (tenant_of_serves hk)) ?_))
  rw [if_neg (by simp [hb])]
  refine .getCtx hc (by decide) (.need (decide_eq_true ⟨hscale, hround⟩) (.key hk (.needFn he ?_)))
  rw [hr]
  exact .need (decide_eq_true hmin) (.modify (.pure _))

end

end

end

/-- R281 to R287. -/
theorem ledgerCommandsComplete : LedgerCommandsComplete := by
  intro s k i l x u n hl key a b ctl
  refine ⟨fun hs hval hk hfit => ⟨fun hlop he hr => ⟨fun h5 => ?compare, fun h5 => ?value⟩, fun c hlop hc => ?balance⟩,
    fun hs hval hk hfit he hr => ?accrue, fun hs hval hk hfit => ⟨fun hb hc he hr hmin => ?opened, fun c hb hc h2 h3 he hr hmin => ?post⟩⟩
  case compare =>
    have h := ldgCalc_runs_of_value hk hval hfit hlop he hr
    rw [if_pos h5] at h
    rw [exec_ldgCalc hs, ldgRunOn_of_fitted hl, runCmd_of_runs h]
    rfl
  case value =>
    have h := ldgCalc_runs_of_value hk hval hfit hlop he hr
    rw [if_neg h5] at h
    rw [exec_ldgCalc hs, ldgRunOn_of_fitted hl, runCmd_of_runs h]
    rfl
  case balance =>
    rw [exec_ldgCalc hs, ldgRunOn_of_fitted hl, runCmd_of_runs (ldgCalc_runs_of_balance hk hval hfit hlop hc)]
    rfl
  case accrue =>
    rw [exec_ldgAccrue hs, ldgRunOn_of_fitted hl, runCmd_of_runs (ldgAccrue_runs hk hval hfit he hr)]
    rfl
  case opened =>
    rw [exec_ldgPost hs, ldgRunOn_of_fitted hl, runCommit_of_runs (ldgPost_runs_of_open hk hval hfit rfl hb hc he hr hmin)]
    rfl
  case post =>
    rw [exec_ldgPost hs, ldgRunOn_of_fitted hl, runCommit_of_runs (ldgPost_runs_of_post hk hval hfit hb hc h2 h3 he hr hmin)]
    rfl

end Sys2Proof.Machine

/-! # Stand-in commands that complete (R160 to R167, R172 to R174) -/

namespace Sys2Proof.Machine
open Sys2Proof.Claims

section
variable {β : Type} {s t u v : State} {i : Item} {l : List Elem} {k n : Nat} {z : Cmd β} {x : KeyVal}

theorem Leads.siFitted {f : Unit → Cmd β} (h : s.fuse.variant.standIn = true) (hf : Leads (f ()) s z t) :
    Leads (siFitted >>= f) s z t := Leads.bind (a := ()) (u := s) (.get (.need_last h)) hf

theorem Leads.siTarget {f : Nat → Cmd β} (h : ForTenant s i l n) (hf : Leads (f n) s z t) : Leads (siTarget i l >>= f) s z t := by
  refine Leads.bind (a := n) (u := s) (.get ?_) hf
  rcases h with ⟨hx, rfl⟩ | ⟨hx, h0, rfl, ht⟩
  · rw [if_neg (by simp [hx])]
    exact .pure _
  · rw [if_pos hx]
    exact .need (decide_eq_true h0) (.refuseIf ht (.pure _))

section
variable (hfitted : s.fuse.variant.standIn = true)
include hfitted

/-! ## The issuer's state -/

section
variable (hfit : Fits s i [must 0x1101 (lenIs 1), may 0x1102 (lenIs 4), may 0x1103 (lenIs 2)] [] anyElems l)
  (hfor : ForTenant s i l n) (hp : elemNat l 0x1102 = 0 ∨ (10 ≤ elemNat l 0x1102 ∧ elemNat l 0x1102 ≤ 60000))
include hfit hfor hp

/-- The state after an issuer command: period and state as it asks for. -/
def issuerSet (s : State) (l : List Elem) (t : Nat) : State :=
  let u := if hasElem l 0x1102 ∧ elemNat l 0x1101 ≠ 0 then armHeartbeat (s.setSi t { s.siOf t with period := elemNat l 0x1102 }) t else s
  if elemNat l 0x1101 = 1 then setIssuer u t true 0 else if elemNat l 0x1101 = 2 then setIssuer u t false 1 else u

theorem siIssuerState_runs (hc : elemNat l 0x1101 ≤ 2) :
    Runs (siIssuerState i) s (issuerAnswer (issuerSet s l n) n) (issuerSet s l n) := by
  unfold siIssuerState
  exact .siFitted hfitted (.payCheck hfit (.need (decide_eq_true hc) (.need (by simpa using hp) (.siTarget hfor
    (.get (.set (.pure _)))))))

end

/-- The state after a heartbeat: the timer armed, and an issuer lost by heartbeat reachable again. -/
def heartbeatTaken (s : State) (t : Nat) : State :=
  let u := armHeartbeat s t
  if (u.siOf t).reachable = false ∧ (u.siOf t).cause = 2 then setIssuer u t true 0 else u

theorem siHeartbeat_runs (hfit : Fits s i [may 0x1103 (lenIs 2)] [] anyElems l) (hfor : ForTenant s i l n) :
    Runs (siHeartbeat i) s (issuerAnswer (heartbeatTaken s n) n) (heartbeatTaken s n) := by
  unfold siHeartbeat
  exact .siFitted hfitted (.payCheck hfit (.siTarget hfor (.get (.set (.pure _)))))

/-! ## The journal -/

theorem siJournalRead_runs (hfit : Fits s i [req eKEY_A, must 0x1108 (lenIs 8), must 0x110E (lenIs 2)] [] anyElems l)
    (h1 : 1 ≤ elemNat l 0x110E) (hmax : elemNat l 0x110E ≤ 128) (hk : Serves s i l eKEY_A [usage 'M' '6'] ['A'] ['C', 'G'] x u) :
    Runs (siJournalRead i) s
      (okElems [(0x110F, (((u.siOf i.tenant).journal.filter fun e => decide (elemNat l 0x1108 ≤ field e 0 8)).take
          (elemNat l 0x110E)).flatten),
        (0x1110, aesCmac x.bits (((u.siOf i.tenant).journal.filter fun e => decide (elemNat l 0x1108 ≤ field e 0 8)).take
          (elemNat l 0x110E)).flatten)]) u := by
  unfold siJournalRead
  exact .siFitted hfitted (.payCheck hfit (.need (decide_eq_true ⟨h1, hmax⟩) (.handleTenants (mem_single_tenant (tenant_of_serves hk))
    (.key hk (.get (.pure _))))))

theorem siJournalRelease_runs (hfit : Fits s i [must 0x1108 (lenIs 8)] [] anyElems l) :
    Runs (siJournalRelease i) s (elemD l 0x1108, [])
      (journalLay s i.tenant ((s.siOf i.tenant).journal.filter fun e => decide (elemNat l 0x1108 < field e 0 8))) := by
  unfold siJournalRelease
  exact .siFitted hfitted (.payCheck hfit (.get (.set (.pure _))))

/-! ## Rule sets and key zones -/

section
variable (hfit : Fits s i [may 0x1109 (lenIs 2), may 0x110A (lenIs 64), may 0x110B (lenIs 1), may 0x110C (lenIs 8)] [] rulesPresent l)
include hfit

theorem siRulesLoad_runs_of_rules (hr : hasElem l 0x1109 = true) (hn : elemNat l 0x1109 < 1024) (hok : rulesOk (elemD l 0x110A) = true) :
    Runs (siRulesLoad i) s (beBytes 2 (elemNat l 0x1109) ++ zeros 6, [])
      { s with rules := oset s.rules (1024 * i.tenant + elemNat l 0x1109) (some (elemD l 0x110A)) } := by
  unfold siRulesLoad
  refine .siFitted hfitted (.payCheck hfit ?_)
  rw [if_pos hr]
  exact .need (by simp [hn, hok]) (.get (.set (.pure _)))

theorem siRulesLoad_runs_of_zone (hr : hasElem l 0x1109 = false) (hz : zoneCodes (elemD l 0x110C) = true)
    (hten : handleTenant (BitVec.ofNat 32 (field (elemD l 0x110C) 0 4)) = i.tenant)
    (hk : resolveKey s (BitVec.ofNat 32 (field (elemD l 0x110C) 0 4)) = (.ok x, u))
    (hkf : keyFits x [usage 'E' '0'] ['T', 'A'] ['X'] = true) (hb : x.bound = 0)
    (haes : x.alg = chr 'A' → byteAt (elemD l 0x110C) 4 = 2 ∧ byteAt (elemD l 0x110C) 5 = 0) :
    Runs (siRulesLoad i) s (beBytes 2 (elemNat l 0x110B) ++ [1] ++ zeros 5, [])
      { u with zones := oset u.zones (256 * i.tenant + elemNat l 0x110B) (some (elemD l 0x110C)) } := by
  unfold siRulesLoad
  refine .siFitted hfitted (.payCheck hfit ?_)
  rw [if_neg (by simp [hr])]
  refine .need hz (.need (decide_eq_true hten) (.bind (a := x) (u := u) (.getKeyFor hk hkf (.need ?_ (.need ?_ (.pure x))))
    (.get (.set (.pure _)))))
  · by_cases ha : x.alg = chr 'A'
    · simp [hb, (haes ha).1]
    · simp [hb, ha]
  · by_cases ha : x.alg = chr 'A'
    · simp [(haes ha).2]
    · simp [ha]

end

/-! ## Card records -/

section
variable (hfit : Fits s i [opt eCTX, opt eBIND_CTX, opt ePAN, opt ePSN, may 0x110D (lenIs 8)] [] cardPresent l)
  (hcodes : hasElem l 0x110D = true → cardCodes (elemD l 0x110D) = true)
include hfit hcodes

theorem siCardUpdate_runs_of_create (hb : hasElem l eBIND_CTX = true)
    (hc : ctxCreateStatus s (handleOf l eBIND_CTX) i.tenant (fun t => decide (t = 8)) = none) :
    Runs (siCardUpdate i) s (beBytes 4 (handleOf l eBIND_CTX).toNat ++ zeros 4, [])
      (ctxMake s (handleOf l eBIND_CTX) i.tenant
        (if hasElem l 0x110D then cardApply (fitR 248 (panBcd (elemD l ePAN) ++ elemD l ePSN)) (elemD l 0x110D)
         else fitR 248 (panBcd (elemD l ePAN) ++ elemD l ePSN)) 0) := by
  unfold siCardUpdate
  refine .siFitted hfitted (.payCheck hfit (.need ?_ ?_))
  · cases hx : hasElem l 0x110D with
    | true => exact hcodes hx
    | false => rfl
  · rw [if_pos hb]
    exact .get (.refuseClaim hc (.set (.pure _)))

theorem siCardUpdate_runs_of_change {c : Ctx} (hb : hasElem l eBIND_CTX = false) (hc : NamesCtx s i l eCTX 8 c)
    (hm : cardMatches c.body l = true) :
    Runs (siCardUpdate i) s (beBytes 4 (handleOf l eCTX).toNat ++ zeros 4, [])
      (s.setCtx (ctxRegion (handleOf l eCTX)) (ctxIndex (handleOf l eCTX))
        (ctxPatch c 0 (cardApply (fitR 248 c.body) (elemD l 0x110D)))) := by
  unfold siCardUpdate
  refine .siFitted hfitted (.payCheck hfit (.need ?_ ?_))
  · cases hx : hasElem l 0x110D with
    | true => exact hcodes hx
    | false => rfl
  · rw [if_neg (by simp [hb])]
    exact .getCtx hc (by decide) (.need hm (.get (.set (.pure _))))

end

end

end

end Sys2Proof.Machine

/-! # SI_AUTHORISE (R168 to R173) -/

namespace Sys2Proof.Machine
open Sys2Proof.Claims

theorem or_of_imp {a b : Bool} (h : a = true → b = true) : (! a || b) = true := by
  cases a with
  | true => exact h rfl
  | false => rfl

theorem owner_submits {a b c : Nat} {p : Bool} (h : a = b ∨ (c = 0 ∧ p = true)) : (decide (a = b) || (decide (c = 0) && p)) = true := by
  simpa using h

section
variable {β : Type} {s t u v : State} {i : Item} {l : List Elem} {k n : Nat} {z : Cmd β}

/-- The other branch of a link's condition. -/
theorem Leads.of_not {c : Prop} [Decidable c] {a b : Cmd β} (h : ¬ c) (hf : Leads b s z t) : Leads (if c then a else b) s z t := by
  rw [if_neg h]
  exact hf

/-- The card record that a request names, if any, is of the tenant and of the card that comes. -/
def CardNamed (u : State) (i : Item) (l : List Elem) (card : Option Ctx) : Prop :=
  if hasElem l eCTX then ∃ c, card = some c ∧ NamesCtx u i l eCTX 8 c ∧ cardMatches c.body l = true else card = none

theorem Leads.cardNamed {card : Option Ctx} {f : Option Ctx → Cmd β} (h : CardNamed s i l card) (hf : Leads (f card) s z t) :
    Leads (if hasElem l eCTX = true then (do
        let c ← Machine.getCtx i (handleOf l eCTX) (fun x => decide (x = 8))
        Machine.need (cardMatches c.body l) stOPERAND_RANGE
        Pure.pure (some c)) >>= f
      else Pure.pure none >>= f) s z t := by
  unfold CardNamed at h
  split at h
  next hx =>
    obtain ⟨c, rfl, hc, hm⟩ := h
    rw [if_pos hx]
    exact .bind (a := some c) (.getCtx hc (by decide) (.need hm (.pure _))) hf
  next hx =>
    subst h
    rw [if_neg hx]
    exact .bind (.pure none) hf

/-- What a decision without an ARQC looks at. -/
def decidingOf (u : State) (l : List Elem) (t : Nat) (route : Option Word) (card : Option Ctx) : Deciding :=
  let rules := route.bind fun _ => ruleSet u t ((route.map fun w => w.toNat / 2 ^ 12 % 1024).getD 0)
  { route := route, rules := rules, arqc := false, good := false, atc := elemNat l eATC
    amount := elemNat l 0x1104, currency := elemD l 0x1105
    card := card.map fun c => match rules with
      | some x => winsAdvance x (fitR 248 c.body) (u.time.ns / 1000000000)
      | none => fitR 248 c.body }

/-- The state that a decision is journalled in: the bound reserved, and the card record as the decision leaves it. -/
def cardSettled (u : State) (l : List Elem) (t : Nat) (d : Deciding) (card : Option Ctx) : State :=
  let s := jseqReserve u t
  match card, d.card with
  | some c, some b =>
    let b := match d.rules with
      | some r => if decide (reasonOf d = 0) = true then cardApprove r b (u.time.ns / 1000000000) d s.fresh else b
      | none => b
    s.setCtx (ctxRegion (handleOf l eCTX)) (ctxIndex (handleOf l eCTX)) (ctxPatch c 0 b)
  | _, _ => s

/-- The answer of a decision: its code and its JSEQ, and the approval code of one that approves (R168, R171). -/
def standInAnswer (reason j : Nat) : Bytes × Bytes :=
  let ok := decide (reason = 0)
  let decision := (if ok then 0x0100 else 0x0200) + reason
  (beBytes 2 decision ++ beBytes 6 (j % 2 ^ 48), elemBytes 0x1106 (beBytes 2 decision) ++
    (if ok then elemBytes 0x1107 (if ok then digitBytes (strRadix 6 (j % 1000000)) else zeros 6) else []) ++
    elemBytes 0x1108 (beBytes 8 j) ++ [])

section
variable {route : Option Word} {card : Option Ctx}
  (hfitted : s.fuse.variant.standIn = true)
  (hfit : Fits s i [req ePAN, must 0x1104 (lenIs 8), must 0x1105 (lenIs 2), opt eCTX, opt ePSN, opt eATC, opt eTXN_DATA, opt eARQC] []
    arqcPresent l)
  (hfound : triRoute s (panOf l) = (.ok route, u)) (ht : n = (route.map fun w => w.toNat / 2 ^ 22).getD i.tenant)
  (hten : n = i.tenant ∨ (i.tenant = 0 ∧ (u.tenant n).siOwnerSubmit = true))
  (hroom : (u.siOf n).journal.length < 1024 * (u.tenant n).jrnQuota) (hq : hasElem l eARQC = false)
  (hcard : CardNamed u { i with tenant := n } l card)
include hfitted hfit hfound ht hten hroom hq hcard

/-- The issuer of a card that it can reach decides itself. -/
theorem siAuthorise_runs_of_referred (hr : route.isSome = true) (hreach : (u.siOf n).reachable = true) :
    Runs (siAuthorise i) s (beBytes 2 0x0300 ++ zeros 6, elemBytes 0x1106 (beBytes 2 0x0300)) u := by
  obtain ⟨w, rfl⟩ := Option.isSome_iff_exists.1 hr
  subst ht
  unfold siAuthorise
  refine .siFitted hfitted (.payCheck hfit (.bind (.act hfound) (.get (.need (owner_submits hten) (.cardNamed hcard
    (.refuseClaim (if_pos hroom) ?_))))))
  rw [if_neg (by simp [hq])]
  refine .bind (.pure none) (.get ?_)
  rw [if_pos ⟨rfl, hreach⟩]
  exact .pure _

/-- The device decides: the next JSEQ is taken, and the answer carries the decision. -/
theorem siAuthorise_runs_of_decided (hstands : ¬ (route.isSome = true ∧ (u.siOf n).reachable = true))
    (hready : jseqLow u n = true → ctrReady u (jseqCtr n) = true) (hlease : leaseAllows u (leaseJseq n) (jseqNext u n) = true) :
    ∃ e, Runs (siAuthorise i) s (standInAnswer (reasonOf (decidingOf u l n route card)) (jseqNext u n))
      (jseqLeaseTop (journalPut (cardSettled u l n (decidingOf u l n route card) card) n (jseqNext u n + 1) e).takeFresh n
        (jseqNext u n + 1)) := by
  subst ht
  unfold siAuthorise
  rcases route with _ | w
  all_goals
    apply Exists.intro
    refine .siFitted hfitted (.payCheck hfit (.bind (.act hfound) (.get (.need (owner_submits hten) (.cardNamed hcard
      (.refuseClaim (if_pos hroom) ?_))))))
    rw [if_neg (by simp [hq])]
    refine .bind (.pure none) (.get (.of_not hstands (.need (or_of_imp hready) (.need hlease ?_))))
    rw [hq]
    exact .set (.pure _)

end

end

end Sys2Proof.Machine

/-! # The stand-in commands together (R160 to R174) -/

namespace Sys2Proof.Machine
open Sys2Proof.Claims

section
variable {s u : State} {l : List Elem} {n j : Nat} {d : Deciding} {card : Option Ctx}

theorem State.siOf_setSi {v : SiTenant} (h : v ≠ SiTenant.start) : (s.setSi n v).siOf n = v :=
  mget_mset_of_ne (fun _ => SiTenant.start) s.si n v h

theorem jseqReserve_si : (jseqReserve s n).si = s.si := by
  unfold jseqReserve
  split
  · rfl
  · rfl

theorem jseqLeaseTop_si : (jseqLeaseTop s n j).si = s.si := by
  unfold jseqLeaseTop leaseTop
  split
  · split
    · split
      · rfl
      · rfl
    · rfl
  · rfl

theorem State.setCtx_si {r i : Nat} {c : Ctx} : (s.setCtx r i c).si = s.si := rfl

theorem cardSettled_si : (cardSettled u l n d card).si = u.si := by
  unfold cardSettled
  dsimp only
  split
  · rw [State.setCtx_si, jseqReserve_si]
  · rw [jseqReserve_si]

/-- A journal entry put moves the tenant's next number and lengthens its journal by one. -/
theorem journalPut_siOf {e : Bytes} : ((journalPut s n j e).siOf n).next = j ∧
    ((journalPut s n j e).siOf n).journal.length = (s.siOf n).journal.length + 1 := by
  have h : (journalPut s n j e).siOf n = { s.siOf n with next := j, journal := (s.siOf n).journal ++ [e] } :=
    State.siOf_setSi fun h => absurd (congrArg SiTenant.journal h) (List.append_ne_nil_of_right_ne_nil _ (List.cons_ne_nil _ _))
  rw [h]
  exact ⟨rfl, List.length_append⟩

theorem State.siOf_congr {v : State} (h : v.si = s.si) : v.siOf n = s.siOf n := congrArg (mget (fun _ => SiTenant.start) · n) h

/-- The state after a decision: one more journal entry, under the number taken. -/
theorem decided_siOf {e : Bytes} {v : State} (hv : v.si = u.si) :
    ((jseqLeaseTop (journalPut v n j e).takeFresh n j).siOf n).next = j ∧
      ((jseqLeaseTop (journalPut v n j e).takeFresh n j).siOf n).journal.length = (u.siOf n).journal.length + 1 := by
  have hj : (jseqLeaseTop (journalPut v n j e).takeFresh n j).si = (journalPut v n j e).si := jseqLeaseTop_si
  rw [State.siOf_congr hj, ← State.siOf_congr hv]
  exact journalPut_siOf

end

theorem standInAnswer_approved {j : Nat} : standInAnswer 0 j = (beBytes 2 0x0100 ++ beBytes 6 (j % 2 ^ 48),
    elemBytes 0x1106 (beBytes 2 0x0100) ++ elemBytes 0x1107 (digitBytes (strRadix 6 (j % 1000000))) ++ elemBytes 0x1108 (beBytes 8 j)) := by
  unfold standInAnswer
  dsimp only
  rw [List.append_nil]
  rfl

theorem standInAnswer_declined {reason j : Nat} (h : reason ≠ 0) :
    standInAnswer reason j = (beBytes 2 (0x0200 + reason) ++ beBytes 6 (j % 2 ^ 48),
      elemBytes 0x1106 (beBytes 2 (0x0200 + reason)) ++ elemBytes 0x1108 (beBytes 8 j)) := by
  unfold standInAnswer
  simp [h]

/-- R160 to R174. -/
theorem standInCommandsComplete : StandInCommandsComplete := by
  intro s k i l hfitted
  refine ⟨fun t hs hfit hfor hp => ?issuer, fun t hs hfit hfor => exec_of_answers answers_siHeartbeat hs (siHeartbeat_runs hfitted hfit hfor),
    fun x u hs hfit h1 hmax hk => exec_of_answers answers_siJournalRead hs (siJournalRead_runs hfitted hfit h1 hmax hk),
    fun hs hfit => exec_of_commits commits_siJournalRelease hs (siJournalRelease_runs hfitted hfit),
    fun hs hfit => ⟨fun hr hn hok => exec_of_commits commits_siRulesLoad hs (siRulesLoad_runs_of_rules hfitted hfit hr hn hok),
      fun x u hr hz hten hk hkf hb haes =>
        exec_of_commits commits_siRulesLoad hs (siRulesLoad_runs_of_zone hfitted hfit hr hz hten hk hkf hb haes)⟩,
    fun hs hfit hcodes => ⟨fun hb hc => exec_of_commits commits_siCardUpdate hs (siCardUpdate_runs_of_create hfitted hfit hcodes hb hc),
      fun x hb hc hm => exec_of_commits commits_siCardUpdate hs (siCardUpdate_runs_of_change hfitted hfit hcodes hb hc hm)⟩,
    fun t hs hfit => ?authorise⟩
  case issuer =>
    have run := fun hc : elemNat l 0x1101 ≤ 2 =>
      exec_of_answers answers_siIssuerState hs (siIssuerState_runs hfitted hfit hfor hp hc)
    refine ⟨fun h0 => ?query, fun h1 => ?reach, fun h2 => ?lose⟩
    case query =>
      have h := run (by omega)
      rw [issuerSet, if_neg (by omega), if_neg (by omega), if_neg (by omega)] at h
      exact h
    case reach =>
      have h := run (by omega)
      rw [issuerSet, if_pos h1] at h
      simp only [h1, ne_eq, one_ne_zero, not_false_eq_true, and_true] at h
      exact h
    case lose =>
      have h := run (by omega)
      rw [issuerSet, if_neg (by omega), if_pos h2] at h
      simp only [h2, ne_eq, OfNat.ofNat_ne_zero, not_false_eq_true, and_true] at h
      exact h
  case authorise =>
    intro f u route hfault ht hten hroom hq card hcard
    have hfound : triRoute s (panOf l) = (.ok route, u) := by
      unfold triRoute
      dsimp only
      rw [hfault]
    refine ⟨fun hr hreach => exec_siAuthorise_of_runs hs
      (siAuthorise_runs_of_referred hfitted hfit hfound ht hten hroom hq hcard hr hreach), fun hstands hready hlease => ?decided⟩
    case decided =>
      intro rs rules d j
      have hnot : ¬ (route.isSome = true ∧ (u.siOf t).reachable = true) := by
        rintro ⟨hr, hreach⟩
        rcases hstands with h | h
        · rw [Option.isNone_iff_eq_none.1 h] at hr
          exact absurd hr nofun
        · rw [h] at hreach
          exact absurd hreach nofun
      obtain ⟨e, hrun⟩ := siAuthorise_runs_of_decided hfitted hfit hfound ht hten hroom hq hcard hnot hready hlease
      obtain ⟨hnext, hlen⟩ := decided_siOf (e := e) (n := t) (j := j + 1) (cardSettled_si (u := u) (l := l) (n := t) (d := d) (card := card))
      refine ⟨_, hnext, hlen, fun h0 => ?approved, fun h0 => ?declined⟩
      case approved =>
        rw [show reasonOf (decidingOf u l t route card) = 0 from h0, standInAnswer_approved] at hrun
        exact exec_siAuthorise_of_runs hs hrun
      case declined =>
        rw [standInAnswer_declined (show reasonOf (decidingOf u l t route card) ≠ 0 from h0)] at hrun
        exact exec_siAuthorise_of_runs hs hrun

end Sys2Proof.Machine

/-! # Device commands that complete (R211, R417, R419) -/

namespace Sys2Proof.Machine
open Sys2Proof.Claims

theorem answers_devAttest : Answers (.devAttest ·) 0x0F01 devAttest := answers_of_runCmd fun _ _ => rfl
theorem answers_devStatus : Answers (.devStatus ·) 0x0F02 devStatus := answers_of_runCmd fun _ _ => rfl

theorem postEvent_devLocked (s : State) (p : PageId) (code : Nat) (p0 p1 p2 p3 : Word) :
    (postEvent s p code p0 p1 p2 p3).devLocked = s.devLocked :=
  (OnlyLinks.postEvent s p code p0 p1 p2 p3).proj State.devLocked fun _ _ _ _ => rfl

theorem bufferEntry_devLocked (s : State) (e : Bytes) : (bufferEntry s e).devLocked = s.devLocked := by
  unfold bufferEntry
  split
  · rfl
  · rfl

section
variable {s t u : State} {i : Item} {l : List Elem} {k n : Nat} {r : Bytes}

theorem devAttest_runs (hl : elemsOf [must 0x1202 (lenIs 32), may 0x1103 (lenIs 2)] i = .ok l)
    (hn : n = if hasElem l 0x1103 then elemNat l 0x1103 else i.tenant) (h0 : hasElem l 0x1103 = true → i.tenant = 0)
    (ht : targetTenant s i.tenant n = none) (hr : boomBytes s i.region 48 (some i.tenant) = (some r, t)) :
    Runs (devAttest i) s (okElems [(0x1203, attestBody t n (elemD l 0x1202) ++
        ecdsaBytes curveP384 (identPriv t) (scalarOf curveP384 r) (sha384 (attestBody t n (elemD l 0x1202)))),
      (0x0108, t.fuse.cert)]) t := by
  subst hn
  unfold devAttest
  exact .orStatus hl (.get (.need (or_of_imp fun h => decide_eq_true (h0 h)) (.refuseIf ht (.randomBytes hr (.get (.pure _))))))

theorem devStatus_runs (hl : elemsOf [] i = .ok l) : ∃ e, Runs (devStatus i) s (okElems [(0x1504, tamperState s), e]) s.takeFresh := by
  unfold devStatus
  exact ⟨_, .orStatus hl (.get (.set (.pure _)))⟩

/-! ## DEV_UNLOCK -/

/-- The random bytes that an unlock needs where the root is not valid. -/
def UnlockDraws (s : State) (b : Option Bytes) (u : State) : Prop :=
  (rootValid s = true ∧ b = none ∧ u = s) ∨ (rootValid s = false ∧ ∃ r, b = some r ∧ vaultRandom s 192 = (some r, u))

theorem Leads.unlockDraws {β : Type} {z : Cmd β} {b : Option Bytes} {f : Option Bytes → Cmd β} (hb : UnlockDraws s b u)
    (hf : Leads (f b) u z t) :
    Leads (if rootValid s = true then Pure.pure none >>= f
      else (do
        let r ← Machine.act fun s => vaultRandom s 192
        match r with
        | some b => Pure.pure (some b)
        | none => throw stRNG_UNAVAILABLE) >>= f) s z t := by
  rcases hb with ⟨hv, rfl, rfl⟩ | ⟨hv, r, rfl, hr⟩
  · rw [if_pos hv]
    exact .bind (.pure none) hf
  · rw [if_neg (by simp [hv])]
    exact .bind (.bind (.act hr) (.pure (some r))) hf

/-- The state `u` unlocked, and the unlock logged and recorded. -/
def unlocked (u : State) : State :=
  let s := { u with devLocked := false, tmp := { u.tmp with erased := false }
                    shut := u.shut && ! (u.chipFault.isNone && u.tmp.core && u.tmp.io && u.tmp.window.isNone) }
  let s := bufferEntry s (logEntry s 0x80 0)
  postEvent s .tmp 0x9080 0 (BitVec.ofNat 32 (nextEntry s - 1))

theorem unlocked_devLocked : (unlocked u).devLocked = false := by
  unfold unlocked
  dsimp only
  rw [postEvent_devLocked, bufferEntry_devLocked]

theorem devUnlock_runs {b : Option Bytes} (hten : i.tenant = 0 ∨ i.port = 0x80) (hl : elemsOf unlockDefs i = .ok l)
    (h8 : ((l.filter fun e => e.1 = 0x1503).map fun e => (byteAt e.2 0, e.2.drop 1)).length ≤ 8) (hlock : s.devLocked = true)
    (hlog : logFull s = false) (hctr : elemNat l 0x1501 = ctrValue s lockCtr) (hhead : elemD l 0x1502 = logHead s)
    (hok : custodiansOk s 0 ((l.filter fun e => e.1 = 0x1503).map fun e => (byteAt e.2 0, e.2.drop 1)) (unlockDigest s) = true)
    (h2 : 2 ≤ ((l.filter fun e => e.1 = 0x1503).map fun e => (byteAt e.2 0, e.2.drop 1)).length)
    (hcond : conditionHolds s = false) (hb : UnlockDraws s b u) :
    ∃ w, Runs (devUnlock i) s (beBytes 8 (ctrValue s lockCtr), elemBytes 0x1504 (tamperState (unlocked w))) (unlocked w) := by
  unfold devUnlock
  apply Exists.intro
  exact .need (decide_eq_true hten) (.orStatus hl (.need (decide_eq_true h8) (.get (.need hlock (.need (by simp [hlog])
    (.need (decide_eq_true ⟨hctr, hhead⟩) (.need hok (.need (decide_eq_true h2) (.need (by simp [hcond])
    (.unlockDraws hb (.get (.set (.get (.pure _))))))))))))))

end

/-- R211, R417, R419. -/
theorem deviceCommandsComplete : DeviceCommandsComplete := by
  intro s k i l
  refine ⟨fun r t hs hl => ?attest, fun hs hl => ?status, ?unlock⟩
  case attest =>
    intro n h0 ht hr b
    exact exec_of_answers answers_devAttest hs (devAttest_runs hl rfl h0 ht hr)
  case status =>
    obtain ⟨e, hr⟩ := devStatus_runs (s := s) hl
    exact ⟨e, exec_of_answers answers_devStatus hs hr⟩
  case unlock =>
    intro cs hs hl hten hlock hlog hctr hhead h2 h8 hok hcond hrand
    obtain ⟨b, u, hb⟩ : ∃ b u, UnlockDraws s b u := by
      cases hv : rootValid s with
      | true => exact ⟨none, s, .inl ⟨hv, rfl, rfl⟩⟩
      | false =>
        rcases hrand with h | ⟨b, u, h⟩
        · exact Bool.noConfusion (hv.symm.trans h)
        · exact ⟨some b, u, .inr ⟨hv, b, rfl, h⟩⟩
    obtain ⟨w, hr⟩ := devUnlock_runs hten hl h8 hlock hlog hctr hhead hok h2 hcond hb
    exact ⟨_, unlocked_devLocked, exec_of_commits commits_devUnlock hs hr⟩

/-- Settles O38. -/
theorem serviceCommandsAnswerTheirItem : Obligations.ServiceCommandsAnswerTheirItem := by
  refine ⟨answers_pkSign, answers_pkVerify, answers_pkEcdh, answers_pkRsaDecrypt, answers_siIssuerState, answers_siJournalRead,
    answers_siHeartbeat, answers_devAttest, answers_devStatus, fun s k i hs => ⟨fun h => ?calcAbsent, fun h => ?calcFitted⟩,
    fun s k i hs => ⟨fun h => ?accrue, fun h => ?accrueFitted⟩, fun s k i hs => ⟨fun h => ?post, fun h => ?postFitted⟩,
    pkCommandsComplete, standInCommandsComplete, ledgerCommandsComplete, deviceCommandsComplete⟩
  case calcAbsent => rw [exec_ldgCalc hs, ldgRunOn_of_unfitted h]
  case calcFitted => rw [exec_ldgCalc hs, ldgRunOn_of_fitted h]
  case accrue => rw [exec_ldgAccrue hs, ldgRunOn_of_unfitted h]
  case accrueFitted => rw [exec_ldgAccrue hs, ldgRunOn_of_fitted h]
  case post => rw [exec_ldgPost hs, ldgRunOn_of_unfitted h]
  case postFitted => rw [exec_ldgPost hs, ldgRunOn_of_fitted h]

end Sys2Proof.Machine

/-! # The tag check (R92): an item that is not filed under its stamp

The dispatcher finds the item of its core by the name the core holds, and the finished job's item by the stamp; the statement
looks at the first alone. -/

namespace Sys2Proof.Machine
open Sys2Proof.Claims

/-- An item of port 0 whose tag is still to be verified; its stamp is 2. -/
def misfiledItem : Item := { Item.blank with stamp := 2, port := 0, verified := false }

/-- The decrypt job of that item, for core 0. -/
def misfiledJob : Job where
  unit := .cipher
  core := 0
  slot := noSlot
  item := 2
  tenant := 0
  seg := 0
  desc := []
  key := none
  alg := 0
  parentGen := 0
  resv := false
  words := []

/-- Core 0 RUNNING with the item, filed under 1, and its decrypt job on cipher lane 0. -/
def misfiled : State :=
  { (State.reset.setFld (.kcr 0 0) STAT_STATE stRunning).setLane (.cph 0 0) { LaneSt.empty with cur := some misfiledJob } with
    items := [(1, some misfiledItem)]
    cores := [(0, { Core.empty with run := some 1 })] }

theorem coreRuns_misfiled : coreRuns misfiled 0 = true := by decide +kernel

theorem item_misfiled : (misfiled.core 0).run.bind misfiled.item = some misfiledItem := by decide +kernel

theorem decryptLane_misfiled : decryptLane misfiled 0 misfiledItem = some (.cph 0 0, misfiledJob) := by decide +kernel

theorem unarmed_misfiled : Unarmed misfiled (.cph 0 0) := by
  unfold Unarmed
  decide +kernel

theorem verifyItem_misfiled : verifyItem misfiled misfiledItem = none := rfl

/-- Frames dropped at classifier 0 for their tag, in the state that a step leaves. -/
def authDrops (r : Res) : Nat :=
  match r with
  | .next t => t.fld (.cls 0) CLS_DROP_AUTH
  | _ => 0

/-- Under its stamp the item is not found, and nothing is dropped. -/
theorem authDrops_tagVerifyDone_misfiled : authDrops (exec (.tagVerifyDone 0) misfiled) = 0 := by decide +kernel

/-- The state that the statement asks for: the job ended, the frame dropped and counted. -/
def misfiledDropped : State :=
  dropItem (countAuth (endJob misfiled (.cph 0 0) 0 misfiledJob stVERIFY_FAIL (gcmBlocks 0) 0 [] 0x07 0x08) 0 0) misfiledItem

theorem authDrops_misfiledDropped : authDrops (.next misfiledDropped) = 1 := by decide +kernel

/-- Refutes O43: a decrypt job ends and its frame does not verify, but the item that the core holds is filed under another name
than its stamp; the dispatcher does not find it there, and drops nothing. -/
theorem not_sessionCommandsOpenAndCloseSessions : ¬ Obligations.SessionCommandsOpenAndCloseSessions := by
  unfold Obligations.SessionCommandsOpenAndCloseSessions
  intro h
  obtain ⟨hcheck, -⟩ := h misfiled 0 misfiledItem
  obtain ⟨-, hlane⟩ := hcheck misfiledItem coreRuns_misfiled item_misfiled (by decide)
  obtain ⟨hdrop, -⟩ := hlane (.cph 0 0) misfiledJob decryptLane_misfiled unarmed_misfiled
  have hdropped : exec (.tagVerifyDone 0) misfiled = .next misfiledDropped := hdrop verifyItem_misfiled
  have hcount := authDrops_tagVerifyDone_misfiled
  rw [hdropped, authDrops_misfiledDropped] at hcount
  exact absurd hcount (by decide)

end Sys2Proof.Machine
